-- ==== Sys2Proof/Word.lean ====
section
/-! DEFINITION. The plain words of the Kwezar Q7: bytes, 32-bit registers, 64-bit counts. -/

namespace Sys2Proof

/-- A byte, the smallest addressable unit of host memory and of HBM3. -/
abbrev Byte := BitVec 8

/-- A register of the set-up space, 32 bits (R407). -/
abbrev Word := BitVec 32

/-- A 64-bit quantity: a Tide count (R440), a counter (R561), a host address. -/
abbrev DWord := BitVec 64

end Sys2Proof
end

