-- ==== Sys2Proof/Syntax.lean ====
section
/-! DEFINITION. The commands of the Q7: one constructor of `Instr` for each row of the opcode table,
with the row's operands. What the block reads from outside (the bytes a read of host memory returns,
a received packet, a measured value) is an operand of the command. -/

namespace Sys2Proof

/-- A Drezh packet as it stands on a link (R237): the 16-byte header as one 128-bit field, bit 127 the
most significant bit of byte 0, and the bytes after it (the 16-byte control body, or PLEN payload bytes). -/
structure Packet where
  hdr : BitVec 128
  body : List Byte
deriving DecidableEq, Repr

/-- A detection record (R479): source, location in the format of FLT_FORCE_LOC, object, the Tide count
of the detection and the FORCED flag. `site` is what the detecting unit knows beyond the record: for source 0x21 what
kind the object is (0 a table, 1 an exported region, 2 a group), for 0x06 the row whose Rockpool line failed, for
0x13 the PIECE. -/
structure FaultRec where
  source : Nat
  loc : Word
  object : Nat
  tide : Nat
  forced : Bool
  site : Nat := 0
  good : Bool := true                      -- its bytes pass their parity on the fault network, R479
deriving DecidableEq, Repr

/-- What a forced detection strikes: the object whose access takes place, and its site (log entry 60). -/
structure Struck where
  object : Nat
  site : Nat := 0
deriving DecidableEq, Repr

/-- What a BOOT or HOLD start-up finds outside the logic this model holds: whether the PUF reconstructs
(R503), whether the manufacturing record and each MRAM area check (R506), the region that the record disables on each
of CD0 to CD3 of an HKQ7-B part, none on an HKQ7-A (R2, R3), the lane dies whose image fails (R514), the buffers and
cells self-test finds failed on each core die (R302, R585). -/
structure StartInput where
  pufOk : Bool
  mfgOk : Bool
  mramOk : Bool
  cliffAreaOk : Bool
  repairLogOk : Bool
  badLaneDies : List Nat
  badBuffers : List (Nat × Nat)
  badCells : List (Nat × Nat × Nat)
  margins : List (Nat × Int × Int)
  disabled : Option (Fin 4 × Fin 4 × Fin 4 × Fin 4)
deriving DecidableEq, Repr

/-- The commands. `r i` name descriptor `i` of submission ring `r`, already accepted (R419); `d` is the
data that the read of ADDR returned; `p` is a received packet and `port` the port it entered on. -/
inductive Instr where
  -- host descriptors of the host interface, Tide and observability chapters
  | nop (r i : Nat)
  | tideLaunch (r i : Nat)
  | stopAt (r i : Nat)
  | stopResume (r i : Nat)
  | stateSave (r i : Nat)
  | stateRestore (r i : Nat) (d : List Byte)
  | snapshotAt (r i : Nat)
  | counterReset (r i : Nat)
  | telemetryDrain (r i : Nat)
  | traceSet (r i : Nat)
  | traceDrain (r i : Nat)
  -- group descriptors
  | groupInstall (r i : Nat) (d : List Byte)
  | groupExtents (r i : Nat) (d : List Byte)
  | groupEvict (r i : Nat)
  | groupQuiesce (r i : Nat)
  | groupResume (r i : Nat)
  | groupRenew (r i : Nat)
  | groupDestroy (r i : Nat)
  | groupQuery (r i : Nat)
  | accumSet (r i : Nat)
  -- table descriptors
  | tableInstall (r i : Nat) (d : List Byte)
  | tableWrite (r i : Nat) (d : List Byte)
  | tableRead (r i : Nat)
  | tableApply (r i : Nat)
  | tableSet (r i : Nat) (d : List Byte)
  | tableQuiesce (r i : Nat)
  | tableResume (r i : Nat)
  | tableDestroy (r i : Nat)
  | shardMap (r i : Nat) (d : List Byte)
  | tableQuery (r i : Nat)
  -- Cove, window, region and job descriptors
  | coveCreate (r i : Nat)
  | coveDestroy (r i : Nat)
  | portBind (r i : Nat)
  | portUnbind (r i : Nat)
  | windowAdd (r i : Nat) (d : List Byte)
  | windowRemove (r i : Nat)
  | regionExport (r i : Nat) (d : List Byte)
  | regionRelease (r i : Nat)
  | jobClass (r i : Nat)
  | jobPort (r i : Nat)
  | jobPortUnbind (r i : Nat)
  -- route, Shoal, scheduling descriptors
  | routeWrite (r i : Nat) (d : List Byte)
  | routeRead (r i : Nat)
  | routeConfig (r i : Nat)
  | epochDrain (r i : Nat)
  | soundingSet (r i : Nat)
  | shoalSet (r i : Nat)
  | datelineSet (r i : Nat)
  | schedSet (r i : Nat)
  | queueSet (r i : Nat)
  | policeSet (r i : Nat)
  -- firmware and configuration descriptors
  | fwLoad (r i : Nat) (d : List Byte)
  | cfgLoad (r i : Nat) (d : List Byte)
  | cfgRead (r i : Nat)
  | measureRead (r i : Nat)
  -- rings, functions and registers; `ok` false: the read ended with an error or poisoned data
  | descriptorArrival (ring : Nat) (ok : Bool) (desc : BitVec 512)
  | doorbellPoll (line : Nat) (ok : Bool) (bytes : List Byte)
  | interruptModeration (ring : Nat)
  | msixUnmask (func vector : Nat)
  | ringEnable (writer ring : Nat)
  | ringDisable (writer ring : Nat)
  | ringDrained (ring : Nat)
  | functionDisable (writer func : Nat)
  | functionEnable (writer func : Nat)
  | funcDrained (func : Nat)
  | functionLevelReset (func : Nat) (kind : Nat)
  | latTolWrite (writer func : Nat) (v : Word)
  | dbwBudgetWrite (v : Word)
  | registerWrite (writer : Nat) (bar : Nat) (off : Nat) (v : Word)
  | barBadAccess (write : Bool)
  | tideNowRead
  | devEnterRead
  | tideSetWrite (hi : Word)
  | tideRoleWrite (v : Word)
  | go
  | swReset (v : Word)
  | lastCliffClear
  | fltForceSet (k : Nat) (v : Word)
  | fltForceClr (k : Nat) (v : Word)
  | forcedDetection (source : Nat) (object : Struck)
  | lnGrpCfgWrite (group : Nat) (v : Word)
  | portEnable (port : Nat)
  | portDisable (port : Nat)
  | lnCtlWrite (lane : Nat) (v : Word)
  | lnTapsWrite (lane : Nat) (v : Word)
  | prbsCheckerEnable (lane : Nat)
  | lnInjWrite (lane : Nat) (v : Word)
  | eyeScanStart (lane : Nat)
  | eyeScanDone (lane : Nat) (err cnt : Nat) (aborted : Bool)
  | pwrReplanWrite (hi : Word)
  | sidebandRead (off : Nat)
  | spdmMessage (pf : Nat) (msg : List Byte)
  | ideKm (pf : Nat) (inSession : Bool) (tx rx : Bool)
  -- collectives
  | contribution (port : Nat) (p : Packet)
  | partialPiece (port : Nat) (p : Packet)
  | resultPiece (port : Nat) (p : Packet)
  | join (port : Nat) (p : Packet)
  | leave (port : Nat) (p : Packet)
  | renew (port : Nat) (p : Packet)
  | epochNotice (port : Nat) (p : Packet)
  | planReady (port : Nat) (p : Packet)
  | groupCmd (port : Nat) (p : Packet)
  | groupCmdAck (port : Nat) (p : Packet)
  | groupCmdResend (group port seq : Nat)
  | planReadyResend (group : Nat)
  | groupStorm (port : Nat) (p : Packet)
  | expUp (port : Nat) (p : Packet)
  | expDown (port : Nat) (p : Packet)
  | sealPkt (port : Nat) (p : Packet)
  | revoke (port : Nat) (p : Packet)
  | pack (port : Nat) (p : Packet)
  | rack (port : Nat) (p : Packet)
  | nak (port : Nat) (p : Packet)
  | missing (port : Nat) (p : Packet)
  | chunkWaitTimeout (group epoch call chunk : Nat)
  | rackWaitTimeout (group epoch call chunk : Nat)
  | partialResendTimeout (group epoch call chunk : Nat)
  | chunkBitmapExpiry (group epoch call chunk : Nat)
  -- embedding
  | bag (port : Nat) (p : Packet)
  | splitBag (port : Nat) (p : Packet)
  | grad (port : Nat) (p : Packet)
  | splitGrad (port : Nat) (p : Packet)
  | subBag (port : Nat) (p : Packet)
  | subGrad (port : Nat) (p : Packet)
  | subPooled (port : Nat) (p : Packet)
  | expUpE (port : Nat) (p : Packet)
  | expDownE (port : Nat) (p : Packet)
  | gradAck (port : Nat) (p : Packet)
  | embFail (port : Nat) (p : Packet)
  | applyReq (port : Nat) (p : Packet)
  | subBagTimeout (src ltid step bag shard : Nat)
  | tableApplyTidemark (table : Nat)
  | rockpoolDecay
  -- memory space
  | memRequestAdmit (port : Nat) (p : Packet)
  | memRequestPerform (port : Nat) (p : Packet)
  | memResponse (port : Nat) (p : Packet)
  | memRequestTimeout (port tag : Nat)
  -- packets, resequencer, egress
  | packetIngress (port : Nat) (p : Packet)
  | reseqArrival (port : Nat) (p : Packet)
  | reseqBaseTimeout (die src dst ovc : Nat)
  | reseqGapTimeout (die src dst ovc : Nat)
  | reseqEntryFree (die src dst ovc : Nat)
  | dispatch (port vc : Nat)
  | escMove (port vc : Nat)
  | egressTurn (port : Nat)
  | jobSlotFree (port slot : Nat)
  | ownerRelease (die buffer owner : Nat)
  | beachcomberAudit (die : Nat)
  | quarterRebuild (die quarter : Nat)
  | ethernetFrame (port : Nat) (good : Bool) (frame : List Byte)
  | mgmtFrameSend (port : Option Nat) (frame : List Byte)
  | macAgeOut (mac : Nat)
  -- link layer
  | flitReceive (port slot : Nat) (fecOk : Bool) (flit : List Byte)
  | flitClose (port : Nat)
  | nakvRepeat (port : Nat)
  | portDownDeclare (port cause : Nat)
  | portDownCommit (port : Nat)
  | portUpCommit (port : Nat)
  | keyPhaseChange (port : Nat)
  | tideSync (port : Nat) (sent arrived : Nat)
  | tideEcho (port : Nat) (sent arrived : Nat)
  | tideSyncSend (port : Nat)
  | linkDown (port cause : Nat)
  | neapEnter (port tag : Nat)
  | neapReply (port tag code : Nat)
  | lowEnter (port tag : Nat)
  | lowReply (port tag code : Nat)
  | lanePowerRequestRetry (port : Nat)
  | idleStateDecision (region : Bool) (unit : Nat)
  | neapWake (port : Nat)
  | lowWaterWake (port : Nat)
  | regionGateOpen (region : Nat)
  | signalDetect (port : Nat)
  | trainingFrame (port lane : Nat) (inverted : Bool) (control status : Word) (ready : Bool)
  | trainingCountdownEnd (port : Nat)
  | trainingPhaseFail (port : Nat)
  | trainingRetryPause (port : Nat)
  | laneLockLoss (lane : Nat)
  -- peer exchange
  | hello (port : Nat) (p : Packet)
  | cert (port : Nat) (p : Packet)
  | proof (port : Nat) (p : Packet)
  | finish (port : Nat) (p : Packet)
  | abort (port : Nat) (p : Packet)
  | measReq (port : Nat) (p : Packet)
  | measRsp (port : Nat) (p : Packet)
  | keyingTimeout (port : Nat)
  | linkRunSwitch (port : Nat) (tx : Bool)
  -- Tide, launches, stops, counters
  | launchAck (port : Nat) (p : Packet)
  | launchDeadline (launch : Nat)
  | stopCutTidemark
  | stopMark (port : Nat) (p : Packet)
  | stopSettle
  | resume (port : Nat) (p : Packet)
  | resumeTidemark
  | snapshotCapture (window : Nat)
  | counterResetTidemark
  | tideSyncInEdge
  | tideSyncInMissing
  | tideParentLoss
  -- faults, power, pins, start-up
  | faultRecord (f : FaultRec)
  | cliffNotice (port : Nat) (p : Packet)
  | cliffNoticeHoldEnd (port : Nat)
  | regionStall (region : Nat)
  | checkerSelfTest (ok : Bool)
  | watchdogExpiry
  | watchdogRefresh
  | droopCrossing (region : Nat)
  | ebbRelease (region : Nat)
  | erosionMeasure (region : Nat) (margin : Int) (life : Nat)
  | erosionReplan (die : Nat) (margins : List (Nat × Int × Int))
  | thermalSample (sensor : Nat) (temp : Int)
  | railFault (rail : Nat)
  | clockLoss (clock : Nat)
  | resetAssert
  | resetRelease (bifur sbAddr : Bool)
  | pcieDomain1Reset
  | pcieUncorrectable (link : Nat)
  | powerCycle
  | bootSequenceDone (x : StartInput)
  | holdStartUp (x : StartInput)
  -- ends of waits
  | groupDestroyDone (group : Nat)
  | groupQuiesced (group : Nat)
  | tableQuiesced (table : Nat)
  | tableDestroyDone (table : Nat)
  | regionReleaseDone (region : Nat)
  | windowRemoveDone (window : Nat)
  | portUnbindDone (port : Nat)
  | epochDrainDone (r i : Nat)
  | tableCommitWaitEnd (tsel index : Nat)
  | railsInRange
  | referenceClockStart (clock : Nat)
  | disableSquelch (port : Nat)
  | boundaryScanInstruction (code : Nat)
  | subGradResendTimeout (src ltid step bag shard : Nat)
  | errorInjectionInterval (lane : Nat)
  | prbsCheckerLock (lane : Nat)
  | traceTimeRecord
  | ebbHeavyWindow (region : Nat)
deriving DecidableEq, Repr

end Sys2Proof
end

