-- ==== Sys2Proof/Config.lean ====
section
/-! DEFINITION. What the model leaves uninterpreted: the certificates, the messages and the secret of the part
(log entry 4), the bits a random source gives (log entry 5), the values a part is
made with, and the choices the spec leaves to the Q7 (log entry 6). None of these has a body, so no
proof can rest on a value of theirs. -/

namespace Sys2Proof.Config

/-- Whether a chain of DER certificates ends properly at the named anchor key (R511, R515, R530). -/
opaque chainTo : List Byte → List Byte → Bool
/-- The public keys the certificates of a chain carry, from the anchor's down (R530). -/
opaque chainKeys : List Byte → List (List Byte)
/-- The leaf of the chain is an Alias certificate whose issuer carries the Q7 extension (R530). -/
opaque leafIsQ7 : List Byte → Bool
/-- The Heldel root public key and the Heldel owner CA key (R505, R515). -/
opaque heldelRoot : List Byte
opaque ownerCa : List Byte
/-- The last certificate of a chain carries Heldel's firmware-signing key usage (R511). -/
opaque leafSignsFirmware : List Byte → Bool
/-- The secret that this part's PUF gives at every BOOT (R503). -/
opaque pufSecret : List Byte
/-- This part's DER certificates of levels 1 and 2, as the manufacturing record holds them (R505). -/
opaque deviceChain : List Byte
/-- The DER bytes of the Alias certificate that the ROM issues under the DevID key (its seed), for M_fw, the security version
and the bundle ID of the firmware (R505). -/
opaque aliasCert : List Byte → List Byte → Nat → Nat → List Byte
/-- The boot ROM digest and the manufacturing record's digest, measurements 1 and 2 (R527). -/
opaque romDigest : BitVec 512
opaque mfgDigest : BitVec 512
/-- Random bits: NONCE and the ephemeral key of the peer exchange, by a counter of the state (R529). -/
opaque randomByte : Nat → Byte
/-- The SPDM 1.3 responder's answer to a message, given the measurements (R527). -/
opaque spdmAnswer : List Byte → List Byte → List Byte
/-- The Rockpool set of a table's row (R164 says indexed by table and row, not how). -/
opaque rockpoolSet : Nat → Nat → Nat
/-- Which of a table's enabled pool arrays serves a bag or gradient, by table and how many it has served (R157: in any way
it likes). -/
opaque poolChoice : Nat → Nat → Nat
/-- An int8 row element whose quotient w / scale has no value: infinity by infinity, or zero by zero (R176). -/
opaque openQuotient : Nat → Nat → BitVec 8
/-- Serial number and management MAC address of the part (R591). -/
opaque serial : BitVec 64
opaque macAddr : BitVec 48
/-- When the first edge of BEACON follows the end of RESET, and how long BEACON is high in each period, by its rate code
(R494, R495: the phase is not given, and the duty cycle only within bounds). -/
opaque beaconLag : Nat
opaque beaconDuty : Nat → Nat
/-- The tokens a new bucket of a rate and a burst starts with (R325, R330 give a bound only). -/
opaque bucketStart : Nat → Nat → Nat
/-- The FSEQ with which a flow this Q7 sources starts, by DST and OVC (R243: any value). -/
opaque flowStart : Nat → Nat → BitVec 32
/-- How long after a flit closes the first symbol of its pair leaves the port's pins, in ns (R361, R362: the pin
time is a fact of the part and the moment). -/
opaque pinLag : Nat → Nat → Nat
/-- Which CRC bit an injection inverts, by the injections done (R400: one CRC bit). -/
opaque injectBit : Nat → Nat
/-- A codeword pair with that many RS symbols of one codeword, or of both, corrupted (R400, R501: which ones, and to what,
is not given). -/
opaque corruptPair : Bool → Nat → List Bool → List Bool
/-- The PAM4 level of the SSPRQ pattern at a position, as IEEE 802.3 Clause 120 defines it (R397). -/
opaque ssprq : Nat → Nat
/-- The state in which a pattern generator starts, by its pattern (R397 gives none). -/
opaque patternSeed : Nat → Nat
/-- The bit errors a checker finds in a nanosecond of a received pattern, and the mismatches of an eye scan (R397, R402), by
lane and Tide; an offset sampler stands at an eye, a phase and a voltage (R401). -/
opaque bitErrors : Nat → Nat → Nat
opaque eyeMismatches : Nat → Nat → Nat → Nat → Nat → Nat
/-- The pair header that a lane's receiver reads in its n-th pair, once FEC has corrected it (R336). -/
opaque headerIn : Nat → Nat → BitVec 40
/-- The tap request a receiver makes, as the ten bits of its five codes and the preset above them, by lane and request number
(R389: the equaliser's algorithm is not given). -/
opaque tapWish : Nat → Nat → Nat
/-- The symbols a lane's receiver decides on in its n-th pair, as they come off the line (R370, R373). -/
opaque symbolsIn : Nat → Nat → List Nat
/-- How many pairs beyond the least distance a SWITCH_PAIR lies, by the port and its pair number (R532: at least). -/
opaque switchSlack : Nat → Nat → Nat
/-- The 12-byte IV of a section of a state image, by stop and section type (R468: not stated how it is drawn). -/
opaque imageIv : Nat → Nat → Nat → Byte

/-- The Tide nanoseconds that the walks of a quarter's rebuild take; at most 2 ms (R300; log entry 95). -/
opaque rebuildTime : Nat

end Sys2Proof.Config
end

