-- ==== Sys2Proof/Machine/State.lean ====
section
/-! DEFINITION. The state of one Kwezar Q7 as plain data, and the state after reset. Every structure
names the rules of the spec that give its fields; INVENTORY.md lists each field with its reset value. -/

namespace Sys2Proof.Machine

/-- Sparse data by a numeric key, ascending keys, one entry a key. -/
abbrev Map (α : Type) := List (Nat × α)

/-- Bytes by address (R407 host memory, R190 exported regions, R145 row spaces): addresses strictly
rising, no entry equal to what an unlisted address reads as (`Memory.blank`). -/
abbrev Memory := List Host.Cell

/-! ## Device, part and pins -/

/-- Device states, coded 0 to 6 in DEV_STATE (R582, R592). -/
inductive DevState where
  | reset | boot | hold | train | run | stopped | cliff
deriving DecidableEq, Repr

/-- Order codes (R2, R591 GRADE). -/
inductive Grade where
  | a | b
deriving DecidableEq, Repr

/-- What the manufacturing record and the repair machinery give the part (R2, R3, R25 to R28, R506). -/
structure Part where
  mfgRead : Bool := false                  -- a BOOT has read the manufacturing record, R3
  off : Option (Fin 4 × Fin 4 × Fin 4 × Fin 4) := none -- the region it disables on CD0 to CD3, none on an HKQ7-A, R2, R3
  retired : List (Nat × Nat) := []         -- (core die, unit 0-7 MA, 8-11 PA), R27
  cellMap : List (Nat × Nat × Nat × Nat) := []  -- (die, unit, logical, physical) in force, R25
  badCells : List (Nat × Nat × Nat) := []  -- (die, unit, physical) retired until power cycle or logged, R25, R502
  repairLog : List (Nat × Nat × Nat) := [] -- (die, unit, physical) written to MRAM, R25, R506
  repairBufs : List (Nat × Nat) := []      -- (die, buffer) written to MRAM, R302
  repairWaiting : List (Nat × Nat × Nat) := [] -- repairs kept until power cycle, R507; unit 12 a buffer
  turns : Map Nat := []                    -- PRIMARY steps of array 16·die + unit since ready FILL work had its turn, R233
deriving DecidableEq, Repr

/-- Device state block, pins and clocks (R582 to R594, R600 to R607). -/
structure Dev where
  state : DevState := .boot                -- R592 STATE, reset 1
  prev : DevState := .reset                -- R592 PREV, reset 0
  holdReason : Nat := 0                    -- R522, R592 REASON
  holdWhere : Nat := 0                     -- R592 WHERE
  holdItem : Nat := 0                      -- R592 ITEM
  goRej : Bool := false                    -- R592 GO_REJ
  goRejAt : Option Nat := none             -- the instant it was last set, R16
  stDone : Bool := false                   -- R592 ST_DONE
  lostBuffers : List Nat := [0, 0, 0, 0]   -- R592 ST_LOST.BUFFERS
  lostCells : List Nat := [0, 0, 0, 0]     -- R592 ST_LOST.CELLS
  enterTide : Nat := 0                     -- R592 DEV_ENTER
  enterHi : Nat := 0                       -- R592 the latch of DEV_ENTER_HI
  beaconHeld : Bool := false               -- level BEACON holds in CLIFF, R486, R592 LEVEL
  bcnRate : Nat := 1                       -- BEACON's rate code from the edge below on, R494, R495
  bcnOld : Nat := 0                        -- its rate code before that edge
  bcnAt : Nat := 0                         -- Tide of that edge; while bcnFree, of the end of RESET
  bcnFree : Bool := true                   -- the edge is the first since RESET (log entry 82)
  bcnUp : Bool := true                     -- the edge rises
  mfg : Bool := false                      -- the manufacturing fields of the identity block are loaded, R591
  resetLow : Bool := false                 -- R605 RESET_N held low
  cold : Bool := true                      -- no BOOT has run since the last power cycle, R492
  railsOut : List Nat := []                -- R539, R602 rails outside their range
  clocksAbsent : List Nat := []            -- R602, R604 reference clocks absent
  bifur : Bool := false                    -- R405, R607 BIFUR as sampled
  sbAddr : Bool := false                   -- R607 SB_ADDR as sampled
  startingUp : Bool := false               -- R586 HOLD start-up after CFG_LOAD APPLY
  tap : Nat := 1                           -- R537 boundary-scan instruction (0 BYPASS, 1 IDCODE, 2 SAMPLE, 3 EXTEST, 4 EXTEST_PULSE, 5 EXTEST_TRAIN)
  sideband : Word := 0                     -- R609 the last register a sideband read answered
  badAccess : Word := 0                    -- R407 what the last unaligned read returned
deriving DecidableEq, Repr

/-- The order code, as the record's disabled regions make it: HKQ7-B has one on each core die, HKQ7-A none (R2, R3). -/
def Part.grade (p : Part) : Grade := if p.off.isSome then .b else .a

/-- The disabled regions, as (core die, region). -/
def Part.disabled (p : Part) : List (Nat × Nat) :=
  match p.off with
  | none => []
  | some (r0, r1, r2, r3) => [(0, r0), (1, r1), (2, r2), (3, r3)]

/-! ## Host interface -/

/-- RING_STAT.STATE (R413). -/
inductive RingState where
  | disabled | active | draining | error
deriving DecidableEq, Repr

/-- A ring: its ten registers and what the Q7 keeps behind them (R411 to R413, R422, R424, R429). -/
structure Ring where
  baseLo : Word := 0
  baseHi : Word := 0
  cfg : Word := 0
  dbLo : Word := 0
  dbHi : Word := 0
  state : RingState := .disabled
  err : Nat := 0
  cfgRej : Bool := false
  cfgRejAt : Option Nat := none            -- the instant CFG_REJ was last set, R16
  out : Nat := 0                           -- RING_OUT
  pi : Nat := 0                            -- RING_PI
  fetch : Nat := 0                         -- RING_FETCH
  reads : List Nat := []                   -- read requests outstanding, oldest first: descriptors not returned of each, R404, R425
  stale : List (Nat × Option Nat) := []    -- reads outstanding from before it left ACTIVE: descriptors, and the ring of their reservations, R422
  ci : Nat := 0                            -- last CI read, R424
  enAtBoot : Bool := false                 -- EN written in BOOT, R418
  enabledAt : Option Nat := none           -- the instant it was last enabled, R439
  unsignalled : Nat := 0                   -- R429
  oldest : Nat := 0                        -- Tide of the oldest unsignalled entry, R429
  msgAt : Option Nat := none               -- the instant of the last message that covered it, R429, R439
  lost : Bool := false                     -- event ring: events dropped since the last one written, R433
  events : Nat := 0                        -- events written since enable, R431 SEQ
deriving DecidableEq, Repr

/-- FN_STAT.STATE (R414). -/
inductive FnState where
  | enabled | draining | disabled
deriving DecidableEq, Repr

/-- A function's registers (R414, R415). -/
structure Func where
  state : FnState := .enabled
  eqEn : Bool := false
  eq : Nat := 0
  coveHi : Nat := 0
  coveLo : Nat := 0
  latTol : Nat := 10000
  latPoll : Nat := 5000
  latMod : Nat := 5000
  flr : Bool := false                      -- a function level reset runs, R438
  flrRegs : Bool := false                  -- it resets the registers at its end, R438
  disabledAt : Option Nat := none          -- the instant DISABLE was last written 1, R439
deriving DecidableEq, Repr

/-- Where an accepted descriptor stands (R420, R436). -/
inductive Stage where
  | waiting          -- accepted, not taken for execution
  | staged           -- in a route batch, R252
  | commitWait       -- its commit waits for a tag, R272
  | draining         -- committed, waits for a drain, R436
  | scheduled        -- waits for a Tidemark, R436
  | running          -- executing, ends with its own status, R436
deriving DecidableEq, Repr

/-- An accepted descriptor (R416, R419). -/
structure Desc where
  ring : Nat
  idx : Nat
  func : Nat
  opcode : Nat
  fence : Bool
  user : BitVec 64
  op : BitVec 384
  stage : Stage := .waiting
  data : List Byte := []                   -- the bytes at ADDR, kept while a commit waits, R272
  oldTag : Nat := 0                        -- EPOCH_DRAIN: the tag current when taken, R274
  takenAt : Nat := 0                       -- Tide at which its commit began to wait, R270
  came : Nat := 0                          -- Tide at which it was accepted, R439
deriving DecidableEq, Repr

/-- The host interface (R404 to R439). -/
structure HostIf where
  rings : Map Ring := []
  funcs : Map Func := []
  classMap : Map Word := []                -- R433, EN in bit 31, ring in [12:0]
  budget : Nat := 40                       -- R426 DBW_CTL.BUDGET
  scale : Nat := 256                       -- R426 DBW_STAT.SCALE
  lines : Nat := 0                         -- R426 DBW_STAT.LINES
  unmasked : List (Nat × Nat) := []        -- unmasked MSI-X vectors (function, vector), R430 (log entry 9)
  msixWords : List (Nat × Word) := []      -- MSI-X table words by 65,536 × function + BAR2 offset, R406
  pendingMsi : List (Nat × Nat) := []      -- pending bits, R430
  msi : List (Nat × Nat) := []             -- messages sent, oldest first, R429
  accepted : List Desc := []               -- R420
  heldCpl : List (Desc × Nat × Nat × Bool × Bool) := [] -- completions that wait for IDE: status, RESULT, COMMITTED, RECOVERED, R528
  ideActive : Map (Bool × Bool) := []      -- per link: stream active tx, rx, R528
  doe : List (List Byte) := []             -- DOE answers, R527
  aer : List (Nat × Bool) := []            -- errors reported under AER, oldest first: link, uncorrectable, R404, R484
  mem : Map Memory := []                   -- host memory as the Q7 wrote it, by the function whose routing ID it used, R408
deriving DecidableEq, Repr

/-! ## Tide, stops and launches -/

/-- TIDE_STAT.TSTATE (R442). -/
inductive TState where
  | free | acquire | locked | holdover
deriving DecidableEq, Repr

/-- The Tide counter, its registers and discipline (R440 to R450). -/
structure Tide where
  now : Nat := 0
  nowHi : Nat := 0                         -- latch of TIDE_NOW_HI
  setLo : Word := 0
  setHi : Word := 0
  role : Nat := 0
  pinSrc : Bool := false
  outEn : Bool := false
  outAt : Nat := 0                         -- the instant OUT_EN was last set, R449
  pulse : Option Nat := none               -- the count a pulse that a step fell into is measured from, R441, R449
  parents : List Nat := [0x3FF, 0x3FF, 0x3FF]
  tstate : TState := .free
  src : Nat := 3
  setRej : Bool := false
  setRejAt : Option Nat := none            -- the instants SET_REJ and STEPPED were last set, R16
  stepped : Bool := false
  steppedAt : Option Nat := none
  theta : Int := 0                         -- filtered, 1/16 ns, R443
  delay : Int := 0                         -- filtered, 1/16 ns
  samples : List (Int × Int) := []         -- last 8 (theta, delay) in 1/16 ns, newest first
  up : Option (Nat × Nat × Nat) := none    -- own TIDE_SYNC sent t1, arrival t2, taken at, R443
  down : Option (Nat × Nat × Nat) := none  -- parent's TIDE_SYNC t3, arrival t4, taken at
  good : Nat := 0                          -- consecutive exchanges within 2 ns, R444
  bad : Nat := 0                           -- consecutive exchanges above 20 ns, R444
  slow : Bool := false                     -- rate lowered by 100 ppm, R444
  pendingSet : Option Nat := none          -- load at the next TIDE_SYNC_IN edge, R448
  edge : Nat := 0                          -- Tide of the last TIDE_SYNC_IN edge
  missing : Nat := 0                       -- missing edges in a row, R448
deriving DecidableEq, Repr

/-- TIDE_STOP.SSTATE (R442). -/
inductive SState where
  | idle | armed | cut | settled | failed
deriving DecidableEq, Repr

/-- One port's part in a stop (R458, R460, R466). -/
structure StopPort where
  port : Nat
  gotMark : Bool := false
  pktsField : Nat := 0
  rxAtMark : Nat := 0
  down : Bool := false
deriving DecidableEq, Repr

/-- The slack-water stop (R455 to R467). -/
structure Stop where
  sstate : SState := .idle
  openPorts : Nat := 0                     -- OPEN, R460
  stopId : Nat := 0
  mark : Nat := 0                          -- T
  armedBy : Option (Nat × Nat) := none     -- STOP_AT descriptor
  cutAt : Nat := 0
  byMark : Bool := false                   -- a STOP_MARK made the cut, R459
  settledAt : Nat := 0
  before : DevState := .run                -- device state before the cut, R465
  ports : List StopPort := []
  resumeAt : Option Nat := none            -- R
  resumeTaken : Nat := 0                   -- Tide at which it was taken, R465, R466
  resumed : List Nat := []                 -- ports that sent or received a RESUME for the stop, R466
  resumers : List (Nat × Nat × Nat) := []  -- STOP_RESUME descriptors waiting: ring, index, RESULT
  lastDone : Option (Nat × Nat) := none    -- (stop, R) of the last resume taken, R466
  frozen : Bool := false                   -- the data path is frozen, R456
deriving DecidableEq, Repr

/-- A launch in progress (R452). -/
structure Launch where
  id : Nat
  mark : Nat
  ports : List Nat
  answered : List Nat := []
  late : List Nat := []
  desc : Nat × Nat
  fixed : Bool := false                    -- taken after the cut: its Tidemark does not move, R465
deriving DecidableEq, Repr

/-! ## Collectives -/

/-- A window integer, or one of its six reserved codes (R86). -/
inductive Win where
  | nan | posInf | negInf | posSat | negSat | bothSat
  | fin (v : Int)
deriving DecidableEq, Repr

/-- A plan fragment as installed (R51, R52). -/
structure Fragment where
  hasMembers : Bool
  isRoot : Bool
  modes : Nat
  group : Nat
  chunkSegs : Nat
  cove : Nat
  chunkWindow : Nat
  accHome : Nat
  fmtMask : Nat
  w96 : Bool
  keys : Bool
  waitTimeout : Nat
  parent : Nat
  arrays : List (Nat × Nat)                -- (die, merge array)
  children : List Nat
  members : List (Nat × Nat × Nat)         -- (port, rank, EPID)
  roster : List (Nat × Nat)                -- (rank, EPID)
deriving DecidableEq, Repr

/-- Group states, coded as GROUP_QUERY reports them (R75). -/
inductive GState where
  | free | installing | active | quiescing | quiesced | failed | destroying
deriving DecidableEq, Repr

/-- What a call's sub-header fixes (R64, R71): every field that enters the shape hash, as carried. -/
structure CallPar where
  kind : Nat
  op : Nat
  mode : Nat
  wfmt : Nat
  estatic : Nat
  infmt : Nat
  outfmt : Nat
  staticE : Int
  extSlot : Nat
deriving DecidableEq, Repr

/-- Where an input of a chunk comes from (R115, R132). -/
inductive Src where
  | member (rank : Nat)
  | child (port : Nat)
  | forwarded (rank port : Nat)
deriving DecidableEq, Repr

/-- A retained input (R118) with the fields its packets carried (R64, R72). -/
structure Input where
  src : Src
  rank : Nat
  mism : Nat
  hash : Nat
  job : Nat
  last : Bool
  zero : Bool
  root : Nat                               -- ROOT_RANK of a member's contribution
  port : Nat
  at_ : Nat                                -- Tide of arrival
  data : List Byte
  bufs : List (Nat × Nat) := []            -- its packets in Shoal: die, first buffer, R303
deriving DecidableEq, Repr

/-- Pieces of a child's partial being taken in PIECE order (R116, R132). -/
structure Taking where
  port : Nat
  via : Nat := 1024                        -- the ingress port its pieces came on, R131
  next : Nat := 0
  resend : Bool := false
  bytes : List Byte := []
  bufs : List (Nat × Nat) := []
deriving DecidableEq, Repr

/-- A piece of a partial, or a forwarded input, sent to the parent and without PACK (R115, R131). -/
structure Unacked where
  rank : Nat                               -- 0x3FFFF, or the contributor of a forwarded input
  pkt : Packet
  at_ : Nat                                -- Tide at which it was last sent
  on_ : List Nat := []                     -- egress ports it has left on
  bufs : List (Nat × Nat) := []            -- where it is retained, R118, R293
deriving DecidableEq, Repr

/-- One chunk at one Q7 (R109 to R139). -/
structure Chunk where
  epoch : Nat
  call : Nat
  chunk : Nat
  par : Option CallPar := none             -- none while only exponents or reports have come
  slot : Bool := false                     -- holds a staging slot, R111
  firstAt : Option Nat := none             -- first item's arrival, R576 T1
  firsts : List Nat := []                  -- child ports whose first item has come, R576
  waited : Bool := false                   -- the wait for inputs has ended, R576
  job : Nat := 0                           -- JOB of the lowest-ranked contribution, R229
  inputs : List Input := []                -- inputs retained, in order of arrival, R118
  seen : List Src := []                    -- the bitmap, R132
  exps : List (Nat × Option Int) := []     -- child port, EXP or NONE, R113
  expSent : Bool := false
  exp : Option Int := none                 -- E, R89
  taking : List Taking := []               -- child partials arriving, R117
  combined : Bool := false                 -- every input has come and is combined, R115
  last : Bool := false                     -- the chunk carries LAST, R116
  lowRank : Nat := 0x3FFFF                 -- as combined, R72
  hash : Nat := 0
  mism : Nat := 0x3FFFF
  unacked : List Unacked := []             -- the partial as sent, without PACK, R115, R131
  leftOn : List (Nat × Nat) := []          -- egress port and destination of what has left of its partial and results, R131
  missingIn : List (Nat × Nat) := []       -- child port, rank: MISSING of inputs, R119
  missingRack : List (Nat × Nat) := []     -- MISSING of RACKs
  inDeadline : Option Nat := none          -- WAIT_TIMEOUT of the inputs, R119
  rackDeadline : Option Nat := none        -- WAIT_TIMEOUT of the RACKs, R119
  result : List (Nat × List Byte) := []    -- copies held of the current delivery: PIECE, data, R120
  resultBufs : List (Nat × Nat) := []      -- where they stand in Shoal, R293
  pieces : Nat := 0                        -- pieces of the current delivery that have come, R132
  resultLast : Bool := false               -- the result's pieces carry LAST, R116
  resultResend : Bool := false             -- a RESEND copy is being taken, R132
  resultWhole : Bool := false
  resultAt : Option Nat := none            -- Tide the last RESULT piece left, R119
  deliv : Nat := 0
  racked : List Src := []                  -- RACKs of the current delivery, R121
  rackSent : Bool := false
  nakSent : Bool := false                  -- this Q7 found its copy bad and sends no RACK, R126
  recovered : Bool := false                -- recovery touched the chunk here or below, R121
  overflow : Bool := false                 -- an element reached the root saturated, R96
  sealDue : Bool := false                  -- at the root: every RACK is in, and SEAL goes at the instant's end, R127
  sealed : Bool := false
  sealedAt : Nat := 0                      -- R133
deriving DecidableEq, Repr

/-- A call at one Q7 (R59 to R74). -/
structure Call where
  epoch : Nat
  call : Nat
  par : Option CallPar := none
  hash : Option Nat := none                -- agreed at chunk 0, R74
  agreed : Bool := false                   -- the root may release results, R62
  rootRank : Nat := 0x3FFFF                -- from the members' chunk 0, R120
  job : Nat := 0                           -- JOB of chunk 0, R229
  lastChunk : Option Nat := none           -- the call's final chunk, once sealed
  exts : Map (List (Nat × Nat)) := []      -- the extent tables the call began with, R57
  sealedChunks : List Nat := []
  failed : Bool := false
  stale : Bool := false                    -- it failed at an epoch commit: chunks counted whole go on, R69
  done : Bool := false
deriving DecidableEq, Repr

/-- A command sent on a child port and not acknowledged (R616). -/
structure SentCmd where
  port : Nat
  seq : Nat
  sentAt : Nat
  pkt : Packet
deriving DecidableEq, Repr

/-- The members of an epoch at one Q7: its count, the members admitted here, and at the root the roster (R49). -/
structure Roster where
  epoch : Nat := 0
  count : Nat := 0
  admitted : List (Nat × Nat × Nat) := []  -- (port, rank, EPID), ascending rank
  roster : List (Nat × Nat) := []          -- (rank, EPID), ascending rank
deriving DecidableEq, Repr

/-- A group table entry (R47, R75 to R77, R136). -/
structure Group where
  entry : Nat                              -- group table entry number, 0-16,383
  state : GState
  frag : Fragment
  now : Roster := {}                       -- epoch in force and its members
  olds : List Roster := []                 -- earlier epochs, newest first, whose chunks may still run, R69
  fromQuiesced : Bool := false             -- a REPLACE from QUIESCED keeps the epoch, R76
  commitAt : Nat := 0                      -- Tide of the last epoch commit, R57
  ready : List Nat := []                   -- child ports whose PLAN_READY came, R77
  readyAt : Option Nat := none             -- PLAN_READY last sent, R77
  extents : Map (List (Nat × Nat)) := []   -- slot to (rank, extent), R57
  nextSeq : Map Nat := []                  -- child port to next SEQ, R616
  sent : List SentCmd := []
  expectSeq : Nat := 0                     -- next SEQ from the parent, R616
  heldCmds : List (Nat × Packet) := []     -- commands ahead of SEQ order
  calls : List Call := []
  chunks : List Chunk := []
  nextCall : Nat := 0                      -- one above the highest call opened here in the epoch, R133
  highSealed : Option Nat := none          -- R57
  quiescer : Option (Nat × Nat) := none    -- the GROUP_QUIESCE waiting, R76
  destroyers : List (Nat × Nat) := []      -- GROUP_DESTROY taken and waiting, R77
  destroyTaken : Bool := false             -- this Q7's own GROUP_DESTROY has been taken, R77
  stagingRes : List (Nat × Nat) := []      -- bytes reserved per die, R54
  shoalRes : List (Nat × Nat) := []        -- buffers reserved per die, R292
  accRes : List (Nat × Nat) := []          -- accumulation bytes per die, R136
  passes : Nat := 1                        -- k in force, R136
  accChunks : Nat := 0
  pendingAccum : Option (Nat × Nat × List (Nat × Nat)) := none -- (k, ACC_CHUNKS, bytes per die)
  accWin : Map (List Win) := []            -- accumulators per chunk of window integers, R137
  accF32 : Map (List Nat) := []            -- running fp32 sums per chunk, R104
  accExp : Map Int := []                   -- E of chunk c of an accumulation, fixed in pass 1, R90
  accDone : Map Nat := []                  -- chunk c to the call last folded into accumulator c, R104, R138
  accFailed : Option Nat := none           -- an accumulation of the epoch that has failed whole, R137
deriving DecidableEq, Repr

/-! ## Embedding -/

/-- Table states (R181). -/
inductive EState where
  | free | loading | active | quiescing | quiesced | failed | destroying
deriving DecidableEq, Repr

/-- The table record (R142). -/
structure TableRec where
  table : Nat
  cove : Nat
  rfmt : Nat
  imode : Nat
  dim : Nat
  die : Nat
  paMask : Nat
  rows : Nat
  seed : Nat
  shadowRows : Nat
  gw96 : Bool
  master : Bool
  opt : Nat
  rpShare : Nat
  gradE : Int
  owner : Option Nat
  firstStep : Nat
  lr : Nat
  mu : Nat
  beta1 : Nat
  beta2 : Nat
  eps : Nat
  wd : Nat
  p1 : Nat
  p2 : Nat
deriving DecidableEq, Repr

/-- A BAG or GRAD stream being received (R152, R153). -/
structure Stream where
  src : Nat
  sub : BitVec 256                         -- sub-header of the first piece
  job : Nat
  next : Nat
  bytes : List Byte
  port : Nat
  tag : Nat := 0                           -- table tag captured, R273
  bufs : List (Nat × Nat) := []            -- its pieces in Shoal: die, first buffer, R294
deriving DecidableEq, Repr

/-- A whole BAG or GRAD that waits for an apply (R172). -/
structure WaitBag where
  stream : Stream
  isGrad : Bool
deriving DecidableEq, Repr

/-- The window of BAG_IDs of one source (R170): its base and the marked ids with their answers. -/
structure BagWin where
  src : Nat
  base : Nat := 0
  marks : List (Nat × Nat) := []           -- (BAG_ID, status)
deriving DecidableEq, Repr

/-- A scheduled apply (R173): the step, its Tidemark, and who asked for it. -/
structure Sched where
  step : Nat
  mark : Nat
  desc : Option (Nat × Nat) := none        -- TABLE_APPLY; none for an APPLY of OWNER
  job : Nat := 0                           -- JOB of the APPLY
  begun : Bool := false                    -- the step is closed and the apply runs, R174
  hyper : Option TableRec := none          -- the record in force at step 1, R178
  fixed : Bool := false                    -- taken after the cut: its Tidemark does not move, R465
deriving DecidableEq, Repr

/-- A table on this Q7 (R140 to R182). -/
structure Table where
  info : TableRec
  state : EState
  applied : Nat                            -- A modulo 2^32, R172
  space0 : Memory := []                    -- rows, by stack and byte offset from the table's base in it, R147
  space1 : Memory := []                    -- master
  space2 : Memory := []                    -- state A
  space3 : Memory := []                    -- state B
  shadow : Map (List Win) := []            -- row to its sums, R148
  overflowed : Bool := false               -- R169
  windows : List BagWin := []
  sched : Option Sched := none
  waiting : List WaitBag := []
  quiescer : Option (Nat × Nat) := none
  destroyers : List (Nat × Nat) := []
  bytes : Nat := 0                         -- HBM held on its die, R144, R617
  touched : List (Nat × Nat) := []         -- pool array (4 any) and instant of a recovery of its work in progress, R157, R184
  served : Nat := 0                        -- the model's count of its work given to pool arrays (log entry 84)
deriving DecidableEq, Repr

/-- A shard map (R158). -/
structure ShardMap where
  ltid : Nat
  imode : Nat
  dim : Nat
  cove : Nat
  lrows : Nat
  seed : Nat
  shards : List (Nat × Nat × Nat)          -- (FIRST_ROW, EPID, TABLE)
deriving DecidableEq, Repr

/-- One shard's part of a SPLIT bag or gradient at its home (R160, R162, R171). -/
structure SubWork where
  shard : Nat
  positions : List Nat
  subId : Nat                              -- BAG_ID of the sub-packet
  pkts : List Packet
  sentAt : Nat
  tries : Nat := 0
  exp : Option (Option Int) := none
  sums : Option (List Win) := none
  acked : Bool := false
deriving DecidableEq, Repr

/-- A SUB_GRAD whose gradient has failed at the home and that its shard has not answered: its number must still
be answered (R170, R171). -/
structure Orphan where
  src : Nat
  ltid : Nat
  bag : Nat
  shard : Nat
  epid : Nat
  table : Nat
  step : Nat
  subId : Nat
  pkts : List Packet
  sentAt : Nat
  die : Nat := 0                           -- the home's die
deriving DecidableEq, Repr

/-- A SPLIT bag or gradient in progress at its home (R160, R171). -/
structure HomeBag where
  src : Nat
  ltid : Nat
  step : Nat
  bag : Nat
  isGrad : Bool
  sub : BitVec 256
  job : Nat
  n : Nat
  shards : List (Nat × Nat × Nat)
  works : List SubWork
  expSent : Bool := false
  recovered : Bool := false                -- a resend or a shard's recovery touched it, R151
  die : Nat := 0                           -- die whose reservation holds its room, R295
  bufs : List (Nat × Nat) := []            -- its pieces in Shoal, R294
  tag : Nat := 0
deriving DecidableEq, Repr

/-- A sub-bag that waits for EXP_DOWN_E at its shard (R160). -/
structure ShardBag where
  src : Nat
  stream : Stream
  rows : List (List Byte)                  -- the rows as read, one for each position
deriving DecidableEq, Repr

/-- A Rockpool line (R164). -/
structure RpLine where
  set : Nat
  way : Nat
  table : Nat
  row : Nat
  hits : Nat
deriving DecidableEq, Repr

/-- The embedding engine (R140 to R185). -/
structure Emb where
  tables : Map Table := []
  maps : Map ShardMap := []
  streams : List Stream := []
  homes : List HomeBag := []
  shardBags : List ShardBag := []
  subNo : List (Nat × Nat × Nat × Nat) := [] -- (EPID, table, step, next SUB_GRAD id), R171
  subBagNo : Nat := 0                      -- next SUB_BAG number of this home (log entry 19)
  homeWins : List (Nat × Nat × BagWin) := [] -- (LTID, step, window) of the senders of SPLIT GRADs, R170
  tags : Map Nat := []                     -- table ID to its tag, R268
  mapTags : Map Nat := []                  -- LTID to its tag, R268
  orphans : List Orphan := []              -- parts of failed SPLIT GRADs without their answer, R170, R171
  subFree : List (Nat × Nat × Nat × Nat) := [] -- SUB_GRAD numbers refused by R153: (EPID, table, step, number), R170
  rockpool : List (Nat × RpLine) := []     -- (core die, line)
  rpDecayAt : Nat := 0                     -- Tide of the last halving of the hit counters, R164
  missed : List (Nat × Nat × Nat × Nat) := [] -- (die, table, row, Tide), newest first, R164
deriving DecidableEq, Repr

/-! ## Memory space -/

/-- A port binding (R206). -/
structure Binding where
  epid : Nat
  cove : Nat
  maxOut : Nat
deriving DecidableEq, Repr

/-- An outstanding request (R199). -/
structure Outst where
  port : Nat
  tag : Nat
  dst : Nat
  wtag : Nat                               -- window-table tag captured
  ptag : Nat                               -- port-binding tag captured
  ctag : Nat                               -- Cove table tag captured
  at_ : Nat
  pkt : Packet
  expire : Bool := false                   -- its 500 µs end with this instant, R219
deriving DecidableEq, Repr

/-- A window entry (R208). -/
structure Window where
  cove : Nat
  lo : Nat
  hi : Nat
  base : Nat
  limit : Nat
  pr : Bool
  pw : Bool
  pa : Bool
  px : Bool
deriving DecidableEq, Repr

/-- An exported region (R190 to R194). -/
structure Region where
  offset : Nat                             -- bytes
  size : Nat                               -- bytes
  die : Nat
  releasing : Option (Nat × Nat) := none   -- the REGION_RELEASE waiting
  poisoned : Bool := false
  mem : Memory := []                       -- by offset within the region
deriving DecidableEq, Repr

/-- The memory space at this Q7 (R186 to R221, R230). -/
structure MemSp where
  coves : List Nat := []
  binds : Map Binding := []
  windows : Map Window := []
  removing : List (Nat × Nat × Nat × Nat) := [] -- WINDOW_REMOVE waiting: (ring, idx, WIDX, old tag)
  unbinding : List (Nat × Nat × Nat) := [] -- PORT_BIND COVE 0 waiting: (port, ring, idx)
  unbindWait : List (Nat × List (Nat × Nat)) := [] -- ports that R534 unbinds once their tag allows, and the waiting writes ahead, R272
  regions : Map Region := []
  outst : List Outst := []
  denied : List (Nat × Nat) := []          -- (Cove, millisecond) with a MEM_DENIED posted, R201
  jobs : Map (Bool × Nat) := []            -- job to (FILL, SHOAL_CAP), R230
  jobPorts : List (Nat × Nat) := []        -- (port, job)
  capped : List (Nat × Nat) := []          -- (job, VC) whose packet reached SHOAL_CAP, R236
  wtag : Nat := 0                          -- window table tag, R268
  ptag : Nat := 0                          -- port bindings tag
  jtag : Nat := 0                          -- job class tag
  ctag : Nat := 0                          -- Cove table tag
deriving DecidableEq, Repr

/-! ## Routing, resequencing, Shoal, scheduling -/

/-- The account a stored packet is charged to (R284). Channels 7 and 8 are ESC0 and ESC1; egress ports
768 + d are the LOCAL pseudo-ports. -/
inductive Acct where
  | ingress (port vc : Nat)
  | egress (port vc : Nat)
  | group (entry : Nat)
  | emb (die : Nat)
  | ethIn (port : Nat)
  | ethOut (port : Nat)
deriving DecidableEq, Repr

/-- Where the route procedure sends a packet (R250): to this Q7, to an attachment port, by a node entry
captured at the first lookup (R259), or nowhere. -/
inductive Dest where
  | here
  | lport (port : Nat)
  | via (node : Nat) (entry : BitVec 512)
  | noRoute
deriving DecidableEq, Repr

/-- What a lookup captures of the route configuration and the trunks beside its entries (R259, R271). -/
structure RouteCap where
  trunks : Map (BitVec 768) := []
  hopLimit : Nat := 0
  sprayVcs : Nat := 0
  spraySkew : Nat := 0
deriving DecidableEq, Repr

/-- A packet stored in Shoal (R281, R284, R303), named by its die and first buffer. -/
structure Stored where
  die : Nat
  bufs : List Nat
  acct : Acct
  port : Nat                               -- ingress port, or 1024 when an engine originated it
  pkt : Packet
  owners : List Nat                        -- owner IDs, R303
  rtag : Option Nat                        -- route tag captured, R271
  ptag : Option Nat := none                -- port-binding tag captured, R273
  ctag : Option Nat := none                -- Cove table tag captured, R273
  dest : Dest                              -- as the first lookup found it, R259
  cap : RouteCap := {}                     -- and the route configuration as it stood, R271
  bound : Option Binding := none           -- contents of the port binding captured, R271
  jobOk : Bool := true                     -- its job was bound to its port as it arrived, R232, R234
  again : Bool := false                    -- to be delivered again on a retrained link, R134
  at_ : Nat := 0                           -- Tide at which it was stored, R269
  ahead : Nat := 0                         -- bytes ahead of it in its egress queue as it was placed there, R276
  cut : Bool := false                      -- it cut through, R40, R276
  classless : Bool := false                -- counted in JOB_UNKNOWN, R231
  came : Nat := 1024                       -- of a packet an engine passed on, the port it came in on, R257
  par : List Bool := []                    -- a parity bit for each byte, header first, R280, R283
  held : Bool := false                     -- held by the resequencer, R276
  inOrder : Bool := false                  -- delivered by the resequencer, R266
  slotWait : Bool := false                 -- its wait for a job slot is counted, R318
  since : Nat := 0                         -- Tide at which its present wait began, R312
  base : Option Nat := none                -- a port's copy of retained data: the first buffer it shares, its own number a name only, R304
deriving DecidableEq, Repr

/-- A ROUTE_WRITE or ROUTE_CONFIG of a batch (R252): its descriptor, operand block and the bytes at ADDR. -/
structure RouteOp where
  ring : Nat
  idx : Nat
  opcode : Nat
  op : BitVec 384
  data : List Byte
  at_ : Nat := 0                           -- Tide at which its descriptor was taken, R270
deriving DecidableEq, Repr

/-- What is noted of a packet of the outbox, which its flow and FSEQ name: the port an answer goes back on, with its place
in the flow taken already or not, or the core die that builds it. -/
structure Noted where
  src : Nat
  dst : Nat
  ovc : Nat
  fseq : Nat
  at_ : Nat
  inOrder : Bool := false
deriving DecidableEq, Repr

/-- The route table and its configuration (R246 to R253, R268). -/
structure Route where
  eps : Map (BitVec 32) := []
  nodes : Map (BitVec 512) := []
  trunks : Map (BitVec 768) := []
  selfNode : Option Nat := none
  hopLimit : Nat := 0                      -- the first ROUTE_CONFIG sets it (log entry 7)
  sprayVcs : Nat := 0
  spraySkew : Nat := 0
  rr : Map Nat := []                       -- 4096 × die + node to the last sprayed port, R255
  batch : List RouteOp := []               -- staged, R252
  commits : List (List RouteOp) := []      -- batches whose commit waits for a tag, in order, R272
  reentry : List (Nat × Nat) := []         -- stored packets that re-entered path choice, R259
  looks : List (Nat × Nat) := []           -- tables looked up in this instant: TSEL, INDEX, R269
  wrote : List ((Nat × Nat) × Nat) := []   -- tables written in this instant, and the ring of the write, R270
  came : List (Noted × Nat) := []          -- packets passed on in the outbox, and the port each came in on, R257
  slotWaits : List Noted := []             -- packets of the outbox whose wait for a job slot is counted, R318
  tag : Nat := 0
  flows : List (Nat × Nat × Nat × Nat × Nat) := [] -- flows sourced here: src, dst, ovc, next FSEQ, last sent Tide, R243
  outbox : List Packet := []               -- originated packets waiting for an egress account, R310
  direct : List Noted := []                -- answers that go back on a given port, R200, R241
  built : List Noted := []                 -- packets of the outbox and the core die that builds them, R282
  toEngine : List (Nat × Packet × Nat × Nat) := [] -- delivered to this Q7's engines: ingress port, packet, die, first buffer, R250
deriving DecidableEq, Repr

/-- A resequencer flow entry (R262). -/
structure Flow where
  entry : Nat                              -- flow entry number, R303
  src : Nat
  dst : Nat
  ovc : Nat
  run : Bool
  exp : Nat
  held : List (Nat × Nat × Packet × Nat × Nat) -- FSEQ, port, packet, die, first buffer, in order of arrival
  timer : Option Nat                       -- Tide the timer in force started
  lastAt : Nat
  expire : Bool := false                   -- its timer or its 150 µs ends with this instant, R265
  late : List (Nat × Nat × Packet × Nat × Nat) := [] -- taken as the instant ends, in sequence order: what would overrun or rebase it, R265
deriving DecidableEq, Repr

/-- A Shoal buffer in use or lost (R280, R307). -/
structure Buf where
  next : Nat                               -- NEXT, 0xFFFFF ends
  touched : Bool                           -- R308
  noted : Bool                             -- found unowned by the previous audit, R307
deriving DecidableEq, Repr

/-- A quarter's free store (R296 to R301). In list mode the buffers returned to the head come first, and behind them the
list runs on in number order. -/
structure Quarter where
  bitmap : Bool := false                   -- in service; false: list mode
  stack : List Nat := []                   -- buffers returned to the head of the list, R297
  run : Nat := 0                           -- where in the quarter the rest of the list begins
  skip : List Nat := []                    -- buffers that the rest leaves out: withheld or owned, R300, R302
  closed : Option (Nat × Nat) := none      -- the head and length recorded as the list closed, R298
  doneAt : Option Nat := none              -- Tide at which the walk of a rebuild ends, R300
  failures : Nat := 0                      -- failed walks, R299
deriving DecidableEq, Repr

/-- One core die's Shoal slice (R280 to R308). -/
structure Slice where
  used : Map Buf := []                     -- buffers that are not free
  withheld : List Nat := []                -- after self-test, R302
  quarters : List Quarter := [{}, {}, {}, {}]
  lastQ : List (Nat × Nat) := []           -- account key to the quarter it last took from, R296
deriving DecidableEq, Repr

/-- SHOAL_SET's parameters (R290). G_IN and G_OUT by VC. -/
structure ShoalCfg where
  gIn : List Nat := [8, 6, 12, 6, 66, 66, 66, 66]
  gOut : List Nat := [8, 6, 12, 6, 66, 66, 66, 66]
  shareCap : Nat := 160
  credAhead : Nat := 112
  embRes : Nat := 128
  poolFloor : Nat := 256
  escWait : Nat := 10000
deriving DecidableEq, Repr

/-- Shoal and resequencer state (R261 to R316). -/
structure Shoal where
  cfg : ShoalCfg := {}
  slices : List Slice := [{}, {}, {}, {}]
  stored : List Stored := []
  flows : List (Nat × Flow) := []          -- (core die, entry)
  everRun : Bool := false                  -- a port has entered RUN since RESET, R291
  auditAt : List (Option Nat) := [none, none, none, none] -- Tide of each die's last audit, R307
  badHeld : List (Nat × Nat) := []         -- retained packets that failed their parity as they were read in this instant, R283
deriving DecidableEq, Repr

/-- A scheduler's parameters (R331). -/
structure SchedCfg where
  floor : Nat := 8
  qCtrl : Nat := 4
  qRsp : Nat := 130
  qCdn : Nat := 130
  qEsc : Nat := 130
  bReq : Nat := 32
  bXfer : Nat := 32
  bCup : Nat := 130
  bEmb : Nat := 130
deriving DecidableEq, Repr

/-- A token bucket: rate in Mb/s, burst in bytes, tokens as of a Tide count (R325, R327). Tokens are held in
1/128,000 byte, in which every fill of whole nanoseconds is exact and 1/1,024 byte is 125. -/
structure Bucket where
  rate : Nat
  burst : Nat
  tokens : Nat
  at_ : Nat
deriving DecidableEq, Repr

/-- A QUEUE_SET entry (R332). -/
structure QEntry where
  port : Nat
  job : Nat
  qvc : Nat
  weight : Nat
  bucket : Option Bucket
deriving DecidableEq, Repr

/-- A policer (R333). -/
structure Policer where
  isJob : Bool
  key : Nat
  die : Nat
  vcs : Nat                                -- bit 3 REQ, 2 XFER, 1 CUP, 0 EMB
  bucket : Bucket
deriving DecidableEq, Repr

/-- A packet that passed a port in this instant: the soundings count it as the instant ends, so that a SOUNDING_SET of that
instant counts it under the new setting (R275, R276). -/
structure Heard where
  port : Nat
  out : Bool
  pkt : Packet
  flags : Nat                              -- FLAGS, but for the ESC bit and, where it stays, its hold
  queue : Nat
  depth : Nat
  node : Nat
  tag : Nat
  stays : List (Nat × Nat) := []           -- where it was stored as it came: die and first buffer
deriving DecidableEq, Repr

/-- A sounding sampler (R275). -/
structure Sounding where
  n : Nat
  svcs : Nat
  count : Nat := 0
  seq : Nat := 0
  en : Bool := true
deriving DecidableEq, Repr

/-! ## Links and lanes -/

/-- LN_STAT.LSTATE (R380). -/
inductive LState where
  | down | detect | switch | coeff | align | keying | run | neap | lowWater | test
deriving DecidableEq, Repr

/-- The peer exchange of one port (R529 to R535). -/
structure Peer where
  role : Option Nat := none                -- 0 Q7, 1 endpoint, once passed
  epid : Nat := 0                          -- claimed EPID
  leaf : List Byte := []                   -- recorded leaf public key
  myHello : List Byte := []
  myCert : List Byte := []
  myProof : List Byte := []
  hello : List Byte := []
  cert : List Byte := []
  proof : List Byte := []
  segs : Option (Nat × Nat × List Byte) := none -- message in reception: CTYPE, next SEG, bytes
  startAt : Nat := 0                       -- pair 0, R532
  eph : List Byte := []                    -- own ephemeral private key, discarded once the keys are derived, R531
  h2 : List Byte := []                     -- H2, R531
  prk : List Byte := []                    -- PRK_L, R531
  switchTx : Option Nat := none            -- own SWITCH_PAIR, once FINISH is sent, R532
  switchRx : Option Nat := none            -- the peer's, once its FINISH verified
  runTx : Bool := false
  runRx : Bool := false
  aborts : List Nat := []                  -- Tide of the aborts, R533
  held : Bool := false                     -- held DOWN until ENABLE is rewritten, R533
  measured : List Byte := []               -- the last MEAS_RSP received, R529
deriving DecidableEq, Repr

/-- A DATA flit held for replay (R348): FSN, SOP, BADP, plaintext payload under byte parity. -/
structure HeldFlit where
  fsn : Nat
  sop : Nat
  badp : Bool
  payload : List (Byte × Bool)
  at_ : Nat
deriving DecidableEq, Repr

/-- A packet on a link (R342, R348): begun, waiting, or sent whole and not yet acknowledged. Die 4 when no
Shoal buffer holds it. -/
structure TxPkt where
  pkt : Packet
  badp : Bool := false
  die : Nat := 4
  buf : Nat := 0
  queue : Nat := 64                        -- the egress queue it left, R304
  par : List Bool                          -- the parity of its bytes, R474
  lastFsn : Option Nat := none             -- the DATA flit that carries its last byte
deriving DecidableEq, Repr

/-- The link layer of one port (R335 to R362). -/
structure Link where
  expect : Nat := 0
  nextFsn : Nat := 0
  replay : List HeldFlit := []
  resend : List Nat := []                  -- FSNs still to send again, R350
  waitingFor : Bool := false               -- waiting for EXPECT, R349
  nakvDue : Bool := false
  nakvAt : Nat := 0
  rewound : Option (Nat × Nat) := none     -- (a, Tide) of the last rewind, R350
  issued : List Nat := [0, 0, 0, 0, 0, 0, 0, 0, 0] -- CRED sent, R340
  taken : List Nat := [0, 0, 0, 0, 0, 0, 0, 0, 0]  -- last CRED taken, R357
  avail : List Nat := [0, 0, 0, 0, 0, 0, 0, 0, 0]  -- credits held, R357
  msgs : List (List Byte) := []            -- link messages waiting, R361
  rx : List (Byte × Bool) := []            -- bytes of the packet in reassembly, under parity, R342, R475
  rxPkts : List Packet := []               -- packets reassembled, waiting for their ingress
  credOut : List Nat := [0, 0, 0, 0, 0, 0, 0, 0, 0] -- credits issued and unused, R286
  tx : List TxPkt := []                    -- packets given to the link and not acknowledged whole, in order
  txOff : Nat := 0                         -- bytes already sent of the first one not sent whole
  slotTx : Nat := 0
  slotRx : Nat := 0
  baseTx : Nat := 0                        -- slots sent before slot 0 of RUN: PAIR_NO counts on over the switch, R336
  baseRx : Nat := 0
  keyTx : List Byte := []
  keyRx : List Byte := []
  keyTxNo : Nat := 0
  keyRxNo : Nat := 0
  keyTxSlot : Nat := 0                     -- slot of the last key change, R360
  saltTx : List Byte := []
  saltRx : List Byte := []
  authFails : List Nat := []               -- Tide of LL_AUTH failures, R352
  goodAt : Nat := 0                        -- last flit that passed, R352
  dataAt : Nat := 0                        -- last DATA flit in either direction, R548
  syncAt : Nat := 0                        -- last TIDE_SYNC sent, R362
  sent : List (List Byte) := []            -- flits closed, oldest first
  rxMsgs : List (List Byte) := []          -- link messages received, each until its own command takes it, R361
deriving DecidableEq, Repr

/-- One port: its state in every chapter that names ports. -/
structure Port where
  lstate : LState := .down
  rate : Nat := 0
  agreed : Nat := 0                        -- rate the countdown of DETECT leads to, R387
  failed : Nat := 0                        -- FAILED, bits 2..0: 224, 112, 56, R380
  trainFail : Bool := false
  trainFailAt : Option Nat := none         -- the instant TRAIN_FAIL was last set, R16
  reversed : Bool := false
  squelched : Bool := true
  disableAt : Option Nat := none           -- squelch due 1 µs after ENABLE 0, R378
  signal : Bool := false                   -- DETECT: signal on every lane, R386
  phaseAt : Nat := 0                       -- start of the training phase, R386
  countdown : Option Nat := none           -- frames left, R389
  framePos : Nat := 4096                   -- symbols of the training frame on the line that have left, R381
  countOn : Bool := false                  -- that frame is one of the countdown's, R383
  retryAt : Option Nat := none             -- end of the 1 ms pause, R390
  link : Link := {}
  peer : Peer := {}
  masked : Bool := false                   -- port-down mask, R258
  declared : Option Nat := none            -- declared down, mask not yet committed
  reenter : Bool := false                  -- went down during a stop: its packets re-enter path choice at the resume, R461
  cliffHold : Option Nat := none           -- squelched since, after CLIFF_NOTICE, R493
  reqKind : Nat := 0                       -- lane power request: 0 none, 1 Neap, 2 Low water, R394
  reqTag : Nat := 0
  reqTries : Nat := 0
  reqAt : Nat := 0
  pktsTx : Nat := 0                        -- R458
  pktsRx : Nat := 0
  dim : Nat := 3                           -- R311
  dl : Bool := false
  soundIn : Option Sounding := none
  soundOut : Option Sounding := none
  sched : SchedCfg := {}
  ingress : Map (List (Nat × Nat)) := []   -- credit class to stored packets (die, buffer), in order, R288
  queues : Map (List (Nat × Nat)) := []    -- queue 0-63 to stored packets, R317
  deficit : Map Nat := []
  round : Nat := 0                         -- round pointer, R321
  fillRound : Nat := 0                     -- round pointer of the FILL queues' own round, R322
  fillC : Nat := 0                         -- fill credit C in 1/256 byte, R322
  slots : Map (Nat × Nat) := []            -- job slot to (job, empty since), R318
deriving DecidableEq, Repr

/-- One lane: its registers and its training (R377 to R402). -/
structure Lane where
  ctl : Word := 0x01400000                 -- RX_POL_AUTO 1, REV_ALLOW 1, R377
  cfgRej : Bool := false
  cfgRejAt : Option Nat := none            -- the instants CFG_REJ and ERR_OVF were last set, R16
  ovfAt : Option Nat := none
  rxInvDet : Bool := false
  lidxIn : Nat := 0
  taps : List Int := [0, 0, 0, 63, 0]      -- CM3 CM2 CM1 C0 CP1, preset 1, R384
  testTaps : List Int := [0, 0, 0, 63, 0]  -- LN_TAPS as written in TEST, R398
  prbs : Word := 0x00800000                -- GRAY 1, R397
  prbsErr : Nat := 0
  prbsBits : Nat := 0
  inj : Word := 0                          -- R399
  injDone : Nat := 0
  injLeft : Nat := 0                       -- bits, pairs or flits left of the interval of GAP, R399
  injCrc : Bool := false                   -- an interval has elapsed: the next DATA flit's CRC is corrupted, R399, R400
  injForce : Option (Nat × Word) := none   -- the lane source forced here and its location, until what it corrupts has been sent, R501
  injFlit : Bool := false                  -- the lane's next flit leaves with a flipped tag bit, R501
  injSym : Option (Bool × Nat) := none     -- symbols to corrupt in the next codeword (both of the pair), R400, R501
  injBit : Bool := false                   -- the next pattern bit leaves inverted, R399
  eyeCtl : Word := 0x00001400              -- DWELL 20, R402
  eyeErr : Nat := 0
  eyeCnt : Nat := 0
  rid : Nat := 0                           -- own request number
  echo : Nat := 0                          -- RID_ECHO sent, R383
  tapSt : List Nat := [0, 0, 0, 0, 0]
  rxReady : Bool := false
  farRates : Nat := 0
  farTrained : Bool := false
  farLidx : Nat := 0
  farWidth : Nat := 0
  markers : Nat := 0                       -- consecutive markers received, frame lock at three, R386
  noMarker : Nat := 0                      -- frames sent since the last marker received, R390
  farCount : Option Nat := none            -- COUNT of the far end's last frame, while its GO is set, R383
  pairTx : List (List Byte) := []          -- flits of the codeword pair being filled, R335
  line : List Nat := []                    -- the symbols last sent: a pair, a frame, a marker or a pattern, R370, R371, R381
  trainGen : Nat := 0x1FFF                 -- state of the PRBS13 of its training frames, R381
  genPos : Option Nat := none              -- state of the pattern generator, once it drives the line, R397
  symTx : Nat := 0                         -- the precoder's last symbol sent, b_(n-1), R371
  symRx : Nat := 0                         -- the decoder's last symbol received, R371
  bitsRx : List Bool := []                 -- the bits of the pair last received, R370
  pairHdr : BitVec 40 := 0                 -- the header of the pair last received that FEC has corrected, R336
  pairWant : BitVec 40 := 0                -- the header that the receiver expected on it
  pairOk : Bool := true                    -- FEC has corrected the pair being received, R346
deriving DecidableEq, Repr

/-- A lane group's LN_GRP_CFG (R376). -/
structure LaneGroup where
  mode : Nat := 2
  modeRej : Bool := false
  modeRejAt : Option Nat := none           -- the instant MODE_REJ was last set, R16
deriving DecidableEq, Repr

/-- Links, lanes and the Ethernet bridge (R335 to R402, R364 to R369). -/
structure Net where
  ports : Map Port := []
  lanes : Map Lane := []
  groups : Map LaneGroup := []
  macs : Map (Nat × Nat) := []             -- MAC to (port, refreshed at), R368
  ethOut : List (Nat × Nat × Nat) := []    -- frames queued: egress port, die, first buffer, oldest first, R369
  ethWait : List (Nat × Nat × Nat) := []   -- frames that wait in their ingress account for an egress account, R284
  mgmtIn : List (List Byte) := []          -- frames to the management controller, R368
deriving DecidableEq, Repr

/-! ## Faults, security, power, observation -/

/-- The fault collector (R479 to R502). -/
structure Flt where
  lastCliff : Bool := false
  lastCliffAt : Option Nat := none         -- the instants the W1C bits of FLT_SUMMARY were last set, R16
  storm : Bool := false
  stormAt : Option Nat := none
  swell : Bool := false
  swellAt : Option Nat := none
  ripple : Bool := false
  rippleAt : Option Nat := none
  lastSrc : Nat := 0
  swellEv : Bool := false
  rateLim : Nat := 1000
  cliffSrc : Nat := 0
  cliffLoc : Word := 0
  cliffTide : Nat := 0
  injEn : Bool := false
  cliffEn : Bool := false
  armed : Map Word := []                   -- source to the location latched, R501
  cleared : List (Nat × Word × Nat) := []  -- sources cancelled, their locations and the instant, R501
  forceLoc : Word := 0
  window : List (Nat × Word × Nat × Nat × Bool) := [] -- source, location, 1 s window, count, FLT_RATE posted, R480
  notices : List (Nat × Packet) := []      -- CLIFF_NOTICEs sent: port, packet, R486
  mramCliff : Option (Nat × Word × Nat) := none -- R486, R492
  wdArmed : Bool := false
  wdAt : Nat := 0                          -- last refresh, R484
  stalls : List (Nat × Nat) := []          -- region, Tide of its last stall, R484
  deferred : List FaultRec := []           -- detections in the frozen data path, recovered after the resume, R481
  bridges : List (Word × Nat × Nat) := []  -- bridge, flit, times it has failed its CRC, R482
  deadDies : List Nat := []                -- lane dies 0-11 under source 0x24: their ports are held DOWN, R484, R604
deriving DecidableEq, Repr

/-- A flash slot (R508): no record, or WRITE_SEQ and the bundle. -/
structure Flash where
  seq : Nat := 0
  bundle : Option (List Byte) := none
deriving DecidableEq, Repr

/-- Firmware in force (R509 to R513). -/
structure Firmware where
  slot : Nat := 3                          -- ID_FW.FW_SLOT, 3 none yet
  id : Nat := 0
  svn : Nat := 0
  schemaMin : Nat := 0
  schemaMax : Nat := 0
  mgmtDigest : BitVec 512 := 0             -- measurement 3
  laneDigest : BitVec 512 := 0             -- measurement 4
deriving DecidableEq, Repr

/-- Configuration in force (R515 to R520). -/
structure Cfg where
  slot : Nat := 3                          -- ID_CFG.CFG_SLOT, 3 none
  id : Nat := 0
  svn : Nat := 0
  bundle : List Byte := []
  fabric : Nat := 0
  requireIde : Bool := false
  anchors : List (List Byte) := []
  revoked : List (List Byte) := []
  saveKey : Option (List Byte) := none
  policy : Nat := 0
deriving DecidableEq, Repr

/-- The security root's state (R503 to R535). -/
structure Sec where
  flash : List Flash := [{}, {}, {}, {}]   -- firmware A, B, configuration A, B
  fw : Firmware := {}
  cfg : Cfg := {}
  fwSvn : Nat := 0                         -- MRAM counter, R520
  cfgSvn : Nat := 0
  owner : Option (List Byte × Nat) := none -- owner ID and recorded EPID, R506
  epid : Option Nat := none                -- this Q7's recorded endpoint ID, R591 (from the owner record or bundle)
  fresh : Nat := 0                         -- the model's own counter over the random source (log entry 5)
  advanced : Bool := false                 -- SVNs advanced under the bundles in force, R520
  nextFw : Option Nat := none              -- firmware slot that an ACTIVATE named for the restart, R524
deriving DecidableEq, Repr

/-- One region's power and ageing (R29, R543 to R559). -/
structure Rgn where
  gated : Bool := false
  gatedAt : Nat := 0
  opening : Bool := false
  ebb : Bool := false
  ebbAt : Nat := 0
  ebbLast : Nat := 0                       -- its last crossing, R544, R546
  ebbMs : Nat := 0                         -- throttled ns of ended throttles in the 1 ms window below, R560
  ebbWin : Nat := 0
  heavyAt : Option Nat := none             -- window for which EBB_HEAVY was posted
  pace : Nat := 0
  margin : Int := 0
  life : Nat := 0xFFFF
  paceDue : Option Nat := none             -- pacing that a re-plan leaves once Ebb releases the die, R554
  lowPosted : Bool := false
  temp : Int := 0
  idleAt : Nat := 0                        -- unassigned since, R548
  measuredAt : Option Nat := none          -- Tide of the last measurement, R551
deriving DecidableEq, Repr

/-- Power policy (R539 to R560). -/
structure Pwr where
  rgns : List Rgn := [{}, {}, {}, {}, {}, {}, {}, {}, {}, {}, {}, {}, {}, {}, {}, {}]
  vofs : List Nat := [0, 0, 0, 0]
  replanAt : List (Option Nat) := [none, none, none, none] -- Tide of each die's last re-plan, R553, R554
  lmin : Nat := 10000                      -- R547 PWR_LMIN
  replanLo : Word := 0
  replanHi : Word := 0
  replanArmed : Bool := false
  thermWarn : Bool := false                -- posted and not rearmed, R556
  thermTemps : Map Int := []               -- lane die and MD sensors
deriving DecidableEq, Repr

/-- A counter or gauge: value and sticky overflow (R561). -/
structure Ctr where
  val : Nat
  ovf : Bool := false
deriving DecidableEq, Repr

/-- Key of a counter: scope, instance, index (R564). -/
abbrev CKey := Nat × Nat × Nat

/-- A snapshot as armed (R566). -/
structure Snap where
  window : Nat
  scope : Nat
  first : Nat
  count : Nat
  mark : Nat
  desc : Nat × Nat := (0, 0)
  fixed : Bool := false                    -- taken after the cut: its Tidemark does not move, R465
deriving DecidableEq, Repr

/-- A snapshot window (R568, R569). -/
structure Win2 where
  state : Nat := 0                         -- 0 EMPTY, 1 ARMED, 2 WRITING, 3 READY
  scope : Nat := 0
  pend : Bool := false
  seq : Nat := 0
  mark : Nat := 0
  taken : Nat := 0
  first : Nat := 0
  count : Nat := 0
  nrec : Nat := 0
  records : List Byte := []
deriving DecidableEq, Repr

/-- One die's wait trace (R575 to R580). -/
structure Trace where
  en : Bool := false
  budget : Nat := 3
  minWait : Nat := 1000
  types : Nat := 15
  job : Nat := 0
  ringMib : Nat := 64
  allocated : Bool := false
  records : List (List Byte) := []
  lost : Bool := false
  tokens : Nat := 65536000                 -- in 1/1,000 byte, R578
  tokensAt : Nat := 0
  fillPosted : Bool := false
  hi : Nat := 0                            -- Tide bits [63:48] last recorded, R576
deriving DecidableEq, Repr

/-- Counters, snapshots, traces (R561 to R580). -/
structure Obs where
  ctrs : List (CKey × Ctr) := []
  gens : List ((Nat × Nat) × Nat) := []
  snaps : List Snap := []
  resets : List Snap := []
  windows : Map Win2 := []
  traces : List Trace := [{}, {}, {}, {}]
  sndWindow : Nat × Nat := (0, 0)          -- second, soundings written in it, R278
  mgmtSnd : List (List Byte) := []         -- soundings delivered to the management controller, R276
  heard : List Heard := []                 -- packets of this instant that the soundings have still to count, R275
deriving DecidableEq, Repr

/-! ## The whole machine -/

/-- The state of the block: every chapter's state and the queue of commands waiting, first in first out. -/
structure State where
  pending : List Instr := []
  dev : Dev := {}
  part : Part := {}
  host : HostIf := {}
  tide : Tide := {}
  stop : Stop := {}
  launches : List Launch := []
  groups : Map Group := []
  emb : Emb := {}
  mem : MemSp := {}
  route : Route := {}
  shoal : Shoal := {}
  qents : List QEntry := []
  policers : List Policer := []
  net : Net := {}
  flt : Flt := {}
  sec : Sec := {}
  pwr : Pwr := {}
  obs : Obs := {}
  restoring : List Byte := []              -- image bytes loaded so far, R470
deriving DecidableEq, Repr

/-- The block never stops: every error the spec gives is a status, a packet, an event or a counter. The
one reason is for a malformed state that no command makes; no meaning raises it. -/
inductive Fault where
  /-- Raised by no meaning: the spec gives every command an effect. Safe. -/
  | none
deriving DecidableEq, Repr

/-- Reasons a command has no meaning in this model. -/
inductive Refusal where
  /-- Raised by the dispatch alone, for a command not modelled yet, by its mnemonic. Safe. -/
  | notModelled (mnemonic : String)
deriving DecidableEq, Repr

/-- The machine right after RESET_N is released: device state BOOT, as the reset column of R592 gives
it, every register at its reset value, memory with nothing listed, no command waiting. -/
def State.reset : State := {}

end Sys2Proof.Machine
end

