-- ==== Sys2Proof/Machine/Bits.lean ====
section
/-! DEFINITION. Bit fields, byte strings, maps by number and byte memory: the plain-data operations every
chapter uses. Field maps of the spec are written [high:low], most significant field first. -/

namespace Sys2Proof.Machine

/-! ## Bit fields -/

/-- Field [hi:lo] of a bit field, as a number. -/
def fld {n : Nat} (w : BitVec n) (hi lo : Nat) : Nat := (w.toNat >>> lo) % 2 ^ (hi + 1 - lo)

/-- Bit `i` of a bit field. -/
def bitAt {n : Nat} (w : BitVec n) (i : Nat) : Bool := fld w i i == 1

/-- A bit field with field [hi:lo] replaced. -/
def setFld {n : Nat} (w : BitVec n) (hi lo v : Nat) : BitVec n :=
  BitVec.ofNat n (w.toNat - (fld w hi lo <<< lo) + ((v % 2 ^ (hi + 1 - lo)) <<< lo))

/-- A bit as a number. -/
def b2n (b : Bool) : Nat := if b then 1 else 0

/-- Fields (width, value) joined, most significant first. -/
def packNat : List (Nat × Nat) → Nat → Nat
  | [], acc => acc
  | (w, v) :: r, acc => packNat r (acc * 2 ^ w + v % 2 ^ w)

/-- A bit field from its fields (width, value), most significant first. -/
def pack (n : Nat) (l : List (Nat × Nat)) : BitVec n := BitVec.ofNat n (packNat l 0)

/-- Positions of the set bits of a mask below `n`, ascending. -/
def bitsOf (n m : Nat) : List Nat := (List.range n).filter (fun i => m.testBit i)

/-- The mask with the listed bits set. -/
def maskOf (l : List Nat) : Nat := l.foldl (fun m i => m ||| 2 ^ i) 0

/-! ## Byte strings -/

/-- `n` bytes of a number, least significant first. -/
def bytesLE : Nat → Nat → List Byte
  | 0, _ => []
  | n + 1, v => BitVec.ofNat 8 v :: bytesLE n (v / 256)

/-- `n` bytes of a number, most significant first. -/
def bytesBE (n v : Nat) : List Byte := (bytesLE n v).reverse

/-- The number that bytes spell, least significant first. -/
def ofLE : List Byte → Nat
  | [] => 0
  | b :: r => b.toNat + 256 * ofLE r

/-- The number that bytes spell, most significant first. -/
def ofBE (l : List Byte) : Nat := ofLE l.reverse

/-- `n` bytes from offset `off`, zeros beyond the end. -/
def sliceB (l : List Byte) (off n : Nat) : List Byte :=
  let t := (l.drop off).take n
  t ++ List.replicate (n - t.length) 0

/-- `n` bytes from `off` as a little-endian number. -/
def leAt (l : List Byte) (off n : Nat) : Nat := ofLE (sliceB l off n)

/-- `n` bytes from `off` as a big-endian number. -/
def beAt (l : List Byte) (off n : Nat) : Nat := ofBE (sliceB l off n)

/-- The byte at `off`, zero beyond the end. -/
def byteAt (l : List Byte) (off : Nat) : Nat := leAt l off 1

/-- Bytes cut into pieces of `n`; `fuel` bounds the number of pieces. -/
def chunksOf {α : Type} (n : Nat) : Nat → List α → List (List α)
  | 0, _ => []
  | fuel + 1, l => if l.isEmpty then [] else l.take n :: chunksOf n fuel (l.drop n)

/-- Bytes cut into pieces of `n`, the last one short where the length is no multiple. -/
def pieces {α : Type} (n : Nat) (l : List α) : List (List α) := chunksOf n l.length l

/-- `l` with the bytes from `off` replaced by `b`; positions beyond the end grow with zeros. -/
def putBytes (l : List Byte) (off : Nat) (b : List Byte) : List Byte :=
  sliceB l 0 off ++ b ++ l.drop (off + b.length)

/-- Minimum of (a, b) where none means no bound. -/
def optMin (a b : Option Int) : Option Int :=
  match a, b with
  | none, y => y
  | x, none => x
  | some x, some y => some (min x y)

/-- Maximum of (a, b) where none means none (EXP of R88). -/
def optMax (a b : Option Int) : Option Int :=
  match a, b with
  | none, y => y
  | x, none => x
  | some x, some y => some (max x y)

/-- Two's complement value of an `n`-bit number. -/
def toSigned (n v : Nat) : Int := if v % 2 ^ n < 2 ^ (n - 1) then (v % 2 ^ n : Nat) else (v % 2 ^ n : Nat) - (2 ^ n : Nat)

/-- The low `n` bits of an integer. -/
def ofSigned (n : Nat) (v : Int) : Nat := (v % (2 ^ n : Nat)).toNat

/-- Quotient rounded up. -/
def ceilDiv (a b : Nat) : Nat := (a + b - 1) / b

/-- Binary digits of a number: the least `k` with `v < 2 ^ k`; `fuel` bounds it. -/
def bitLen (v : Nat) : Nat := if v == 0 then 0 else Nat.log2 v + 1

/-- Insert into an ascending list without repeats. -/
def insertAsc (x : Nat) : List Nat → List Nat
  | [] => [x]
  | y :: r => if x < y then x :: y :: r else if x = y then y :: r else y :: insertAsc x r

/-- Add an element to a list of distinct elements. -/
def addNew {α : Type} [DecidableEq α] (l : List α) (x : α) : List α := if x ∈ l then l else l ++ [x]

/-- Insert by a key, ascending, after equal keys. -/
def insertBy {α : Type} (key : α → Nat) (x : α) : List α → List α
  | [] => [x]
  | y :: r => if key x < key y then x :: y :: r else y :: insertBy key x r

/-- Sort by a key, ascending, keeping the order of equal keys. -/
def sortBy {α : Type} (key : α → Nat) (l : List α) : List α := l.foldl (fun acc x => insertBy key x acc) []

/-- `List.set` with growth by a default. -/
def setAt {α : Type} (l : List α) (i : Nat) (x : α) : List α := l.set i x

/-- The element at `i`, or a default. -/
def nth {α : Type} (l : List α) (i : Nat) (d : α) : α := (l[i]?).getD d

/-- The element at `i` changed by `f`. -/
def modAt {α : Type} (l : List α) (i : Nat) (f : α → α) : List α :=
  match l[i]? with
  | some x => l.set i (f x)
  | none => l

/-- Sum of a list. -/
def sumOf {α : Type} (l : List α) (f : α → Nat) : Nat := l.foldl (fun n x => n + f x) 0

/-! ## Maps by number -/

/-- The entry of a key. -/
def mget {α : Type} : Map α → Nat → Option α
  | [], _ => none
  | (k, v) :: r, a => if k = a then some v else mget r a

/-- The entry of a key, or a default. -/
def mgetD {α : Type} (m : Map α) (k : Nat) (d : α) : α := (mget m k).getD d

/-- Set the entry of a key. -/
def mput {α : Type} : Map α → Nat → α → Map α
  | [], a, v => [(a, v)]
  | (k, w) :: r, a, v => if a < k then (a, v) :: (k, w) :: r else if k = a then (a, v) :: r else (k, w) :: mput r a v

/-- Remove the entry of a key. -/
def mdel {α : Type} (m : Map α) (a : Nat) : Map α := m.filter (fun e => e.1 != a)

/-- Change the entry of a key that has one. -/
def mmod {α : Type} (m : Map α) (a : Nat) (f : α → α) : Map α := m.map (fun e => if e.1 = a then (e.1, f e.2) else e)

/-! ## Byte memory -/

/-- What an unlisted address reads as (log entry 8). -/
def blank : Byte := 0

/-- The byte at an address. -/
def memRead : Memory → Nat → Byte
  | [], _ => blank
  | (k, v) :: r, a => if k = a then v else memRead r a

/-- Insert a byte, keeping the addresses rising. -/
def memInsert : Memory → Nat → Byte → Memory
  | [], a, v => [(a, v)]
  | (k, w) :: r, a, v => if a < k then (a, v) :: (k, w) :: r else if k = a then (a, v) :: r else (k, w) :: memInsert r a v

/-- Write a byte; writing `blank` removes the entry, so equal memories are equal data. -/
def memWrite (m : Memory) (a : Nat) (v : Byte) : Memory :=
  if v = blank then m.filter (fun e => e.1 != a) else memInsert m a v

/-- `n` bytes from an address. -/
def memReadN (m : Memory) (a n : Nat) : List Byte := (List.range n).map (fun i => memRead m (a + i))

/-- Write bytes from an address up. -/
def memWriteN : Memory → Nat → List Byte → Memory
  | m, _, [] => m
  | m, a, b :: r => memWriteN (memWrite m a b) (a + 1) r

/-- The canonical form: addresses strictly rising, no entry equal to `blank`. -/
def memWf : Memory → Bool
  | [] => true
  | [(_, v)] => v != blank
  | (k, v) :: (k', v') :: r => v != blank && decide (k < k') && memWf ((k', v') :: r)

/-- A W1C bit after a write: cleared by 1, but not in the instant in which the Q7 last set it (R16). -/
def w1c (bit clr : Bool) (setAt : Option Nat) (now : Nat) : Bool := bit && !(clr && setAt != some now)

/-! ## Parity (R474, R475) -/

/-- The odd parity bit of a byte: with it the number of ones is odd (R474). -/
def parityBit (b : Byte) : Bool := (bitsOf 8 b.toNat).length % 2 == 0

/-- Bytes with the parity generated for each (R475). -/
def genParity (l : List Byte) : List (Byte × Bool) := l.map (fun b => (b, parityBit b))

/-- The bytes without their parity. -/
def bareBytes (l : List (Byte × Bool)) : List Byte := l.map (·.1)

/-- Every byte passes its parity check (R475, R476). -/
def parityGood (l : List (Byte × Bool)) : Bool := l.all (fun e => e.2 == parityBit e.1)

end Sys2Proof.Machine
end

