-- ==== Sys2Proof/Machine/Packet.lean ====
section
/-! DEFINITION. The Drezh packet header (R237 to R239) and the bodies that follow it: control bodies of 16
bytes and 32-byte sub-headers, most significant byte first. -/

namespace Sys2Proof.Machine

/-! ## Channels and control types -/

/-- VC numbers (R237). -/
def vcCTRL : Nat := 0
def vcREQ : Nat := 1
def vcRSP : Nat := 2
def vcXFER : Nat := 3
def vcCUP : Nat := 4
def vcCDN : Nat := 5
def vcEMB : Nat := 6
def vcESC : Nat := 7

/-- The VC each CTYPE's definition names; none where the CTYPE is reserved (R239, R66, R109, R183, R452,
R458, R466, R498, R529, R616). -/
def ctypeVc (c : Nat) : Option Nat :=
  if c = 0x01 ∨ c = 0x02 ∨ c = 0x08 ∨ c = 0x09 then some vcCTRL
  else if 0x20 ≤ c ∧ c ≤ 0x26 then some vcCTRL
  else if c = 0x30 ∨ c = 0x31 then some vcCTRL
  else if 0x40 ≤ c ∧ c ≤ 0x46 then some vcCTRL
  else if c = 0x47 then some vcCUP
  else if 0x48 ≤ c ∧ c ≤ 0x4A then some vcCDN
  else if 0x4B ≤ c ∧ c ≤ 0x4F then some vcCTRL
  else if c = 0x53 ∨ c = 0x54 then some vcEMB
  else if 0x50 ≤ c ∧ c ≤ 0x55 then some vcCTRL
  else none

/-- The reserved bits of a control body are its lowest ones, so many by CTYPE; APPLY's TIDEMARK reaches down to bit 8 (R66,
R109, R183, R458, R466, R498, R616). -/
def ctypeRsvd (c : Nat) : Nat :=
  if c = 0x08 ∨ c = 0x52 then 8
  else if c = 0x09 then 40
  else if c = 0x30 ∨ c = 0x31 then 62
  else if 0x40 ≤ c ∧ c ≤ 0x46 then 10
  else if 0x47 ≤ c ∧ c ≤ 0x4E then 17
  else if c = 0x4F then 27
  else if 0x50 ≤ c ∧ c ≤ 0x55 then 18
  else 0

/-- The bits of SRC_AUX that a control packet defines: a rank in NAK, MISSING and PACK, an endpoint ID in an EPOCH_NOTICE of
CAUSE 0 or 1, and none in any other (R66, R110, R238). -/
def auxBits (c : Nat) (body : BitVec 128) : Nat :=
  if c = 0x4B ∨ c = 0x4D ∨ c = 0x4E ∨ (c = 0x42 ∧ fld body 11 10 ≤ 1) then 18 else 0

end Sys2Proof.Machine

namespace Sys2Proof.Packet
open Sys2Proof.Machine

/-! ## Header fields (R237) -/

def hver (p : Packet) : Nat := fld p.hdr 127 124
def ptype (p : Packet) : Nat := fld p.hdr 123 122
def vc (p : Packet) : Nat := fld p.hdr 121 119
def ovc (p : Packet) : Nat := fld p.hdr 118 116
def dst (p : Packet) : Nat := fld p.hdr 115 98
def src (p : Packet) : Nat := fld p.hdr 97 80
def job (p : Packet) : Nat := fld p.hdr 79 72
def fseq (p : Packet) : Nat := fld p.hdr 71 40
def hops (p : Packet) : Nat := fld p.hdr 39 34
def dline (p : Packet) : Nat := fld p.hdr 33 31
def fs (p : Packet) : Bool := bitAt p.hdr 30
def gap (p : Packet) : Bool := bitAt p.hdr 29
def rsvd (p : Packet) : Nat := fld p.hdr 28 20
def aux (p : Packet) : Nat := fld p.hdr 19 0
def plen (p : Packet) : Nat := fld p.hdr 13 0

/-- The CTYPE of a control packet, byte 16 (R238). -/
def ctype (p : Packet) : Nat := byteAt p.body 0

/-- The body of a control packet: bytes 16 to 31, bit 127 the most significant of byte 16. -/
def ctl (p : Packet) : BitVec 128 := BitVec.ofNat 128 (beAt p.body 0 16)

/-- The sub-header of a data or jumbo packet: its first 32 payload bytes, bit 255 first. -/
def sub (p : Packet) : BitVec 256 := BitVec.ofNat 256 (beAt p.body 0 32)

/-- The payload bytes after the sub-header. -/
def data (p : Packet) : List Byte := p.body.drop 32

/-- The size of a packet in bytes: 16 + PLEN, or 32 for a control packet (R320). -/
def size (p : Packet) : Nat := if p.ptype = 0 then 32 else 16 + p.plen

/-- The Shoal buffers a packet takes (R281). -/
def bufs (p : Packet) : Nat := ceilDiv p.size 256

def setVc (p : Packet) (v : Nat) : Packet := { p with hdr := setFld p.hdr 121 119 v }
def setSrc (p : Packet) (v : Nat) : Packet := { p with hdr := setFld p.hdr 97 80 v }
def setDst (p : Packet) (v : Nat) : Packet := { p with hdr := setFld p.hdr 115 98 v }
def setFseq (p : Packet) (v : Nat) : Packet := { p with hdr := setFld p.hdr 71 40 v }
def setHops (p : Packet) (v : Nat) : Packet := { p with hdr := setFld p.hdr 39 34 v }
def setDline (p : Packet) (v : Nat) : Packet := { p with hdr := setFld p.hdr 33 31 v }
def setFs (p : Packet) (v : Bool) : Packet := { p with hdr := setFld p.hdr 30 30 (b2n v) }
def setGap (p : Packet) (v : Bool) : Packet := { p with hdr := setFld p.hdr 29 29 (b2n v) }

/-- The checks of R240 on a packet as the link layer delivers it. -/
def wellFormed (p : Packet) : Bool :=
  p.hver == 1 && p.ptype != 3
  && (if p.ptype == 0 then p.body.length == 16
      else fld p.hdr 19 14 == 0 && p.body.length == p.plen
        && (if p.ptype == 1 then decide (1 ≤ p.plen ∧ p.plen ≤ 512) else decide (513 ≤ p.plen ∧ p.plen ≤ 8192)))
  && (match p.ptype with
      | 0 => true
      | 1 => p.vc != vcCTRL && p.ovc != vcCTRL
      | _ => (p.vc == vcESC || decide (4 ≤ p.vc)) && decide (4 ≤ p.ovc))
  && p.ovc != 7 && (p.vc == p.ovc || p.vc == vcESC)
  && p.rsvd == 0
  && (p.ptype != 0 || (ctypeVc p.ctype == some p.ovc && p.ctl.toNat % 2 ^ ctypeRsvd p.ctype == 0
    && decide (p.aux < 2 ^ auxBits p.ctype p.ctl)))

end Sys2Proof.Packet

namespace Sys2Proof.Machine

/-- A header from its fields; HVER 1, HOPS, DLINE, GAP and the reserved bits zero (R237, R242). -/
def mkHdr (ptype ovc dst src job fseq : Nat) (fs : Bool) (aux : Nat) : BitVec 128 :=
  pack 128 [(4, 1), (2, ptype), (3, ovc), (3, ovc), (18, dst), (18, src), (8, job), (32, fseq), (6, 0), (3, 0),
    (1, b2n fs), (1, 0), (9, 0), (20, aux)]

/-- A control packet not yet numbered: its channel, destination, job, SRC_AUX and body. -/
def ctlPkt (ovc dst job aux : Nat) (body : BitVec 128) : Packet :=
  { hdr := mkHdr 0 ovc dst 0 job 0 false aux, body := bytesBE 16 body.toNat }

/-- A data or jumbo packet not yet numbered, by the length of its payload (R238). -/
def dataPkt (ovc dst job : Nat) (sub : BitVec 256) (data : List Byte) : Packet :=
  let b := bytesBE 32 sub.toNat ++ data
  { hdr := mkHdr (if b.length ≤ 512 then 1 else 2) ovc dst 0 job 0 false b.length, body := b }

/-! ## The collective sub-header (R64) -/

def scGroup (b : BitVec 256) : Nat := fld b 231 208
def scEpoch (b : BitVec 256) : Nat := fld b 207 192
def scCall (b : BitVec 256) : Nat := fld b 191 168
def scChunk (b : BitVec 256) : Nat := fld b 167 144
def scRank (b : BitVec 256) : Nat := fld b 143 126
def scPhase (b : BitVec 256) : Nat := fld b 113 112
def scDlen (b : BitVec 256) : Nat := fld b 111 96
def scLast (b : BitVec 256) : Bool := bitAt b 95
def scZero (b : BitVec 256) : Bool := bitAt b 94
def scResend (b : BitVec 256) : Bool := bitAt b 93
def scPiece (b : BitVec 256) : Nat := fld b 91 88
def scRoot (b : BitVec 256) : Nat := fld b 87 70
def scHash (b : BitVec 256) : Nat := fld b 63 0

/-! ## The packet's bytes (R281, R342, R475) -/

/-- The bytes of a packet in Shoal and on a link, header first (R281, R342). -/
def storedBytes (k : Packet) : List Byte := bytesBE 16 k.hdr.toNat ++ k.body

/-- The parity the ingress link layer or the engine that builds a packet gives it (R475). -/
def packetParity (k : Packet) : List Bool := (storedBytes k).map parityBit

end Sys2Proof.Machine
end

