-- ==== Sys2Proof/Machine/Ops.lean ====
section
/-! DEFINITION. The operations every chapter shares: reading and changing one part of the state, counters
(R561), events (R431 to R433), interrupts (R429, R430), completions (R421 to R423), the taking of an
accepted descriptor (R419, R420), the tags of tables (R268 to R273), and the packets this Q7 originates
(R242 to R244). -/

namespace Sys2Proof.Machine

/-! ## Parts of the state -/

def onDev (f : Dev → Dev) (s : State) : State := { s with dev := f s.dev }
def onPart (f : Part → Part) (s : State) : State := { s with part := f s.part }
def onHost (f : HostIf → HostIf) (s : State) : State := { s with host := f s.host }
def onTide (f : Tide → Tide) (s : State) : State := { s with tide := f s.tide }
def onStop (f : Stop → Stop) (s : State) : State := { s with stop := f s.stop }
def onEmb (f : Emb → Emb) (s : State) : State := { s with emb := f s.emb }
def onMem (f : MemSp → MemSp) (s : State) : State := { s with mem := f s.mem }
def onRoute (f : Route → Route) (s : State) : State := { s with route := f s.route }
def onShoal (f : Shoal → Shoal) (s : State) : State := { s with shoal := f s.shoal }
def onNet (f : Net → Net) (s : State) : State := { s with net := f s.net }
def onFlt (f : Flt → Flt) (s : State) : State := { s with flt := f s.flt }
def onSec (f : Sec → Sec) (s : State) : State := { s with sec := f s.sec }
def onPwr (f : Pwr → Pwr) (s : State) : State := { s with pwr := f s.pwr }
def onObs (f : Obs → Obs) (s : State) : State := { s with obs := f s.obs }

def onRing (r : Nat) (f : Ring → Ring) : State → State :=
  onHost (fun h => { h with rings := mput h.rings r (f (mgetD h.rings r {})) })
def onFunc (n : Nat) (f : Func → Func) : State → State :=
  onHost (fun h => { h with funcs := mput h.funcs n (f (mgetD h.funcs n {})) })
def onPort (p : Nat) (f : Port → Port) : State → State :=
  onNet (fun n => { n with ports := mput n.ports p (f (mgetD n.ports p {})) })
def onLink (p : Nat) (f : Link → Link) : State → State := onPort p (fun x => { x with link := f x.link })
def onPeer (p : Nat) (f : Peer → Peer) : State → State := onPort p (fun x => { x with peer := f x.peer })
def onLane (l : Nat) (f : Lane → Lane) : State → State :=
  onNet (fun n => { n with lanes := mput n.lanes l (f (mgetD n.lanes l {})) })
def onGroup (g : Nat) (f : Group → Group) (s : State) : State := { s with groups := mmod s.groups g f }
def onTable (t : Nat) (f : Table → Table) : State → State := onEmb (fun e => { e with tables := mmod e.tables t f })
def onSlice (d : Nat) (f : Slice → Slice) : State → State :=
  onShoal (fun h => { h with slices := modAt h.slices d f })

def getRing (s : State) (r : Nat) : Ring := mgetD s.host.rings r {}
def getFunc (s : State) (n : Nat) : Func := mgetD s.host.funcs n {}
def getPort (s : State) (p : Nat) : Port := mgetD s.net.ports p {}
def getLane (s : State) (l : Nat) : Lane := mgetD s.net.lanes l {}
def getGroup (s : State) (g : Nat) : Option Group := mget s.groups g
def getTable (s : State) (t : Nat) : Option Table := mget s.emb.tables t
def getSlice (s : State) (d : Nat) : Slice := nth s.shoal.slices d {}

/-- Apply `f` when the condition holds. -/
def onlyIf (c : Bool) (f : State → State) (s : State) : State := if c then f s else s

/-- Apply `f` for each element, in order. -/
def forAll {α : Type} (l : List α) (f : α → State → State) (s : State) : State := l.foldl (fun t x => f x t) s

/-- Device-state codes (R582, R592). -/
def devCode : DevState → Nat
  | .reset => 0 | .boot => 1 | .hold => 2 | .train => 3 | .run => 4 | .stopped => 5 | .cliff => 6

/-- The engines and the data path take packets: TRAIN or RUN, and no cut in force (R456, R582). -/
def engineOn (s : State) : Bool := (s.dev.state == .train || s.dev.state == .run) && !s.stop.frozen

/-- The Q7 runs: not in RESET, and not in CLIFF (R491, R582). -/
def regsLive (s : State) : Bool := s.dev.state != .reset && s.dev.state != .cliff

/-- What the Q7 does by itself, it does neither in RESET nor in CLIFF: RESET holds everything at its reset value
(R582), and CLIFF has stopped the engines, the accepting and the transmitters (R486, R491). -/
def whenLive (f : State → State) (s : State) : State := if regsLive s then f s else s

/-- A Tide count has been reached. -/
def due (s : State) (t : Nat) : Bool := decide (t ≤ s.tide.now)

/-! ## Status codes (R79, R417 to R419, R436) -/

def stDONE : Nat := 0x00
def stSHAPE : Nat := 0x02
def stSTALE : Nat := 0x03
def stABORTED : Nat := 0x04
def stDENIED : Nat := 0x05
def stPOISONED : Nat := 0x06
def stTIMEOUT : Nat := 0x07
def stNORES : Nat := 0x08
def stBAD : Nat := 0x09
def stOVERFLOW : Nat := 0x0A
def stHELD : Nat := 0x0B

/-- The opcodes taken in STOPPED (R464). -/
def stoppedOpcode (c : Nat) : Bool :=
  c == 0x00 || c == 0x0A || c == 0x0B || c == 0x10 || c == 0x12 || c == 0x14 || c == 0x27 || c == 0x41
  || c == 0x61 || c == 0x72 || c == 0x73

/-! ## Places -/

/-- The core die of a lane or port (R21). -/
def dieOf (p : Nat) : Nat := p / 192

/-- The width in lanes of the ports of a lane group (R374, R376); 0 for an Ethernet-mode group is kept apart. -/
def groupMode (s : State) (p : Nat) : Nat := (mgetD s.net.groups (p / 16) {}).mode

/-- Clock numbers: 0-11 LREF of LD0-LD11, 12-13 PREF of the PCIe links, 14-17 HREF of core dies, 18 MGMT_CLK, 19 TREF
(R603). The stacks of a core die whose reference clock is lost answer no access (R604). -/
def hbmLost (s : State) (d : Nat) : Bool := s.dev.clocksAbsent.contains (14 + d)

/-! ## Counters (R561, R564) -/

def ctrMax : Nat := 2 ^ 64 - 1

def ctrOf (o : Obs) (k : CKey) : Ctr := ((o.ctrs.find? (fun e => e.1 == k)).map (·.2)).getD ⟨0, false⟩

def ctrSet (o : Obs) (k : CKey) (c : Ctr) : Obs :=
  { o with ctrs := if o.ctrs.any (fun e => e.1 == k) then o.ctrs.map (fun e => if e.1 == k then (k, c) else e)
                   else o.ctrs ++ [(k, c)] }

/-- Add to a counter, holding the maximum and setting its sticky overflow bit (R561). -/
def ctrAdd (n : Nat) (c : Ctr) : Ctr :=
  if c.val + n ≤ ctrMax then { c with val := c.val + n } else ⟨ctrMax, true⟩

/-- The value of a counter. -/
def ctrVal (s : State) (k : CKey) : Nat := (ctrOf s.obs k).val

/-- The generation of an instance (R571). -/
def genOf (o : Obs) (k : Nat × Nat) : Nat := ((o.gens.find? (fun e => e.1 == k)).map (·.2)).getD 0

/-- Count without the event of saturation. -/
def countRaw (k : CKey) (n : Nat) : State → State := onObs (fun o => ctrSet o k (ctrAdd n (ctrOf o k)))

/-- Raise a gauge that holds a highest value. -/
def gaugeMax (k : CKey) (v : Nat) : State → State :=
  onObs (fun o => ctrSet o k { (ctrOf o k) with val := max v (ctrOf o k).val })

/-- Set a gauge to its present value. -/
def gaugeSet (k : CKey) (v : Nat) : State → State := onObs (fun o => ctrSet o k ⟨v, false⟩)

-- DEVICE
def kHOST_BADACC : CKey := (0, 0, 0)
def kHOST_CPL_DROP : CKey := (0, 0, 1)
def kEVT_UNMAPPED : CKey := (0, 0, 2)
def kEVT_DROP : CKey := (0, 0, 3)
def kLAUNCH_STRAY : CKey := (0, 0, 4)
def kSND_DROP : CKey := (0, 0, 5)
def kTRACE_DROP : CKey := (0, 0, 6)
def kETH_LEARN_FULL : CKey := (0, 0, 7)
/-- PORT counters by index (R564). -/
def kPort (p i : Nat) : CKey := (1, p, i)
def iRX_PKTS : Nat := 0
def iRX_BYTES : Nat := 1
def iTX_PKTS : Nat := 2
def iTX_BYTES : Nat := 3
def iCUT_THROUGH : Nat := 4
def iPKT_MALFORMED : Nat := 5
def iPORT_UNBOUND : Nat := 6
def iROUTE_NONE : Nat := 7
def iROUTE_LOOP : Nat := 8
def iPOL_DROP : Nat := 9
def iJOB_DENY : Nat := 10
def iMEM_DENY : Nat := 11
def iMEM_MALFORMED : Nat := 12
def iMEM_STRAY : Nat := 13
def iMEM_STALE : Nat := 14
def iESC_MOVE : Nat := 15
def iQSLOT_WAIT : Nat := 16
def iLL_OOS : Nat := 17
def iLL_BADPKT : Nat := 18
def iLN_TRAIN_FAIL : Nat := 19
def iLN_LANEMAP : Nat := 20
def iETH_DROP : Nat := 21
def iETH_BAD : Nat := 22
def iETH_CTL : Nat := 23
def iSHOAL_HELD : Nat := 24
def iSHOAL_HELD_HW : Nat := 25
def iCOLL_BADHASH : Nat := 26
def iGRP_CTL_BAD : Nat := 27
def iENG_DENY : Nat := 28
/-- QUEUE counters: 64p + q, with 768 + d for the LOCAL pseudo-port of die d. -/
def kQueue (p q i : Nat) : CKey := (2, 64 * p + q, i)
/-- ARRAY counters: u 0-7 merge arrays, 8-11 pool arrays. -/
def kArray (d u i : Nat) : CKey := (3, 12 * d + u, i)
def kRegion (r i : Nat) : CKey := (4, r, i)
def iEBB_COUNT : Nat := 0
def iEBB_TIME : Nat := 1
def iGATED_NS : Nat := 2
def kDie (d i : Nat) : CKey := (5, d, i)
def iRSQ_DUP : Nat := 3
def iRSQ_OVERRUN : Nat := 4
def iRSQ_LATE : Nat := 5
def iRSQ_REBASE : Nat := 6
def iRSQ_GAP : Nat := 7
def iRSQ_EVICT : Nat := 8
def iRP_HIT : Nat := 9
def iRP_MISS : Nat := 10
def iHBM_RD : Nat := 11
def iHBM_WR : Nat := 12
def iEMB_DROP : Nat := 13
def kGroup (e i : Nat) : CKey := (6, e, i)
def iCALLS_DONE : Nat := 0
def iCALLS_FAILED : Nat := 1
def iCHUNKS_SEALED : Nat := 2
def iCHUNKS_RECOVERED : Nat := 3
def iREVOKES : Nat := 4
def iRESENDS : Nat := 5
def iCOLL_DUP : Nat := 6
def iCOLL_STALE : Nat := 7
def iWAIT_NS : Nat := 8
def iSEAL_NS : Nat := 9
def iNAK_LATE : Nat := 10
def kTable (t i : Nat) : CKey := (7, t, i)
def iBAGS : Nat := 0
def iBAG_ROWS : Nat := 1
def iGRADS : Nat := 2
def iGRAD_DUP : Nat := 3
def iAPPLIES : Nat := 4
def iEMB_OOR : Nat := 5
def iEMB_FAILS : Nat := 6
def iSHADOW_USED : Nat := 7
def iGRAD_EARLY : Nat := 8
def kCove (c i : Nat) : CKey := (8, c, i)
def kJob (j i : Nat) : CKey := (9, j, i)
def kRing (r i : Nat) : CKey := (10, r, i)
def kFault (unit src : Nat) : CKey := (11, unit, src)

/-! ## Rings, interrupts, events -/

/-- How far 32-bit number `b` lies ahead of `a`, modulo 2^32: ring indexes (R424), sequence numbers (R242), Tide stamps. -/
def ahead (a b : Nat) : Nat := (b + 2 ^ 32 - a) % 2 ^ 32

def ringType (r : Ring) : Nat := fld r.cfg 31 30
def ringSize (r : Ring) : Nat := 2 ^ fld r.cfg 29 25
def ringFunc (r : Ring) : Nat := fld r.cfg 24 19
def ringLink (r : Ring) : Nat := fld r.cfg 18 6
def ringVector (r : Ring) : Nat := fld r.cfg 16 6
def ringBase (r : Ring) : Nat := r.baseHi.toNat * 2 ^ 32 + r.baseLo.toNat
def ringDoorbell (r : Ring) : Nat := r.dbHi.toNat * 2 ^ 32 + r.dbLo.toNat

/-- PHASE of entry `i` counted since enable: 1 on the first pass, inverted on each later one (R421). -/
def phaseOf (r : Ring) (i : Nat) : Nat := 1 - (i / ringSize r) % 2

/-- Host address of 32-byte entry `i` counted since enable (R424). -/
def entryAddr (r : Ring) (i : Nat) : Nat := ringBase r + 32 * (i % ringSize r)

/-- Host memory as a function's routing ID reaches it (R408). -/
def hostMem (s : State) (fn : Nat) : Memory := mgetD s.host.mem fn []

/-- Write host memory with the routing ID of a function, at an untranslated address (R408). -/
def hostWrite (fn a : Nat) (b : List Byte) : State → State :=
  onHost (fun h => { h with mem := mput h.mem fn (memWriteN (mgetD h.mem fn []) a b) })

/-- Send a vector of a function, or set its pending bit when masked (R429, R430). A message covers every
unsignalled entry of every ring of the function that shares the vector. None is sent in CLIFF (R423). -/
def sendVector (f v : Nat) (s : State) : State :=
  if s.dev.state = .cliff then s
  else if (f, v) ∈ s.host.unmasked then
    onHost (fun h => { h with
      msi := h.msi ++ [(f, v)],
      rings := h.rings.map (fun e =>
        if 2 ≤ ringType e.2 ∧ ringFunc e.2 = f ∧ ringVector e.2 = v then (e.1, { e.2 with unsignalled := 0, msgAt := some s.tide.now }) else e) }) s
  else onHost (fun h => { h with pendingMsi := addNew h.pendingMsi (f, v) }) s

/-- Of `n` entries written now, those unsignalled: a message of this very instant has covered them (R429, R439). -/
def uncovered (g : Ring) (now n : Nat) : Nat := if g.msgAt = some now then 0 else n

/-- Note `n` entries written to a completion or event ring, and signal when R429 says so; `now` forces it. -/
def entriesWritten (r n : Nat) (now : Bool) (s : State) : State :=
  let s := onRing r (fun g => { g with
    pi := (g.pi + n) % 2 ^ 32,
    oldest := if g.unsignalled = 0 then s.tide.now else g.oldest,
    unsignalled := g.unsignalled + uncovered g s.tide.now n }) s
  let s := countRaw (kRing r 2) n s
  let g := getRing s r
  if g.msgAt ≠ some s.tide.now ∧ (now = true ∨ ringSize g ≤ 4 * g.unsignalled) then sendVector (ringFunc g) (ringVector g) s else s

/-- The 32 bytes of an event header entry (R431), byte 31 with PHASE. -/
def eventHeader (cls nent lost seq tide : Nat) (detail : List Byte) (phase : Nat) : List Byte :=
  bytesLE 2 cls ++ bytesLE 1 nent ++ bytesLE 1 lost ++ bytesLE 4 seq ++ bytesLE 8 tide ++ sliceB detail 0 15 ++
    bytesLE 1 (phase * 128)

/-- Write event entries on an event ring, in ring order (R431). -/
def writeEvent (r cls : Nat) (detail : List Byte) (more : List (List Byte)) (s : State) : State :=
  let g := getRing s r
  let n := 1 + more.length
  let hdr := eventHeader cls more.length (b2n g.lost) g.events s.tide.now detail (phaseOf g g.pi)
  let s := forAll ((List.range n).zip (hdr :: more))
    (fun e => hostWrite (ringFunc g) (entryAddr g (g.pi + e.1)) (sliceB e.2 0 32)) s
  let s := onRing r (fun g => { g with events := (g.events + 1) % 2 ^ 32, lost := false }) s
  entriesWritten r n (g.lost || decide (cls / 16 = 2)) s

/-- The PCIe link of a function (R405). -/
def linkOfFn (s : State) (fn : Nat) : Nat := if s.dev.bifur && decide (32 ≤ fn) then 1 else 0

/-- Host memory of a function's link may be read and written: with REQUIRE_IDE, in TRAIN and RUN, only
while the link's stream is active in both directions (R528). -/
def ideOk (s : State) (fn : Nat) : Bool :=
  !(s.sec.cfg.requireIde && (s.dev.state == .train || s.dev.state == .run)) ||
    (mgetD s.host.ideActive (linkOfFn s fn) (false, false) == (true, true))

/-- Post an event to a target ring that `fn` must own (R433): dropped and counted in EVT_UNMAPPED where the
target is no ACTIVE event ring so owned, in EVT_DROP where it has no room, in HOST_CPL_DROP during a
function level reset (R438); nothing is written in CLIFF (R423). An event never waits, so one that REQUIRE_IDE
keeps from host memory is dropped as one without room (R433, R528; log entry 10). -/
def postTo (target : Option Nat) (fn cls : Nat) (detail : List Byte) (more : List (List Byte)) (s : State) : State :=
  if s.dev.state = .cliff then s
  else match target with
  | none => countRaw kEVT_UNMAPPED 1 s
  | some r =>
    let g := getRing s r
    if ¬ (g.state = .active ∧ ringType g = 3 ∧ ringFunc g = fn) then countRaw kEVT_UNMAPPED 1 s
    else if (getFunc s fn).flr then countRaw kHOST_CPL_DROP 1 s
    else if ¬ ideOk s fn ∨ ringSize g < ahead g.ci g.pi + 1 + more.length then
      countRaw kEVT_DROP 1 (onRing r (fun g => { g with lost := true }) s)
    else writeEvent r cls detail more s

/-- The event class map's target of a class (R433). -/
def classTarget (s : State) (cls : Nat) : Option Nat :=
  let e := mgetD s.host.classMap cls 0
  if bitAt e 31 then some (fld e 12 0) else none

/-- Post a device-scoped event (R432, R433). -/
def postDev (cls : Nat) (detail : List Byte) (s : State) : State := postTo (classTarget s cls) 0 cls detail [] s

/-- Post a function-scoped event (R432, R433). -/
def postFn (fn cls : Nat) (detail : List Byte) (s : State) : State :=
  let f := getFunc s fn
  postTo (if f.eqEn then some f.eq else none) fn cls detail [] s

/-- Count, and post COUNTER_SAT when the counter saturates (R561, R580). -/
def countN (k : CKey) (n : Nat) (s : State) : State :=
  let o := (ctrOf s.obs k).ovf
  let s := countRaw k n s
  if !o && (ctrOf s.obs k).ovf then
    postDev 0x40 (bytesLE 1 k.1 ++ bytesLE 1 k.2.2 ++ bytesLE 4 k.2.1 ++ bytesLE 2 (genOf s.obs (k.1, k.2.1))) s
  else s

def count (k : CKey) (s : State) : State := countN k 1 s

/-! ## Completions and descriptors -/

/-- A completion entry (R421). -/
def cplEntry (phase committed recovered opcode tide result status ring index : Nat) (user : BitVec 64) : BitVec 256 :=
  pack 256 [(1, phase), (5, 0), (1, committed), (1, recovered), (8, opcode), (48, tide), (64, result), (8, status),
    (11, 0), (13, ring), (32, index), (64, user.toNat)]

/-- The accepted descriptor `i` of ring `r`. -/
def findDesc (s : State) (r i : Nat) : Option Desc := s.host.accepted.find? (fun d => d.ring == r && d.idx == i)

/-- Write the completion of an accepted descriptor (R421, R422), and forget the descriptor. In CLIFF nothing
is written (R423); during a function level reset the entry is discarded and counted (R438); while REQUIRE_IDE
keeps the Q7 from host memory the completion waits (R528). -/
def complete (d : Desc) (status result : Nat) (committed recovered : Bool) (s : State) : State :=
  if s.dev.state = .cliff then s
  else
    let c := ringLink (getRing s d.ring)
    let s := onHost (fun h => { h with accepted := h.accepted.filter (fun e => !(e.ring == d.ring && e.idx == d.idx)) }) s
    if ¬ ideOk s d.func ∧ ¬ (getFunc s d.func).flr then
      onHost (fun h => { h with heldCpl := h.heldCpl ++ [(d, status, result, committed, recovered)] }) s
    else
    let s := onRing d.ring (fun g => { g with out := g.out - 1 }) s
    let s := onRing c (fun g => { g with out := g.out - 1 }) s
    let s := onlyIf (status == stABORTED) (countRaw (kRing d.ring 1) 1) s
    if (getFunc s d.func).flr then countRaw kHOST_CPL_DROP 1 s
    else
      let g := getRing s c
      let e := cplEntry (phaseOf g g.pi) (b2n committed) (b2n recovered) d.opcode s.tide.now result status d.ring d.idx d.user
      entriesWritten c 1 false (hostWrite (ringFunc g) (entryAddr g g.pi) (bytesLE 32 e.toNat) s)

/-- Who issued the work an opcode does: a descriptor (ring, index) of a function, or the configuration
bundle, which acts as PF0 (R519). -/
structure Cx where
  ring : Nat
  idx : Nat
  func : Nat
  host : Bool := true
deriving DecidableEq, Repr

/-- How the work of a descriptor stands: completed with a status, a RESULT and the RECOVERED mark, or waiting. -/
inductive Res where
  | done (status result : Nat) (recovered : Bool)
  | wait (st : Stage)
deriving DecidableEq, Repr

def ok : Res := .done stDONE 0 false
def okR (result : Nat) : Res := .done stDONE result false
def fail (status : Nat) : Res := .done status 0 false

/-- The shape of an opcode's work: who issued it, its operand block, the bytes at ADDR. -/
abbrev Work := Cx → BitVec 384 → List Byte → State → State × Res

/-- Index `a` stands before index `b` in a ring; indexes count modulo 2^32 (R421, R424). -/
def idxBefore (a b : Nat) : Bool := decide (0 < ahead a b) && decide (ahead a b < 2 ^ 31)

/-- A waiting descriptor's turn has come (R420): every earlier descriptor of its ring has been taken, and
with FENCE has completed. One whose completion still waits for its write has not (R528). -/
def turnOf (s : State) (d : Desc) : Bool :=
  let before (e : Desc) : Bool := e.ring == d.ring && idxBefore e.idx d.idx
  s.host.accepted.all (fun e => !before e || (!d.fence && e.stage != .waiting))
    && (!d.fence || s.host.heldCpl.all (fun e => !before e.1))

/-- Settle a descriptor whose work has run; one that waits keeps the bytes at ADDR. One whose commit waits goes behind
the others, so that commits keep the order in which their descriptors were taken, and in one instant that of their rings
(R270). -/
def settleDesc (d : Desc) (data : List Byte) (r : Res) (s : State) : State :=
  match r with
  | .done st res rec => complete d st res false rec s
  | .wait st => onHost (fun h =>
      let me (e : Desc) : Bool := e.ring == d.ring && e.idx == d.idx
      let set (e : Desc) : Desc := { e with stage := st, data := data, takenAt := s.tide.now }
      let later (e : Desc) : Bool := e.stage == .commitWait && e.takenAt == s.tide.now && decide (d.ring < e.ring)
      let rest := h.accepted.filter (fun e => !me e)
      { h with accepted := if st = .commitWait then rest.filter (fun e => !later e) ++ (h.accepted.filter me).map set ++ rest.filter later
                           else h.accepted.map (fun e => if me e then set e else e) }) s

/-- Take the accepted descriptor `i` of ring `r` for execution, if it waits, carries the opcode and its turn
has come (R420). Nothing is taken in CLIFF (R423); in STOPPED an opcode that R464 does not list completes HELD. -/
def runDesc (opcode : Nat) (w : Work) (r i : Nat) (data : List Byte) (s : State) : State :=
  match findDesc s r i with
  | none => s
  | some d =>
    if d.opcode = opcode ∧ d.stage = .waiting ∧ turnOf s d ∧ s.dev.state ≠ .cliff ∧ ideOk s d.func then
      if s.dev.state = .stopped ∧ ¬ stoppedOpcode opcode then complete d stHELD 0 false false s
      else
        let out := w ⟨r, i, d.func, true⟩ d.op data s
        settleDesc d data out.2 out.1
    else s

/-- A table, by TSEL and INDEX, was looked up in this instant: a commit to it waits for the next, so that every lookup of the
commit's instant uses the table after it (R269; log entry 3). -/
def lookedNow (s : State) (key : Nat × Nat) : Bool := s.route.looks.contains key

/-- Note lookups of tables in this instant (R269). -/
def noteLooks (l : List (Nat × Nat)) : State → State := onRoute (fun r => { r with looks := l.foldl addNew r.looks })

/-- In this instant a higher ring's write of the table has been taken: a write of this ring is taken in a later one, so that
those of one instant commit in ascending ring number (R270; log entry 3). -/
def ringBehind (s : State) (key : Nat × Nat) (ring : Nat) : Bool := s.route.wrote.any (fun e => e.1 == key && decide (ring < e.2))

/-- Note a write of a table in this instant by a ring's descriptor (R270). -/
def noteWrote (key : Nat × Nat) (ring : Nat) : State → State := onRoute (fun r => { r with wrote := addNew r.wrote (key, ring) })

/-- A work that advances the tag of the table it writes where it takes effect (R268). -/
def thenBump (bump : BitVec 384 → State → State) (w : Work) : Work := fun cx op d s =>
  let out := w cx op d s
  match out.2 with
  | .done st _ _ => if st ≠ stDONE then out else (bump op out.1, out.2)
  | .wait _ => (bump op out.1, out.2)

/-- The work of a descriptor that writes an epoch-tagged table: where it succeeds it commits and the tag comes
forward by `bump`, or it waits while `must` holds; behind an earlier write that waits it waits unchecked (R268, R270, R272). -/
def withTag (key : BitVec 384 → Nat × Nat) (behind must : State → BitVec 384 → Bool) (bump : BitVec 384 → State → State)
    (w : Work) : Work := fun cx op d s =>
  let write : Work := thenBump (fun op s => noteWrote (key op) cx.ring (bump op s)) w
  if ¬ cx.host then thenBump bump w cx op d s
  else if ringBehind s (key op) cx.ring then (s, .wait .waiting)
  else if behind s op then (s, .wait .commitWait)
  else
  let out := w cx op d s
  match out.2 with
  | .done st _ _ =>
    if st ≠ stDONE then out
    else if must s op then (s, .wait .commitWait)
    else write cx op d s
  | .wait _ => if must s op then (s, .wait .commitWait) else write cx op d s

/-- Complete a waiting descriptor named by (ring, index), wherever it waits. -/
def finishDesc (ri : Nat × Nat) (status result : Nat) (s : State) : State :=
  match findDesc s ri.1 ri.2 with
  | some d => complete d status result false false s
  | none => s

/-- Operand bits [hi:lo] are all zero. -/
def zeroBits (op : BitVec 384) (hi lo : Nat) : Bool := fld op hi lo == 0

/-- Every bit outside the listed fields [hi:lo] is zero (R56). -/
def onlyBits (op : BitVec 384) (l : List (Nat × Nat)) : Bool :=
  op.toNat == sumOf l (fun e => fld op e.1 e.2 <<< e.2)

/-- A function names a Cove: PF0 any, a restricted function one within FN_COVE (R409, R414). -/
def coveAllowed (s : State) (fn cove : Nat) : Bool :=
  fn == 0 || (decide ((getFunc s fn).coveLo ≤ cove) && decide (cove ≤ (getFunc s fn).coveHi))

/-! ## Epoch tags (R268 to R273) -/

/-- How many lookups of a table captured tag `t` and are in flight. -/
def inflight (tags : List (Option Nat)) (t : Nat) : Nat := (tags.filter (fun x => x == some t)).length

/-- The stored packets whose lookups are in flight: those that more than an engine's retention holds, and those on their way
back into path choice (R273). -/
def onTheWay (s : State) : List Stored := s.shoal.stored.filter (fun x =>
  s.route.reentry.contains (x.die, x.bufs.headD 0xFFFFF) || !(x.owners.all (fun o => decide (4 ≤ o / 2 ^ 21 ∧ o / 2 ^ 21 ≤ 6))))

def routeTags (s : State) : List (Option Nat) := (onTheWay s).map (·.rtag)
def windowTags (s : State) : List (Option Nat) := s.mem.outst.map (fun o => some o.wtag)
def bindTags (s : State) : List (Option Nat) :=
  ((onTheWay s).map (·.ptag)) ++ s.mem.outst.map (fun o => some o.ptag)
def coveTags (s : State) : List (Option Nat) :=
  ((onTheWay s).map (·.ctag)) ++ s.mem.outst.map (fun o => some o.ctag)
def tableTags (s : State) (t : Nat) : List (Option Nat) :=
  ((getTable s t).map (fun x => x.waiting.map (fun w => some w.stream.tag))).getD [] ++
  (s.emb.shardBags.filter (fun b => fld b.stream.sub 235 220 == t)).map (fun b => some b.stream.tag)
def mapTags (s : State) (l : Nat) : List (Option Nat) :=
  (s.emb.homes.filter (fun h => h.ltid == l)).map (fun h => some h.tag)

/-- A commit must wait: the next tag still has lookups in flight (R272). -/
def mustWait (tags : List (Option Nat)) (cur : Nat) : Bool := 0 < inflight tags ((cur + 1) % 16)

/-! ## Packets this Q7 originates -/

/-- This Q7's endpoint ID (R506, R519); 0 before any is recorded. -/
def selfEpid (s : State) : Nat := s.sec.epid.getD 0

/-- A packet numbered on its flow from a source: SRC, FSEQ and FS under R243 and R244. -/
def numberFrom (src : Nat) (p : Packet) (s : State) : Packet × State :=
  let same (e : Nat × Nat × Nat × Nat × Nat) : Bool := e.1 == src && e.2.1 == p.dst && e.2.2.1 == p.ovc
  let f := s.route.flows.find? same
  let seq := match f with
    | some e => e.2.2.2.1
    | none => (Config.flowStart p.dst p.ovc).toNat
  let fs := match f with
    | some e => decide (e.2.2.2.2 + 200000 ≤ s.tide.now)
    | none => true
  (((p.setSrc src).setFseq seq).setFs fs, onRoute (fun r => { r with
    flows := r.flows.filter (fun e => !same e) ++ [(src, p.dst, p.ovc, (seq + 1) % 2 ^ 32, s.tide.now)] }) s)

/-- A packet of this Q7's own, numbered on its flow. -/
def numberPkt (p : Packet) (s : State) : Packet × State := numberFrom (selfEpid s) p s

/-- A packet waits in the engines' tables for an egress account (R310). -/
def sendOn (p : Packet) : State → State := onRoute (fun r => { r with outbox := r.outbox ++ [p] })

/-- What is noted of a packet. -/
def noteOf (k : Packet) (at_ : Nat) (inOrder : Bool) : Noted :=
  { src := k.src, dst := k.dst, ovc := k.ovc, fseq := k.fseq, at_ := at_, inOrder := inOrder }

/-- Pass on a packet that came in on a port (R257). -/
def passOn (port : Nat) (k : Packet) (s : State) : State :=
  onRoute (fun r => { r with came := r.came ++ [(noteOf k 0 false, port)] }) (sendOn k s)

/-- Send a packet of this Q7's own (R244). -/
def originate (p : Packet) (s : State) : State := sendOn (numberPkt p s).1 (numberPkt p s).2

/-- Send an answer under another endpoint's name, on a numbering of this Q7's own (R197, log entry 46). -/
def originateAs (src : Nat) (p : Packet) (s : State) : State := sendOn (numberFrom src p s).1 (numberFrom src p s).2

/-- A note is of this packet. -/
def noteIs (k : Packet) (e : Noted) : Bool := e.src == k.src && e.dst == k.dst && e.ovc == k.ovc && e.fseq == k.fseq

/-- What `f` adds to the packets this Q7 originates is built on core die `d`, but for what it says itself (R282). -/
def builtOn (d : Nat) (f : State → State) (s : State) : State :=
  let t := f s
  onRoute (fun r => { r with
    built := r.built ++ ((r.outbox.drop s.route.outbox.length).filter (fun k =>
      !r.built.any (noteIs k))).map (fun k => noteOf k d false) }) t

/-- The tables in which the engine that takes a packet looks it up: windows, bindings, Coves and routes for a request, the
table and the shard map for an embedding packet (R198, R269, R273). -/
def engineLooks (p : Packet) : List (Nat × Nat) :=
  if p.ptype = 0 then []
  else if p.ovc = vcREQ then [(0, 0), (1, 0), (2, 0), (4, 0)]
  else if p.ovc = vcEMB then [(5, fld p.sub 235 220), (6, fld p.sub 235 220)]
  else []

/-- An engine takes a packet: it leaves the packets delivered to the engines, if it stands there, and is looked up in the
engine's tables in this instant (R269). -/
def takeDelivered (port : Nat) (p : Packet) : State → State :=
  onRoute (fun r => { r with
    toEngine := r.toEngine.eraseP (fun e => e.1 == port && e.2.1 == p), looks := (engineLooks p).foldl addNew r.looks })

/-- Where a delivered packet is stored: die and first buffer. -/
def deliveredAt (s : State) (port : Nat) (p : Packet) : List (Nat × Nat) :=
  match s.route.toEngine.find? (fun e => e.1 == port && e.2.1 == p) with
  | some e => [e.2.2]
  | none => []

/-! ## Ports -/

/-- PORT bindings (R206): the binding of a port. -/
def bindOf (s : State) (p : Nat) : Option Binding := mget s.mem.binds p

/-- The upper 4-lane number of a 1.6 Tb/s Ethernet-mode port, which does not exist meanwhile (R365). -/
def ethUpper (s : State) (p : Nat) : Bool :=
  p % 8 == 4 && bitAt (getLane s (p - 4)).ctl 28 && bitAt (getLane s (p - 4)).ctl 27 && groupMode s p == 2

/-- A Drezh port of the current mode (R374, R376): the lowest lane of a 1-, 2- or 4-lane port. -/
def isDrezhPort (s : State) (p : Nat) : Bool :=
  decide (p < 768) && (match groupMode s p with
    | 0 => true
    | 1 => p % 2 == 0
    | 2 => p % 4 == 0
    | _ => false) && !bitAt (getLane s p).ctl 28 && !ethUpper s p

/-- The port is an attachment port: its peer passed the exchange as an endpoint, or PORT_BIND binds it. -/
def isAttach (s : State) (p : Nat) : Bool := (bindOf s p).isSome || (getPort s p).peer.role == some 1

/-- A port is a fabric port: its peer attests as a Q7 (R202). -/
def isFabric (s : State) (p : Nat) : Bool := (getPort s p).peer.role == some 0

/-- A Drezh port in RUN. -/
def portRun (s : State) (p : Nat) : Bool := (getPort s p).lstate == .run

/-- A port that carries packets: its link is in RUN, whatever the lane power state (R380, R392). -/
def linkUp (s : State) (p : Nat) : Bool :=
  let l := (getPort s p).lstate
  l == .run || l == .neap || l == .lowWater

/-- A port whose link carries packets, or did until this instant: what it has accepted is taken first (R352, R463). -/
def linkTook (s : State) (p : Nat) : Bool := linkUp s p || (getPort s p).declared == some s.tide.now

/-! ## Packets outside any flow -/

/-- A packet's HOPS as it goes out on a port: one more on a fabric port (R242). -/
def hopsOn (s : State) (port : Nat) (p : Packet) : Packet := if isFabric s port then p.setHops (p.hops + 1) else p

/-- A packet the Q7 builds for a link, in no buffer, with the parity generated for it. -/
def ownPkt (p : Packet) : TxPkt := { pkt := p, par := packetParity p }

/-- Hand a packet to the link of a port, outside any flow, as a packet begun on it (R458, R466, R498, R529). -/
def linkSend (port : Nat) (p : Packet) (s : State) : State :=
  onPort port (fun x => { x with
    pktsTx := (x.pktsTx + 1) % 2 ^ 32, link := { x.link with tx := x.link.tx ++ [ownPkt (hopsOn s port p)] } }) s

/-- Hand STOP_MARK to the link of a port: it is not among the packets it counts (R458). -/
def linkMark (port : Nat) (p : Packet) (s : State) : State :=
  onLink port (fun l => { l with tx := l.tx ++ [ownPkt (hopsOn s port p)] }) s

end Sys2Proof.Machine
end

