-- ==== Sys2Proof/Machine/Collector.lean ====
section
/-! DEFINITION. Device-state changes (R582, R593) and the fault collector (R477 to R486, R492). What a fault
does at its unit stands with the unit; the collector counts, classifies, posts and, for a Cliff, enters CLIFF. -/

namespace Sys2Proof.Machine

/-! ## Device state -/

/-- HOLD_REASON as a register: it reads 0 in every state but HOLD (R592). -/
def holdReason (s : State) : Nat :=
  if s.dev.state = .hold then s.dev.holdItem * 2 ^ 16 + s.dev.holdWhere * 2 ^ 8 + s.dev.holdReason else 0

/-! ## BEACON (R494, R495) -/

/-- BEACON's rate by device state (R494): 0 held low, 1 125 kHz, 2 1 MHz, 3 stopped. -/
def beaconRate (st : DevState) : Nat :=
  match st with
  | .reset => 0
  | .boot => 1
  | .hold => 1
  | .train => 2
  | .run => 2
  | .stopped => 2
  | .cliff => 3

/-- The period of a rate, in ns, and its high time: 50 % ± 5 % of it (R494, R495). -/
def beaconPeriod (rate : Nat) : Nat := if rate = 2 then 1000 else 8000
def beaconHigh (rate : Nat) : Nat :=
  if rate = 2 then 450 + Config.beaconDuty rate % 101 else 3600 + Config.beaconDuty rate % 801

/-- The edge from which the rate in force runs; the first one after RESET comes within 4.4 µs. -/
def beaconEdge (d : Dev) : Nat := d.bcnAt + if d.bcnFree then 1 + Config.beaconLag % 4400 else 0

/-- How long the first half lasts that an edge begins: the high one after a rising edge. -/
def beaconHalf (d : Dev) : Nat := if d.bcnUp then beaconHigh d.bcnRate else beaconPeriod d.bcnRate - beaconHigh d.bcnRate

/-- The level of BEACON while its divider runs, at a Tide count. -/
def beaconAt (d : Dev) (t : Nat) : Bool :=
  if t < beaconEdge d then !d.bcnUp
  else if (t - beaconEdge d) % beaconPeriod d.bcnRate < beaconHalf d then d.bcnUp else !d.bcnUp

/-- The first edge after a Tide count. -/
def nextBeaconEdge (d : Dev) (t : Nat) : Nat :=
  if t < beaconEdge d then beaconEdge d
  else
    let ph := (t - beaconEdge d) % beaconPeriod d.bcnRate
    t - ph + if ph < beaconHalf d then beaconHalf d else beaconPeriod d.bcnRate

/-- A new rate takes effect at the first edge after the change (R495). RESET holds BEACON low. -/
def retuneBeacon (st : DevState) (now : Nat) (d : Dev) : Dev :=
  if st = .cliff ∨ beaconRate st = d.bcnRate then d
  else if st = .reset then { d with bcnRate := 0, bcnOld := 0 }
  else if d.bcnRate = 0 then { d with bcnRate := beaconRate st, bcnOld := 0, bcnAt := now, bcnFree := true, bcnUp := true }
  else if now < beaconEdge d then { d with bcnRate := beaconRate st }
  else { d with
    bcnRate := beaconRate st, bcnOld := d.bcnRate, bcnAt := nextBeaconEdge d now, bcnFree := false, bcnUp := !beaconAt d now }

/-- The level of the BEACON land. -/
def beaconLevel (s : State) : Bool :=
  match s.dev.state with
  | .reset => false
  | .cliff => s.dev.beaconHeld
  | _ => beaconAt s.dev s.tide.now

/-- BCN_STAT.RATE: the rate of the output, which changes at an edge (R494, R495, R592). -/
def beaconRateNow (s : State) : Nat :=
  match s.dev.state with
  | .reset => 0
  | .cliff => 3
  | _ => if s.tide.now < beaconEdge s.dev then s.dev.bcnOld else s.dev.bcnRate

/-- Change the device state, keeping PREV and the Tide count of the change (R592). -/
def setState (st : DevState) (s : State) : State :=
  onDev (fun d => { retuneBeacon st s.tide.now d with prev := d.state, state := st, enterTide := s.tide.now }) s

/-- Post STATE_CHANGED (R593). -/
def postStateChanged (s : State) : State :=
  postDev 0x30 (bytesLE 1 (devCode s.dev.state) ++ bytesLE 1 (devCode s.dev.prev) ++ bytesLE 4 (holdReason s)) s

/-- Change the device state and post STATE_CHANGED. -/
def enterState (st : DevState) (s : State) : State := postStateChanged (setState st s)

/-! ## Fault classes (R477, R484) -/

inductive FClass where
  | ripple | swell | storm | cliff
deriving DecidableEq, Repr

/-- The class of a source; none for a reserved ID (R484). -/
def classOf (src : Nat) : Option FClass :=
  if 0x01 ≤ src ∧ src ≤ 0x09 then some .ripple
  else if 0x10 ≤ src ∧ src ≤ 0x1C then some .swell
  else if 0x20 ≤ src ∧ src ≤ 0x2A then some .storm
  else if 0x30 ≤ src ∧ src ≤ 0x37 then some .cliff
  else none

def classCode : FClass → Nat
  | .ripple => 0 | .swell => 1 | .storm => 2 | .cliff => 3

/-- The status a Storm gives to its unit's work (R484, R488, R490); 0 where it gives none. A bad release strikes a group, a
table or an exported region by the KIND of the owner ID, its object (R305). -/
def stormStatus (f : FaultRec) : Nat :=
  let kind := f.object / 2 ^ 21
  if f.source = 0x20 ∨ f.source = 0x29 then stNORES
  else if f.source = 0x21 ∨ f.source = 0x22 ∨ (f.source = 0x25 ∧ 4 ≤ kind ∧ kind ≤ 6) then stPOISONED
  else 0

/-! ## Locations (R499 FLT_FORCE_LOC) -/

def locDie (w : Word) : Nat := fld w 31 27
def locUnit (w : Word) : Nat := fld w 26 17
def locSub (w : Word) : Nat := fld w 16 7

/-- A location: DIE, UNIT, SUB. -/
def mkLoc (die unit sub : Nat) : Word := pack 32 [(5, die), (10, unit), (10, sub), (7, 0)]

/-- The location of a lane or port: its lane die (R499). -/
def locPort (p : Nat) : Word := mkLoc (4 + p / 64) p 0

/-- The location of a ring on the MD: UNIT and SUB carry the ring number (R499). -/
def locRing (r : Nat) : Word := pack 32 [(5, 16), (7, 0), (13, r), (7, 0)]

/-! ## Entry to CLIFF (R486, R492) -/

/-- A CLIFF_NOTICE as a fabric port sends it: link-local, of no flow (R498). -/
def cliffNotice (s : State) (src : Nat) : Packet :=
  let body : BitVec 128 := pack 128 [(8, 0x30), (24, 0), (8, 0), (8, src), (18, selfEpid s), (62, 0)]
  ctlPkt vcCTRL 0 0 0 body |>.setSrc (selfEpid s)

/-- What `f` originates goes back on a port, whatever the route table says of its destination. -/
def directOn (port : Nat) (f : State → State) (s : State) : State :=
  let t := f s
  onRoute (fun r => { r with
    direct := r.direct ++ (r.outbox.drop s.route.outbox.length).map (fun q => noteOf q port false) }) t

/-- A port whose peer is no Q7 and that no PORT_BIND binds (R241). -/
def unboundPort (s : State) (port : Nat) : Bool := decide (port < 768) && !isFabric s port && (bindOf s port).isNone

/-- Answer what came on a port: an unbound endpoint is answered on its own port, since the source it names is
not checked (R241). -/
def backOn (port : Nat) (f : State → State) (s : State) : State := if unboundPort s port then directOn port f s else f s

/-- Every fabric port in RUN that holds a CTRL credit sends CLIFF_NOTICE (R486 step 3). -/
def sendNotices (src : Nat) (s : State) : State :=
  let ports := (s.net.ports.filter (fun e => e.2.lstate == .run && e.2.peer.role == some 0 && 0 < nth e.2.link.avail 0 0)).map (·.1)
  onFlt (fun f => { f with notices := f.notices ++ ports.map (fun p => (p, hopsOn s p (cliffNotice s src))) }) s

/-- Every transmitter squelched, every port DOWN (R379, R486). -/
def allDown (s : State) : State :=
  onNet (fun n => { n with ports := n.ports.map (fun e => (e.1, { e.2 with lstate := .down, squelched := true, disableAt := none })) }) s

/-- Enter CLIFF on a record taken (R486, R492). A forced detection writes no MRAM record (R502). -/
def enterCliff (f : FaultRec) (s : State) : State :=
  let s := onFlt (fun t => { t with
    lastCliff := false, cliffSrc := f.source, cliffLoc := f.loc, cliffTide := f.tide,
    mramCliff := if f.forced then t.mramCliff else some (f.source, f.loc, f.tide) }) s
  let s := sendNotices f.source s
  let s := onDev (fun d => { d with beaconHeld := beaconLevel s }) s
  let s := allDown s
  let s := onPwr (fun p => { p with rgns := p.rgns.map (fun r => { r with gated := true, gatedAt := s.tide.now, opening := false }) }) s
  setState .cliff s

/-! ## The collector (R480, R481) -/

/-- Detail bytes of FLT_STORM and FLT_SWELL (R483). -/
def faultDetail (f : FaultRec) (status : Nat) : List Byte :=
  bytesLE 1 f.source ++ bytesLE 1 (b2n f.forced) ++ bytesLE 4 f.loc.toNat ++ bytesLE 3 f.object ++ bytesLE 1 status

/-- The records of a source at a location in the present 1 s window, with this one counted (R480 step 5): the location
as the source's counter has it, SUB left out (R564). -/
def rateCount (f : FaultRec) (s : State) : State :=
  let w := s.tide.now / 1000000000
  let same (e : Nat × Word × Nat × Nat × Bool) : Bool := e.1 == f.source && locDie e.2.1 == locDie f.loc && locUnit e.2.1 == locUnit f.loc
  let (n, posted) := match s.flt.window.find? same with
    | some e => if e.2.2.1 = w then (e.2.2.2.1 + 1, e.2.2.2.2) else (1, false)
    | none => (1, false)
  let fire := s.flt.rateLim != 0 && decide (s.flt.rateLim ≤ n) && !posted
  let s := onFlt (fun t => { t with window := t.window.filter (fun e => !same e) ++ [(f.source, f.loc, w, n, posted || fire)] }) s
  onlyIf fire (postDev 0x22 (bytesLE 1 f.source ++ bytesLE 1 0 ++ bytesLE 4 f.loc.toNat ++ bytesLE 4 n)) s

/-- Take a detection record: count, summary, event, Cliff entry, rate, and FLT_FORCE_DONE (R480). The entry that a Cliff
begins stops the rings only after the steps behind it (R486), so its end comes last here. While in CLIFF no record is
processed (R481, R486); a reserved source is none of R484's. -/
def collect (f : FaultRec) (s : State) : State :=
  match classOf f.source with
  | none => s
  | some c =>
    if s.dev.state = .cliff ∨ s.dev.state = .reset then s
    else
      let s := count (kFault (1024 * locDie f.loc + locUnit f.loc) f.source) s
      let s := onFlt (fun t => { t with
        storm := t.storm || c == .storm, swell := t.swell || c == .swell, ripple := t.ripple || c == .ripple,
        stormAt := if c = .storm then some s.tide.now else t.stormAt, swellAt := if c = .swell then some s.tide.now else t.swellAt,
        rippleAt := if c = .ripple then some s.tide.now else t.rippleAt,
        lastSrc := f.source }) s
      let s := match c with
        | .storm => postDev 0x20 (faultDetail f (stormStatus f)) s
        | .swell => onlyIf s.flt.swellEv (postDev 0x21 (faultDetail f 0)) s
        | .ripple => s
        | .cliff => s
      let s := rateCount f s
      let s := onlyIf f.forced (postDev 0x23 (bytesLE 1 f.source ++ bytesLE 1 (classCode c) ++ bytesLE 4 f.loc.toNat)) s
      onlyIf (c == .cliff) (enterCliff f) s

/-- A detection made now by the Q7 itself. -/
def detect (src : Nat) (loc : Word) (object : Nat) (s : State) : State := collect ⟨src, loc, object, s.tide.now, false, 0, true⟩ s

end Sys2Proof.Machine
end

