-- ==== Sys2Proof/Machine/Soundings.lean ====
section
/-! DEFINITION. Sounding records, the count of a sampler, and the notes of packets that pass a port (R275 to R279). -/

namespace Sys2Proof.Machine

/-- The SUB field of a sounding record (R276, R279): nothing of an XFER payload, 32 bytes at most. -/
def soundSub (k : Packet) : List Byte :=
  if k.ptype = 0 then sliceB k.body 0 16 ++ List.replicate 16 0
  else if k.ovc = vcXFER then List.replicate 32 0
  else sliceB k.body 0 32

/-- A 128-byte sounding record (R276). -/
def soundRecord (k : Packet) (tide port flags queue depth node tag seq : Nat) : List Byte :=
  bytesBE 16 k.hdr.toNat ++ soundSub k ++ bytesLE 8 tide ++ bytesLE 2 port ++ bytesLE 1 flags ++ bytesLE 1 queue ++
    bytesLE 4 depth ++ bytesLE 2 node ++ bytesLE 1 tag ++ bytesLE 1 0 ++ bytesLE 8 seq ++ List.replicate 52 0

/-- Write a sounding as a SOUNDING event and give the management controller its copy, at most 4,000,000 in a
second; one beyond that, or one that finds its event ring full, counts in SND_DROP (R276, R278). A target that is no ACTIVE event
ring is not full (R433). -/
def writeSounding (rec : List Byte) (s : State) : State :=
  let sec := s.tide.now / 1000000000
  let n := if s.obs.sndWindow.1 = sec then s.obs.sndWindow.2 else 0
  let full := match classTarget s 0x11 with
    | some r =>
      let g := getRing s r
      decide (g.state = .active ∧ ringType g = 3 ∧ ringFunc g = 0 ∧ ringSize g < ahead g.ci g.pi + 5)
    | none => false
  if decide (4000000 ≤ n) || full then count kSND_DROP s
  else
    let s := onObs (fun o => { o with sndWindow := (sec, n + 1), mgmtSnd := o.mgmtSnd ++ [rec] }) s
    postTo (classTarget s 0x11) 0 0x11 [] (pieces 32 rec) s

/-- Count a packet on a sampler; the N-th is sampled (R275). -/
def tally (x : Sounding) (k : Packet) : Sounding × Bool :=
  if x.en ∧ x.svcs.testBit k.ovc then
    (if x.n ≤ x.count + 1 then ({ x with count := 0, seq := x.seq + 1 }, true) else ({ x with count := x.count + 1 }, false))
  else (x, false)

/-- The node index looked up; 0xFFFF if local or none (R276). -/
def nodeField (d : Dest) : Nat :=
  match d with
  | .via n _ => n
  | _ => 0xFFFF

/-- A packet passes a port: the soundings count it as the instant ends (R275). -/
def hear (h : Heard) : State → State := onObs (fun o => { o with heard := o.heard ++ [h] })

/-- A packet that leaves on a port, as it stands on the link: its FLAGS beside DIR and ESC, its queue, the bytes that
stood ahead of it there as it was placed (log entry 96), its node and its route tag (R275, R276). -/
def soundOut (p : Nat) (k : Packet) (flags q depth node tag : Nat) : State → State :=
  hear { port := p, out := true, pkt := k, flags := flags, queue := q, depth := depth, node := node, tag := tag }

/-- Sample a packet outside any flow as it leaves on a port: no queue held it and no route was looked up (R275, R276). -/
def soundCtl (p : Nat) (k : Packet) (s : State) : State := soundOut p (hopsOn s p k) 0 0 0 0xFFFF s.route.tag s

end Sys2Proof.Machine
end

