-- ==== Sys2Proof/Machine/Discipline.lean ====
section
/-! DEFINITION. What ports do to Tide alignment and to a stop: the parent of a SLAVE (R443 to R445), and the marker
a port sends for the cut in force (R458). -/

namespace Sys2Proof.Machine

/-! ## The parent (R442 to R445) -/

def tcode : TState → Nat
  | .free => 0 | .acquire => 1 | .locked => 2 | .holdover => 3

/-- Change TSTATE; each transition posts TIDE_STATE, and ACQUIRE counts afresh. HOLDOVER keeps the last rate
correction (R444, R471). -/
def setTState (st : TState) (s : State) : State :=
  if s.tide.tstate = st then s
  else
    let s := onTide (fun t => { t with tstate := st, good := 0, bad := 0, slow := t.slow && st == .holdover }) s
    postDev 0x50 (bytesLE 1 (tcode st) ++ bytesLE 1 s.tide.src ++ bytesLE 4 (ofSigned 32 s.tide.theta)) s

/-- A parent item names a port that is no fabric port: one that does not exist, or whose peer is known as an endpoint
(R442). -/
def parentBad (s : State) (p : Nat) : Bool := p != 0x3FF && (!isDrezhPort s p || isAttach s p)

/-- The parent a SLAVE takes: the first of P0, P1 and P2 whose port is a fabric port in RUN (R443). -/
def parentOf (s : State) : Nat :=
  ((List.range 3).find? (fun k => let p := nth s.tide.parents k 0x3FF
    p != 0x3FF && isFabric s p && linkUp s p)).getD 3

/-- The port of the parent in use. -/
def parentPort (s : State) : Option Nat := if s.tide.src < 3 then some (nth s.tide.parents s.tide.src 0x3FF) else none

/-- Take the parent anew; with none in RUN the Q7 goes to HOLDOVER, and leaves it when one enters RUN (R443 to R445). -/
def retide (s : State) : State :=
  if s.tide.role ≠ 2 then s
  else
    let k := parentOf s
    let s := if k = s.tide.src then s
      else onTide (fun t => { t with src := k, samples := [], up := none, down := none, good := 0, bad := 0 }) s
    if k = 3 ∧ (s.tide.tstate = .acquire ∨ s.tide.tstate = .locked) then setTState .holdover s
    else if k < 3 ∧ s.tide.tstate = .holdover then setTState .acquire s
    else s

/-! ## The marker of a cut (R458) -/

/-- STOP_MARK for a port: the stop, its Tidemark and the packets begun on the link. -/
def stopMarkPkt (s : State) (p : Nat) : Packet :=
  let body : BitVec 128 := pack 128 [(8, 0x08), (16, s.stop.stopId), (64, s.stop.mark), (32, (getPort s p).pktsTx), (8, 0)]
  (ctlPkt vcCTRL ((getPort s p).peer.epid) 0 0 body).setSrc (selfEpid s)

/-- RESUME for a port (R465). -/
def resumePkt (s : State) (p r : Nat) : Packet :=
  let body : BitVec 128 := pack 128 [(8, 0x09), (16, s.stop.stopId), (64, r), (40, 0)]
  (ctlPkt vcCTRL ((getPort s p).peer.epid) 0 0 body).setSrc (selfEpid s)

/-- Send the marker of the cut on a port. -/
def sendMark (p : Nat) (s : State) : State := soundCtl p (stopMarkPkt s p) (linkMark p (stopMarkPkt s p) s)

/-- A port in Low water at the cut is in RUN; its marker goes once its link carries packets again (R392, R460). -/
def markAtRun (p : Nat) (s : State) : State :=
  if s.stop.sstate = .cut ∧ s.stop.ports.any (fun e => e.port == p && !e.down) then sendMark p s else s

end Sys2Proof.Machine
end

