-- ==== Sys2Proof/Machine/Cipher.lean ====
section
/-! DEFINITION. The ciphers that the spec names by their standards (R359, R468, R503, R506, R517, R531, R532; log entry 4):
AES-256-GCM as FIPS 197 and SP 800-38D define it, SHA-512 as FIPS 180-4, HMAC and HKDF-Expand as RFC 2104 and RFC 5869,
X25519 as RFC 7748 and Ed25519 as RFC 8032. -/

namespace Sys2Proof.Machine

/-! ## AES-256 -/

/-- A byte times x in GF(2^8). -/
def xtime (a : Nat) : Nat := if 128 ≤ a then (2 * a - 256) ^^^ 0x1B else 2 * a

/-- A product in GF(2^8). -/
def gf8Mul (a b : Nat) : Nat := (List.range 8).foldl (fun r k => xtime r ^^^ (if b.testBit (7 - k) then a else 0)) 0

/-- The inverse of a byte in GF(2^8), its 254th power; 0 for 0. -/
def gf8Inv (a : Nat) : Nat :=
  let r := (List.range 7).foldl (fun r _ => gf8Mul (gf8Mul r r) a) 1
  gf8Mul r r

/-- SubBytes of one byte. -/
def subByte (a : Nat) : Nat :=
  let b := gf8Inv a
  (List.range 5).foldl (fun r k => r ^^^ ((b * 2 ^ k) % 256 + b * 2 ^ k / 256)) 0x63

/-- The sum of two byte strings, byte by byte. -/
def xorBytes (a b : List Nat) : List Nat := List.zipWith (· ^^^ ·) a b

/-- Word `i` of the key schedule, from the words before it. -/
def scheduleWord (w : List (List Nat)) (i : Nat) : List Nat :=
  let t := nth w (i - 1) []
  let t := if i % 8 = 0 then xorBytes ((t.drop 1 ++ t.take 1).map subByte) [2 ^ (i / 8 - 1), 0, 0, 0]
    else if i % 8 = 4 then t.map subByte else t
  xorBytes (nth w (i - 8) []) t

/-- The fifteen round keys of a 32-byte key. -/
def roundKeys (key : List Nat) : List (List Nat) :=
  let w := (List.range 52).foldl (fun w i => w ++ [scheduleWord w (i + 8)]) (pieces 4 key)
  (pieces 4 w).map List.flatten

/-- ShiftRows: byte r of column c comes from column c + r. -/
def shiftRows (s : List Nat) : List Nat := (List.range 16).map (fun i => nth s ((i + 4 * (i % 4)) % 16) 0)

/-- MixColumns of one column. -/
def mixColumn (c : List Nat) : List Nat :=
  (List.range 4).map (fun r =>
    let a (k : Nat) : Nat := nth c ((r + k) % 4) 0
    xtime (a 0) ^^^ xtime (a 1) ^^^ a 1 ^^^ a 2 ^^^ a 3)

/-- AES-256 of a 16-byte block under its round keys. -/
def aesBlock (keys : List (List Nat)) (b : List Nat) : List Nat :=
  let s := (List.range 13).foldl (fun s i =>
      xorBytes ((pieces 4 (shiftRows (s.map subByte))).flatMap mixColumn) (nth keys (i + 1) [])) (xorBytes b (nth keys 0 []))
  xorBytes (shiftRows (s.map subByte)) (nth keys 14 [])

/-! ## GCM -/

/-- Bytes as numbers. -/
def nats (l : List Byte) : List Nat := l.map (·.toNat)

/-- The block of a counter under a key and a 12-byte IV, as a number. -/
def gcmBlock (keys : List (List Nat)) (iv : List Byte) (n : Nat) : Nat :=
  (aesBlock keys (nats (sliceB iv 0 12 ++ bytesBE 4 n))).foldl (fun v b => 256 * v + b) 0

/-- The first `n` bytes of the key stream (R359, R468): whole blocks of the counters from 2 on. -/
def gcmStream (key iv : List Byte) (n : Nat) : List Byte :=
  let keys := roundKeys (nats (sliceB key 0 32))
  ((List.range (n / 16 + 1)).flatMap (fun i => bytesBE 16 (gcmBlock keys iv (i + 2)))).take n

/-- Bytes combined with the key stream: this encrypts and decrypts (R359). -/
def gcmCrypt (key iv d : List Byte) : List Byte := List.zipWith (· ^^^ ·) d (gcmStream key iv d.length)

/-- A product in GF(2^128), the most significant bit of a block first. -/
def gf128Mul (x y : Nat) : Nat :=
  ((List.range 128).foldl (fun (z : Nat × Nat) i =>
    (if x.testBit (127 - i) then z.1 ^^^ z.2 else z.1, if z.2 % 2 = 1 then (z.2 / 2) ^^^ 0xE1 * 2 ^ 120 else z.2 / 2)) (0, y)).1

/-- GHASH over bytes, padded to whole blocks, from a value on. -/
def ghash (h : Nat) (l : List Byte) (v : Nat) : Nat := (pieces 16 l).foldl (fun v b => gf128Mul (v ^^^ beAt b 0 16) h) v

/-- The 16 bytes of the tag of additional data and a ciphertext (R359, R468). -/
def gcmTag (key iv aad ct : List Byte) : List Byte :=
  let keys := roundKeys (nats (sliceB key 0 32))
  let h := (aesBlock keys (List.replicate 16 0)).foldl (fun v b => 256 * v + b) 0
  let lens := bytesBE 8 (8 * aad.length) ++ bytesBE 8 (8 * ct.length)
  bytesBE 16 (ghash h lens (ghash h ct (ghash h aad 0)) ^^^ gcmBlock keys iv 1)

/-! ## SHA-512, HMAC and HKDF -/

/-- The round constants: the fractions of the cube roots of the first eighty primes. -/
def shaConstants : List (BitVec 64) :=
  [0x428A2F98D728AE22, 0x7137449123EF65CD, 0xB5C0FBCFEC4D3B2F, 0xE9B5DBA58189DBBC] ++
  [0x3956C25BF348B538, 0x59F111F1B605D019, 0x923F82A4AF194F9B, 0xAB1C5ED5DA6D8118] ++
  [0xD807AA98A3030242, 0x12835B0145706FBE, 0x243185BE4EE4B28C, 0x550C7DC3D5FFB4E2] ++
  [0x72BE5D74F27B896F, 0x80DEB1FE3B1696B1, 0x9BDC06A725C71235, 0xC19BF174CF692694] ++
  [0xE49B69C19EF14AD2, 0xEFBE4786384F25E3, 0x0FC19DC68B8CD5B5, 0x240CA1CC77AC9C65] ++
  [0x2DE92C6F592B0275, 0x4A7484AA6EA6E483, 0x5CB0A9DCBD41FBD4, 0x76F988DA831153B5] ++
  [0x983E5152EE66DFAB, 0xA831C66D2DB43210, 0xB00327C898FB213F, 0xBF597FC7BEEF0EE4] ++
  [0xC6E00BF33DA88FC2, 0xD5A79147930AA725, 0x06CA6351E003826F, 0x142929670A0E6E70] ++
  [0x27B70A8546D22FFC, 0x2E1B21385C26C926, 0x4D2C6DFC5AC42AED, 0x53380D139D95B3DF] ++
  [0x650A73548BAF63DE, 0x766A0ABB3C77B2A8, 0x81C2C92E47EDAEE6, 0x92722C851482353B] ++
  [0xA2BFE8A14CF10364, 0xA81A664BBC423001, 0xC24B8B70D0F89791, 0xC76C51A30654BE30] ++
  [0xD192E819D6EF5218, 0xD69906245565A910, 0xF40E35855771202A, 0x106AA07032BBD1B8] ++
  [0x19A4C116B8D2D0C8, 0x1E376C085141AB53, 0x2748774CDF8EEB99, 0x34B0BCB5E19B48A8] ++
  [0x391C0CB3C5C95A63, 0x4ED8AA4AE3418ACB, 0x5B9CCA4F7763E373, 0x682E6FF3D6B2B8A3] ++
  [0x748F82EE5DEFB2FC, 0x78A5636F43172F60, 0x84C87814A1F0AB72, 0x8CC702081A6439EC] ++
  [0x90BEFFFA23631E28, 0xA4506CEBDE82BDE9, 0xBEF9A3F7B2C67915, 0xC67178F2E372532B] ++
  [0xCA273ECEEA26619C, 0xD186B8C721C0C207, 0xEADA7DD6CDE0EB1E, 0xF57D4F7FEE6ED178] ++
  [0x06F067AA72176FBA, 0x0A637DC5A2C898A6, 0x113F9804BEF90DAE, 0x1B710B35131C471B] ++
  [0x28DB77F523047D84, 0x32CAAB7B40C72493, 0x3C9EBE0A15C9BEBC, 0x431D67C49C100D4C] ++
  [0x4CC5D4BECB3E42B6, 0x597F299CFC657E2A, 0x5FCB6FAB3AD6FAEC, 0x6C44198C4A475817]

/-- The initial digest: the fractions of the square roots of the first eight primes. -/
def shaInit : List (BitVec 64) :=
  [0x6A09E667F3BCC908, 0xBB67AE8584CAA73B, 0x3C6EF372FE94F82B, 0xA54FF53A5F1D36F1] ++
  [0x510E527FADE682D1, 0x9B05688C2B3E6C1F, 0x1F83D9ABFB41BD6B, 0x5BE0CD19137E2179]

/-- A message padded to whole 128-byte blocks. -/
def shaPad (m : List Byte) : List Byte :=
  m ++ 0x80#8 :: List.replicate ((239 - m.length % 128) % 128) 0 ++ bytesBE 16 (8 * m.length)

/-- Word `t` of the message schedule, from the words before it. -/
def shaWord (w : List (BitVec 64)) (t : Nat) : BitVec 64 :=
  let a := nth w (t - 15) 0
  let b := nth w (t - 2) 0
  (b.rotateRight 19 ^^^ b.rotateRight 61 ^^^ b >>> 6) + nth w (t - 7) 0
    + (a.rotateRight 1 ^^^ a.rotateRight 8 ^^^ a >>> 7) + nth w (t - 16) 0

/-- One round, by its constant and message word. -/
def shaRound (v : List (BitVec 64)) (kw : BitVec 64 × BitVec 64) : List (BitVec 64) :=
  match v with
  | [a, b, c, d, e, f, g, h] =>
    let t := h + (e.rotateRight 14 ^^^ e.rotateRight 18 ^^^ e.rotateRight 41) + ((e &&& f) ^^^ (~~~e &&& g)) + kw.1 + kw.2
    [t + (a.rotateRight 28 ^^^ a.rotateRight 34 ^^^ a.rotateRight 39) + ((a &&& b) ^^^ (a &&& c) ^^^ (b &&& c)), a, b, c, d + t, e, f, g]
  | _ => v

/-- One block of the hash. -/
def shaBlock (v : List (BitVec 64)) (block : List Byte) : List (BitVec 64) :=
  let w := (List.range 64).foldl (fun w t => w ++ [shaWord w (t + 16)]) ((pieces 8 block).map (fun b => BitVec.ofNat 64 (beAt b 0 8)))
  List.zipWith (· + ·) v ((shaConstants.zip w).foldl shaRound v)

/-- SHA-512 of a message: 64 bytes (R503, R512, R530). -/
def sha (m : List Byte) : List Byte := ((pieces 128 (shaPad m)).foldl shaBlock shaInit).flatMap (fun w => bytesBE 8 w.toNat)

/-- The digest as one number (R512). -/
def sha512 (m : List Byte) : BitVec 512 := BitVec.ofNat 512 (ofBE (sha m))

/-- A pad of HMAC: the key, hashed where it is longer than a block, combined with a constant byte. -/
def hmacPad (key : List Byte) (c : Byte) : List Byte :=
  (sliceB (if 128 < key.length then sha key else key) 0 128).map (· ^^^ c)

/-- HMAC-SHA-512 of a message under a key: 64 bytes (R506, R532). With a salt as the key, it is HKDF-Extract (R517, R531). -/
def hmac (key m : List Byte) : List Byte := sha (hmacPad key 0x5C ++ sha (hmacPad key 0x36 ++ m))

/-- Block `i` of HKDF-Expand, from 1 on. -/
def hkdfBlock (prk label : List Byte) : Nat → List Byte
  | 0 => []
  | i + 1 => hmac prk (hkdfBlock prk label i ++ label ++ bytesBE 1 (i + 1))

/-- HKDF-Expand to `n` bytes under a label (R503, R517, R531). -/
def expandKey (prk label : List Byte) (n : Nat) : List Byte :=
  sliceB ((List.range ((n + 63) / 64)).flatMap (fun i => hkdfBlock prk label (i + 1))) 0 n

/-! ## Curve25519 -/

/-- The field of Curve25519. -/
def p25519 : Nat := 2 ^ 255 - 19

/-- A power modulo the field's prime, by the exponent's lowest `n` bits. -/
def powP : Nat → Nat → Nat → Nat
  | 0, _, _ => 1
  | n + 1, a, e => (if e % 2 = 1 then a else 1) * powP n (a * a % p25519) (e / 2) % p25519

/-- The inverse in the field; 0 for 0. -/
def invP (a : Nat) : Nat := powP 255 a (p25519 - 2)

/-- A difference in the field. -/
def subP (a b : Nat) : Nat := (a + p25519 - b % p25519) % p25519

/-- What one step of the Montgomery ladder holds: x2, z2, x3, z3. -/
structure Ladder where
  x2 : Nat := 1
  z2 : Nat := 0
  x3 : Nat
  z3 : Nat := 1
deriving DecidableEq, Repr

/-- The two points of a ladder exchanged. -/
def swapLadder (r : Ladder) : Ladder := ⟨r.x3, r.z3, r.x2, r.z2⟩

/-- A step of the ladder for the point `u`: (x2 : z2) is doubled, the sum takes the other's place. -/
def ladderStep (u : Nat) (r : Ladder) : Ladder :=
  let a := (r.x2 + r.z2) % p25519
  let b := subP r.x2 r.z2
  let e := subP (a * a) (b * b)
  let da := subP r.x3 r.z3 * a
  let cb := (r.x3 + r.z3) * b
  let d := subP da cb
  ⟨a * a * (b * b) % p25519, e * (a * a + 121665 * e) % p25519, (da + cb) * (da + cb) % p25519, u * (d * d) % p25519⟩

/-- X25519 of a private key and a point, 32 bytes each (R517, R531). -/
def x25519 (key point : List Byte) : List Byte :=
  let n := leAt key 0 32
  let k := n % 2 ^ 254 - n % 8 + 2 ^ 254
  let u := leAt point 0 32 % 2 ^ 255 % p25519
  let r := (List.range 255).foldl (fun r i =>
    if k.testBit (254 - i) then swapLadder (ladderStep u (swapLadder r)) else ladderStep u r) { x3 := u : Ladder }
  bytesLE 32 (r.x2 * invP r.z2 % p25519)

/-- The public key of a private key (R529, EPH). -/
def x25519Public (key : List Byte) : List Byte := x25519 key (bytesLE 32 9)

/-- A point of Edwards 25519 in extended coordinates. -/
structure EdPoint where
  x : Nat
  y : Nat
  z : Nat := 1
  t : Nat
deriving DecidableEq, Repr

/-- The constant d of the curve, -121665/121666. -/
def edD : Nat := subP 0 (121665 * invP 121666)

/-- The sum of two points. -/
def edAdd (p q : EdPoint) : EdPoint :=
  let a := subP p.y p.x * subP q.y q.x
  let b := (p.y + p.x) * (q.y + q.x)
  let c := 2 * p.t * q.t * edD
  let d := 2 * p.z * q.z
  let e := subP b a
  let f := subP d c
  let g := (d + c) % p25519
  let h := (b + a) % p25519
  ⟨e * f % p25519, g * h % p25519, f * g % p25519, e * h % p25519⟩

/-- A multiple of a point, by the lowest `n` bits of the factor. -/
def edMul : Nat → Nat → EdPoint → EdPoint
  | 0, _, _ => ⟨0, 1, 1, 0⟩
  | n + 1, k, p => let r := edMul n (k / 2) (edAdd p p); if k % 2 = 1 then edAdd r p else r

/-- The point that 32 bytes encode; none where they encode none. -/
def edDecode (b : List Byte) : Option EdPoint :=
  let n := leAt b 0 32
  let y := n % 2 ^ 255
  let u := subP (y * y) 1
  let v := (edD * (y * y) + 1) % p25519
  let r := u * powP 3 v 3 * powP 255 (u * powP 3 v 7) ((p25519 - 5) / 8) % p25519
  let x := if v * r * r % p25519 = u then some r
    else if v * r * r % p25519 = subP 0 u then some (r * powP 255 2 ((p25519 - 1) / 4) % p25519) else none
  if p25519 ≤ y then none
  else x.bind (fun x =>
    if x = 0 ∧ n / 2 ^ 255 = 1 then none
    else
      let x := if x % 2 = n / 2 ^ 255 then x else p25519 - x
      some ⟨x, y, 1, x * y % p25519⟩)

/-- The base point: y is 4/5 and x is even. -/
def edBase : Option EdPoint := edDecode (bytesLE 32 (4 * invP 5 % p25519))

/-- The order of the base point. -/
def edOrder : Nat := 2 ^ 252 + 27742317777372353535851937790883648493

/-- The 32 bytes of a point. -/
def edEncode (p : EdPoint) : List Byte :=
  let i := invP p.z
  bytesLE 32 (p.y * i % p25519 + 2 ^ 255 * (p.x * i % p25519 % 2))

/-- The private scalar of a seed: the first half of its digest, clamped. -/
def edScalar (seed : List Byte) : Nat :=
  let n := leAt (sha seed) 0 32
  n % 2 ^ 254 - n % 8 + 2 ^ 254

/-- A multiple of the base point. -/
def edTimes (k : Nat) : EdPoint := edMul 256 k (edBase.getD ⟨0, 1, 1, 0⟩)

/-- The public key of a seed. -/
def edPublic (seed : List Byte) : List Byte := edEncode (edTimes (edScalar seed))

/-- The Ed25519 signature of a message under the key of a seed (R503, R504, R530). -/
def edSign (seed m : List Byte) : List Byte :=
  let r := ofLE (sha (sliceB (sha seed) 32 32 ++ m)) % edOrder
  let rb := edEncode (edTimes r)
  let k := ofLE (sha (rb ++ edPublic seed ++ m)) % edOrder
  rb ++ bytesLE 32 ((r + k * edScalar seed) % edOrder)

/-- Two points are equal. -/
def edSame (p q : EdPoint) : Bool := p.x * q.z % p25519 == q.x * p.z % p25519 && p.y * q.z % p25519 == q.y * p.z % p25519

/-- Ed25519 verification: public key, message, signature (R511, R515, R530). -/
def edVerify (pub m sig : List Byte) : Bool :=
  let s := leAt sig 32 32
  match edBase, edDecode pub, edDecode sig with
  | some b, some a, some r =>
    let k := ofLE (sha (sliceB sig 0 32 ++ sliceB pub 0 32 ++ m)) % edOrder
    sig.length == 64 && decide (s < edOrder) && edSame (edMul 253 s b) (edAdd r (edMul 253 k a))
  | _, _, _ => false

end Sys2Proof.Machine
end

