-- ==== Sys2Proof/Machine/Arith.lean ====
section
/-! DEFINITION. Reduction arithmetic (R80 to R108, R614): number formats, window integers, the one rounding,
order keys, and binary32 operations, all over exact integers. -/

namespace Sys2Proof.Machine

/-! ## Formats (R17, R81) -/

/-- A float format: bits, exponent bits, bias, significand bits, and whether it has infinities. -/
structure FFmt where
  bits : Nat
  eb : Nat
  bias : Nat
  p : Nat
  hasInf : Bool
deriving DecidableEq, Repr

def fmtE4M3 : FFmt := ⟨8, 4, 7, 4, false⟩
def fmtE5M2 : FFmt := ⟨8, 5, 15, 3, true⟩
def fmtBf16 : FFmt := ⟨16, 8, 127, 8, true⟩
def fmtFp16 : FFmt := ⟨16, 5, 15, 11, true⟩
def fmtFp32 : FFmt := ⟨32, 8, 127, 24, true⟩

/-- The float format of a code (R17). -/
def floatFmt (c : Nat) : Option FFmt :=
  match c with
  | 0x1 => some fmtE4M3
  | 0x2 => some fmtE5M2
  | 0x3 => some fmtBf16
  | 0x4 => some fmtFp16
  | 0x5 => some fmtFp32
  | _ => none

def isFloat (c : Nat) : Bool := (floatFmt c).isSome
def isInt (c : Nat) : Bool := c == 0x8 || c == 0x9 || c == 0xA
def isFmt (c : Nat) : Bool := isFloat c || isInt c

/-- Bytes of an element of a format. -/
def elemSize (c : Nat) : Nat :=
  match c with
  | 0x1 => 1 | 0x2 => 1 | 0x3 => 2 | 0x4 => 2 | 0x5 => 4 | 0x8 => 1 | 0x9 => 4 | 0xA => 8 | _ => 0

/-- Bytes of a window integer (R86). -/
def winSize (w96 : Bool) : Nat := if w96 then 12 else 8

/-- F of the window (R86). -/
def winF (w96 : Bool) : Nat := if w96 then 72 else 40

/-- Least normal exponent. -/
def FFmt.emin (f : FFmt) : Int := 1 - (f.bias : Int)

/-- Greatest finite value as (m, q), its value m × 2^q (R81). -/
def FFmt.maxM (f : FFmt) : Nat := if f.hasInf then 2 ^ f.p - 1 else 2 ^ f.p - 2
def FFmt.maxQ (f : FFmt) : Int :=
  ((if f.hasInf then 2 ^ f.eb - 2 else 2 ^ f.eb - 1 : Nat) : Int) - f.bias - (f.p - 1 : Nat)

/-- A float value: NaN, a signed infinity, or ±m × 2^q. -/
inductive FVal where
  | nan
  | inf (neg : Bool)
  | fin (neg : Bool) (m : Nat) (q : Int)
deriving DecidableEq, Repr

/-- The value of a float code (R81, R82). -/
def decodeF (f : FFmt) (x : Nat) : FVal :=
  let g := x % 2 ^ (f.p - 1)
  let e := (x / 2 ^ (f.p - 1)) % 2 ^ f.eb
  let neg := (x / 2 ^ (f.bits - 1)) % 2 == 1
  let top := 2 ^ f.eb - 1
  if f.hasInf && e == top then (if g == 0 then .inf neg else .nan)
  else if !f.hasInf && e == top && g == 2 ^ (f.p - 1) - 1 then .nan
  else if e == 0 then .fin neg g (1 - (f.bias : Int) - (f.p - 1 : Nat))
  else .fin neg (2 ^ (f.p - 1) + g) ((e : Int) - f.bias - (f.p - 1 : Nat))

/-- The canonical NaN (R81, R82). -/
def FFmt.cnan (f : FFmt) : Nat :=
  if f.hasInf then (2 ^ f.eb - 1) * 2 ^ (f.p - 1) + 2 ^ (f.p - 2) else 2 ^ (f.bits - 1) - 1

/-- Sign bit of a code. -/
def FFmt.signBit (f : FFmt) (neg : Bool) : Nat := if neg then 2 ^ (f.bits - 1) else 0

/-- The code of ±m × 2^q, where m fits the significand and q is the exponent of its last place. -/
def FFmt.encode (f : FFmt) (neg : Bool) (m : Nat) (q : Int) : Nat :=
  f.signBit neg +
    (if m < 2 ^ (f.p - 1) then m
     else (q + (f.p - 1 : Nat) + f.bias).toNat * 2 ^ (f.p - 1) + (m - 2 ^ (f.p - 1)))

/-- The signed infinity, or the canonical NaN where the format has none (R95, R614). -/
def FFmt.infinity (f : FFmt) (neg : Bool) : Nat :=
  if f.hasInf then f.signBit neg + (2 ^ f.eb - 1) * 2 ^ (f.p - 1) else f.cnan

/-- The signed greatest finite value. -/
def FFmt.maxFinite (f : FFmt) (neg : Bool) : Nat := f.encode neg f.maxM f.maxQ

/-- Overflow of the format: infinity, or ±448 for E4M3 (R94). -/
def FFmt.overflow (f : FFmt) (neg : Bool) : Nat := if f.hasInf then f.infinity neg else f.maxFinite neg

/-- The e for which 2^e ≤ a / d < 2^(e+1). -/
def floorLog2Ratio (a d : Nat) : Int :=
  let e : Int := (bitLen a : Int) - bitLen d
  let lo := if 0 ≤ e then decide (d * 2 ^ e.toNat ≤ a) else decide (d ≤ a * 2 ^ (-e).toNat)
  if lo then e else e - 1

/-- Quotient rounded to nearest, ties to even. -/
def divEven (num den : Nat) : Nat :=
  let m := num / den
  let r := num % den
  if den < 2 * r ∨ (2 * r = den ∧ m % 2 = 1) then m + 1 else m

/-- The rounding of R94 of magnitude `a` × 2^s / d with a sign. -/
def roundMag (neg : Bool) (a d : Nat) (s : Int) (f : FFmt) : Nat :=
  let e := floorLog2Ratio a d + s
  let q := max e f.emin - (f.p - 1 : Nat)
  let m := divEven (a * 2 ^ (s - q).toNat) (d * 2 ^ (q - s).toNat)
  let m' := if m = 2 ^ f.p then m / 2 else m
  let q' := if m = 2 ^ f.p then q + 1 else q
  if f.maxQ < q' ∨ (q' = f.maxQ ∧ f.maxM < m') then f.overflow neg else f.encode neg m' q'

/-- The one rounding (R94): t × 2^s / d to a format. -/
def roundToFloat (t : Int) (d : Nat) (s : Int) (f : FFmt) : Nat :=
  if t = 0 then 0 else roundMag (decide (t < 0)) t.natAbs d s f

/-- The single conversion of R614. -/
def convF (v : FVal) (f : FFmt) : Nat :=
  match v with
  | .nan => f.cnan
  | .inf neg => f.infinity neg
  | .fin neg m q => if m = 0 then f.signBit neg else roundMag neg m 1 q f

/-- e(x) of a finite nonzero value (R83). -/
def expOf (v : FVal) : Option Int :=
  match v with
  | .fin _ m q => if m = 0 then none else some ((bitLen m : Int) - 1 + q)
  | _ => none

/-! ## Window integers (R86, R91, R92) -/

/-- The number that a window integer is carried as, in `8 × winSize` bits (R86). -/
def winCode (w96 : Bool) (w : Win) : Nat :=
  let n := 8 * winSize w96
  match w with
  | .nan => 2 ^ (n - 1)
  | .negInf => 2 ^ (n - 1) + 1
  | .negSat => 2 ^ (n - 1) + 2
  | .bothSat => 2 ^ (n - 1) + 3
  | .posSat => 2 ^ (n - 1) - 2
  | .posInf => 2 ^ (n - 1) - 1
  | .fin v => ofSigned n v

/-- The window integer that a code spells. -/
def winOf (w96 : Bool) (x : Nat) : Win :=
  let n := 8 * winSize w96
  let h := 2 ^ (n - 1)
  if x = h then .nan else if x = h + 1 then .negInf else if x = h + 2 then .negSat
  else if x = h + 3 then .bothSat else if x = h - 2 then .posSat else if x = h - 1 then .posInf
  else .fin (toSigned n x)

/-- Conversion of a float value to the window (R91). -/
def toWindow (v : FVal) (e : Int) (f : Nat) : Win :=
  match v with
  | .nan => .nan
  | .inf neg => if neg then .negInf else .posInf
  | .fin neg m q =>
    if m = 0 then .fin 0
    else if e < (bitLen m : Int) - 1 + q then (if neg then .negSat else .posSat)
    else
      let sh := q - (e - f)
      let a : Int := ((m * 2 ^ sh.toNat) / 2 ^ (-sh).toNat : Nat)
      .fin (if neg then -a else a)

/-- The combination of two window integers (R92). -/
def combine (a b : Win) : Win :=
  match a, b with
  | .nan, _ => .nan
  | _, .nan => .nan
  | .posInf, .negInf => .nan
  | .negInf, .posInf => .nan
  | .posInf, _ => .posInf
  | _, .posInf => .posInf
  | .negInf, _ => .negInf
  | _, .negInf => .negInf
  | .bothSat, _ => .bothSat
  | _, .bothSat => .bothSat
  | .posSat, .negSat => .bothSat
  | .negSat, .posSat => .bothSat
  | .posSat, _ => .posSat
  | _, .posSat => .posSat
  | .negSat, _ => .negSat
  | _, .negSat => .negSat
  | .fin x, .fin y => .fin (x + y)

/-- A window integer reached the root saturated (R96). -/
def isSat (w : Win) : Bool := w == .posSat || w == .negSat || w == .bothSat

/-! ## Order keys and bitwise operations (R99, R100) -/

/-- The binary32 code of a float value, exact for every format (R99, R103). -/
def toF32 (v : FVal) : Nat := convF v fmtFp32

/-- The order key of binary32 bits (R99). -/
def keyOf32 (b : Nat) : Int := if b < 2 ^ 31 then (b : Int) else -((b % 2 ^ 31 : Nat) : Int) - 1

/-- The binary32 bits of an order key. -/
def of32Key (k : Int) : Nat := if 0 ≤ k then k.toNat else 2 ^ 31 + (-k - 1).toNat

/-- The key of a float code. -/
def floatKey (f : FFmt) (x : Nat) : Win :=
  match decodeF f x with
  | .nan => .nan
  | v => .fin (keyOf32 (toF32 v))

/-- The greater key, NAN absorbing (R99). -/
def winMax (a b : Win) : Win :=
  match a, b with
  | .fin x, .fin y => .fin (max x y)
  | _, _ => .nan

/-- The lesser key, NAN absorbing (R99). -/
def winMin (a b : Win) : Win :=
  match a, b with
  | .fin x, .fin y => .fin (min x y)
  | _, _ => .nan

/-- A bitwise operation on zero-extended bits (R100). -/
def winBits (f : Nat → Nat → Nat) (a b : Win) : Win :=
  match a, b with
  | .fin x, .fin y => .fin (f x.toNat y.toNat : Nat)
  | _, _ => .nan

/-! ## Binary32 arithmetic (R103) -/

def f32nan : Nat := 0x7FC00000

/-- Sum, round to nearest even. -/
def f32add (a b : Nat) : Nat :=
  match decodeF fmtFp32 a, decodeF fmtFp32 b with
  | .nan, _ => f32nan
  | _, .nan => f32nan
  | .inf x, .inf y => if x = y then fmtFp32.infinity x else f32nan
  | .inf x, _ => fmtFp32.infinity x
  | _, .inf y => fmtFp32.infinity y
  | .fin nx mx qx, .fin ny my qy =>
    let q := min qx qy
    let ax : Int := (mx * 2 ^ (qx - q).toNat : Nat)
    let ay : Int := (my * 2 ^ (qy - q).toNat : Nat)
    let t := (if nx then -ax else ax) + (if ny then -ay else ay)
    if t = 0 then fmtFp32.signBit (nx && ny) else roundToFloat t 1 q fmtFp32

/-- Product, round to nearest even. -/
def f32mul (a b : Nat) : Nat :=
  match decodeF fmtFp32 a, decodeF fmtFp32 b with
  | .nan, _ => f32nan
  | _, .nan => f32nan
  | .inf x, .inf y => fmtFp32.infinity (x != y)
  | .inf x, .fin ny my _ => if my = 0 then f32nan else fmtFp32.infinity (x != ny)
  | .fin nx mx _, .inf y => if mx = 0 then f32nan else fmtFp32.infinity (nx != y)
  | .fin nx mx qx, .fin ny my qy => convF (.fin (nx != ny) (mx * my) (qx + qy)) fmtFp32

/-- Quotient, round to nearest even. -/
def f32div (a b : Nat) : Nat :=
  match decodeF fmtFp32 a, decodeF fmtFp32 b with
  | .nan, _ => f32nan
  | _, .nan => f32nan
  | .inf _, .inf _ => f32nan
  | .inf x, .fin ny _ _ => fmtFp32.infinity (x != ny)
  | .fin nx _ _, .inf y => fmtFp32.signBit (nx != y)
  | .fin nx mx qx, .fin ny my qy =>
    if my = 0 then (if mx = 0 then f32nan else fmtFp32.infinity (nx != ny))
    else if mx = 0 then fmtFp32.signBit (nx != ny)
    else roundMag (nx != ny) mx my (qx - qy) fmtFp32

/-- Change of sign. -/
def f32neg (a : Nat) : Nat := if a < 2 ^ 31 then a + 2 ^ 31 else a - 2 ^ 31

def f32sub (a b : Nat) : Nat := f32add a (f32neg b)

/-- Integer square root of `n`, bit by bit from bit `k` − 1 down. -/
def isqrtAux : Nat → Nat → Nat → Nat
  | 0, _, r => r
  | k + 1, n, r => isqrtAux k n (if (r + 2 ^ k) * (r + 2 ^ k) ≤ n then r + 2 ^ k else r)

/-- Square root, round to nearest even: the exact root lies between two integers of at least 30 bits, and
an odd last place stands for what lies between. -/
def f32sqrt (a : Nat) : Nat :=
  match decodeF fmtFp32 a with
  | .nan => f32nan
  | .inf neg => if neg then f32nan else fmtFp32.infinity false
  | .fin neg m q =>
    if m = 0 then fmtFp32.signBit neg
    else if neg then f32nan
    else
      let odd : Nat := (q % 2).toNat
      let n := m * 2 ^ (60 + odd)
      let r := isqrtAux 64 n 0
      let t := 2 * r + (if r * r = n then 0 else 1)
      roundMag false t 1 ((q - 60 - odd) / 2 - 1) fmtFp32

/-- An integer as binary32, rounded once. -/
def f32ofNat (n : Nat) : Nat := roundToFloat n 1 0 fmtFp32

/-! ## Calls: operations on elements (R85 to R106) -/

/-- Collective operation codes (R64). -/
def opSUM : Nat := 0
def opMEAN : Nat := 1
def opMAX : Nat := 2
def opMIN : Nat := 3
def opAND : Nat := 4
def opOR : Nat := 5
def opXOR : Nat := 6
/-- Modes (R64). -/
def mEXACT : Nat := 0
def mORDERED : Nat := 1
def mFREE : Nat := 2

/-- Elements of packed data (R80). -/
def elems (size : Nat) (d : List Byte) : List Nat := (pieces size d).map ofLE

/-- A call adds: SUM or MEAN. -/
def isSum (op : Nat) : Bool := op == opSUM || op == opMEAN

/-- A call carries order keys: MAX or MIN. -/
def isKeyed (op : Nat) : Bool := op == opMAX || op == opMIN

/-- An element of INFMT as a window integer under exponent `e` (R91, R99, R100). -/
def inWin (op infmt : Nat) (w96 : Bool) (e : Int) (x : Nat) : Win :=
  match floatFmt infmt with
  | some f => if isKeyed op then floatKey f x else toWindow (decodeF f x) e (winF w96)
  | none => if isSum op || isKeyed op then .fin (toSigned (8 * elemSize infmt) x) else .fin (x : Int)

/-- The combination of a call's operation on window integers. -/
def opWin (op : Nat) (a b : Win) : Win :=
  if op = opMAX then winMax a b
  else if op = opMIN then winMin a b
  else if op = opAND then winBits (· &&& ·) a b
  else if op = opOR then winBits (· ||| ·) a b
  else if op = opXOR then winBits (· ^^^ ·) a b
  else combine a b

/-- An integer result saturated to a format (R101), and whether it saturated. -/
def satInt (fmt : Nat) (v : Int) : Nat × Bool :=
  let n := 8 * elemSize fmt
  let hi : Int := (2 ^ (n - 1) : Nat) - 1
  let lo : Int := -((2 ^ (n - 1) : Nat) : Int)
  if hi < v then (ofSigned n hi, true) else if v < lo then (ofSigned n lo, true) else (ofSigned n v, false)

/-- Quotient of an integer by d, nearest, ties to even (R102). -/
def divRound (t : Int) (d : Nat) : Int :=
  let m : Int := divEven t.natAbs d
  if t < 0 then -m else m

/-- The root's element of an EXACT call in OUTFMT, and whether the call overflows by it (R94 to R96, R99 to
R102). `d` is the divisor of MEAN, `e` the window exponent. A MAX or MIN outside a narrower integer OUTFMT saturates like a
sum (DESIGN CHOICE, log entry 100). -/
def outWin (op infmt outfmt : Nat) (w96 : Bool) (e : Int) (d : Nat) (w : Win) : Nat × Bool :=
  match floatFmt outfmt with
  | some f =>
    if isKeyed op then
      match w with
      | .fin k => (convF (decodeF fmtFp32 (of32Key k)) f, false)
      | _ => (f.cnan, false)
    else
      match w with
      | .nan => (f.cnan, false)
      | .posInf => (f.infinity false, false)
      | .negInf => (f.infinity true, false)
      | .posSat => (f.maxFinite false, true)
      | .negSat => (f.maxFinite true, true)
      | .bothSat => (f.cnan, true)
      | .fin t => (roundToFloat t (if op = opMEAN then d else 1) (e - winF w96) f, false)
  | none =>
    match w with
    | .fin t =>
      if op = opMEAN then satInt outfmt (divRound t d)
      else if isSum op || isKeyed op then satInt outfmt t
      else (ofSigned (8 * elemSize infmt) t, false)
    | _ => (0, isSat w)

/-- Adjacent pairs of leaves added, left to right (R104). -/
def pairUp : List Nat → List Nat
  | a :: b :: r => f32add a b :: pairUp r
  | l => l

/-- Leaves combined down to one; `fuel` bounds the levels. -/
def treeUp : Nat → List Nat → Nat
  | 0, l => l.headD 0
  | n + 1, l => if l.length ≤ 1 then l.headD 0 else treeUp n (pairUp l)

/-- Every `w`-th value from position `j`, added in order (R104). -/
def leafSum (w j : Nat) (xs : List Nat) : Nat :=
  let sel := (((List.range xs.length).zip xs).filter (fun e => e.1 % w == j)).map (·.2)
  match sel with
  | [] => 0
  | x :: r => r.foldl f32add x

/-- The ORDERED combination of values already in ascending rank order, with leaf width `w` (R104). -/
def orderedCombine (w : Nat) (xs : List Nat) : Nat :=
  treeUp xs.length ((List.range (min w xs.length)).map (fun j => leafSum w j xs))

/-- The root's element of an ORDERED or FREE SUM or MEAN in OUTFMT (R103, R614). -/
def outF32 (op outfmt d x : Nat) : Nat :=
  let y := if op = opMEAN then f32div x (f32ofNat d) else x
  match floatFmt outfmt with
  | some f => convF (decodeF fmtFp32 y) f
  | none => 0

/-- Element-by-element combination of two arrays. -/
def zipWin (f : Win → Win → Win) (a b : List Win) : List Win := (a.zip b).map (fun e => f e.1 e.2)

/-- Window integers as bytes (R80, R86). -/
def winBytes (w96 : Bool) (l : List Win) : List Byte := l.flatMap (fun w => bytesLE (winSize w96) (winCode w96 w))

/-- Bytes as window integers. -/
def winsOf (w96 : Bool) (d : List Byte) : List Win := (elems (winSize w96) d).map (winOf w96)

/-- The greatest e(x) over the finite nonzero elements of an input (R87, R88). -/
def maxExp (infmt : Nat) (d : List Byte) : Option Int :=
  match floatFmt infmt with
  | none => none
  | some f => (elems (elemSize infmt) d).foldl (fun m x => optMax m (expOf (decodeF f x))) none

end Sys2Proof.Machine
end

