-- ==== Sys2Proof/Machine/Host.lean ====
section
/-! DEFINITION. The host interface: rings, functions, descriptors, doorbells and interrupts (R404 to R439). -/

namespace Sys2Proof.Machine

/-! ## Opcodes (R409, R417, R418, R464) -/

/-- The opcodes that R417 lists. -/
def isOpcode (c : Nat) : Bool :=
  c == 0x00 || (decide (0x08 ≤ c) && decide (c ≤ 0x0C)) || (decide (0x10 ≤ c) && decide (c ≤ 0x14))
  || (decide (0x20 ≤ c) && decide (c ≤ 0x27)) || c == 0x30 || (decide (0x38 ≤ c) && decide (c ≤ 0x41))
  || (decide (0x48 ≤ c) && decide (c ≤ 0x4E)) || c == 0x58 || c == 0x59
  || (decide (0x60 ≤ c) && decide (c ≤ 0x64)) || (decide (0x68 ≤ c) && decide (c ≤ 0x6C))
  || (decide (0x70 ≤ c) && decide (c ≤ 0x73))

/-- The opcodes a restricted function may issue (R409). -/
def restrictedOpcode (c : Nat) : Bool :=
  c == 0x00 || (decide (0x20 ≤ c) && decide (c ≤ 0x27)) || c == 0x30 || (decide (0x38 ≤ c) && decide (c ≤ 0x41))

/-- The opcodes taken in HOLD (R418). -/
def holdOpcode (c : Nat) : Bool := c == 0x00 || c == 0x12 || (decide (0x70 ≤ c) && decide (c ≤ 0x73))

/-- PF0 and PF1 (R405): the functions that are no VF. -/
def isPf (s : State) (fn : Nat) : Bool := fn == 0 || (s.dev.bifur && fn == 32)

/-- The VFs beneath a PF (R405). -/
def vfsOf (s : State) (pf : Nat) : List Nat :=
  if s.dev.bifur then
    (if pf = 0 then (List.range 32).filter (0 < ·) else if pf = 32 then (List.range 64).filter (32 < ·) else [])
  else if pf = 0 then (List.range 64).filter (0 < ·) else []

/-- The device state lets an opcode be taken (R418). -/
def stateAllows (st : DevState) (c : Nat) : Bool :=
  match st with
  | .train => true
  | .run => true
  | .hold => holdOpcode c
  | .stopped => stoppedOpcode c
  | _ => false

/-- The common checks of R419, steps 1 to 3: the status of the first that fails. -/
def commonCheck (s : State) (fn : Nat) (desc : BitVec 512) : Option Nat :=
  let c := fld desc 7 0
  if ¬ isOpcode c ∨ fld desc 63 9 ≠ 0 then some stBAD
  else if fn ≠ 0 ∧ ¬ restrictedOpcode c then some stDENIED
  else if ¬ stateAllows s.dev.state c then some stHELD
  else none

/-! ## Latency, scale and budget (R426, R428, R547) -/

/-- The poll interval before SCALE, in ns (R428). -/
def pollBase (tol : Nat) : Nat := min (max (tol / 2) 250) 1000000 / 10 * 10

/-- LAT_POLL and LAT_MOD of a LAT_TOL under a SCALE (R428). -/
def derive (tol scale : Nat) : Nat × Nat :=
  (ceilDiv (ceilDiv (pollBase tol * scale) 256) 10 * 10,
   (if tol < 2000 then 0 else min (tol / 2) 1000000) / 10 * 10)

/-- The ACTIVE submission rings. -/
def pollRings (s : State) : List (Nat × Ring) :=
  s.host.rings.filter (fun e => e.2.state == .active && ringType e.2 == 1)

/-- The doorbell lines polled, each with the shortest interval of a function on it (R426). -/
def polledLines (s : State) : List (Nat × Nat) :=
  (pollRings s).foldl (fun m e =>
    let l := ringDoorbell e.2 / 64
    let p := pollBase (getFunc s (ringFunc e.2)).latTol
    if m.any (fun x => x.1 == l) then m.map (fun x => if x.1 == l then (l, min x.2 p) else x) else m ++ [(l, p)]) []

/-- SCALE from the demand (R426); it never leaves its 16 bits (log entry 11). -/
def scaleOf (lines : List (Nat × Nat)) (budget : Nat) : Nat :=
  let den := lines.foldl (fun d e => Nat.lcm d e.2) 1
  let num := sumOf lines (fun e => den / e.2)
  -- demand = num × 10^9 / den reads per second
  if num * 1000 ≤ budget * den then 256 else min (ceilDiv (256 * num * 1000) (budget * den)) 65535

/-- The registers of every function, of 64 (R409), those still at their reset values written out. -/
def everyFunc (m : Map Func) : Map Func := (List.range 64).foldl (fun m n => mput m n (mgetD m n {})) m

/-- LINES and L_MIN follow the ACTIVE rings (R426, R547). -/
def relines (s : State) : State :=
  let act := (s.host.rings.filter (fun e => e.2.state == .active)).map (fun e => (getFunc s (ringFunc e.2)).latTol)
  onPwr (fun p => { p with lmin := match act with | [] => 10000 | x :: r => r.foldl min x })
    (onHost (fun h => { h with lines := (polledLines s).length }) s)

/-- A ring was enabled or disabled, or LAT_TOL or BUDGET written: recompute SCALE, and every LAT_POLL and LAT_MOD with it;
post DBW_OVERLOAD on a change from or to a value above 256 (R426, R428). -/
def rescale (s : State) : State :=
  let new := scaleOf (polledLines s) s.host.budget
  let old := s.host.scale
  let s := relines (onHost (fun h => { h with
    scale := new,
    funcs := (everyFunc h.funcs).map (fun e => (e.1, { e.2 with
      latPoll := (derive e.2.latTol new).1, latMod := (derive e.2.latTol new).2 })) }) s)
  onlyIf (new != old && (decide (256 < new) || decide (256 < old))) (postDev 0x13 (bytesLE 2 new)) s

/-! ## Ring faults (R427) -/

/-- The reads a ring has outstanding as it leaves ACTIVE: what they bring is accepted no more, and each entry reserved for
them is released as its read returns (R422, R427). -/
def dropReads (r : Nat) (s : State) : State :=
  onRing r (fun g => { g with stale := g.stale ++ g.reads.map (fun n => (n, some (ringLink g))), reads := [] }) s

/-- Release `n` entries reserved in a completion ring (R422). -/
def unreserve (c : Option Nat) (n : Nat) (s : State) : State :=
  match c with
  | some c => onRing c (fun g => { g with out := g.out - n }) s
  | none => s

/-- Put one ring in ERROR and post RING_ERROR (R427). -/
def stopRing (r err : Nat) (s : State) : State :=
  let g := getRing s r
  let s := onlyIf (ringType g == 1) (dropReads r) s
  let s := onRing r (fun g => { g with state := .error, err := err }) s
  postFn (ringFunc g) 0x0001 (bytesLE 2 r ++ bytesLE 1 err ++ bytesLE 4 g.fetch) s

/-- The same, recorded as source 0x26 (R484). -/
def ringError1 (r err : Nat) (s : State) : State := detect 0x26 (locRing r) r (stopRing r err s)

/-- The ACTIVE submission rings bound to a completion ring, which its error takes along (R427). -/
def boundActive (r : Nat) (s : State) : List Nat :=
  if ringType (getRing s r) = 2 then
    (s.host.rings.filter (fun e => e.2.state == .active && ringType e.2 == 1 && ringLink e.2 == r)).map (·.1)
  else []

/-- Put a ring in ERROR, and with a completion ring every ACTIVE submission ring bound to it (R427). -/
def ringError (r err : Nat) (s : State) : State :=
  let bound := boundActive r s
  relines (forAll bound (fun b => ringError1 b 4) (ringError1 r err s))

/-! ## Ending descriptors: aborts (R436) -/

/-- Forget every wait that names a descriptor, cancelling its schedule where it has one (R436). -/
def forgetWaits (ri : Nat × Nat) (s : State) : State :=
  let clr (o : Option (Nat × Nat)) : Option (Nat × Nat) := if o = some ri then none else o
  let s := { s with groups := s.groups.map (fun e => (e.1, { e.2 with quiescer := clr e.2.quiescer, destroyers := e.2.destroyers.erase ri })) }
  let s := onEmb (fun m => { m with tables := m.tables.map (fun e => (e.1, { e.2 with
      quiescer := clr e.2.quiescer, destroyers := e.2.destroyers.erase ri,
      sched := match e.2.sched with
        | some c => if c.desc = some ri then none else some c
        | none => none })) }) s
  let s := onMem (fun m => { m with
      removing := m.removing.filter (fun x => !((x.1, x.2.1) == ri)),
      unbinding := m.unbinding.filter (fun x => !(x.2 == ri)),
      regions := m.regions.map (fun e => (e.1, { e.2 with releasing := if e.2.releasing = some ri then some (8192, 0) else e.2.releasing })) }) s
  let s := { s with launches := s.launches.filter (fun l => !(l.desc == ri)) }
  let s := onStop (fun t => if t.armedBy = some ri ∧ t.sstate = .armed then { t with sstate := .idle, armedBy := none, stopId := 0 } else { t with armedBy := clr t.armedBy }) s
  onObs (fun o => { o with
      snaps := o.snaps.filter (fun x => !(x.desc == ri)),
      windows := o.windows.map (fun w =>
        if o.snaps.any (fun x => x.desc == ri && x.window == w.1) then
          (w.1, { w.2 with pend := false, state := if w.2.state = 1 then 0 else w.2.state })
        else w) }) s

/-- The Tidemark a descriptor is scheduled for has been reached; while the Q7 is frozen, one that waited at the cut has not
(R436, R465). -/
def scheduleReached (s : State) (ri : Nat × Nat) : Bool :=
  let past (mark : Nat) (fixed : Bool) : Bool :=
    decide (mark ≤ if s.stop.frozen && !fixed then max s.stop.cutAt s.stop.mark else s.tide.now)
  s.launches.any (fun l => l.desc == ri && past l.mark l.fixed)
    || s.emb.tables.any (fun t => match t.2.sched with
      | some c => c.desc == some ri && (c.begun || past c.mark c.fixed)
      | none => false)
    || s.obs.snaps.any (fun x => x.desc == ri && past x.mark x.fixed)
    || (s.stop.armedBy == some ri && (s.stop.sstate != .armed || decide (s.stop.mark ≤ s.tide.now)))

/-- Opcodes whose schedule a disable cancels (R436). -/
def cancelsSchedule (c : Nat) : Bool := c == 0x3B || c == 0x08 || c == 0x09 || c == 0x10

/-- End a descriptor as its ring leaves ACTIVE for DRAINING (R436). -/
def abortDesc (d : Desc) (s : State) : State :=
  match d.stage with
  | .waiting => complete d stABORTED 0 false false s
  | .staged =>
    let batch := s.route.batch
    let s := onRoute (fun r => { r with batch := [] }) s
    forAll batch (fun b => finishDesc (b.ring, b.idx) stABORTED 0) s
  | .draining => complete d stABORTED 0 true false (forgetWaits (d.ring, d.idx) s)
  | .scheduled =>
    if cancelsSchedule d.opcode && !scheduleReached s (d.ring, d.idx) then complete d stABORTED 0 false false (forgetWaits (d.ring, d.idx) s) else s
  | .commitWait => s
  | .running => s

/-- Abort every descriptor of a ring that R436 allows. -/
def abortRing (r : Nat) (s : State) : State :=
  forAll (s.host.accepted.filter (fun d => d.ring == r)) (fun d s =>
    match findDesc s d.ring d.idx with
    | some d => abortDesc d s
    | none => s) s

/-- The descriptor that a ring accepted last, in this very instant and not yet taken, is not accepted (R439). -/
def unaccept (r : Nat) (s : State) : State :=
  let g := getRing s r
  match findDesc s r ((g.fetch + 2 ^ 32 - 1) % 2 ^ 32) with
  | none => s
  | some d =>
    if d.came ≠ s.tide.now ∨ d.stage ≠ .waiting then s
    else
      let s := onHost (fun h => { h with accepted := h.accepted.filter (fun e => !(e.ring == r && e.idx == d.idx)) }) s
      let s := onRing r (fun g => { g with fetch := d.idx, out := g.out - 1 }) s
      onObs (fun o => ctrSet o (kRing r 0) { (ctrOf o (kRing r 0)) with val := (ctrOf o (kRing r 0)).val - 1 })
        (unreserve (some (ringLink g)) 1 s)

/-- A submission ring goes DRAINING: fetching stops and its descriptors end under R436 (R434). -/
def ringDrain (r : Nat) (s : State) : State :=
  let s := dropReads r s
  let s := onRing r (fun g => { g with state := .draining }) s
  rescale (abortRing r s)

/-! ## Rings (R434, R435) -/

/-- Vectors of a function's MSI-X table (R406). -/
def vectorsOf (fn : Nat) : Nat := if fn = 0 then 2048 else 64

/-- An enable of a ring succeeds (R435). -/
def enableOk (s : State) (g : Ring) : Bool :=
  let t := ringType g
  let size := fld g.cfg 29 25
  let fn := ringFunc g
  t != 0 && decide (6 ≤ size) && decide (size ≤ 16)
  && decide (ringBase g + 2 ^ size * (if t = 1 then 64 else 32) ≤ 2 ^ 64)
  && (getFunc s fn).state == .enabled
  && (if t == 1 then
        let c := getRing s (ringLink g)
        c.state == .active && ringType c == 2 && ringFunc c == fn
      else fld g.cfg 18 17 == 0 && decide (ringVector g < vectorsOf fn))

/-- A writer has an owner's rights over a ring: PF0 always, another function over its own (R410). -/
def ownsRing (s : State) (writer r : Nat) : Bool := writer == 0 || ringFunc (getRing s r) == writer

/-- A function's DISABLE was taken in this very instant: an enable of one of its rings sets CFG_REJ (R439). -/
def disabledNow (s : State) (fn : Nat) : Bool :=
  (getFunc s fn).state != .enabled && (getFunc s fn).disabledAt == some s.tide.now

/-- Reads still outstanding of an earlier enable hold nothing in a completion ring that is enabled anew (R422). -/
def forgetStale (c : Nat) (s : State) : State :=
  onHost (fun h => { h with rings := h.rings.map (fun e =>
    (e.1, { e.2 with stale := e.2.stale.map (fun x => if x.2 = some c then (x.1, none) else x) })) }) s

/-- EN written 1 (R434, R439). -/
def enableRing (r : Nat) (s : State) : State :=
  let g := getRing s r
  match g.state with
  | .disabled =>
    if enableOk s g then
      rescale (onRing r (fun g => { g with
        state := .active, pi := 0, fetch := 0, out := 0, ci := 0, reads := [], enabledAt := some s.tide.now,
        unsignalled := 0, events := 0, lost := false, enAtBoot := false }) (forgetStale r s))
    else if disabledNow s (ringFunc g) then onRing r (fun g => { g with cfgRej := true, cfgRejAt := some s.tide.now, enAtBoot := false }) s
    else onRing r (fun g => { g with err := 5, enAtBoot := false }) s
  | .active => s
  | _ => onRing r (fun g => { g with cfgRej := true, cfgRejAt := some s.tide.now }) s

/-- Submission rings bound to a completion ring that are not DISABLED. -/
def boundBusy (s : State) (c : Nat) : Bool :=
  s.host.rings.any (fun e => ringType e.2 == 1 && ringLink e.2 == c && e.2.state != .disabled)

/-- Post RING_DRAINED (R432). -/
def postDrained (r : Nat) (s : State) : State :=
  let g := getRing s r
  postFn (ringFunc g) 0x0002 (bytesLE 2 r ++ bytesLE 1 0 ++ bytesLE 4 g.fetch) s

/-- EN written 0 (R434); it is taken before the descriptor reads that return in its instant (R439). -/
def disableRing (r : Nat) (s : State) : State :=
  let g := getRing s r
  if g.state = .active ∨ g.state = .error then
    match ringType g with
    | 1 => ringDrain r (forAll (s.host.accepted.filter (fun d => d.ring == r && d.came == s.tide.now)) (fun _ => unaccept r) s)
    | 2 =>
      if boundBusy s r then onRing r (fun g => { g with cfgRej := true, cfgRejAt := some s.tide.now }) s
      else rescale (postDrained r (onRing r (fun g => { g with state := .disabled }) s))
    | _ => rescale (onRing r (fun g => { g with state := .disabled }) s)
  else onRing r (fun g => { g with enAtBoot := false }) s

/-! ## Commands on rings -/

/-- A write of the host through BAR0 other than to the ring, function and latency registers: ignored in RESET and
BOOT (R587) and in CLIFF (R491). -/
def byHost (f : State → State) (s : State) : State := if regsLive s && s.dev.state != .boot then f s else s

/-- RING_ENABLE: in BOOT the enable takes effect when BOOT ends (R418). -/
def doRingEnable (writer r : Nat) (s : State) : State :=
  if s.dev.state = .cliff ∨ ¬ ownsRing s writer r then s
  else if s.dev.state = .boot ∨ s.dev.state = .reset then onRing r (fun g => { g with enAtBoot := true }) s
  else enableRing r s

def execRingEnable (writer ring : Nat) (s : State) : Host.Outcome State Fault Refusal :=
  .next (doRingEnable writer ring s)

def doRingDisable (writer r : Nat) (s : State) : State :=
  if s.dev.state = .cliff ∨ ¬ ownsRing s writer r then s else disableRing r s

def execRingDisable (writer ring : Nat) (s : State) : Host.Outcome State Fault Refusal :=
  .next (doRingDisable writer ring s)

/-- RING_DRAINED: a DRAINING ring whose RING_OUT is 0 becomes DISABLED (R434). -/
def doRingDrained (r : Nat) (s : State) : State :=
  let g := getRing s r
  if g.state = .draining ∧ g.out = 0 then
    rescale (postDrained r (onRing r (fun g => { g with state := .disabled }) s))
  else s

def execRingDrained (ring : Nat) (s : State) : Host.Outcome State Fault Refusal := .next (whenLive (doRingDrained ring) s)

/-! ## Functions (R437, R438) -/

/-- The rings a function owns, of a type. -/
def ringsOf (s : State) (fn t : Nat) : List Nat :=
  (s.host.rings.filter (fun e => ringFunc e.2 == fn && ringType e.2 == t)).map (·.1)

/-- An enable of this very instant, of a ring that has done nothing since: a DISABLE of its function is taken first, so that
the enable sets CFG_REJ (R439). -/
def undoEnable (fn : Nat) (s : State) : State :=
  let undone (g : Ring) : Bool := ringFunc g == fn && g.state == .active && g.enabledAt == some s.tide.now
    && g.reads.isEmpty && g.out == 0 && g.pi == 0
  if s.host.rings.any (fun e => undone e.2) then
    rescale (onHost (fun h => { h with rings := h.rings.map (fun e => if undone e.2 then
      (e.1, { e.2 with state := .disabled, cfgRej := true, cfgRejAt := some s.tide.now }) else e) }) s)
  else s

/-- A function goes DRAINING, and its submission rings with it (R437); the instant is kept where DISABLE was written. -/
def drainFunc (fn : Nat) (at_ : Option Nat) (s : State) : State :=
  let s := if at_.isSome then undoEnable fn s else s
  let s := onFunc fn (fun f => { f with state := .draining, disabledAt := at_ }) s
  forAll (ringsOf s fn 1) (fun r s =>
    let st := (getRing s r).state
    if st = .active ∨ st = .error then ringDrain r s else s) s

def doFunctionDisable (writer fn : Nat) (s : State) : State :=
  if s.dev.state = .cliff ∨ ¬ (writer = 0 ∨ writer = fn) then s
  else if (getFunc s fn).state = .enabled then drainFunc fn (some s.tide.now) s else s

def execFunctionDisable (writer func : Nat) (s : State) : Host.Outcome State Fault Refusal :=
  .next (doFunctionDisable writer func s)

def doFunctionEnable (writer fn : Nat) (s : State) : State :=
  if s.dev.state = .cliff ∨ ¬ (writer = 0 ∨ writer = fn) then s
  else if (getFunc s fn).state = .disabled then onFunc fn (fun f => { f with state := .enabled }) s else s

def execFunctionEnable (writer func : Nat) (s : State) : Host.Outcome State Fault Refusal :=
  .next (doFunctionEnable writer func s)

/-- The registers that a function level reset returns to their reset values: the latency registers, the
function registers but FN_COVE, and those of the function's rings, which stay its own (R438). -/
def flrReset (fn : Nat) (s : State) : State :=
  let s := onFunc fn (fun f => { coveHi := f.coveHi, coveLo := f.coveLo }) s
  onHost (fun h => { h with rings := h.rings.map (fun e =>
    if ringFunc e.2 = fn then (e.1, { cfg := setFld (0 : Word) 24 19 fn, stale := e.2.stale }) else e) }) s

/-- The function's drain is complete: completion rings go DISABLED, FUNC_DRAINED is posted, then the event
rings and the function go DISABLED (R437); a function level reset ends with its registers reset (R438). -/
def doFuncDrained (fn : Nat) (s : State) : State :=
  let f := getFunc s fn
  if f.state = .draining ∧ (ringsOf s fn 1).all (fun r => (getRing s r).state == .disabled) then
    let s := forAll (ringsOf s fn 2) (fun r => onRing r (fun g => { g with state := .disabled })) s
    let s := postFn fn 0x0003 (bytesLE 1 fn) s
    let s := forAll (ringsOf s fn 3) (fun r => onRing r (fun g => { g with state := .disabled })) s
    let s := onFunc fn (fun f => { f with state := .disabled, flr := false, flrRegs := false }) s
    rescale (onlyIf f.flrRegs (flrReset fn) s)
  else s

def execFuncDrained (func : Nat) (s : State) : Host.Outcome State Fault Refusal := .next (whenLive (doFuncDrained func) s)

/-- The completions of a function that wait for their write are discarded and counted (R438, R528). -/
def discardHeld (fn : Nat) (s : State) : State :=
  let held := s.host.heldCpl.filter (fun e => e.1.func == fn)
  forAll held (fun e => complete e.1 e.2.1 e.2.2.1 e.2.2.2.1 e.2.2.2.2)
    (onHost (fun h => { h with heldCpl := h.heldCpl.filter (fun e => e.1.func != fn) }) s)

/-- One function is reset: its work drains with completions and events discarded (R438). -/
def resetFunc (regs : Bool) (fn : Nat) (s : State) : State :=
  let f := getFunc s fn
  match f.state with
  | .disabled => rescale (onlyIf regs (flrReset fn) s)
  | .enabled => drainFunc fn none (discardHeld fn (onFunc fn (fun f => { f with flr := true, flrRegs := regs }) s))
  | .draining =>
    let s := discardHeld fn (onFunc fn (fun f => { f with flr := true, flrRegs := f.flrRegs || regs }) s)
    forAll (ringsOf s fn 1) abortRing s

/-- FUNCTION_LEVEL_RESET: kind 0 a function level reset, 1 Bus Master Enable cleared, 2 VF Enable cleared of
the PF (R438). None takes the Q7 out of CLIFF (R491). -/
def doFlr (fn kind : Nat) (s : State) : State :=
  if ¬ regsLive s then s
  else
    let fns := if kind = 2 then vfsOf s fn else if isPf s fn then fn :: vfsOf s fn else [fn]
    forAll fns (resetFunc (kind != 1)) s

def execFunctionLevelReset (func kind : Nat) (s : State) : Host.Outcome State Fault Refusal := .next (doFlr func kind s)

/-! ## Descriptors arrive (R419, R427) -/

/-- One descriptor of the oldest read has returned. -/
def oneLess : List Nat → List Nat
  | [] => []
  | n :: r => if n ≤ 1 then r else (n - 1) :: r

/-- Accept the 64 bytes of a descriptor and run its common checks (R419). -/
def acceptDesc (r : Nat) (desc : BitVec 512) (s : State) : State :=
  let g := getRing s r
  let d : Desc := {
    ring := r, idx := g.fetch, func := ringFunc g, opcode := fld desc 7 0, fence := bitAt desc 8,
    user := BitVec.ofNat 64 (fld desc 127 64), op := BitVec.ofNat 384 (fld desc 511 128), came := s.tide.now }
  let s := onRing r (fun g => { g with reads := oneLess g.reads, fetch := (g.fetch + 1) % 2 ^ 32, out := g.out + 1 }) s
  let s := onHost (fun h => { h with accepted := h.accepted ++ [d] }) s
  let s := countRaw (kRing r 0) 1 s
  match commonCheck s d.func desc with
  | some st => complete d st 0 false false s
  | none => s

/-- DESCRIPTOR_ARRIVAL: the next descriptor of the read that the ring issued first, or with an error that whole read, returns.
One of a read from before the ring left ACTIVE releases what was reserved for it; another is accepted while the ring is
ACTIVE (R422, R425, R427). -/
def doDescriptorArrival (r : Nat) (ok : Bool) (desc : BitVec 512) (s : State) : State :=
  let g := getRing s r
  if s.dev.state = .cliff then s
  else match g.stale, g.reads with
    | (n, c) :: l, _ =>
      let k := if ok then 1 else n
      unreserve c k (onRing r (fun g => { g with stale := if n ≤ k then l else (n - k, c) :: l }) s)
    | [], [] => s
    | [], n :: l =>
      if g.state ≠ .active ∨ ringType g ≠ 1 then s
      else if ok then acceptDesc r desc s
      else ringError r 2 (unreserve (some (ringLink g)) n (onRing r (fun g => { g with reads := l }) s))

def execDescriptorArrival (ring : Nat) (ok : Bool) (desc : BitVec 512) (s : State) : Host.Outcome State Fault Refusal :=
  .next (doDescriptorArrival ring ok desc s)

/-! ## The doorbell watcher (R424 to R427) -/

/-- Descriptors whose reads are outstanding, of one ring. -/
def readsOf (g : Ring) : Nat := sumOf g.reads id

/-- Descriptors that all rings have accepted and not completed, or whose reads are outstanding (R420). -/
def descsHeld (s : State) : Nat := s.host.accepted.length + s.host.heldCpl.length + sumOf s.host.rings (fun e => readsOf e.2)

/-- Read requests outstanding on a PCIe link (R404). -/
def requestsOut (s : State) (link : Nat) : Nat :=
  sumOf (s.host.rings.filter (fun e => linkOfFn s (ringFunc e.2) == link)) (fun e => e.2.reads.length + e.2.stale.length)

/-- The reads, at most so many, that fetch `n` descriptors from index `at_` of a ring of `size`: of up to 64, and none across
the ring's end (R425). -/
def readSizes (size : Nat) : Nat → Nat → Nat → List Nat
  | 0, _, _ => []
  | k + 1, at_, n =>
    if n = 0 then []
    else
      let m := min n (min 64 (size - at_ % size))
      m :: readSizes size k (at_ + m) (n - m)

/-- Free entries of a completion ring: neither written and unconsumed nor reserved (R422). -/
def cplFree (g : Ring) : Nat := ringSize g - (ahead g.ci g.pi + g.out)

/-- A submission ring's doorbell word was read: PI is checked and the new descriptors' reads are issued, as
far as completion entries, the limit of 16,384 accepted descriptors and that of 768 requests on the link allow (R404, R420,
R422, R425, R427). RING_PI is the index read, in error too (R411). -/
def pollSubmission (r : Nat) (word : Nat) (s : State) : State :=
  let g := getRing s r
  let pi := word % 2 ^ 32
  if word / 2 ^ 32 ≠ 0 ∨ ringSize g < ahead g.fetch pi ∨ 2 ^ 31 ≤ ahead g.pi pi then
    ringError r 1 (onRing r (fun g => { g with pi := pi }) s)
  else
    let next := (g.fetch + readsOf g) % 2 ^ 32
    let most := min (ahead next pi) (min (cplFree (getRing s (ringLink g))) (16384 - descsHeld s))
    let new := readSizes (ringSize g) (768 - requestsOut s (linkOfFn s (ringFunc g))) next most
    let s := onRing r (fun g => { g with pi := pi, reads := g.reads ++ new }) s
    onRing (ringLink g) (fun c => { c with out := c.out + sumOf new id }) s

/-- A completion or event ring's doorbell word was read: the CI in use (R424, R427). RING_FETCH is the index read, in error too
(R411). -/
def pollConsumer (r : Nat) (word : Nat) (s : State) : State :=
  let g := getRing s r
  let ci := word % 2 ^ 32
  if ahead g.ci g.pi < ahead g.ci ci then ringError r 3 (onRing r (fun g => { g with fetch := ci }) s)
  else onRing r (fun g => { g with ci := ci, fetch := ci }) s

/-- The doorbell watcher runs (R418). -/
def watcherRuns (st : DevState) : Bool := st == .hold || st == .train || st == .run || st == .stopped

/-- DOORBELL_POLL: one read of the 64-byte line at `line` covers every doorbell word in it (R425). The CI
words are taken before the PI words (log entry 11). -/
def doDoorbellPoll (line : Nat) (ok : Bool) (bytes : List Byte) (s : State) : State :=
  if ¬ watcherRuns s.dev.state then s
  else
    let here := s.host.rings.filter (fun e => e.2.state == .active && ringDoorbell e.2 / 64 == line / 64
      && ideOk s (ringFunc e.2))
    let cons := (here.filter (fun e => 2 ≤ ringType e.2)).map (·.1)
    let subs := (here.filter (fun e => ringType e.2 == 1)).map (·.1)
    let word (r : Nat) : Nat := leAt bytes (ringDoorbell (getRing s r) % 64) 8
    let s := onlyIf ok (forAll cons (fun r s => if (getRing s r).state = .active then pollConsumer r (word r) s else s)) s
    forAll subs (fun r s =>
      if (getRing s r).state = .active then (if ok then pollSubmission r (word r) s else ringError r 2 s) else s) s

def execDoorbellPoll (line : Nat) (ok : Bool) (bytes : List Byte) (s : State) : Host.Outcome State Fault Refusal :=
  .next (doDoorbellPoll line ok bytes s)

/-! ## Interrupts (R429, R430) -/

/-- INTERRUPT_MODERATION: LAT_MOD has passed since the oldest unsignalled entry. -/
def doInterruptModeration (r : Nat) (s : State) : State :=
  let g := getRing s r
  if 2 ≤ ringType g ∧ 0 < g.unsignalled ∧ g.oldest + (getFunc s (ringFunc g)).latMod ≤ s.tide.now then
    sendVector (ringFunc g) (ringVector g) s
  else s

def execInterruptModeration (ring : Nat) (s : State) : Host.Outcome State Fault Refusal :=
  .next (whenLive (doInterruptModeration ring) s)

/-- MSIX_UNMASK: a vector with its pending bit set sends one message (R430). -/
def doMsixUnmask (fn v : Nat) (s : State) : State :=
  if ¬ regsLive s ∨ vectorsOf fn ≤ v then s
  else
    let was := decide ((fn, v) ∈ s.host.pendingMsi)
    let s := onHost (fun h => { h with unmasked := addNew h.unmasked (fn, v), pendingMsi := h.pendingMsi.filter (· != (fn, v)) }) s
    onlyIf was (sendVector fn v) s

def execMsixUnmask (func vector : Nat) (s : State) : Host.Outcome State Fault Refusal := .next (doMsixUnmask func vector s)

/-- LAT_TOL written by the function itself (R415, R426, R428). -/
def doLatTolWrite (writer fn : Nat) (v : Word) (s : State) : State :=
  if s.dev.state = .cliff ∨ writer ≠ fn then s
  else rescale (onFunc fn (fun f => { f with latTol := v.toNat }) s)

def execLatTolWrite (writer func : Nat) (v : Word) (s : State) : Host.Outcome State Fault Refusal :=
  .next (doLatTolWrite writer func v s)

/-- DBW_CTL written: BUDGET of 1 to 200 is taken, any other ignored (R426). -/
def doDbwBudgetWrite (v : Word) (s : State) : State :=
  let b := fld v 7 0
  if b = 0 ∨ 200 < b then s else rescale (onHost (fun h => { h with budget := b }) s)

def execDbwBudgetWrite (v : Word) (s : State) : Host.Outcome State Fault Refusal := .next (byHost (doDbwBudgetWrite v) s)

/-- An access that R407 does not accept: a write is dropped, a read returns all ones; counted. -/
def doBarBadAccess (write : Bool) (s : State) : State :=
  if s.dev.state = .cliff then onlyIf (!write) (onDev (fun d => { d with badAccess := 0 })) s
  else count kHOST_BADACC (onlyIf (!write) (onDev (fun d => { d with badAccess := 0xFFFFFFFF })) s)

def execBarBadAccess (write : Bool) (s : State) : Host.Outcome State Fault Refusal := .next (doBarBadAccess write s)

/-- NOP: completes DONE with operand bits [63:0] in RESULT; bits [383:64] must be zero (R417). -/
def workNop : Work := fun _ op _ s => if zeroBits op 383 64 then (s, okR (fld op 63 0)) else (s, fail stBAD)

def execNop (r i : Nat) (s : State) : Host.Outcome State Fault Refusal := .next (runDesc 0x00 workNop r i [] s)

end Sys2Proof.Machine
end

