-- ==== Sys2Proof/Machine/Shoal.lean ====
section
/-! DEFINITION. Shoal: buffers, accounts, the free store, owners, credits, Beachcomber and quarter rebuilds
(R280 to R308), with SHOAL_SET and DATELINE_SET (R290, R311). -/

namespace Sys2Proof.Machine

/-! ## Sizes and minima (R280, R284, R285) -/

def diePorts (d : Nat) : List Nat := (List.range 192).map (fun i => 192 * d + i)

/-- An Ethernet-mode port (R364, R365): named by its lowest lane. -/
def isEthPort (s : State) (p : Nat) : Bool :=
  decide (p < 768) && bitAt (getLane s p).ctl 28 && !ethUpper s p && (match groupMode s p with
    | 0 => true
    | 1 => p % 2 == 0
    | 2 => p % 4 == 0
    | _ => false)

/-- Minimum of an account in buffers (R284, R290). -/
def acctMin (s : State) (a : Acct) : Nat :=
  match a with
  | .ingress _ vc => nth s.shoal.cfg.gIn (min vc 7) 0
  | .egress _ vc => nth s.shoal.cfg.gOut (min vc 7) 0
  | .ethIn _ => 40
  | .ethOut _ => 40
  | .group _ => 0
  | .emb _ => s.shoal.cfg.embRes * 256

/-- The die whose pool an account draws on. -/
def acctDie (a : Acct) (stored : Nat) : Nat :=
  match a with
  | .ingress p _ => dieOf p
  | .egress p _ => if p < 768 then dieOf p else p - 768
  | .ethIn p => dieOf p
  | .ethOut p => dieOf p
  | .group _ => stored
  | .emb d => d

/-- The minima of every account of every port of a die and of its LOCAL pseudo-port (R285, R291). -/
def dieMinima (s : State) (d : Nat) : Nat :=
  let i := sumOf s.shoal.cfg.gIn id + nth s.shoal.cfg.gIn 7 0
  let o := sumOf s.shoal.cfg.gOut id + nth s.shoal.cfg.gOut 7 0
  sumOf (diePorts d) (fun p => if isDrezhPort s p then i + o else if isEthPort s p then 80 else 0) + o

/-- The buffers a stored packet is charged for: a port's copy of retained data stands in those of the retained packet (R304). -/
def chargeOf (x : Stored) : Nat := if x.base.isSome then 0 else x.bufs.length

/-- Buffers charged to an account. -/
def charge (s : State) (a : Acct) : Nat := sumOf (s.shoal.stored.filter (fun x => x.acct == a)) chargeOf

/-- Buffers of a die charged to a group's reservation there (R293). -/
def groupHeld (s : State) (entry d : Nat) : Nat :=
  sumOf (s.shoal.stored.filter (fun x => x.die == d && x.acct == .group entry)) chargeOf

/-- A group's reservation on a die takes `n` more buffers (R287, R292, R293). -/
def groupTakes (s : State) (entry : Nat) (res : List (Nat × Nat)) (d n : Nat) : Bool :=
  decide (groupHeld s entry d + n ≤ sumOf (res.filter (fun r => r.1 == d)) (·.2))

/-- Credits of a class issued on a port and unused. -/
def creditsOut (s : State) (p c : Nat) : Nat := nth (getPort s p).link.credOut c 0

/-- Shared buffers an account holds, those that back its unused credits counted (R285, R286). -/
def sharedHeld (s : State) (a : Acct) : Nat :=
  match a with
  | .group _ => 0
  | .emb _ => 0
  | .ingress p c => charge s a + creditsOut s p c - acctMin s a
  | _ => charge s a - acctMin s a

/-- Shared buffers that back a port's unused credits, over its nine classes (R286). -/
def sharedCredits (s : State) (p : Nat) : Nat :=
  sumOf (List.range 9) (fun c => creditsOut s p c - (acctMin s (.ingress p c) - charge s (.ingress p c)))

/-- Group reservations on a die (R285, R292). -/
def groupRes (s : State) (d : Nat) : Nat :=
  sumOf s.groups (fun g => sumOf (g.2.shoalRes.filter (fun r => r.1 == d)) (·.2))

/-- The accounts of a die that may hold shared buffers: those of ports in use and of stored packets. -/
def liveAccts (s : State) (d : Nat) : List Acct :=
  let ports := (s.net.ports.map (·.1)).filter (fun p => dieOf p == d)
  let a := ports.flatMap (fun p => (List.range 9).map (fun c => Acct.ingress p c))
  (s.shoal.stored.filter (fun x => acctDie x.acct x.die == d)).foldl (fun l x => addNew l x.acct) a

/-- The size of a die's shared pool (R285). -/
def poolSize (s : State) (d : Nat) : Nat :=
  655360 - (dieMinima s d + s.shoal.cfg.embRes * 256 + groupRes s d + (getSlice s d).withheld.length)

/-- Free buffers of a die's shared pool. -/
def poolFree (s : State) (d : Nat) : Nat := poolSize s d - sumOf (liveAccts s d) (sharedHeld s)

/-- An account can take `n` more buffers, from its minimum or from the pool, within SHARE_CAP (R285, R287). -/
def acctCan (s : State) (a : Acct) (d n : Nat) : Bool :=
  let m := acctMin s a
  let c := charge s a + (match a with | .ingress p v => creditsOut s p v | _ => 0)
  let more := (c + n - m) - (c - m)
  decide (more ≤ poolFree s d) && decide (c + n - m ≤ s.shoal.cfg.shareCap * 64)

/-! ## The free store (R296) -/

/-- An account's number, for the quarter it last took from. -/
def acctKey (a : Acct) : Nat :=
  match a with
  | .ingress p v => 16 * p + v
  | .egress p v => 2 ^ 16 + 16 * p + v
  | .group e => 2 ^ 18 + e
  | .emb d => 2 ^ 19 + d
  | .ethIn p => 2 ^ 20 + p
  | .ethOut p => 2 ^ 21 + p

/-- The lowest number from `lo` that no ascending `used` number takes. -/
def lowestFree (lo : Nat) (used : List Nat) : Nat := used.foldl (fun cur k => if k = cur then cur + 1 else cur) lo

/-- The head of a quarter's free list; none at its end (R297). -/
def listHead (x : Quarter) (q : Nat) : Option Nat :=
  match x.stack with
  | b :: _ => some b
  | [] =>
    let b := lowestFree (163840 * q + x.run) ((x.skip.foldl (fun l y => insertAsc y l) []).filter (163840 * q + x.run ≤ ·))
    if b < 163840 * (q + 1) then some b else none

/-- The length of a quarter's free list (R297). -/
def listLen (x : Quarter) (q : Nat) : Nat :=
  x.stack.length + (163840 - x.run - (x.skip.filter (fun b => decide (163840 * q + x.run ≤ b ∧ b < 163840 * (q + 1)))).length)

/-- The list after its head is taken (R297). -/
def listPop (x : Quarter) (q : Nat) : Quarter :=
  match x.stack with
  | _ :: r => { x with stack := r }
  | [] => match listHead x q with
    | some b => { x with run := b + 1 - 163840 * q }
    | none => x

/-- A buffer returns to the free store: to the head of its quarter's list while that is open, else as its bit (R297,
R298). -/
def returnBuf (sl : Slice) (b : Nat) : Slice :=
  { sl with
    used := mdel sl.used b,
    quarters := modAt sl.quarters (b / 163840) (fun x => if x.bitmap || x.closed.isSome then x else { x with stack := b :: x.stack }) }

/-- The buffer a quarter gives next: the lowest free one in bitmap mode, the head of the list in list mode, and none while
the quarter changes over (R296 to R300). -/
def quarterFree (sl : Slice) (q : Nat) : Option Nat :=
  let x := nth sl.quarters q {}
  if x.bitmap = false then (if x.closed.isSome then none else listHead x q)
  else
    let lo := 163840 * q
    let taken := sl.withheld.foldl (fun l x => insertAsc x l) (sl.used.map (·.1))
    let b := lowestFree lo (taken.filter (lo ≤ ·))
    if b < lo + 163840 then some b else none

/-- Take one buffer for an account: from the quarter after the one it last took from, its lowest free (R296). -/
def allocOne (key : Nat) (sl : Slice) : Option (Nat × Slice) :=
  let last := ((sl.lastQ.find? (fun e => e.1 == key)).map (·.2)).getD 3
  let order := [(last + 1) % 4, (last + 2) % 4, (last + 3) % 4, last % 4]
  match order.findSome? (fun q => (quarterFree sl q).map (fun b => (q, b))) with
  | none => none
  | some (q, b) => some (b, { sl with
      used := mput sl.used b ⟨0xFFFFF, true, false⟩,
      quarters := modAt sl.quarters q (fun x => if x.bitmap then x else listPop x q),
      lastQ := sl.lastQ.filter (fun e => e.1 != key) ++ [(key, q)] })

/-- Take `n` buffers in a row. -/
def allocN (key : Nat) : Nat → Slice → Option (List Nat × Slice)
  | 0, sl => some ([], sl)
  | n + 1, sl =>
    match allocOne key sl with
    | none => none
    | some (b, sl) =>
      match allocN key n sl with
      | none => none
      | some (l, sl) => some (b :: l, sl)

/-- Chain the buffers: NEXT names the following one, 0xFFFFF ends (R281). -/
def chainBufs : List Nat → Map Buf → Map Buf
  | [], m => m
  | [b], m => mmod m b (fun x => { x with next := 0xFFFFF })
  | b :: c :: r, m => chainBufs (c :: r) (mmod m b (fun x => { x with next := c }))

/-- Free buffers on a die (gauge SHOAL_FREE). -/
def shoalFree (s : State) (d : Nat) : Nat := 655360 - ((getSlice s d).used.length + (getSlice s d).withheld.length)

/-- Keep SHOAL_FREE_MIN and a port's SHOAL_HELD_HW (R564). SHOAL_FREE_MIN starts at the whole slice. -/
def noteHeld (d : Nat) (a : Acct) (s : State) : State :=
  let k := kDie d 1
  let s := onObs (fun o =>
    let c := if o.ctrs.any (fun e => e.1 == k) then (ctrOf o k).val else 655360
    ctrSet o k ⟨min c (shoalFree s d), false⟩) s
  match a with
  | .ingress p _ => gaugeMax (kPort p iSHOAL_HELD_HW) (sumOf (List.range 9) (fun c => charge s (.ingress p c))) s
  | _ => s

/-! ## Owners (R303, R304) -/

def mkOwner (kind who : Nat) : Nat := kind * 2 ^ 21 + who
def ownIngress (p : Nat) : Nat := mkOwner 0 p
def ownQueue (p q : Nat) : Nat := mkOwner 1 (p * 64 + q)
def ownRetry (p : Nat) : Nat := mkOwner 2 p
def ownReseq (d e : Nat) : Nat := mkOwner 3 (d * 2 ^ 16 + e)
def ownGroup (e slot : Nat) : Nat := mkOwner 4 (e * 64 + slot % 64)
/-- The engine's work slot that a retained piece stands in (log entry 101). -/
def ownEmb (slot : Nat) : Nat := mkOwner 5 (slot % 2 ^ 20)

/-- The copies, one for each port, that stand in a retained packet's buffers (R304). -/
def copiesOf (s : State) (d b : Nat) : List Stored := s.shoal.stored.filter (fun x => x.die == d && x.base == some b)

/-- The owner list of a stored packet: its own names, and those of the copies that share its buffers (R304). -/
def ownerList (s : State) (x : Stored) : List Nat := x.owners ++ (copiesOf s x.die (x.bufs.headD 0xFFFFF)).flatMap (·.owners)

/-- The owner table of a die is full: it holds the owner lists of more than one name (R304). -/
def ownersFull (s : State) (d : Nat) : Bool :=
  let lists := (s.shoal.stored.filter (fun x => x.die == d && x.base.isNone)).map (fun x => (ownerList s x).length)
  decide (1048576 ≤ sumOf (lists.filter (1 < ·)) id)

/-- A packet's bytes pass their parity check as they are read (R283, R476). -/
def storedGood (x : Stored) : Bool := parityGood ((storedBytes x.pkt).zip x.par)

/-- Store a packet in the slice of a die, charged to an account and owned from its first buffer (R281 to
R284, R303). The result names it by its first buffer; none when no buffer is free. -/
def storePkt (d : Nat) (a : Acct) (x : Stored) (n owner : Nat) (s : State) : Option (Nat × State) :=
  match allocN (acctKey a) n (getSlice s d) with
  | none => none
  | some (l, sl) =>
    match l with
    | [] => none
    | b :: _ =>
      let sl := { sl with used := chainBufs l sl.used }
      let s := onSlice d (fun _ => sl) s
      let s := onShoal (fun h => { h with stored := h.stored ++ [{ x with die := d, bufs := l, acct := a, owners := [owner], par := packetParity x.pkt }] }) s
      some (b, noteHeld d a s)

/-- Store a port's copy of retained data: it shares the buffers of the packet retained at `b`, and has a name of its own
beside theirs (R304). -/
def storeCopy (d b : Nat) (x : Stored) (owner : Nat) (s : State) : Nat × State :=
  let names := sortBy id ((s.shoal.stored.filter (fun y => y.die == d && y.base.isSome)).flatMap (·.bufs))
  let v := lowestFree 655360 names
  (v, onShoal (fun h => { h with stored := h.stored ++ [{ x with die := d, bufs := [v], base := some b, owners := [owner], par := packetParity x.pkt }] }) s)

/-- The stored packet of a die whose chain starts at a buffer. -/
def storedAt (s : State) (d b : Nat) : Option Stored := s.shoal.stored.find? (fun x => x.die == d && x.bufs.headD 0xFFFFF == b)

/-- Change one stored packet. -/
def onStored (d b : Nat) (f : Stored → Stored) : State → State :=
  onShoal (fun h => { h with stored := h.stored.map (fun x => if x.die == d && x.bufs.headD 0xFFFFF == b then f x else x) })

/-- Change the packet itself where it is stored: its parity is generated anew (R475). -/
def setStored (d b : Nat) (f : Packet → Packet) : State → State :=
  onStored d b (fun x => { x with pkt := f x.pkt, par := packetParity (f x.pkt) })

/-- Forget a stored packet. -/
def forgetStored (d b : Nat) : State → State :=
  onShoal (fun h => { h with stored := h.stored.filter (fun y => !(y.die == d && y.bufs.headD 0xFFFFF == b)) })

/-- A packet's last own name goes: its buffers return, the last one first, but not while copies share them (R297, R304, R305). -/
def freeOwn (d b : Nat) (s : State) : State :=
  match storedAt s d b with
  | none => s
  | some x =>
    if (copiesOf s d b).isEmpty then forgetStored d b (onSlice d (fun sl => x.bufs.reverse.foldl returnBuf sl) s)
    else onStored d b (fun y => { y with owners := [] }) s

/-- Free a stored packet. The last copy that goes takes the shared buffers with it, where no other owner names them (R304,
R305). -/
def freeStored (d b : Nat) (s : State) : State :=
  match (storedAt s d b).bind (·.base) with
  | none => freeOwn d b s
  | some r =>
    let s := forgetStored d b s
    if ((storedAt s d r).map (fun y => y.owners.isEmpty)).getD false then freeOwn d r s else s

/-- Add an owner (R304). -/
def addOwner (d b o : Nat) : State → State := onStored d b (fun x => { x with owners := addNew x.owners o })

/-- Release a named owner: the last one frees the packet's buffers (R305). -/
def dropOwner (d b o : Nat) (s : State) : State :=
  match storedAt s d b with
  | none => s
  | some x =>
    if x.owners = [o] then freeStored d b s
    else onStored d b (fun x => { x with owners := x.owners.erase o }) s

/-- The port a stored packet came in on, in its own buffers or, where an engine passed it on, before (R257). -/
def cameOn (x : Stored) : Nat := if x.port < 768 then x.port else x.came

/-- The engine's names on a stored packet's owner list. -/
def retainers (x : Stored) : List Nat := x.owners.filter (fun o => decide (4 ≤ o / 2 ^ 21 ∧ o / 2 ^ 21 ≤ 6))

/-- Every owner but the engines' retention lets a stored packet go (R305). -/
def releaseStored (d b : Nat) (s : State) : State :=
  match storedAt s d b with
  | none => s
  | some x => if (retainers x).isEmpty then freeStored d b s else onStored d b (fun y => { y with owners := retainers y }) s

/-- Retention lets a stored packet go (R118, R305): it is freed, but for what other owners still hold. -/
def letGoOne (d b : Nat) (s : State) : State :=
  match storedAt s d b with
  | none => s
  | some x =>
    let rest := x.owners.filter (fun o => o / 2 ^ 21 != 4)
    if rest.isEmpty then freeStored d b s else onStored d b (fun y => { y with owners := rest }) s

/-- Retention lets every packet of a list of names go. -/
def letGo (l : List (Nat × Nat)) : State → State := forAll l (fun e => letGoOne e.1 e.2)

/-- The stored packet that a delivered packet stands in. -/
def deliveredIn (s : State) (port : Nat) (p : Packet) : Option Stored :=
  match deliveredAt s port p with
  | e :: _ => storedAt s e.1 e.2
  | [] => none

/-- The binding a packet of a port is served under: as its arrival captured it, or as it stands for one in no buffer
(R234, R271). -/
def boundAt (s : State) (port : Nat) (p : Packet) : Option Binding :=
  match deliveredIn s port p with
  | some x => x.bound
  | none => bindOf s port

/-- The job check of a packet of a port, made as it arrived or, for one in no buffer, now (R232, R234). -/
def jobBound (s : State) (port : Nat) (p : Packet) : Bool :=
  match deliveredIn s port p with
  | some x => x.jobOk
  | none => s.mem.jobPorts.contains (port, p.job)

/-- Move the charge of a stored packet to another account (R287). -/
def recharge (d b : Nat) (a : Acct) : State → State := onStored d b (fun x => { x with acct := a })

/-- Free every packet of a list of names. -/
def freeAll (l : List (Nat × Nat)) : State → State := forAll l (fun e => freeStored e.1 e.2)

/-! ## Credits (R286) -/

/-- Shoal that a job's ingress holds at attachment ports, in bytes (R236). -/
def jobHeld (s : State) (j : Nat) : Nat :=
  256 * sumOf (s.shoal.stored.filter (fun x => x.pkt.job == j && isAttach s x.port && (match x.acct with | .ingress _ _ => true | _ => false)))
    chargeOf

/-- Credits of a class are withheld on a port: a job bound to it stands at its SHOAL_CAP on that VC (R236). -/
def capHolds (s : State) (p c : Nat) : Bool :=
  s.mem.capped.any (fun e => e.2 == min c 7 && s.mem.jobPorts.contains (p, e.1) &&
    (match mget s.mem.jobs e.1 with
     | some j => decide (j.2 * 2 ^ 20 ≤ jobHeld s e.1)
     | none => false))

/-- How many more credits of a class a port may issue now: every unused buffer within the minimum, and
shared ones under the four conditions of R286; at most 1,275 issued and unused (R357). -/
def creditsNew (s : State) (p lanes c : Nat) : Nat :=
  let a := Acct.ingress p c
  let m := acctMin s a
  let used := charge s a + creditsOut s p c
  let own := m - used
  let shared := min (s.shoal.cfg.credAhead * lanes - sharedCredits s p)
    (min (s.shoal.cfg.shareCap * 64 - (used - m)) (poolFree s (dieOf p)))
  if capHolds s p c then 0 else min (own + shared) (1275 - creditsOut s p c)

/-! ## Beachcomber (R307, R308) -/

/-- A buffer is named by an owner record: a stored packet with an owner holds it. -/
def isOwned (s : State) (d b : Nat) : Bool :=
  s.shoal.stored.any (fun x => x.die == d && x.base.isNone && x.bufs.contains b && !(ownerList s x).isEmpty)

/-- The owned buffers that the free store holds as free. -/
def conflicts (s : State) (d : Nat) : List Nat :=
  (s.shoal.stored.filter (fun x => x.die == d && x.base.isNone && !(ownerList s x).isEmpty)).flatMap
    (fun x => x.bufs.filter (fun b => (mget (getSlice s d).used b).isNone))

/-- A die's next audit is due: 100 ms of Tide after its last (R307). -/
def auditDue (s : State) (d : Nat) : Bool := (nth s.shoal.auditAt d none).all (fun t => due s (t + 100000000))

/-- BEACHCOMBER_AUDIT of a die, on quarters in bitmap mode, once each 100 ms; a cut stops it (R301, R307, R456). Its Swells
reach the collector before its Ripples (R481). -/
def doAudit (d : Nat) (s : State) : State :=
  if ¬ engineOn s ∨ 4 ≤ d ∨ ¬ auditDue s d then s
  else
    let s := onShoal (fun h => { h with auditAt := modAt h.auditAt d (fun _ => some s.tide.now) }) s
    let sl := getSlice s d
    let inMap (b : Nat) : Bool := (nth sl.quarters (b / 163840) {}).bitmap
    let lost := (sl.used.filter (fun e => inMap e.1 && !isOwned s d e.1 && e.2.noted && !e.2.touched)).map (·.1)
    let conf := sortBy (· / 163840) ((conflicts s d).filter inMap)
    let s := onSlice d (fun sl => { sl with used := (sl.used.filter (fun e => !lost.contains e.1)).map (fun e =>
        if inMap e.1 then (e.1, { e.2 with touched := false, noted := !isOwned s d e.1 }) else e) }) s
    let s := onSlice d (fun sl => { sl with used := conf.foldl (fun m b => mput m b ⟨0xFFFFF, false, false⟩) sl.used }) s
    let s := forAll conf (fun b => detect 0x18 (mkLoc d (b / 163840) 0) 0) s
    forAll lost (fun b => detect 0x08 (mkLoc d (b / 163840) 0) 0) s

def execBeachcomberAudit (die : Nat) (s : State) : Host.Outcome State Fault Refusal := .next (doAudit die s)

/-- Change one quarter of a die. -/
def onQuarter (d q : Nat) (f : Quarter → Quarter) : State → State :=
  onSlice d (fun sl => { sl with quarters := modAt sl.quarters q f })

/-- The list closes to allocation, with its head and length recorded, and the bitmap is all zero (R298 steps 1 to 3). -/
def closeList (x : Quarter) (q : Nat) : Quarter :=
  { x with bitmap := false, closed := some ((listHead x q).getD 0xFFFFF, listLen x q) }

/-- The walk of a closed list reaches its end after the recorded number of nodes from the recorded head, and meets no node
twice (R298 step 5). -/
def walkOk (x : Quarter) (q : Nat) : Bool :=
  x.closed == some ((listHead x q).getD 0xFFFFF, listLen x q) && decide x.stack.Nodup
  && x.stack.all (fun b => decide (163840 * q ≤ b ∧ b < 163840 * q + x.run) || x.skip.contains b)

/-- A quarter leaves the bitmap, and its list is threaded anew in number order: every buffer that no owner record names and
that is not withheld. The walks take up to 2 ms, in which the quarter gives no buffer (R300). -/
def threadQuarter (d q : Nat) (s : State) : State :=
  let owned := ((getSlice s d).used.filter (fun e => e.1 / 163840 == q && isOwned s d e.1)).map (·.1)
  let s := onSlice d (fun sl => { sl with used := sl.used.filter (fun e => e.1 / 163840 != q || isOwned s d e.1) }) s
  onQuarter d q (fun x => { closeList { x with
    stack := [], run := 0, skip := owned ++ (getSlice s d).withheld.filter (fun b => b / 163840 == q) } q with
    doneAt := some (s.tide.now + min Config.rebuildTime 2000000) }) s

/-- A quarter's bitmap or change-over walk has failed. A failed walk counts against the quarter, and the second is a Cliff
(R299, R300). -/
def rebuildQuarter (d q : Nat) (s : State) : State :=
  let x := nth (getSlice s d).quarters q {}
  let n := x.failures + b2n x.closed.isSome
  let s := onQuarter d q (fun x => { x with failures := n }) s
  if 2 ≤ n then detect 0x30 (mkLoc d q 0) 0 s else threadQuarter d q s

/-- A closed list is walked: on success the quarter is in bitmap mode, else the walk has failed (R298, R299). -/
def finishWalk (d q : Nat) (s : State) : State :=
  if walkOk (nth (getSlice s d).quarters q {}) q then
    onQuarter d q (fun x => { bitmap := true, failures := x.failures }) s
  else rebuildQuarter d q (detect 0x17 (mkLoc d q 0) 0 s)

/-- The change-over of a quarter from its list to the bitmap (R298, R301). -/
def changeOver (d q : Nat) (s : State) : State := finishWalk d q (onQuarter d q (fun x => closeList x q) s)

/-- The walks of the quarters whose rebuild has ended (R300). -/
def settleQuarters (s : State) : State :=
  forAll (List.range 4) (fun d s => forAll (List.range 4) (fun q s =>
    match (nth (getSlice s d).quarters q {}).doneAt with
    | some t => if t ≤ s.tide.now then finishWalk d q s else s
    | none => s) s) s

/-- QUARTER_REBUILD: a bitmap parity error (R300). -/
def doQuarterRebuild (d q : Nat) (s : State) : State :=
  if ¬ (s.dev.state = .train ∨ s.dev.state = .run ∨ s.dev.state = .stopped) then s
  else rebuildQuarter d q (detect 0x17 (mkLoc d q 0) 0 s)

def execQuarterRebuild (die quarter : Nat) (s : State) : Host.Outcome State Fault Refusal := .next (doQuarterRebuild die quarter s)

/-! ## SHOAL_SET (R290, R291) and DATELINE_SET (R311) -/

/-- The parameters a SHOAL_SET carries: byte v of G_IN and G_OUT is the minimum of VC v. -/
def shoalCfgOf (op : BitVec 384) : ShoalCfg :=
  { gIn := (List.range 8).map (fun v => fld op (320 + 8 * v + 7) (320 + 8 * v)),
    gOut := (List.range 8).map (fun v => fld op (256 + 8 * v + 7) (256 + 8 * v)),
    shareCap := fld op 255 240, credAhead := fld op 239 232, embRes := fld op 231 216,
    poolFloor := fld op 215 200, escWait := fld op 199 180 }

/-- The floors of the minima by VC (R291). -/
def shoalFloors : List Nat := [2, 3, 3, 3, 33, 33, 33, 33]

/-- Every field of a SHOAL_SET is in range and no minimum is below its floor (R291). -/
def shoalCfgOk (c : ShoalCfg) : Bool :=
  (c.gIn.zip shoalFloors).all (fun e => e.2 ≤ e.1) && (c.gOut.zip shoalFloors).all (fun e => e.2 ≤ e.1)
  && decide (1 ≤ c.shareCap ∧ c.shareCap ≤ 10240) && decide (1 ≤ c.credAhead)
  && decide (16 ≤ c.embRes ∧ c.embRes ≤ 2048) && decide (64 ≤ c.poolFloor ∧ c.poolFloor ≤ 2048)
  && decide (1000 ≤ c.escWait ∧ c.escWait ≤ 1000000)

/-- The minima, EMB_RES and POOL_FLOOR of a die (R291). -/
def shoalNeeds (s : State) (d : Nat) : Nat := dieMinima s d + s.shoal.cfg.embRes * 256 + s.shoal.cfg.poolFloor * 256

def workShoalSet : Work := fun _ op _ s =>
  let c := shoalCfgOf op
  let t := onShoal (fun h => { h with cfg := c }) s
  if ¬ shoalCfgOk c ∨ ¬ zeroBits op 179 0 then (s, fail stBAD)
  else if (List.range 4).any (fun d => 655360 < shoalNeeds t d) then (s, fail stNORES)
  else if s.shoal.everRun then (s, fail stHELD)
  else (t, ok)

def execShoalSet (r i : Nat) (s : State) : Host.Outcome State Fault Refusal := .next (runDesc 0x68 workShoalSet r i [] s)

/-- A port that exists in the current mode (R374). -/
def portExists (s : State) (p : Nat) : Bool := isDrezhPort s p || isEthPort s p

def workDatelineSet : Work := fun _ op _ s =>
  let p := fld op 383 374
  let dim := fld op 373 372
  let dl := bitAt op 371
  if ¬ zeroBits op 370 0 ∨ ¬ isDrezhPort s p ∨ isAttach s p ∨ (dl ∧ dim = 3) then (s, fail stBAD)
  else if linkUp s p then (s, fail stHELD)
  else (onPort p (fun x => { x with dim := dim, dl := dl }) s, ok)

def execDatelineSet (r i : Nat) (s : State) : Host.Outcome State Fault Refusal := .next (runDesc 0x69 workDatelineSet r i [] s)

end Sys2Proof.Machine
end

