-- ==== Sys2Proof/Machine/Sched.lean ====
section
/-! DEFINITION. Egress queues, job slots, deficit round robin, the fill credit, shapers and policers (R317 to
R334), with SCHED_SET, QUEUE_SET and POLICE_SET. -/

namespace Sys2Proof.Machine

/-! ## Token buckets (R325, R327) -/

/-- Fill at RATE Mb/s against Tide, never above BURST. One Mb/s is 16 units of 1/128,000 byte a nanosecond. -/
def refill (now : Nat) (b : Bucket) : Bucket :=
  { b with tokens := min (b.tokens + b.rate * 16 * (now - b.at_)) (b.burst * 128000), at_ := now }

/-- The Tide count up to which buckets fill: a cut stops the refill (R456). -/
def fillTime (s : State) : Nat := if s.stop.frozen then min s.stop.cutAt s.tide.now else s.tide.now

/-- The bucket, refilled, holds a size in bytes. -/
def holds (now : Nat) (b : Bucket) (size : Nat) : Bool := decide (size * 128000 ≤ (refill now b).tokens)

/-- Take a size in bytes. -/
def takeTokens (now : Nat) (b : Bucket) (size : Nat) : Bucket :=
  let b := refill now b
  { b with tokens := b.tokens - size * 128000 }

/-- A new bucket, or an old one under new settings: tokens above the new BURST are cut to it (R330). -/
def setBucket (now rate burst : Nat) (old : Option Bucket) : Bucket :=
  match old with
  | some b => { rate := rate, burst := burst, tokens := min (refill now b).tokens (burst * 128000), at_ := now }
  | none => { rate := rate, burst := burst, tokens := min (Config.bucketStart rate burst) (burst * 128000), at_ := now }

/-! ## Queues (R317, R318) -/

/-- The credit class of a packet on a port: its VC, or its ESC sub-account DLINE[DIM] (R314, R355). -/
def classOn (s : State) (p : Nat) (k : Packet) : Nat :=
  if k.vc = vcESC then
    let dim := (getPort s p).dim
    if dim < 3 ∧ k.dline.testBit dim then 8 else 7
  else k.vc

/-- The four job VCs in the order of the job queues. -/
def qvcOf (vc : Nat) : Option Nat :=
  if vc = vcREQ then some 0 else if vc = vcXFER then some 1 else if vc = vcCUP then some 2
  else if vc = vcEMB then some 3 else none

/-- The job slot of a port that holds a job. -/
def slotOf (p : Port) (job : Nat) : Option Nat := (p.slots.find? (fun e => e.2.1 == job)).map (·.1)

/-- The lowest free job slot of a port. -/
def freeSlot (p : Port) : Option Nat := (List.range 14).find? (fun j => (mget p.slots j).isNone)

/-- A packet as it stands on the link of a port, but for HOPS: on an attachment port VC is OVC and DLINE is
clear (R242); sent on ESC through a port with DL set it has bit DIM of DLINE set (R314). -/
def onLinkPkt (s : State) (p : Nat) (k : Packet) : Packet :=
  let x := getPort s p
  if ¬ isFabric s p then (k.setVc k.ovc).setDline 0
  else if k.vc = vcESC ∧ x.dl = true ∧ x.dim < 3 then k.setDline (k.dline ||| 2 ^ x.dim)
  else k

/-- The credit class of a packet that leaves on a port. -/
def outClass (s : State) (p : Nat) (k : Packet) : Nat := classOn s p (onLinkPkt s p k)

/-- The queue of a packet on a port, binding a job slot where one is needed and free (R317, R318). -/
def queueFor (s : State) (p : Nat) (k : Packet) : Option (Nat × State) :=
  let k := onLinkPkt s p k
  if k.vc = vcCTRL then some (0, s)
  else if k.vc = vcRSP then some (1, s)
  else if k.vc = vcCDN then some (2, s)
  else if k.vc = vcESC then some (if classOn s p k = 8 then 4 else 3, s)
  else
    let v := (qvcOf k.vc).getD 0
    match slotOf (getPort s p) k.job with
    | some j => some (8 + 4 * j + v, s)
    | none =>
      match freeSlot (getPort s p) with
      | some j => some (8 + 4 * j + v, onPort p (fun x => { x with slots := mput x.slots j (k.job, s.tide.now) }) s)
      | none => none

/-- The packets of a queue, as stored. -/
def queuePkts (s : State) (p q : Nat) : List (Nat × Nat) := mgetD (getPort s p).queues q []

/-- Bytes waiting in a queue (gauge DEPTH). -/
def queueBytes (s : State) (p q : Nat) : Nat :=
  sumOf (queuePkts s p q) (fun e => match storedAt s e.1 e.2 with | some x => x.pkt.size | none => 0)

/-- Place a stored packet at the end of a queue; DEPTH_HW follows. -/
def enqueue (p q : Nat) (e : Nat × Nat) (s : State) : State :=
  let s := onStored e.1 e.2 (fun x => { x with ahead := queueBytes s p q }) s
  let s := onPort p (fun x => { x with queues := mput x.queues q (mgetD x.queues q [] ++ [e]) }) s
  gaugeMax (kQueue p q 3) (queueBytes s p q) s

/-- Count a packet's wait for a job slot of a port once (R318). -/
def noteSlotWait (p : Nat) (x : Stored) (s : State) : State :=
  if x.slotWait then s
  else onlyIf (decide (p < 768)) (count (kPort p iQSLOT_WAIT)) (onStored x.die (x.bufs.headD 0xFFFFF) (fun y => { y with slotWait := true }) s)

/-- Whether the four queues of a job slot are empty. -/
def slotEmpty (p : Port) (j : Nat) : Bool := (List.range 4).all (fun v => (mgetD p.queues (8 + 4 * j + v) []).isEmpty)

/-- Remove the head of a queue: the next packet waits at the head from now (R312); a job slot left empty notes
since when (R318). -/
def dequeue (p q : Nat) (s : State) : State :=
  let s := match (queuePkts s p q).drop 1 with
    | e :: _ => onStored e.1 e.2 (fun x => { x with since := s.tide.now }) s
    | [] => s
  onPort p (fun x =>
    let x := { x with queues := mput x.queues q ((mgetD x.queues q []).drop 1) }
    if 8 ≤ q then
      let j := (q - 8) / 4
      if slotEmpty x j then { x with slots := mmod x.slots j (fun e => (e.1, s.tide.now)) } else x
    else x) s

/-- JOB_SLOT_FREE: the slot's queues have stayed empty for 10 µs (R318). -/
def doJobSlotFree (p j : Nat) (s : State) : State :=
  match mget (getPort s p).slots j with
  | none => s
  | some e =>
    if slotEmpty (getPort s p) j ∧ e.2 + 10000 ≤ s.tide.now ∧ ¬ s.stop.frozen then
      onPort p (fun x => { x with slots := mdel x.slots j }) s
    else s

def execJobSlotFree (port slot : Nat) (s : State) : Host.Outcome State Fault Refusal := .next (whenLive (doJobSlotFree port slot) s)

/-! ## Choosing the next packet (R320 to R324) -/

/-- The QUEUE_SET entry of a port, job and VC. -/
def qentry (s : State) (p job v : Nat) : Option QEntry := s.qents.find? (fun e => e.port == p && e.job == job && e.qvc == v)

/-- The job of a job queue. -/
def queueJob (s : State) (p q : Nat) : Nat := ((mget (getPort s p).slots ((q - 8) / 4)).map (·.1)).getD 0

/-- A job is FILL at this Q7; one without a class is served as FILL (R231). -/
def isFill (s : State) (j : Nat) : Bool := ((mget s.mem.jobs j).map (·.1)).getD true

/-- The work an array takes next, the oldest ready first: PRIMARY before FILL, with one step in 32 for FILL that is ready;
`turn` counts the PRIMARY steps since FILL last had its own (R233; log entry 97). -/
def nextByClass {α : Type} (fill : α → Bool) (turn : Nat) (l : List α) : Option (α × Nat) :=
  match l.find? (fun x => !fill x), l.find? fill with
  | some x, some y => if 31 ≤ turn then some (y, 0) else some (x, turn + 1)
  | some x, none => some (x, 0)
  | none, some y => some (y, 0)
  | none, none => none

/-- A batch of ready work in the order in which an array takes it, and its turns after that (R233). -/
def byClass {α : Type} [BEq α] (fill : α → Bool) : Nat → Nat → List α → List α × Nat
  | 0, turn, l => (l, turn)
  | n + 1, turn, l =>
    match nextByClass fill turn l with
    | some (x, t) => (x :: (byClass fill n t (l.erase x)).1, (byClass fill n t (l.erase x)).2)
    | none => ([], turn)

/-- The turns of an array (R233). -/
def turnOfArray (s : State) (a : Nat) : Nat := mgetD s.part.turns a 0

def setTurn (a n : Nat) (s : State) : State := { s with part := { s.part with turns := mput s.part.turns a n } }

/-- An array takes no work of a job's class now: FILL while PRIMARY is ready on it, PRIMARY once 31 of it have passed ready
FILL; `ready` says whether work of a class is ready, true for FILL (R233). -/
def classWaits (s : State) (a job : Nat) (ready : Bool → Bool) : Bool :=
  if isFill s job then ready false && decide (turnOfArray s a < 31) else ready true && decide (31 ≤ turnOfArray s a)

/-- An array takes work of a job (R233). -/
def noteTurn (a job : Nat) (fillReady : Bool) (s : State) : State :=
  setTurn a (if isFill s job || !fillReady then 0 else turnOfArray s a + 1) s

/-! ## Delivery to the engines in order (R288, R317) -/

/-- Two stored packets stand in one line: an ingress account, or a queue of LOCAL. -/
def oneLine (x y : Stored) : Bool :=
  match x.acct, y.acct with
  | .ingress p c, .ingress q e => p == q && c == e
  | .ingress _ _, _ => false
  | _, .ingress _ _ => false
  | _, _ => x.owners.head? == y.owners.head?

/-- No packet that waits for an engine stands before this one in its line (R288, R317). -/
def firstInLine (s : State) (port : Nat) (p : Packet) : Bool :=
  match deliveredAt s port p with
  | [e] => (match storedAt s e.1 e.2 with
    | some x => !(s.route.toEngine.takeWhile (fun y => y.2.2 != e)).any (fun y =>
        ((storedAt s y.2.2.1 y.2.2.2).map (oneLine x)).getD false)
    | none => true)
  | _ => true

/-- The engines run, and this packet is the next of its line for them. -/
def engineFor (s : State) (port : Nat) (p : Packet) : Bool := engineOn s && firstInLine s port p

/-- A queue is a FILL job queue. -/
def fillQueue (s : State) (p q : Nat) : Bool := decide (8 ≤ q) && isFill s (queueJob s p q)

/-- The shaper of a queue. -/
def shaperOf (s : State) (p q : Nat) : Option Bucket :=
  if q < 8 then none
  else match qentry s p (queueJob s p q) ((q - 8) % 4) with
    | some e => e.bucket
    | none => none

/-- The head packet of a queue. -/
def headOf (s : State) (p q : Nat) : Option (Nat × Nat × Packet) :=
  match queuePkts s p q with
  | [] => none
  | e :: _ => (storedAt s e.1 e.2).map (fun x => (e.1, e.2, x.pkt))

/-- The credits a packet needs before it starts: one for each buffer, and a CTRL credit more is kept for the
stop logic's packets (R355, R356, R458). -/
def creditsFor (vc : Nat) (k : Packet) : Nat := if vc = vcCTRL then 2 else k.bufs

/-- A port holds the link credits for a packet. -/
def hasCredit (s : State) (p : Nat) (k : Packet) : Bool :=
  decide (creditsFor (onLinkPkt s p k).vc k ≤ nth (getPort s p).link.avail (outClass s p k) 0)

/-- A queue is eligible (R320). -/
def eligible (s : State) (p q : Nat) : Bool :=
  match headOf s p q with
  | none => false
  | some (_, _, k) => hasCredit s p k && (match shaperOf s p q with
      | some b => holds s.tide.now b k.size
      | none => true)

/-- The quantum of a queue in bytes (R321). -/
def quantum (s : State) (p q : Nat) : Nat :=
  let c := (getPort s p).sched
  64 * (if q = 0 then c.qCtrl else if q = 1 then c.qRsp else if q = 2 then c.qCdn else if q < 8 then c.qEsc
    else
      let v := (q - 8) % 4
      let base := if v = 0 then c.bReq else if v = 1 then c.bXfer else if v = 2 then c.bCup else c.bEmb
      base * ((qentry s p (queueJob s p q) v).map (·.weight)).getD 1)

/-- The packet as it leaves on a port: on a fabric port HOPS grows by one (R242). -/
def leaving (s : State) (p : Nat) (k : Packet) : Packet :=
  hopsOn s p (onLinkPkt s p k)

/-- A request past its lifetime at its last Q7 (R218): age above 400 µs on the endpoint's port. -/
def staleAt (s : State) (p : Nat) (k : Packet) : Bool :=
  k.ovc == vcREQ && k.ptype == 1 && !isFabric s p && decide (400000 < ahead (fld k.sub 185 154) (s.tide.now % 2 ^ 32))

/-- The buffer that holds the first byte of a stored packet to fail its parity. -/
def badBuffer (s : State) (x : Stored) : Nat :=
  let i := ((storedBytes x.pkt).zip x.par).findIdx (fun y => !parityGood [y])
  let held := (x.base.bind (storedAt s x.die)).getD x
  nth held.bufs (i / 256) (held.bufs.headD 0)

/-- A stored packet fails its parity check as it is read: it is discarded, a Swell of the region whose quarter holds the
bad buffer; of retained data only what sends it goes, and the loss is settled as the instant ends (R129, R283, source
0x12). -/
def dropBad (d b : Nat) (s : State) : State :=
  match storedAt s d b with
  | none => s
  | some x =>
    let kept := x.base.isSome || !(retainers x).isEmpty
    let s := onShoal (fun h => { h with badHeld := if kept then addNew h.badHeld (d, x.base.getD b) else h.badHeld }) s
    detect 0x12 (mkLoc d (badBuffer s x / 163840) 0) b (releaseStored d b s)

/-- An attachment port that PORT_BIND does not bind carries no REQ, CUP or EMB (R202). -/
def barred (s : State) (p : Nat) (k : Packet) : Bool :=
  (getPort s p).peer.role == some 1 && (bindOf s p).isNone && (k.ovc == vcREQ || k.ovc == vcCUP || k.ovc == vcEMB)

/-- The head of a queue passes its parity check as it is read (R283). -/
def goodAt (s : State) (d b : Nat) : Bool := ((storedAt s d b).map storedGood).getD true

/-- The parity of a packet that leaves its buffers: the header's is generated for what the egress put into it, the
body's is as it was read (R242, R474). -/
def parityOut (s : State) (d b : Nat) (k : Packet) : List Bool :=
  (packetParity k).take 16 ++ ((storedAt s d b).map (fun x => x.par.drop 16)).getD []

/-- Send the head of a queue: it is given to the link, pays its credits, its shaper and the fill credit, and
the link's retry becomes an owner (R304, R320 to R325). A stale request is dropped instead (R218), one that an
unbound port does not carry (R202), and a packet whose parity fails (R283). -/
def sendHead (p q : Nat) (s : State) : State :=
  match headOf s p q with
  | none => s
  | some (d, b, k) =>
    let job := queueJob s p q
    let s := dequeue p q s
    if staleAt s p k then count (kPort p iMEM_STALE) (freeStored d b s)
    else if barred s p k then count (kPort p iPORT_UNBOUND) (freeStored d b s)
    else if goodAt s d b = false then dropBad d b s
    else
      let k' := leaving s p k
      let cls := outClass s p k
      let s := addOwner d b (ownRetry p) s
      let s := onPort p (fun x => { x with
        pktsTx := (x.pktsTx + 1) % 2 ^ 32,
        fillC := min (x.fillC + k.size * x.sched.floor) (8208 * 256),
        link := { x.link with
          avail := modAt x.link.avail cls (fun c => c - k.bufs),
          tx := x.link.tx ++ [{ pkt := k', die := d, buf := b, queue := q, par := parityOut s d b k' }] } }) s
      let s := { s with qents := s.qents.map (fun e =>
        if 8 ≤ q ∧ e.port = p ∧ e.job = job ∧ e.qvc = (q - 8) % 4 then
          { e with bucket := e.bucket.map (fun t => takeTokens s.tide.now t k.size) } else e) }
      let s := count (kPort p iTX_PKTS) (countN (kPort p iTX_BYTES) k.size s)
      count (kQueue p q 0) (countN (kQueue p q 1) k.size s)

/-- The fill credit of a port covers a size (R322). -/
def fillCovers (s : State) (p size : Nat) : Bool := decide (size * 256 ≤ (getPort s p).fillC)

/-- The packets of a queue's turn: while eligible and the deficit covers the head (R321). A turn that the fill
credit pays for goes on only while C covers the head, and takes its size from C (R322). -/
def turnLoop (p q : Nat) (pay : Bool) (onSend : Nat → Nat → State → State) : Nat → State → State
  | 0, s => s
  | fuel + 1, s =>
    match headOf s p q with
    | none => s
    | some (d, b, k) =>
      if eligible s p q ∧ k.size ≤ mgetD (getPort s p).deficit q 0 ∧ (¬ pay ∨ fillCovers s p k.size) then
        let s := onPort p (fun x => { x with
          deficit := mput x.deficit q (mgetD x.deficit q 0 - k.size),
          fillC := if pay then x.fillC - k.size * 256 else x.fillC }) s
        turnLoop p q pay onSend fuel (sendHead p q (if staleAt s p k || barred s p k || !goodAt s d b then s else onSend d b s))
      else s

/-- A queue's turn (R321). -/
def turn (p q : Nat) (pay : Bool) (onSend : Nat → Nat → State → State) (s : State) : State :=
  if ¬ eligible s p q then s
  else
    let s := onPort p (fun x => { x with deficit := mput x.deficit q (mgetD x.deficit q 0 + quantum s p q) }) s
    let s := turnLoop p q pay onSend (queuePkts s p q).length s
    if (queuePkts s p q).isEmpty then onPort p (fun x => { x with deficit := mput x.deficit q 0 }) s else s

/-- The first eligible queue from a round pointer, of those a test admits. -/
def nextQueue (s : State) (p from_ : Nat) (test : Nat → Bool) : Option Nat :=
  ((List.range 64).map (fun i => (from_ + i) % 64)).find? (fun q => test q && eligible s p q)

/-- A PRIMARY job queue of the port is eligible. -/
def primaryReady (s : State) (p : Nat) : Bool := (List.range 64).any (fun q => decide (8 ≤ q) && !fillQueue s p q && eligible s p q)

/-- The next choice on a port (R321, R322). While PRIMARY traffic is ready, FILL queues stand outside the main
round; where C covers an eligible FILL queue's head they are served first, in their own round, from C. With
no PRIMARY queue eligible FILL queues take turns in the main round, which leave C unchanged. -/
def portTurn (p : Nat) (onSend : Nat → Nat → State → State) (s : State) : State :=
  let prim := primaryReady s p
  let covered (q : Nat) : Bool := fillQueue s p q && (match headOf s p q with
    | some (_, _, k) => fillCovers s p k.size
    | none => false)
  match (if prim then nextQueue s p (getPort s p).fillRound covered else none) with
  | some q => turn p q true onSend (onPort p (fun x => { x with fillRound := (q + 1) % 64 }) s)
  | none =>
    match nextQueue s p (getPort s p).round (fun q => !(prim && fillQueue s p q)) with
    | some q =>
      let c := (getPort s p).fillC
      let t := turn p q false onSend (onPort p (fun x => { x with round := (q + 1) % 64 }) s)
      if fillQueue s p q then onPort p (fun x => { x with fillC := c }) t else t
    | none => s

/-! ## Policing (R327 to R330) -/

/-- The bit of a policer's VCS mask for a VC. -/
def polBit (vc : Nat) : Nat := if vc = vcREQ then 8 else if vc = vcXFER then 4 else if vc = vcCUP then 2 else if vc = vcEMB then 1 else 0

/-- A policer tests this packet on this die. -/
def polHits (d cove job vc : Nat) (p : Policer) : Bool :=
  p.die == d && p.vcs &&& polBit vc != 0 && (if p.isJob then p.key == job else p.key == cove)

/-- POLICE_TEST: the Cove's and the job's policers must both hold the packet's size, and then both lose it
(R328). The result is none when the packet is dropped. -/
def police (d cove : Nat) (k : Packet) (s : State) : Option State :=
  let hit := polHits d cove k.job k.vc
  if (s.policers.filter hit).all (fun p => holds (fillTime s) p.bucket k.size) then
    some { s with policers := s.policers.map (fun p => if hit p then { p with bucket := takeTokens (fillTime s) p.bucket k.size } else p) }
  else none

/-! ## Descriptors (R331 to R334) -/

/-- Drezh ports of the current mode. -/
def drezhPorts (s : State) : List Nat := (List.range 768).filter (isDrezhPort s)

def inRange (v lo hi : Nat) : Bool := decide (lo ≤ v) && decide (v ≤ hi)

/-- The parameters a SCHED_SET carries (R331). -/
def schedCfgOf (op : BitVec 384) : SchedCfg :=
  { floor := fld op 372 365, qCtrl := fld op 364 349, qRsp := fld op 348 333, qCdn := fld op 332 317,
    qEsc := fld op 316 301, bReq := fld op 300 285, bXfer := fld op 284 269, bCup := fld op 268 253, bEmb := fld op 252 237 }

def schedCfgOk (c : SchedCfg) : Bool :=
  inRange c.floor 1 128 && decide (1 ≤ c.qCtrl ∧ 1 ≤ c.qRsp ∧ 1 ≤ c.qCdn ∧ 1 ≤ c.qEsc ∧ 1 ≤ c.bReq ∧ 1 ≤ c.bXfer ∧ 1 ≤ c.bCup ∧ 1 ≤ c.bEmb)

def workSchedSet : Work := fun _ op _ s =>
  let all := bitAt op 373
  let p := fld op 383 374
  let c := schedCfgOf op
  if ¬ schedCfgOk c ∨ ¬ zeroBits op 236 0 ∨ ¬ (all ∨ isDrezhPort s p) then (s, fail stBAD)
  else
    let ports := if all then drezhPorts s else [p]
    (forAll ports (fun q => onPort q (fun x => { x with sched := c })) s, ok)

def execSchedSet (r i : Nat) (s : State) : Host.Outcome State Fault Refusal := .next (runDesc 0x6A workSchedSet r i [] s)

/-- RATE and BURST of a shaper or policer: both zero, or BURST in its range (R332, R333). -/
def rateOk (rate burst : Nat) : Bool := if rate == 0 then burst == 0 else inRange burst 8208 16777215

/-- Set one QUEUE_SET entry; the default frees it (R332). -/
def setQEntry (p job v weight rate burst : Nat) (s : State) : State :=
  let old := qentry s p job v
  let rest := s.qents.filter (fun e => !(e.port == p && e.job == job && e.qvc == v))
  if weight = 1 ∧ rate = 0 then { s with qents := rest }
  else
    let bk := if rate = 0 then none else some (setBucket (fillTime s) rate burst (old.bind (·.bucket)))
    { s with qents := rest ++ [⟨p, job, v, weight, bk⟩] }

def workQueueSet : Work := fun _ op _ s =>
  let all := bitAt op 373
  let p := fld op 383 374
  let job := fld op 372 365
  let v := fld op 364 363
  let weight := fld op 362 355
  let rate := fld op 354 335
  let burst := fld op 334 311
  if job = 0 ∨ weight = 0 ∨ ¬ rateOk rate burst ∨ ¬ zeroBits op 310 0 ∨ ¬ (all ∨ isDrezhPort s p) then (s, fail stBAD)
  else
    let ports := if all then drezhPorts s else [p]
    let t := forAll ports (fun q => setQEntry q job v weight rate burst) s
    if (List.range 4).any (fun d => 4096 < (t.qents.filter (fun e => dieOf e.port == d)).length) then (s, fail stNORES)
    else (t, ok)

def execQueueSet (r i : Nat) (s : State) : Host.Outcome State Fault Refusal := .next (runDesc 0x6B workQueueSet r i [] s)

/-- Set or remove one policer on one die (R330, R333). -/
def setPolicer (isJob : Bool) (key vcs rate burst d : Nat) (s : State) : State :=
  let same (p : Policer) : Bool := p.isJob == isJob && p.key == key && p.die == d
  let old := s.policers.find? same
  let rest := s.policers.filter (fun p => !same p)
  if rate = 0 then { s with policers := rest }
  else { s with policers := rest ++ [⟨isJob, key, d, vcs, setBucket (fillTime s) rate burst (old.map (·.bucket))⟩] }

def workPoliceSet : Work := fun _ op _ s =>
  let isJob := bitAt op 383
  let key := fld op 382 367
  let dies := fld op 366 363
  let vcs := fld op 362 359
  let rate := fld op 358 339
  let burst := fld op 338 315
  if ¬ zeroBits op 314 0 ∨ dies = 0 ∨ vcs = 0 ∨ ¬ rateOk rate burst
    ∨ (isJob ∧ (key = 0 ∨ 256 ≤ key)) ∨ (¬ isJob ∧ key ∉ s.mem.coves) then (s, fail stBAD)
  else
    let t := forAll (bitsOf 4 dies) (setPolicer isJob key vcs rate burst) s
    if (List.range 4).any (fun d => 1024 < (t.policers.filter (fun p => p.die == d)).length) then (s, fail stNORES)
    else (t, ok)

def execPoliceSet (r i : Nat) (s : State) : Host.Outcome State Fault Refusal := .next (runDesc 0x6C workPoliceSet r i [] s)

end Sys2Proof.Machine
end

