-- ==== Sys2Proof/Machine/Route.lean ====
section
/-! DEFINITION. The route table, the choice of a port, batches of route writes and their checks, soundings, and
what happens when a port goes down or comes up (R246 to R260, R268 to R279). -/

namespace Sys2Proof.Machine

/-! ## Entries (R247 to R249) -/

def epValid (e : BitVec 32) : Bool := bitAt e 31
def epLocal (e : BitVec 32) : Bool := bitAt e 30
def epNode (e : BitVec 32) : Nat := fld e 29 18
def epLport (e : BitVec 32) : Nat := fld e 17 8

def ndValid (e : BitVec 512) : Bool := bitAt e 511
def ndSpray (e : BitVec 512) : Bool := bitAt e 510
def ndNpri (e : BitVec 512) : Nat := fld e 509 505
def ndNdet (e : BitVec 512) : Nat := fld e 504 501
def ndEscPort (e : BitVec 512) : Nat := fld e 500 491
def ndEscDet (e : BitVec 512) : Nat := fld e 490 481
def ndEscDim (e : BitVec 512) : Nat := fld e 480 479
def ndPri (e : BitVec 512) : List Nat := (List.range (ndNpri e)).map (fun k => fld e (160 + 10 * k + 9) (160 + 10 * k))
def ndDet (e : BitVec 512) : List Nat := (List.range (ndNdet e)).map (fun k => fld e (80 + 10 * k + 9) (80 + 10 * k))

/-- The ports an item stands for: itself, or every port of the trunk it names (R248, R249). -/
def itemPorts (trunks : Map (BitVec 768)) (i : Nat) : List Nat :=
  if i < 0x300 then [i]
  else if i < 0x340 then bitsOf 768 (mgetD trunks (i - 0x300) 0).toNat
  else []

/-! ## Lookup and choice (R250, R254 to R257) -/

/-- A port is up: its link is in RUN and the port-down mask does not cover it (R254). -/
def isUp (s : State) (p : Nat) : Bool := linkUp s p && !(getPort s p).masked

/-- The route procedure's destination of a packet (R250). -/
def lookupDest (s : State) (dst : Nat) : Dest :=
  let e := mgetD s.route.eps dst 0
  if ¬ epValid e then .noRoute
  else if epLocal e then .here
  else if s.route.selfNode = some (epNode e) then .lport (epLport e)
  else if s.route.selfNode = none then .noRoute
  else
    let n := mgetD s.route.nodes (epNode e) 0
    if ndValid n then .via (epNode e) n else .noRoute

/-- The route configuration and the trunks as a lookup captures them (R271). -/
def capOf (s : State) : RouteCap := ⟨s.route.trunks, s.route.hopLimit, s.route.sprayVcs, s.route.spraySkew⟩

/-- The up ports among the PRI items, or if there are none among the DET items (R254), trunks as captured. -/
def allowedSet (s : State) (cap : RouteCap) (e : BitVec 512) : List Nat :=
  let up (items : List Nat) : List Nat := (items.flatMap (itemPorts cap.trunks)).filter (isUp s)
  if (up (ndPri e)).isEmpty then up (ndDet e) else up (ndPri e)

/-- The flow hash, in unsigned 32-bit arithmetic (R255). -/
def flowhash (src dst ovc : Nat) : Nat :=
  let m := 2 ^ 32
  let h := ((src * 0x9E3779B1) % m) ^^^ ((dst * 0x85EBCA6B) % m) ^^^ ((ovc * 0xC2B2AE35) % m)
  let h := h ^^^ (h >>> 16)
  let h := (h * 0x7FEB352D) % m
  h ^^^ (h >>> 15)

/-- Bytes waiting on a port for a VC, in every queue (R255). -/
def queuedBytes (s : State) (p vc : Nat) : Nat :=
  sumOf (getPort s p).queues (fun q => sumOf q.2 (fun e => match storedAt s e.1 e.2 with
    | some x => if x.pkt.vc = vc then x.pkt.size else 0
    | none => 0))

/-- Pick by the flow hash over the sorted ports. -/
def hashPick (k : Packet) (l : List Nat) : Option Nat :=
  let l := sortBy id l
  l[(flowhash k.src k.dst k.ovc * l.length) >>> 32]?

/-- The egress port of a packet not on ESC, and the spray pointer it leaves (R255). The choice is made on the
die that stores the packet. -/
def choosePort (s : State) (cap : RouteCap) (die node : Nat) (e : BitVec 512) (k : Packet) : Option (Nat × State) :=
  let al := allowedSet s cap e
  if al.isEmpty then none
  else if ndSpray e ∧ cap.sprayVcs.testBit k.ovc then
    let q := (sortBy id al).map (fun p => (p, queuedBytes s p k.ovc))
    let lo := q.foldl (fun m x => min m x.2) ((q.headD (0, 0)).2)
    let c := (q.filter (fun x => x.2 - lo ≤ cap.spraySkew * 1024)).map (·.1)
    let key := 4096 * die + node
    let rr := mgetD s.route.rr key 0
    let p := ((c.find? (rr < ·)).getD (c.headD 0))
    some (p, onRoute (fun r => { r with rr := mput r.rr key p }) s)
  else (hashPick k al).map (fun p => (p, s))

/-- The escape port of a packet on ESC: ESC_PORT if up, else ESC_DET; a trunk by the flow hash (R256). -/
def chooseEsc (s : State) (cap : RouteCap) (e : BitVec 512) (k : Packet) : Option Nat :=
  let pick (i : Nat) : Option Nat := hashPick k ((itemPorts cap.trunks i).filter (isUp s))
  match pick (ndEscPort e) with
  | some p => some p
  | none => pick (ndEscDet e)

/-! ## Batches (R251 to R253, R315) -/

def routeSize (sel : Nat) : Nat := if sel = 0 then 4 else if sel = 1 then 64 else 96
def routeEntries (sel : Nat) : Nat := if sel = 0 then 262144 else if sel = 1 then 4096 else 64

/-- The field checks of ROUTE_WRITE and ROUTE_READ (R251, R252). -/
def routeRangeOk (op : BitVec 384) : Bool :=
  let sel := fld op 287 286
  let first := fld op 285 268
  let n := fld op 267 249
  sel != 3 && decide (1 ≤ n) && decide (first + n ≤ routeEntries sel) && fld op 319 288 == n * routeSize sel
  && fld op 383 320 % 32 == 0

def routeWriteOk (op : BitVec 384) : Bool :=
  onlyBits op [(383, 320), (319, 288), (287, 286), (285, 268), (267, 249), (248, 248)] && routeRangeOk op

def routeConfigOk (op : BitVec 384) : Bool :=
  onlyBits op [(248, 248), (247, 236), (235, 230), (229, 222), (221, 206)] && decide (1 ≤ fld op 235 230)
  && !(bitAt op 229) && decide (1 ≤ fld op 221 206)

/-- The part of the route table that one write of a batch changes (R246, R247). -/
def applyWrite (o : RouteOp) (r : Route) : Route :=
  if o.opcode = 0x62 then
    { r with selfNode := some (fld o.op 247 236), hopLimit := fld o.op 235 230, sprayVcs := fld o.op 229 222, spraySkew := fld o.op 221 206 }
  else
    let sel := fld o.op 287 286
    let first := fld o.op 285 268
    (List.range (fld o.op 267 249)).foldl (fun r i =>
      let b := sliceB o.data (i * routeSize sel) (routeSize sel)
      let k := first + i
      match sel with
      | 0 => { r with eps := if ofLE b = 0 then mdel r.eps k else mput r.eps k (BitVec.ofNat 32 (ofLE b)) }
      | 1 => { r with
          nodes := if ofBE b = 0 then mdel r.nodes k else mput r.nodes k (BitVec.ofNat 512 (ofBE b)),
          rr := r.rr.filter (fun e => e.1 % 4096 != k) }
      | _ => { r with trunks := if ofLE b = 0 then mdel r.trunks k else mput r.trunks k (BitVec.ofNat 768 (ofLE b)) }) r

/-- An item's ports exist, none is bound, and a trunk is not empty (R253). -/
def itemOk (s : State) (r : Route) (i : Nat) : Bool :=
  let ports := itemPorts r.trunks i
  decide (i < 0x340) && !ports.isEmpty && ports.all (fun p => isDrezhPort s p && (bindOf s p).isNone)

def noRepeat : List Nat → Bool
  | [] => true
  | x :: r => !r.contains x && noRepeat r

/-- The checks of R253 and R315 on a node entry. -/
def nodeOk (s : State) (r : Route) (e : BitVec 512) : Bool :=
  zeroBitsOf e 478 320 && zeroBitsOf e 79 0 && (!ndValid e || (
    decide (1 ≤ ndNpri e ∧ ndNpri e ≤ 16) && decide (ndNdet e ≤ 8)
    && (ndPri e).all (itemOk s r) && (ndDet e).all (itemOk s r) && itemOk s r (ndEscPort e)
    && (ndEscDet e == 0x3FF || itemOk s r (ndEscDet e))
    && noRepeat ((ndPri e ++ ndDet e).flatMap (itemPorts r.trunks))
    && ((itemPorts r.trunks (ndEscPort e)) ++ (itemPorts r.trunks (ndEscDet e))).all (fun p => (getPort s p).dim == ndEscDim e)))
where
  zeroBitsOf (w : BitVec 512) (hi lo : Nat) : Bool := fld w hi lo == 0

/-- A port that may be an attachment port: of the current mode, and no peer has attested as a Q7 on it. Before a port's
first exchange its kind is open, and routes are written before any (R202, R253, R519; log entry 78). -/
def mayAttach (s : State) (p : Nat) : Bool := isDrezhPort s p && !isFabric s p

/-- The checks of R253 on an endpoint entry. -/
def endpointOk (s : State) (r : Route) (k : Nat) (e : BitVec 32) : Bool :=
  fld e 7 0 == 0 && (if s.sec.epid = some k then !epValid e || epLocal e else !epLocal e)
  && (!epValid e || (match r.selfNode with
      | none => true
      | some n => if epNode e = n then epLocal e || mayAttach s (epLport e) else ndValid (mgetD r.nodes (epNode e) 0)))

/-- The route table with a batch applied passes the checks of R253. -/
def routeOk (s : State) (r : Route) : Bool :=
  r.nodes.all (fun e => nodeOk s r e.2) && r.eps.all (fun e => endpointOk s r e.1 e.2)
  && (match r.selfNode with
      | some n => !ndValid (mgetD r.nodes n 0)
      | none => true)

/-- Complete every descriptor of a batch with one status (R252). -/
def finishBatch (b : List RouteOp) (status : Nat) : State → State := forAll b (fun o => finishDesc (o.ring, o.idx) status 0)

/-- The route table takes a batch that passed and its tag advances (R268). -/
def commitRoute (r : Route) (s : State) : State := { s with route := { r with tag := (r.tag + 1) % 16 } }

/-- A commit to the route table must wait: for the next tag, or out of an instant in which it has been looked up (R269,
R272). -/
def routeMust (s : State) : Bool := mustWait (routeTags s) s.route.tag || lookedNow s (0, 0)

/-- A batch with one more write: in the order in which their descriptors were taken, and in one instant that of their rings
(R270). -/
def joinBatch (b : List RouteOp) (o : RouteOp) : List RouteOp :=
  let later (x : RouteOp) : Bool := x.at_ == o.at_ && decide (o.ring < x.ring)
  b.filter (fun x => !later x) ++ [o] ++ b.filter later

/-- Commit a batch at its commit point: checked as it stands then; on success the tag advances (R253, R268). -/
def commitBatch (b : List RouteOp) (s : State) : State × Nat :=
  let r := b.foldl (fun r o => applyWrite o r) s.route
  if routeOk s r then (finishBatch b stDONE (commitRoute r s), stDONE)
  else (finishBatch b stBAD s, stBAD)

/-- The batches that wait, with one more: in the order in which their descriptors were taken, and in one instant that of
their rings (R270). -/
def queueBatch (b : List RouteOp) (l : List (List RouteOp)) : List (List RouteOp) :=
  let key (x : List RouteOp) : Nat × Nat := ((x.getLast?.map (·.at_)).getD 0, (x.getLast?.map (·.ring)).getD 0)
  let later (x : List RouteOp) : Bool := (key x).1 == (key b).1 && decide ((key b).2 < (key x).2)
  l.filter (fun x => !later x) ++ [b] ++ l.filter later

/-- Commit the batches that wait, in order, as far as their tags allow (R270, R272). -/
def drainCommits : Nat → State → State
  | 0, s => s
  | n + 1, s =>
    match s.route.commits with
    | [] => s
    | b :: rest =>
      if routeMust s then s
      else drainCommits n (commitBatch b (onRoute (fun r => { r with commits := rest }) s)).1

/-- Mark the descriptors of a batch as waiting for a stage. -/
def stageBatch (b : List RouteOp) (st : Stage) : State → State :=
  onHost (fun h => { h with accepted := h.accepted.map (fun d => if b.any (fun o => o.ring == d.ring && o.idx == d.idx) then { d with stage := st } else d) })

/-- ROUTE_WRITE or ROUTE_CONFIG: staged with HOLDC set; else the batch commits, or waits for its tag (R252,
R253, R272). -/
def workRoute (opcode : Nat) : Work := fun cx op data s =>
  let okFields := if opcode = 0x60 then routeWriteOk op else routeConfigOk op
  let me : RouteOp := ⟨cx.ring, cx.idx, opcode, op, data, s.tide.now⟩
  let staged := s.route.batch
  let s' := onRoute (fun r => { r with batch := [] }) s
  if ringBehind s (0, 0) cx.ring then (s, .wait .waiting)
  else if ¬ okFields then (finishBatch staged stBAD s', fail stBAD)
  else if 16 ≤ staged.length then (finishBatch staged stNORES s', fail stNORES)
  else if bitAt op 248 then (onRoute (fun r => { r with batch := joinBatch staged me }) s, .wait .staged)
  else if routeMust s ∨ s.route.commits ≠ [] then
    (stageBatch staged .commitWait (onRoute (fun r => { r with batch := [], commits := queueBatch (joinBatch staged me) r.commits }) s), .wait .commitWait)
  else
    let r := (joinBatch staged me).foldl (fun r o => applyWrite o r) s'.route
    if routeOk s' r then (finishBatch staged stDONE (noteWrote (0, 0) cx.ring (commitRoute r s')), ok)
    else (finishBatch staged stBAD s', fail stBAD)

def execRouteWrite (r i : Nat) (d : List Byte) (s : State) : Host.Outcome State Fault Refusal :=
  .next (runDesc 0x60 (workRoute 0x60) r i d s)

def execRouteConfig (r i : Nat) (s : State) : Host.Outcome State Fault Refusal :=
  .next (runDesc 0x62 (workRoute 0x62) r i [] s)

/-- The bytes of one route table entry in host memory (R247 to R249). -/
def routeBytes (r : Route) (sel k : Nat) : List Byte :=
  if sel = 0 then bytesLE 4 (mgetD r.eps k 0).toNat
  else if sel = 1 then bytesBE 64 (mgetD r.nodes k 0).toNat
  else bytesLE 96 (mgetD r.trunks k 0).toNat

/-- ROUTE_READ: COUNT entries to ADDR (R251). -/
def workRouteRead : Work := fun cx op _ s =>
  if ¬ onlyBits op [(383, 320), (319, 288), (287, 286), (285, 268), (267, 249)] ∨ ¬ routeRangeOk op then (s, fail stBAD)
  else
    let sel := fld op 287 286
    let b := (List.range (fld op 267 249)).flatMap (fun i => routeBytes s.route sel (fld op 285 268 + i))
    (hostWrite cx.func (fld op 383 320) b s, ok)

def execRouteRead (r i : Nat) (s : State) : Host.Outcome State Fault Refusal := .next (runDesc 0x61 workRouteRead r i [] s)

/-! ## Drains (R273, R274) -/

/-- The tags in flight and the current tag of a table by TSEL and INDEX; none where it names no table. -/
def tagsOf (s : State) (tsel index : Nat) : Option (List (Option Nat) × Nat) :=
  match tsel with
  | 0 => if index = 0 then some (routeTags s, s.route.tag) else none
  | 1 => if index = 0 then some (windowTags s, s.mem.wtag) else none
  | 2 => if index = 0 then some (bindTags s, s.mem.ptag) else none
  | 3 => if index = 0 then some ([], s.mem.jtag) else none
  | 4 => if index = 0 then some (coveTags s, s.mem.ctag) else none
  | 5 => (getTable s index).map (fun _ => (tableTags s index, mgetD s.emb.tags index 0))
  | 6 => (mget s.emb.maps index).map (fun _ => (mapTags s index, mgetD s.emb.mapTags index 0))
  | _ => none

/-- Tags older than the one current when the drain was taken: those from which the tag came forward to it.
A tag is never given again while a lookup under it is in flight (R272). -/
def oldTags (cur taken t : Nat) : Bool :=
  -- ages counted back from the current tag: older than `taken` means a greater age
  decide ((cur + 16 - taken) % 16 < (cur + 16 - t) % 16)

/-- No lookup of a tag older than `taken` is in flight. -/
def drained (tags : List (Option Nat)) (cur taken : Nat) : Bool :=
  tags.all (fun x => match x with
    | some t => !oldTags cur taken t
    | none => true)

def workEpochDrain : Work := fun cx op _ s =>
  if ¬ onlyBits op [(205, 202), (201, 186)] then (s, fail stBAD)
  else match tagsOf s (fld op 205 202) (fld op 201 186) with
    | none => (s, fail stBAD)
    | some (tags, cur) =>
      if drained tags cur cur then (s, ok)
      else (onHost (fun h => { h with accepted := h.accepted.map (fun d =>
          if d.ring == cx.ring && d.idx == cx.idx then { d with oldTag := cur } else d) }) s, .wait .draining)

def execEpochDrain (r i : Nat) (s : State) : Host.Outcome State Fault Refusal := .next (runDesc 0x63 workEpochDrain r i [] s)

/-- EPOCH_DRAIN_DONE: every lookup older than the drain has ended (R274). -/
def doEpochDrainDone (r i : Nat) (s : State) : State :=
  match findDesc s r i with
  | none => s
  | some d =>
    if d.opcode = 0x63 ∧ d.stage = .draining then
      match tagsOf s (fld d.op 205 202) (fld d.op 201 186) with
      | none => complete d stDONE 0 false false s
      | some (tags, cur) => if drained tags cur d.oldTag then complete d stDONE 0 false false s else s
    else s

def execEpochDrainDone (r i : Nat) (s : State) : Host.Outcome State Fault Refusal := .next (whenLive (doEpochDrainDone r i) s)

/-! ## Soundings (R275 to R279) -/

def workSoundingSet : Work := fun _ op _ s =>
  let p := fld op 185 176
  let x : Sounding := { n := fld op 172 149 + 1, svcs := fld op 148 141, en := bitAt op 173 }
  if ¬ onlyBits op [(185, 176), (174, 174), (173, 173), (172, 149), (148, 141)] ∨ ¬ isDrezhPort s p then (s, fail stBAD)
  else if bitAt op 174 then (onPort p (fun y => { y with soundOut := some { x with seq := ((y.soundOut.map (·.seq)).getD 0) } }) s, ok)
  else (onPort p (fun y => { y with soundIn := some { x with seq := ((y.soundIn.map (·.seq)).getD 0) } }) s, ok)

def execSoundingSet (r i : Nat) (s : State) : Host.Outcome State Fault Refusal := .next (runDesc 0x64 workSoundingSet r i [] s)

/-- A packet that came on a port, its header as received: NODE is the node looked up for it, DEPTH the Shoal buffers the
port holds, and FLAGS says whether it was cut through (R275, R276). -/
def heardIn (s : State) (p : Nat) (k : Packet) (dest : Dest) (stays : List (Nat × Nat)) (cut : Bool) : Heard :=
  { port := p, out := false, pkt := k, flags := 2 * b2n cut, queue := 0, depth := sumOf (List.range 9) (fun c => charge s (.ingress p c)),
    node := nodeField dest, tag := s.route.tag, stays := stays }

/-- A packet that leaves a queue, its header as sent (R275, R276). -/
def soundEgress (p q d b : Nat) (s : State) : State :=
  match storedAt s d b with
  | some y => soundOut p (leaving s p y.pkt) (2 * b2n y.cut + 4 * b2n y.held) q y.ahead (nodeField y.dest) (y.rtag.getD 0) s
  | none => s

/-- The soundings of a port and direction count a packet, under the setting in force as its instant ends (R275, R276). -/
def settleHeard (h : Heard) (s : State) : State :=
  let x := getPort s h.port
  match (if h.out then x.soundOut else x.soundIn) with
  | none => s
  | some y =>
    let t := tally y h.pkt
    let held := h.stays.any (fun e => ((storedAt s e.1 e.2).map (·.held)).getD false)
    let s := onPort h.port (fun z => if h.out then { z with soundOut := some t.1 } else { z with soundIn := some t.1 }) s
    onlyIf t.2 (writeSounding (soundRecord h.pkt s.tide.now h.port (b2n h.out + h.flags + 4 * b2n held + 8 * b2n (h.pkt.vc == vcESC))
      h.queue h.depth h.node h.tag y.seq)) s

/-- The packets of an instant are counted, in the order in which they passed. -/
def settleSounds (s : State) : State :=
  forAll s.obs.heard settleHeard (onObs (fun o => { o with heard := [] }) s)

/-! ## Egress turn, and ports that go down and come up -/

/-- A packet of this Q7's own that belongs to a chunk leaves on a port: a piece without PACK notes the port and the
Tide, a result the port and its destination (R131). -/
def noteLeft (p : Nat) (k : Packet) (s : State) : State :=
  let b := k.sub
  if k.ptype = 0 ∨ k.src ≠ selfEpid s ∨ ¬ (k.ovc = vcCUP ∨ k.ovc = vcCDN) then s
  else onGroup (scGroup b) (fun g => { g with chunks := g.chunks.map (fun c =>
    if ¬ (c.epoch = scEpoch b ∧ c.call = scCall b ∧ c.chunk = scChunk b) then c
    else if k.ovc = vcCDN then { c with leftOn := addNew c.leftOn (p, k.dst) }
    else { c with unacked := c.unacked.map (fun u =>
      if scPiece u.pkt.sub = scPiece b ∧ scRank u.pkt.sub = scRank b then { u with at_ := s.tide.now, on_ := addNew u.on_ p } else u) }) }) s

/-- Frames that waited for a port's account follow into its queue, in order, up to the first that does not fit (R319, R369). -/
def ethFollow (p : Nat) : List (Nat × Nat × Nat) → State → State
  | [], s => s
  | e :: l, s =>
    match storedAt s e.2.1 e.2.2 with
    | none => ethFollow p l s
    | some x =>
      if acctCan s (.ethOut p) (dieOf p) x.bufs.length then
        ethFollow p l (onNet (fun t => { t with ethWait := t.ethWait.erase e, ethOut := t.ethOut ++ [e] })
          (onStored e.2.1 e.2.2 (fun y => { y with acct := .ethOut p, owners := [ownQueue p 0] }) s))
      else s

/-- The frame at the head of an Ethernet-mode port's one queue leaves; frames that waited for the port's account
follow into it (R284, R319, R369). -/
def ethTurn (p : Nat) (s : State) : State :=
  match s.net.ethOut.find? (fun e => e.1 == p) with
  | none => s
  | some e =>
    let n := ((storedAt s e.2.1 e.2.2).map (fun x => x.pkt.body.length)).getD 0
    let s := freeStored e.2.1 e.2.2 (onNet (fun t => { t with ethOut := t.ethOut.erase e }) s)
    let s := count (kPort p iTX_PKTS) (countN (kPort p iTX_BYTES) n s)
    ethFollow p (s.net.ethWait.filter (fun e => e.1 == p)) s

/-- EGRESS_TURN: the port's next choice (R320 to R323); nothing is begun on a Drezh port during a stop (R463). -/
def doEgressTurn (p : Nat) (s : State) : State :=
  if isEthPort s p then (if portRun s p ∧ s.dev.state ≠ .cliff then ethTurn p s else s)
  else if ¬ portRun s p ∨ s.stop.frozen ∨ s.dev.state = .cliff then s
  else portTurn p (fun d b t =>
    let q := ((List.range 64).find? (fun q => (queuePkts t p q).head? == some (d, b))).getD 0
    match storedAt t d b with
    | none => t
    | some x => noteLeft p x.pkt (soundEgress p q d b t)) s

def execEgressTurn (port : Nat) (s : State) : Host.Outcome State Fault Refusal := .next (doEgressTurn port s)

/-- A packet that re-enters path choice and has no route is dropped and counted (R257, R259). -/
def dropNoRoute (d b : Nat) (s : State) : State :=
  match storedAt s d b with
  | none => s
  | some x => releaseStored d b (onlyIf (cameOn x < 768) (count (kPort (cameOn x) iROUTE_NONE)) s)

/-- Take a packet back from a port that went down: its header stands as before the port changed it (R259). -/
def takeBack (d b : Nat) (s : State) : State :=
  onStored d b (fun x => { x with owners := ownIngress (min x.port 768) :: retainers x, since := s.tide.now }) s

/-- What the link of a port had not acknowledged whole goes back to the heads of its egress queues, in order (R259,
R461). -/
def backToQueues (p : Nat) (s : State) : State :=
  let sent := (getPort s p).link.tx.filter (fun t => t.die < 4)
  let s := onPort p (fun y => { y with link := { y.link with tx := [], txOff := 0 } }) s
  forAll sent.reverse (fun t s =>
    let e := (t.die, t.buf)
    let s := onStored t.die t.buf (fun x => { x with owners := ownQueue p t.queue :: retainers x, again := true, since := s.tide.now }) s
    onPort p (fun z => { z with queues := mput z.queues t.queue (e :: mgetD z.queues t.queue []) }) s) s

/-- The packets of a port's egress queues re-enter path choice, those that wait for no other port apart: each goes
to the list of packets to place again, or is dropped where its captured items leave no up port (R257, R259). -/
def reenterQueues (p : Nat) (s : State) : State :=
  let queued := (List.range 64).flatMap (fun q => mgetD (getPort s p).queues q [])
  let s := onPort p (fun y => { y with
    queues := [], deficit := [], slots := y.slots.map (fun e => (e.1, (e.2.1, s.tide.now))), reenter := false }) s
  forAll queued (fun e t => match storedAt t e.1 e.2 with
    | none => t
    | some y =>
      let t := takeBack e.1 e.2 t
      let routed := match y.dest with
        | .via _ n => if y.pkt.vc = vcESC then (chooseEsc t y.cap n y.pkt).isSome else !(allowedSet t y.cap n).isEmpty
        | _ => true
      if routed then onRoute (fun r => { r with reentry := r.reentry ++ [e] }) t else dropNoRoute e.1 e.2 t) s

/-- PORT_DOWN_COMMIT: the mask takes the port on every die, and its packets re-enter path choice, those on
the link and not acknowledged whole first (R258, R259). An attachment port's packets have no other port and
wait for it (R250 step 3, R134). During a stop they re-enter only at the resume (R461). -/
def doPortDownCommit (p : Nat) (s : State) : State :=
  match (getPort s p).declared with
  | none => s
  | some _ =>
    let s := backToQueues p (onPort p (fun y => { y with masked := true, declared := none }) s)
    if ¬ isFabric s p then s
    else if s.stop.frozen then onPort p (fun y => { y with reenter := true }) s
    else reenterQueues p s

/-- PORT_UP_COMMIT: the port's link has returned to RUN and leaves the mask (R260). -/
def doPortUpCommit (p : Nat) (s : State) : State :=
  if linkUp s p ∧ (getPort s p).declared = none then onPort p (fun x => { x with masked := false }) s else s

def execPortUpCommit (port : Nat) (s : State) : Host.Outcome State Fault Refusal := .next (whenLive (doPortUpCommit port) s)

end Sys2Proof.Machine
end

