-- ==== Sys2Proof/Machine/Resources.lean ====
section
/-! DEFINITION. What tables and groups share: enabled arrays (R2 to R6, R27, R28), regions and their gates (R29,
R30), staging SRAM and the HBM3 of a die (R43, R617), the counters of an instance that an install or a reset
clears (R570, R571, R573), and the wait traces (R575 to R580). -/

namespace Sys2Proof.Machine

/-! ## Arrays and regions -/

/-- Merge array `u` (0 to 7) of core die `d` is enabled: its region is not disabled and it is not retired. -/
def maEnabled (s : State) (d u : Nat) : Bool :=
  decide (d < 4) && decide (u < 8) && !(s.part.disabled.contains (d, u / 2)) && !(s.part.retired.contains (d, u))

/-- Pool array `r` (0 to 3) of core die `d` is enabled. -/
def paEnabled (s : State) (d r : Nat) : Bool :=
  decide (d < 4) && decide (r < 4) && !(s.part.disabled.contains (d, r)) && !(s.part.retired.contains (d, 8 + r))

/-- The ORDERED leaf width: by the grade of the manufacturing record, not by retirement (R7, R28, R104). -/
def leafWidth (s : State) : Nat := if s.part.grade = .b then 6 else 8

/-- The region of an array unit: 0 to 7 merge arrays, 8 to 11 pool arrays (R6). -/
def regionOfUnit (u : Nat) : Nat := if u < 8 then u / 2 else u - 8

/-- The regions (4 × die + region) that hold an array of a group or a table (R29). -/
def usedRegions (s : State) : List Nat :=
  (s.groups.flatMap (fun g => g.2.frag.arrays.map (fun a => 4 * a.1 + a.2 / 2)))
  ++ s.emb.tables.flatMap (fun t => (bitsOf 4 t.2.info.paMask).map (fun r => 4 * t.2.info.die + r))

/-- Gated regions that an assignment needs begin to open (R550); a closure of the same instant is abandoned (R30). -/
def openGates (l : List Nat) (s : State) : State :=
  onPwr (fun p => { p with rgns := ((List.range 16).zip p.rgns).map (fun e =>
    if l.contains e.1 && e.2.gated then
      (if e.2.gatedAt = s.tide.now ∧ e.2.opening = false then { e.2 with gated := false } else { e.2 with opening := true })
    else e.2) }) s

/-- Regions that have lost their last assignment become idle now (R548). -/
def noteIdle (before : List Nat) (s : State) : State :=
  let now := usedRegions s
  onPwr (fun p => { p with rgns := ((List.range 16).zip p.rgns).map (fun e =>
    if before.contains e.1 && !now.contains e.1 then { e.2 with idleAt := s.tide.now } else e.2) }) s

/-- A region's gate is open (R30). -/
def gateOpen (s : State) (r : Nat) : Bool := !(nth s.pwr.rgns r {}).gated

/-! ## Staging SRAM and HBM3 -/

def dieSum (l : List (Nat × Nat)) (d : Nat) : Nat := sumOf (l.filter (fun e => e.1 == d)) (·.2)

/-- Staging SRAM of a core die in use (R54, R136): 32 MiB in all (R43). -/
def stagingUsed (s : State) (d : Nat) : Nat :=
  sumOf s.groups (fun g => if g.2.frag.accHome = 0 then dieSum g.2.stagingRes d + dieSum g.2.accRes d
    + (match g.2.pendingAccum with
       | some x => dieSum x.2.2 d
       | none => 0) else 0)

def stagingSize : Nat := 32 * 2 ^ 20

/-- The die that holds a group's extent tables: that of its first array (log entry 13). -/
def extentDie (g : Group) : Nat := (g.frag.arrays.headD (0, 0)).1

/-- HBM3 of a core die in use, over every kind of holding (R617). -/
def hbmUsed (s : State) (d : Nat) : Nat :=
  sumOf s.mem.regions (fun r => if r.2.die = d then r.2.size else 0)
  + sumOf s.emb.tables (fun t => if t.2.info.die = d then t.2.bytes else 0)
  + sumOf s.groups (fun g => (if g.2.frag.accHome = 1 then dieSum g.2.stagingRes d + dieSum g.2.accRes d
      + (match g.2.pendingAccum with
         | some x => dieSum x.2.2 d
         | none => 0) else 0)
      + (if extentDie g.2 = d then 8 * sumOf g.2.extents (fun e => e.2.length) else 0))
  + (let t := nth s.obs.traces d {}
     if t.allocated then t.ringMib * 2 ^ 20 else 0)
  + (if d = 0 then 32 * 2 ^ 20 else 0)

def hbmSize : Nat := 96 * 2 ^ 30

/-- Every die has the HBM3 in use within its capacity. -/
def hbmFits (s : State) : Bool := (List.range 4).all (fun d => decide (hbmUsed s d ≤ hbmSize))

/-- Every die has the staging SRAM in use within its capacity. -/
def stagingFits (s : State) : Bool := (List.range 4).all (fun d => decide (stagingUsed s d ≤ stagingSize))

/-! ## Instances of counters (R570, R571, R573) -/

/-- Reset the counters of an instance: zero, no overflow, GEN + 1; DEPTH_HW, SHOAL_HELD_HW and SHOAL_FREE_MIN take
their gauge's present value (R570). -/
def resetInstance (scope inst : Nat) (s : State) : State :=
  let s := onObs (fun o => { o with
    ctrs := o.ctrs.filter (fun e => !(e.1.1 == scope && e.1.2.1 == inst)),
    gens := o.gens.filter (fun e => !(e.1 == (scope, inst))) ++ [((scope, inst), (genOf o (scope, inst) + 1) % 65536)] }) s
  if scope = 1 then gaugeSet (kPort inst iSHOAL_HELD_HW) (sumOf (List.range 9) (fun c => charge s (.ingress inst c))) s
  else if scope = 2 then gaugeSet (kQueue 0 inst 3) (queueBytes s (inst / 64) (inst % 64)) s
  else if scope = 5 then gaugeSet (kDie inst 1) (shoalFree s inst) s
  else s

/-! ## Wait traces (R575 to R580) -/

def getTrace (s : State) (d : Nat) : Trace := nth s.obs.traces d {}

def onTrace (d : Nat) (f : Trace → Trace) : State → State := onObs (fun o => { o with traces := modAt o.traces d f })

/-- Fill the token bucket of a die's trace to now: BUDGET per cent of 1,638.4 GB/s, burst 64 KiB (R578). -/
def fillTrace (d : Nat) (s : State) : State :=
  onTrace d (fun t => { t with
    tokens := min 65536000 (t.tokens + 16384 * t.budget * (s.tide.now - t.tokensAt)), tokensAt := s.tide.now }) s

/-- Bytes the ring of a die holds. -/
def traceBytes (t : Trace) : Nat := 32 * t.records.length

/-- TRACE_FILL is posted when the ring reaches three quarters full, and rearmed below half (R580). -/
def traceFillEvent (d : Nat) (s : State) : State :=
  let t := getTrace s d
  let size := t.ringMib * 2 ^ 20
  if 3 * size ≤ 4 * traceBytes t ∧ ¬ t.fillPosted then postDev 0x42 (bytesLE 1 d) (onTrace d (fun t => { t with fillPosted := true }) s)
  else if 2 * traceBytes t < size then onTrace d (fun t => { t with fillPosted := false }) s
  else s

/-- Write a trace record; one that finds no tokens or a full ring is dropped and counted, and the die's next
record carries LOST (R577, R578). Byte 1 of `rec` holds the other flags. -/
def writeTrace (d : Nat) (rec : List Byte) (s : State) : State :=
  let s := fillTrace d s
  let t := getTrace s d
  if t.tokens < 32000 ∨ t.ringMib * 2 ^ 20 < traceBytes t + 32 then
    count kTRACE_DROP (onTrace d (fun t => { t with lost := true }) s)
  else
    let fl := byteAt rec 1 + b2n t.lost
    let r := putBytes rec 1 (bytesLE 1 fl)
    traceFillEvent d (onTrace d (fun t => { t with records := t.records ++ [r], lost := false, tokens := t.tokens - 32000 }) s)

/-- A TIME record: bytes 8 to 15 the whole Tide count (R576). -/
def writeTimeRecord (d : Nat) (s : State) : State :=
  let s := onTrace d (fun t => { t with hi := s.tide.now / 2 ^ 48 }) s
  writeTrace d (bytesLE 1 0x0F ++ List.replicate 7 0 ++ bytesLE 8 s.tide.now ++ List.replicate 16 0) s

/-- TRACE_SET (R575). -/
def workTraceSet : Work := fun _ op _ s =>
  let dies := (List.range 4).filter (fun d => bitAt op (380 + d))
  let en := bitAt op 379
  let set (t : Trace) : Trace := { t with
    en := en, budget := fld op 378 376, minWait := fld op 375 344, types := fld op 343 340, job := fld op 339 332,
    ringMib := fld op 331 320, allocated := t.allocated || en }
  let t := forAll dies (fun d => onTrace d set) (forAll dies fillTrace s)
  if ¬ zeroBits op 319 0 ∨ ¬ decide (1 ≤ fld op 378 376 ∧ fld op 378 376 ≤ 5) ∨ bitAt op 343
      ∨ ¬ decide (4 ≤ fld op 331 320 ∧ fld op 331 320 ≤ 1024) then (s, fail stBAD)
  else if dies.any (fun d => (getTrace s d).en && (getTrace s d).ringMib != fld op 331 320) then (s, fail stHELD)
  else if ¬ hbmFits t then (s, fail stNORES)
  else (forAll dies (fun d u => if en ∧ ¬ (getTrace s d).en then writeTimeRecord d u else u) t, ok)

def execTraceSet (r i : Nat) (s : State) : Host.Outcome State Fault Refusal := .next (runDesc 0x13 workTraceSet r i [] s)

/-- TRACE_DRAIN: the oldest whole records of a die's ring, up to LEN bytes and the tokens that record writes
leave, to ADDR (R578, R579). -/
def workTraceDrain : Work := fun cx op _ s =>
  let d := fld op 287 286
  let len := fld op 319 288
  if ¬ onlyBits op [(383, 320), (319, 288), (287, 286)] ∨ len % 32 ≠ 0 then (s, fail stBAD)
  else
    let s := fillTrace d s
    let t := getTrace s d
    let n := min (len / 32) (min t.records.length (t.tokens / 32000))
    let s := hostWrite cx.func (fld op 383 320) (t.records.take n).flatten s
    let s := onTrace d (fun t => { t with records := t.records.drop n, tokens := t.tokens - 32000 * n }) s
    (traceFillEvent d s, okR (32 * n))

def execTraceDrain (r i : Nat) (s : State) : Host.Outcome State Fault Refusal := .next (runDesc 0x14 workTraceDrain r i [] s)

/-- TRACE_TIME_RECORD: on each die that traces, when Tide bits [63:48] have changed (R576). -/
def doTraceTimeRecord (s : State) : State :=
  forAll (List.range 4) (fun d s =>
    let t := getTrace s d
    if t.en ∧ t.hi ≠ s.tide.now / 2 ^ 48 then writeTimeRecord d s else s) s

def execTraceTimeRecord (s : State) : Host.Outcome State Fault Refusal := .next (whenLive doTraceTimeRecord s)

end Sys2Proof.Machine
end

