-- ==== Sys2Proof/Machine/Plan.lean ====
section
/-! DEFINITION. Plan fragments and their checks (R51 to R55, R58, R85, R292), the group control packets (R66,
R616, R498), the places of a plan, and the failing of calls and groups (R69, R73, R76, R488). -/

namespace Sys2Proof.Machine

def noRank : Nat := 0x3FFFF

/-! ## Fragments (R51 to R53) -/

/-- An 8-byte member or roster entry (R52). -/
def entryAt (b : List Byte) (off : Nat) : BitVec 64 := BitVec.ofNat 64 (leAt b off 8)

/-- The counts a fragment header gives: arrays, child ports, member entries, roster entries. -/
def fragCounts (b : List Byte) : Nat × Nat × Nat × Nat := (leAt b 34 2, leAt b 30 2, leAt b 32 2, leAt b 36 4)

/-- The length that the counts give (R51). -/
def fragLen (b : List Byte) : Nat :=
  let n := fragCounts b
  64 + 2 * n.1 + 2 * n.2.1 + 8 * n.2.2.1 + 8 * n.2.2.2

/-- A fragment as it stands at ADDR (R51, R52). -/
def parseFrag (b : List Byte) : Fragment :=
  let n := fragCounts b
  let oc := 64 + 2 * n.1
  let om := oc + 2 * n.2.1
  let orr := om + 8 * n.2.2.1
  { hasMembers := bitAt (BitVec.ofNat 8 (byteAt b 6)) 0,
    isRoot := bitAt (BitVec.ofNat 8 (byteAt b 6)) 1,
    modes := byteAt b 7,
    group := leAt b 8 3,
    chunkSegs := byteAt b 11,
    cove := leAt b 12 2,
    chunkWindow := byteAt b 14,
    accHome := byteAt b 15,
    fmtMask := leAt b 16 2,
    w96 := bitAt (BitVec.ofNat 8 (byteAt b 18)) 0,
    keys := bitAt (BitVec.ofNat 8 (byteAt b 18)) 1,
    waitTimeout := leAt b 20 8,
    parent := leAt b 28 2,
    arrays := (List.range n.1).map (fun i => (byteAt b (64 + 2 * i + 1), byteAt b (64 + 2 * i))),
    children := (List.range n.2.1).map (fun i => leAt b (oc + 2 * i) 2),
    members := (List.range n.2.2.1).map (fun i =>
      let e := entryAt b (om + 8 * i)
      (fld e 63 54, fld e 53 36, fld e 35 18)),
    roster := (List.range n.2.2.2).map (fun i =>
      let e := entryAt b (orr + 8 * i)
      (fld e 53 36, fld e 35 18)) }

/-- MAGIC, VERSION, the reserved fields and the ranges of the counts (R51 to R53). -/
def fragRawOk (b : List Byte) (len : Nat) : Bool :=
  let n := fragCounts b
  let om := 64 + 2 * n.1 + 2 * n.2.1
  let orr := om + 8 * n.2.2.1
  leAt b 0 4 == 0x4B515046 && leAt b 4 2 == 1 && decide (byteAt b 6 < 4) && decide (byteAt b 7 < 8)
  && decide (byteAt b 18 < 4) && byteAt b 19 == 0 && leAt b 40 24 == 0
  && len == fragLen b && decide (1 ≤ n.1 ∧ n.1 ≤ 32) && decide (n.2.1 ≤ 767)
  && (List.range (n.2.2.1 + n.2.2.2)).all (fun i => fld (entryAt b (om + 8 * i)) 17 0 == 0
      && fld (entryAt b (om + 8 * i)) 53 36 != noRank)
  && (List.range n.2.2.2).all (fun i => fld (entryAt b (orr + 8 * i)) 63 54 == 0)

/-- The formats FMT_MASK names. -/
def maskFmts (m : Nat) : List Nat := bitsOf 16 m

/-- The ports a fragment names, by role. -/
def fragPorts (f : Fragment) : List Nat := (if f.isRoot then [] else [f.parent]) ++ f.children ++ f.members.map (·.1)

/-- The checks of R53 on a parsed fragment, but for the roster a REPLACE from QUIESCED keeps. -/
def fragOk (s : State) (f : Fragment) (gid : Nat) : Bool :=
  f.isRoot == (f.parent == 0xFFFF)
  && noRepeat (fragPorts f) && (fragPorts f).all (portExists s)
  && f.arrays.all (fun a => maEnabled s a.1 a.2)
  && noRepeat (f.members.map (fun m => m.2.1)) && noRepeat (f.roster.map (·.1))
  && (f.roster.isEmpty || f.members.all (fun m => f.roster.contains m.2))
  && f.modes != 0 && f.fmtMask != 0 && (maskFmts f.fmtMask).all (fun c => isFmt c && decide (512 * f.chunkSegs * elemSize c ≤ 8160))
  && !(f.fmtMask.testBit 0xA && !f.w96)
  && !(f.w96 && !f.modes.testBit 0) && !(f.keys && !f.modes.testBit 1 && !f.modes.testBit 2)
  && s.mem.coves.contains f.cove
  && f.group == gid
  && f.hasMembers == !f.members.isEmpty
  && (f.isRoot || f.roster.isEmpty)
  && decide (1 ≤ f.chunkSegs ∧ f.chunkSegs ≤ 15) && decide (1 ≤ f.chunkWindow ∧ f.chunkWindow ≤ 64)
  && decide (1000 ≤ f.waitTimeout ∧ f.waitTimeout ≤ 10 ^ 12) && decide (f.accHome ≤ 1)

/-! ## Reservations (R54, R136, R292) -/

/-- Bytes of an accumulator of the group (R54). -/
def accSize (f : Fragment) : Nat :=
  if f.modes.testBit 0 && f.w96 then 12 else if f.modes.testBit 0 || f.keys then 8 else 4

/-- `n` chunks of accumulators laid out array by array, in bytes per die (R54, R136). -/
def accNeed (f : Fragment) (n : Nat) : List (Nat × Nat) :=
  f.arrays.map (fun a => (a.1, ceilDiv n f.arrays.length * 512 * f.chunkSegs * accSize f))

/-- The Shoal admission reservation, in buffers per die (R292). -/
def shoalNeed (f : Fragment) : List (Nat × Nat) :=
  let u := max 33 ((if accSize f = 12 then 25 else 17) * f.chunkSegs)
  let d := max 33 (17 * f.chunkSegs)
  let per := ceilDiv f.chunkWindow f.arrays.length
  (f.children ++ f.members.map (·.1)).map (fun p => (dieOf p, (f.chunkWindow + 1) * u))
  ++ (if f.isRoot then f.arrays.map (fun a => (a.1, per * d))
      else f.arrays.map (fun a => (a.1, per * u)) ++ [(dieOf f.parent, f.chunkWindow * d)])

/-- Staging, HBM3 and Shoal hold what is reserved, and every shared pool keeps POOL_FLOOR (R54, R293). -/
def reservationsOk (s : State) : Bool :=
  stagingFits s && hbmFits s && (List.range 4).all (fun d => decide (s.shoal.cfg.poolFloor * 256 ≤ poolFree s d))

/-! ## Places of the plan -/

/-- The endpoint ID of the Q7 at the far end of a port, as its HELLO presented it (R529, R616). -/
def farEpid (s : State) (p : Nat) : Nat := (getPort s p).peer.epid

/-- The array of a chunk (R55). -/
def arrayOf (g : Group) (chunk : Nat) : Nat × Nat := nth g.frag.arrays (chunk % max 1 g.frag.arrays.length) (0, 0)

/-- The port of the plan that a packet of a neighbour belongs to: the ingress port, or after a re-route the
child or parent port toward the Q7 that sent it (R131, R135, R616; DEDUCED, log entry 14). -/
def planPort (s : State) (g : Group) (port : Nat) (p : Packet) : Nat :=
  let ports := g.frag.children ++ (if g.frag.isRoot then [] else [g.frag.parent])
  if ports.contains port then port
  else if isFabric s port then (ports.find? (fun c => farEpid s c == p.src)).getD port
  else port

def memberPorts (g : Group) : List Nat := g.frag.members.map (·.1)

/-- The members of an epoch at this Q7 (R49, R69). -/
def rosterAt (g : Group) (e : Nat) : Roster :=
  if g.now.epoch = e then g.now else (g.olds.find? (fun r => r.epoch == e)).getD { epoch := e }

def openCalls (g : Group) : List Call := g.calls.filter (fun c => !c.failed && !c.done)

/-- Greatest passes of a setting pending or in force (R136). -/
def maxPasses (g : Group) : Nat :=
  max g.passes (match g.pendingAccum with
    | some x => x.1
    | none => 1)

/-! ## Group control packets (R66, R616, R498) -/

/-- The body of a group control packet. -/
def groupBody (ctype gid epoch rank aux status call cause : Nat) : BitVec 128 :=
  pack 128 [(8, ctype), (24, gid), (16, epoch), (18, rank), (18, aux), (8, status), (24, call), (2, cause), (10, 0)]

/-- Send a group control packet to an endpoint, under the job of what it answers (R229). -/
def sendGroup (dst job aux : Nat) (body : BitVec 128) : State → State := originate (ctlPkt vcCTRL dst job aux body)

/-- COLL_FAIL to one endpoint; EPOCH is the epoch in force (R66, log entry 15). -/
def sendCollFail (dst gid epoch rank status call job : Nat) : State → State :=
  sendGroup dst job 0 (groupBody 0x45 gid epoch rank noRank status call 0)

/-- GROUP_REPLY. -/
def sendReply (dst gid epoch status rank job : Nat) : State → State :=
  sendGroup dst job 0 (groupBody 0x46 gid epoch noRank rank status 0 0)

/-- EPOCH_NOTICE to the Q7s at the child ports and to the members attached here of the old and new epoch (R70);
SRC_AUX names the member that joined or left (R66). -/
def sendNotice (g : Group) (cause rank who : Nat) (before : List (Nat × Nat × Nat)) (s : State) : State :=
  let body := groupBody 0x42 g.frag.group g.now.epoch rank g.now.count 0 0 cause
  let here := (before ++ g.now.admitted).foldl (fun l m => addNew l m.2.2) []
  forAll (g.frag.children.map (farEpid s) ++ here) (fun d => sendGroup d 0 who body) s

/-- PLAN_READY to the parent (R77). -/
def sendPlanReady (gid : Nat) (s : State) : State :=
  match getGroup s gid with
  | none => s
  | some g =>
    let s := onGroup gid (fun g => { g with readyAt := some s.tide.now }) s
    sendGroup (farEpid s g.frag.parent) 0 0 (groupBody 0x44 gid g.now.epoch noRank noRank 0 0 0) s

/-- The body of a GROUP_CMD (R616). -/
def cmdBody (gid epoch cmd ack status call seq : Nat) : BitVec 128 :=
  pack 128 [(8, 0x4F), (24, gid), (16, epoch), (4, cmd), (1, ack), (8, status), (24, call), (16, seq), (27, 0)]

/-- Send a command on every child port, numbered, to be sent again until acknowledged (R616); a CALL_FAIL under the job of its
call (R229). -/
def sendCmd (gid epoch cmd status call job : Nat) (s : State) : State :=
  match getGroup s gid with
  | none => s
  | some g => forAll g.frag.children (fun c s =>
      let seq := ((getGroup s gid).map (fun g => mgetD g.nextSeq c 0)).getD 0
      let p := ctlPkt vcCTRL (farEpid s c) job 0 (cmdBody gid epoch cmd 0 status call seq)
      let s := onGroup gid (fun g => { g with
        nextSeq := mput g.nextSeq c ((seq + 1) % 65536), sent := g.sent ++ [⟨c, seq, s.tide.now, p⟩] }) s
      originate p s) s

/-- GROUP_STORM toward the root (R488, R498). -/
def sendStorm (g : Group) (status source epid : Nat) (s : State) : State :=
  let body : BitVec 128 := pack 128 [(8, 0x31), (24, g.frag.group), (8, status), (8, source), (18, epid), (62, 0)]
  originate (ctlPkt vcCTRL (farEpid s g.frag.parent) 0 0 body) s

/-! ## Ends of calls (R69, R73, R76, R488) -/

/-- The Shoal packets that a chunk retains as inputs (R118). -/
def inputBufs (c : Chunk) : List (Nat × Nat) := c.inputs.flatMap (·.bufs) ++ c.taking.flatMap (·.bufs)

/-- The Shoal packets that a chunk retains: inputs, its own partial and the copies of its result (R118, R120, R293). -/
def chunkBufs (c : Chunk) : List (Nat × Nat) := inputBufs c ++ c.unacked.flatMap (·.bufs) ++ c.resultBufs

/-- Remove the chunks that meet a condition, freeing what they retain. -/
def dropChunks (gid : Nat) (f : Chunk → Bool) (s : State) : State :=
  match getGroup s gid with
  | none => s
  | some g =>
    let s := letGo ((g.chunks.filter f).flatMap chunkBufs) s
    onGroup gid (fun g => { g with chunks := g.chunks.filter (fun c => !f c) }) s

/-- The record of a call, or a new one. -/
def findCall (g : Group) (e n : Nat) : Option Call := g.calls.find? (fun c => c.epoch == e && c.call == n)

def onCall (gid e n : Nat) (f : Call → Call) : State → State :=
  onGroup gid (fun g => { g with calls := g.calls.map (fun c => if c.epoch == e && c.call == n then f c else c) })

/-- A chunk whose result may still go out after its call fails at a commit: combined at the root with its call
agreed, or any chunk at another Q7, whose delivery the root settles (R69, R70). -/
def survivesCommit (g : Group) (c : Chunk) : Bool :=
  if g.frag.isRoot then c.combined && ((findCall g c.epoch c.call).map (·.agreed)).getD false else true

/-- Mark a call failed and free what it retains. A commit's failure leaves the chunks that R69 lets proceed,
without their inputs; sealed chunks stay (R74). -/
def markFailed (gid e n status : Nat) (s : State) : State :=
  match getGroup s gid with
  | none => s
  | some g =>
    let mine (c : Chunk) : Bool := c.epoch == e && c.call == n
    let s := count (kGroup g.entry iCALLS_FAILED) s
    let s := onGroup gid (fun g => { g with
      calls := if (findCall g e n).isSome then g.calls.map (fun c =>
                 if c.epoch == e && c.call == n then { c with failed := true, stale := status == stSTALE } else c)
               else g.calls ++ [{ epoch := e, call := n, failed := true, stale := status == stSTALE }],
      nextCall := if e = g.now.epoch then max g.nextCall (n + 1) else g.nextCall }) s
    if status = stSTALE then
      let s := dropChunks gid (fun c => mine c && !c.sealed && !survivesCommit g c) s
      if g.frag.isRoot then s
      else
        let s := letGo ((g.chunks.filter mine).flatMap (fun c => inputBufs c ++ c.unacked.flatMap (·.bufs))) s
        onGroup gid (fun g => { g with chunks := g.chunks.map (fun c =>
          if mine c then { c with inputs := [], taking := [], unacked := [], combined := true, inDeadline := none, slot := false } else c) }) s
    else dropChunks gid (fun c => mine c && !c.sealed) s

/-- A call that a commit failed ends altogether: the chunks that R69 let proceed go too (R119, R616). -/
def endStale (gid e n : Nat) (s : State) : State :=
  onCall gid e n (fun c => { c with stale := false }) (dropChunks gid (fun c => c.epoch == e && c.call == n && !c.sealed) s)

/-- A failed call some of whose chunks a commit let proceed. -/
def callStale (g : Group) (e n : Nat) : Bool := ((findCall g e n).map (fun c => c.failed && c.stale)).getD false

/-- What a taken-in copy leaves when it is dropped: once a copy sent again has begun, earlier ones stay late (R132). -/
def cutTaking (t : Taking) : Option Taking := if t.resend then some { t with next := 0, bytes := [], bufs := [] } else none

/-- The call has already failed. -/
def callFailed (g : Group) (e n : Nat) : Bool := ((findCall g e n).map (·.failed)).getD false

/-- The job of a call: that of its chunk 0, or of a chunk that has come (R229). -/
def callJob (g : Group) (e n : Nat) : Nat :=
  let j := ((findCall g e n).map (·.job)).getD 0
  if j ≠ 0 then j else ((g.chunks.find? (fun c => c.epoch == e && c.call == n)).map (·.job)).getD 0

/-- The root fails a call for every member: COLL_FAIL to every member of its epoch, under the epoch in force, and
CALL_FAIL down the plan where asked; CALL_FAIL names the call by the call's own epoch, without which no Q7 could tell it
(R66, R69, R73, R616; log entry 15). -/
def failCall (gid e n status rank : Nat) (cmd : Bool) (s : State) : State :=
  match getGroup s gid with
  | none => s
  | some g =>
    if callFailed g e n then s
    else
      let job := callJob g e n
      let s := markFailed gid e n status s
      if g.frag.isRoot then
        let s := forAll (rosterAt g e).roster (fun m => sendCollFail m.2 gid g.now.epoch rank status n job) s
        onlyIf cmd (sendCmd gid e 4 status n job) s
      else s

/-- Every open call fails (R76). -/
def endCalls (gid status : Nat) (s : State) : State :=
  match getGroup s gid with
  | none => s
  | some g =>
    let s := forAll (openCalls g) (fun c => failCall gid c.epoch c.call status noRank false) s
    dropChunks gid (fun _ => true) s

/-- Complete the GROUP_QUIESCE that waits, with a status. -/
def endQuiescer (gid status : Nat) (s : State) : State :=
  match getGroup s gid with
  | none => s
  | some g => match g.quiescer with
    | none => s
    | some ri => finishDesc ri status 0 (onGroup gid (fun g => { g with quiescer := none }) s)

/-- The status a Storm gives a group's open calls (R76, R488): an array retired, or retained data lost. -/
def groupStormStatus (src : Nat) : Nat := if src = 0x20 ∨ src = 0x29 then stNORES else stPOISONED

/-- A Storm on a group (R76, R488): at the root its calls fail and FAIL goes down the plan; another Q7 enters FAILED and sends
GROUP_STORM toward the root, and the data of its calls stays until FAIL reaches it. A GROUP_QUIESCE that waits completes with
the same status. -/
def failGroup (gid src : Nat) (s : State) : State :=
  match getGroup s gid with
  | none => s
  | some g =>
    if ¬ (g.state = .active ∨ g.state = .quiescing) then s
    else
      let st := groupStormStatus src
      let s := onGroup gid (fun g => { g with state := .failed }) (onlyIf g.frag.isRoot (endCalls gid st) s)
      let s := if g.frag.isRoot then sendCmd gid g.now.epoch 3 st 0 0 s else sendStorm g st src (selfEpid s) s
      endQuiescer gid st s

/-- A group that becomes ACTIVE on a plan one of whose arrays has retired meanwhile fails at once: the array receives no
work (R27; log entry 87). -/
def failRetired (gid : Nat) (s : State) : State :=
  match getGroup s gid with
  | none => s
  | some g => onlyIf (g.frag.arrays.any (fun a => s.part.retired.contains a)) (failGroup gid 0x20) s

end Sys2Proof.Machine
end

