-- ==== Sys2Proof/Machine/Groups.lean ====
section
/-! DEFINITION. Groups: their descriptors (R56, R57, R76, R136), membership and epochs (R67 to R70), the
activation of a plan (R76, R77) and the root's commands (R616). -/

namespace Sys2Proof.Machine

/-! ## Epoch commits (R67, R69, R70, R136) -/

/-- Take the accumulation setting that waits for an epoch; every accumulator starts afresh, and PASSES 1 ends accumulation and
gives its reservation back (R136, R139; log entry 89). -/
def applyAccum (g : Group) : Group :=
  let g := { g with accWin := [], accF32 := [], accExp := [], accDone := [], accFailed := none }
  match g.pendingAccum with
  | none => g
  | some (k, n, res) => { g with passes := k, accChunks := n, accRes := if k = 1 then [] else res, pendingAccum := none }

/-- A roster with a rank occupied. -/
def addRank (l : List (Nat × Nat)) (rank epid : Nat) : List (Nat × Nat) := insertBy (·.1) (rank, epid) (l.filter (fun e => e.1 != rank))

/-- Enter a new epoch with the members given (R70). The members and the calls of older epochs stay known: an input of one may
still be on its way, and no call fails twice (R69). -/
def newEpoch (now : Nat) (r : Roster) (g : Group) : Group :=
  applyAccum { g with
    olds := (if g.now.epoch = 0 then [] else [g.now]) ++ g.olds, now := r, commitAt := now, highSealed := none, nextCall := 0 }

/-- Every chunk of a call, up to its final one, is combined at the root and the call may be released (R62, R69). -/
def callWhole (g : Group) (c : Call) : Bool :=
  let ks := g.chunks.filter (fun k => k.epoch == c.epoch && k.call == c.call)
  let got (n : Nat) : Bool := c.sealedChunks.contains n || ks.any (fun k => k.chunk == n && k.combined)
  c.agreed && (match (ks.find? (fun k => k.combined && k.last)).map (·.chunk) with
    | some n => (List.range (n + 1)).all got
    | none => (match c.lastChunk with
      | some n => (List.range (n + 1)).all got
      | none => false))

/-- The calls of an accumulation that a commit leaves unfinished, completed passes included (R139). -/
def unfinishedPass (g : Group) (c : Call) : Bool :=
  decide (1 < g.passes) && c.epoch == g.now.epoch &&
    (let fin := c.call / g.passes * g.passes + (g.passes - 1)
     !(((findCall g c.epoch fin).map (fun k => k.done || callWhole g k)).getD false))

/-- At the commit point the root settles every chunk of the epoch in force: every call with a chunk not counted
fails (R69), and every call of an unfinished accumulation (R139). -/
def settleEpoch (gid : Nat) (s : State) : State :=
  match getGroup s gid with
  | none => s
  | some g => forAll (g.calls.filter (fun c => c.epoch == g.now.epoch && !c.failed &&
      (unfinishedPass g c || (!c.done && !callWhole g c))))
      (fun c => failCall gid c.epoch c.call stSTALE noRank true) s

/-- Commit a membership change or a renewal at the root (R67 to R70): cause 0 JOIN, 1 LEAVE or eviction, 2 renewal;
`att` is the attachment port of a joiner of this Q7, `job` the request's. The COLL_FAILs of the commit go under the old epoch
(log entry 104). -/
def commitEpoch (gid cause rank who : Nat) (att : Option Nat) (job : Nat) (s : State) : State :=
  let s := settleEpoch gid s
  match getGroup s gid with
  | none => s
  | some g =>
    let before := g.now.admitted
    let r := g.now
    let who := if cause = 1 then ((r.roster.find? (fun e => e.1 == rank)).map (·.2)).getD 0 else if cause = 0 then who else 0
    let roster := if cause = 0 then addRank r.roster rank who else if cause = 1 then r.roster.filter (fun e => e.1 != rank) else r.roster
    let adm := if cause = 1 then r.admitted.filter (fun m => m.2.1 != rank) else match cause, att with
      | 0, some p => insertBy (fun m => m.2.1) (p, rank, who) (r.admitted.filter (fun m => m.2.1 != rank))
      | _, _ => r.admitted
    let s := onGroup gid (newEpoch s.tide.now { epoch := r.epoch + 1, count := roster.length, admitted := adm, roster := roster }) s
    let s := match getGroup s gid with
      | none => s
      | some g => sendNotice g cause rank who before s
    onlyIf (cause == 0) (sendReply who gid (r.epoch + 1) stDONE rank job) s

/-- The root enters ACTIVE: epoch 1, or the kept epoch plus 1 (R76). -/
def activate (gid : Nat) (s : State) : State :=
  match getGroup s gid with
  | none => s
  | some g =>
    let e := if g.fromQuiesced then g.now.epoch + 1 else 1
    let cause := if g.fromQuiesced then 2 else 3
    let s := onGroup gid (fun g => { newEpoch s.tide.now { g.now with epoch := e, count := g.now.roster.length } g with
      state := .active, olds := [], fromQuiesced := false }) s
    match getGroup s gid with
    | none => s
    | some g => failRetired gid (sendNotice g cause noRank 0 [] s)

/-- PLAN_READY has come from every child port: the root enters ACTIVE, another Q7 tells its parent (R76, R77). -/
def readyCheck (gid : Nat) (s : State) : State :=
  match getGroup s gid with
  | none => s
  | some g =>
    if g.state = .installing ∧ g.frag.children.all (fun c => g.ready.contains c) then
      if g.frag.isRoot then activate gid s else sendPlanReady gid s
    else s

/-! ## Descriptors -/

/-- Fields a group opcode does not use are zero (R56). -/
def groupFieldsOk (op : BitVec 384) (used : List (Nat × Nat)) : Bool := onlyBits op ((23, 0) :: used)

/-- A group opcode that names an entry: its fields, the entry, the Cove check (R56, R409). -/
def groupWork (used : List (Nat × Nat)) (f : Group → Work) : Work := fun cx op d s =>
  if ¬ groupFieldsOk op used then (s, fail stBAD)
  else match getGroup s (fld op 23 0) with
    | none => (s, fail stBAD)
    | some g => if coveAllowed s cx.func g.frag.cove then f g cx op d s else (s, fail stDENIED)

/-- A group opcode posted to the root only (R56). -/
def rootWork (used : List (Nat × Nat)) (f : Group → Work) : Work :=
  groupWork used (fun g cx op d s => if g.frag.isRoot then f g cx op d s else (s, fail stBAD))

/-- The lowest group table entry not in use; none when all 16,384 are (R47). -/
def freeEntry (s : State) : Option Nat :=
  let used := sortBy id (s.groups.map (fun g => g.2.entry))
  let e := lowestFree 0 used
  if e < 16384 then some e else none

/-- The entry as GROUP_INSTALL leaves it (R54, R76, R77, R616): a new one, or the old one with fragment and
reservations replaced. A REPLACE from QUIESCED keeps epoch and membership until ACTIVE, and with the epoch what GROUP_QUERY
shows of it; a root fragment then needs no roster, and its member entries stand as the members admitted here, whether or
not the kept membership lists them (log entry 86). Commands not acknowledged go on being sent (log entry 88).
Accumulation ends with the plan it was laid out on (log entry 16). Until ACTIVE the member count is 0 but after QUIESCED (log
entry 104). -/
def installed (f : Fragment) (entry : Nat) (old : Option Group) : Group :=
  let adm := sortBy (fun m => m.2.1) f.members
  let kept := match old with
    | some g => g.state == .quiesced
    | none => false
  let base : Group := { entry := entry, state := .installing, frag := f }
  let now : Roster := match old with
    | some g => if g.state = .quiesced then { g.now with admitted := adm } else { epoch := 0, admitted := adm, roster := sortBy (·.1) f.roster }
    | none => { epoch := 0, admitted := adm, roster := sortBy (·.1) f.roster }
  { base with
    now := now, fromQuiesced := kept, extents := (old.map (·.extents)).getD [], commitAt := (old.map (·.commitAt)).getD 0,
    highSealed := if kept then old.bind (·.highSealed) else none, sent := (old.map (·.sent)).getD [],
    stagingRes := accNeed f f.chunkWindow, shoalRes := shoalNeed f }

/-- A GROUP_INSTALL's descriptor, state and fragment pass their checks (R53, R56, R76). -/
def installOk (op : BitVec 384) (d : List Byte) (s : State) : Bool :=
  let gid := fld op 23 0
  let rep := bitAt op 265
  let f := parseFrag d
  groupFieldsOk op [(383, 320), (319, 288), (265, 265)] && gid != 0 && fld op 383 320 % 8 == 0 && d.length == fld op 319 288
  && (match getGroup s gid with
      | none => !rep
      | some g => rep && (g.state == .quiesced || g.state == .failed)
          && !(g.state == .quiesced && f.isRoot && !f.roster.isEmpty && sortBy (·.1) f.roster != g.now.roster))
  && fragRawOk d (fld op 319 288) && fragOk s f gid

/-- GROUP_INSTALL (R53, R54, R76). -/
def workGroupInstall : Work := fun cx op d s =>
  let gid := fld op 23 0
  let f := parseFrag d
  let old := getGroup s gid
  if ¬ installOk op d s then (s, fail stBAD)
  else if ¬ coveAllowed s cx.func f.cove then (s, fail stDENIED)
  else
    let entry := match old with
      | some g => if g.state = .quiesced ∧ g.now.epoch = 0xFFFF then none else some g.entry
      | none => freeEntry s
    match entry with
    | none => (s, fail stNORES)
    | some e =>
      if ¬ reservationsOk { s with groups := mput s.groups gid (installed f e old) } then (s, fail stNORES)
      else
        let t := { dropChunks gid (fun _ => true) s with groups := mput s.groups gid (installed f e old) }
        let t := onlyIf old.isNone (resetInstance 6 e) t
        let t := openGates (usedRegions t) (noteIdle (usedRegions s) t)
        (readyCheck gid t, ok)

def execGroupInstall (r i : Nat) (d : List Byte) (s : State) : Host.Outcome State Fault Refusal :=
  .next (runDesc 0x20 workGroupInstall r i d s)

/-- The entries of an extent table (R57). -/
def parseExtents (d : List Byte) : List (Nat × Nat) :=
  (List.range (d.length / 8)).map (fun i => (fld (entryAt d (8 * i)) 63 46, fld (entryAt d (8 * i)) 31 0))

def ascending : List Nat → Bool
  | a :: b :: r => decide (a < b) && ascending (b :: r)
  | _ => true

/-- GROUP_EXTENTS (R57). -/
def workGroupExtents : Work := groupWork [(383, 320), (319, 288), (269, 266)] (fun _ _ op d s =>
  let l := parseExtents d
  let t := onGroup (fld op 23 0) (fun g => { g with extents := mput g.extents (fld op 269 266) l }) s
  if fld op 383 320 % 8 ≠ 0 ∨ fld op 319 288 % 8 ≠ 0 ∨ d.length ≠ fld op 319 288
      ∨ ¬ (List.range (d.length / 8)).all (fun i => fld (entryAt d (8 * i)) 45 32 == 0)
      ∨ ¬ ascending (l.map (·.1)) ∨ l.any (fun e => e.1 == noRank) then (s, fail stBAD)
  else if ¬ hbmFits t then (s, fail stNORES)
  else (t, ok))

def execGroupExtents (r i : Nat) (d : List Byte) (s : State) : Host.Outcome State Fault Refusal :=
  .next (runDesc 0x21 workGroupExtents r i d s)

/-- States in which a membership change commits (R76). -/
def takesChanges (g : Group) : Bool := g.state == .active || g.state == .quiescing || g.state == .quiesced

/-- GROUP_EVICT (R68). -/
def workGroupEvict : Work := rootWork [(287, 270)] (fun g _ op _ s =>
  let rank := fld op 287 270
  if ¬ takesChanges g ∨ ¬ g.now.roster.any (fun e => e.1 == rank) then (s, fail stBAD)
  else if g.now.epoch = 0xFFFF then (s, fail stNORES)
  else (commitEpoch g.frag.group 1 rank 0 none 0 s, ok))

def execGroupEvict (r i : Nat) (s : State) : Host.Outcome State Fault Refusal := .next (runDesc 0x22 workGroupEvict r i [] s)

/-- GROUP_QUIESCE (R76). -/
def workGroupQuiesce : Work := rootWork [] (fun g cx _ _ s =>
  if g.state ≠ .active then (s, fail stBAD)
  else
    let s := onGroup g.frag.group (fun g => { g with state := .quiescing, quiescer := some (cx.ring, cx.idx) }) s
    (sendCmd g.frag.group g.now.epoch 0 0 0 0 s, .wait .draining))

def execGroupQuiesce (r i : Nat) (s : State) : Host.Outcome State Fault Refusal := .next (runDesc 0x23 workGroupQuiesce r i [] s)

/-- GROUP_RESUME (R76). -/
def workGroupResume : Work := rootWork [] (fun g _ _ _ s =>
  if g.state ≠ .quiesced then (s, fail stBAD)
  else (failRetired g.frag.group (sendCmd g.frag.group g.now.epoch 1 0 0 0 (onGroup g.frag.group (fun g => { g with state := .active }) s)), ok))

def execGroupResume (r i : Nat) (s : State) : Host.Outcome State Fault Refusal := .next (runDesc 0x24 workGroupResume r i [] s)

/-- GROUP_RENEW (R68). -/
def workGroupRenew : Work := rootWork [] (fun g _ _ _ s =>
  if ¬ takesChanges g then (s, fail stBAD)
  else if g.now.epoch = 0xFFFF then (s, fail stNORES)
  else (commitEpoch g.frag.group 2 noRank 0 none 0 s, ok))

def execGroupRenew (r i : Nat) (s : State) : Host.Outcome State Fault Refusal := .next (runDesc 0x25 workGroupRenew r i [] s)

/-- An entry enters DESTROYING: at the root open calls fail and DESTROY goes down the plan (R76, R77). -/
def enterDestroying (gid : Nat) (s : State) : State :=
  match getGroup s gid with
  | none => s
  | some g =>
    if g.state = .destroying then s
    else
      let s := endCalls gid stABORTED s
      let s := onGroup gid (fun g => { g with state := .destroying }) s
      let s := onlyIf g.frag.isRoot (sendCmd gid g.now.epoch 2 0 0 0) s
      endQuiescer gid stABORTED s

/-- GROUP_DESTROY (R76, R77): it completes when the entry reaches FREE. -/
def workGroupDestroy : Work := groupWork [] (fun g cx _ _ s =>
  let s := enterDestroying g.frag.group s
  (onGroup g.frag.group (fun g => { g with destroyTaken := true, destroyers := g.destroyers ++ [(cx.ring, cx.idx)] }) s, .wait .draining))

def execGroupDestroy (r i : Nat) (s : State) : Host.Outcome State Fault Refusal := .next (runDesc 0x26 workGroupDestroy r i [] s)

def gstateCode : GState → Nat
  | .free => 0 | .installing => 1 | .active => 2 | .quiescing => 3 | .quiesced => 4 | .failed => 5 | .destroying => 6

/-- The group record, and at the root the roster behind it (R57). -/
def groupRecord (g : Group) : List Byte :=
  bytesLE 3 g.frag.group ++ bytesLE 1 (gstateCode g.state) ++ bytesLE 2 g.now.epoch ++ bytesLE 4 g.now.count
  ++ bytesLE 3 (g.highSealed.getD 0) ++ bytesLE 2 (min 0xFFFF (openCalls g).length) ++ bytesLE 1 (b2n g.highSealed.isSome)
  ++ bytesLE 8 g.commitAt ++ List.replicate 40 0
  ++ (if g.frag.isRoot then g.now.roster.flatMap (fun e => bytesLE 8 (e.1 * 2 ^ 36 + e.2 * 2 ^ 18)) else [])

/-- GROUP_QUERY (R57). -/
def workGroupQuery : Work := groupWork [(383, 320), (319, 288)] (fun g cx op _ s =>
  if fld op 383 320 % 8 ≠ 0 ∨ fld op 319 288 < 64 then (s, fail stBAD)
  else (hostWrite cx.func (fld op 383 320) ((groupRecord g).take (fld op 319 288)) s, ok))

def execGroupQuery (r i : Nat) (s : State) : Host.Outcome State Fault Refusal := .next (runDesc 0x27 workGroupQuery r i [] s)

/-- The member count that ACCUM_SET checks: at the root the roster's, before the first epoch too (R93, R136); another Q7 knows
none before its first epoch and counts 0 (log entry 104). -/
def memberCount (g : Group) : Nat := if g.frag.isRoot then g.now.roster.length else g.now.count

/-- ACCUM_SET (R93, R136): ACC_CHUNKS is reserved whatever PASSES is. -/
def workAccumSet : Work := fun cx op _ s =>
  let gid := fld op 23 0
  let n := fld op 383 352
  let k := fld op 351 336
  match getGroup s gid with
  | none => (s, fail stBAD)
  | some g =>
    let res := accNeed g.frag n
    let t := onGroup gid (fun g => { g with pendingAccum := some (k, n, res) }) s
    if ¬ onlyBits op [(383, 352), (351, 336), (23, 0)] ∨ n = 0 ∨ 65536 < n ∨ k = 0 ∨ g.state = .failed ∨ g.state = .destroying then (s, fail stBAD)
    else if ¬ coveAllowed s cx.func g.frag.cove then (s, fail stDENIED)
    else if 2 ^ 22 < memberCount g * k ∨ ¬ stagingFits t ∨ ¬ hbmFits t then (s, fail stNORES)
    else (t, ok)

def execAccumSet (r i : Nat) (s : State) : Host.Outcome State Fault Refusal := .next (runDesc 0x30 workAccumSet r i [] s)

/-! ## Membership requests (R66, R68) -/

/-- The status with which the first Q7 that finds one of these states answers a request (R68, last rows). -/
def deadStatus (g : Option Group) : Option Nat :=
  match g with
  | none => some stNORES
  | some g => match g.state with
    | .failed => some stNORES
    | .destroying => some stABORTED
    | .installing => some stHELD
    | _ => none

/-- The lowest free rank. -/
def freeRank (g : Group) : Nat := lowestFree 0 (g.now.roster.map (·.1))

/-- A request at the root (R68). -/
def rootRequest (gid ctype : Nat) (body : BitVec 128) (who : Nat) (att : Option Nat) (job : Nat) (s : State) : State :=
  match getGroup s gid with
  | none => s
  | some g =>
    let e := g.now.epoch
    let rank := fld body 79 62
    match deadStatus (some g) with
    | some st => sendReply who gid e st noRank job s
    | none =>
      let full := e = 0xFFFF
      if ctype = 0x40 then
        match g.now.roster.find? (fun m => m.2 == who) with
        | some m => sendReply who gid e stDONE m.1 job s
        | none =>
          let r := if rank = noRank then freeRank g else rank
          let k := maxPasses g
          if full ∨ r = noRank ∨ g.now.roster.any (fun m => m.1 == r) ∨ (1 < k ∧ 2 ^ 22 < (g.now.count + 1) * k) then
            sendReply who gid e stNORES noRank job s
          else commitEpoch gid 0 r who att job s
      else if ctype = 0x41 then
        if ¬ g.now.roster.contains (rank, who) then sendReply who gid e stDENIED noRank job s
        else if full then sendReply who gid e stNORES noRank job s
        else commitEpoch gid 1 rank who none job s
      else if fld body 95 80 ≠ e then sendReply who gid e stDONE noRank job s
      else if full then sendReply who gid e stNORES noRank job s
      else commitEpoch gid 2 noRank 0 none job s

/-- A request on an attachment port, under the port's binding: what the attachment Q7 refuses before it forwards (R50,
R68, R241). R68 names ACCESS_DENIED only for a JOIN from a port that is no member port; a LEAVE or RENEW there is
refused alike (log entry 90). The Cove check stands behind the state rows (log entry 104). -/
def refuseRequest (bd : Option Binding) (port : Nat) (g : Option Group) : Option (Nat × Bool) :=
  match bd with
  | none => some (stDENIED, false)
  | some b => match deadStatus g, g with
    | some st, _ => some (st, false)
    | none, some g =>
      if b.cove ≠ g.frag.cove then some (stDENIED, true)
      else if ¬ (memberPorts g).contains port then some (stDENIED, false)
      else none
    | none, none => none

/-- JOIN, LEAVE or RENEW at this Q7 (R68): refused, dropped, committed at the root, or forwarded up the plan to
the parent. A forwarded request keeps SRC, FSEQ and FS (R244, log entry 17). -/
def doRequest (ctype port : Nat) (p : Packet) (s : State) : State :=
  if ¬ engineFor s port p then s
  else
    let bd := boundAt s port p
    let s := freeAll (deliveredAt s port p) (takeDelivered port p s)
    let gid := fld p.ctl 119 96
    let g := getGroup s gid
    let onward (att : Option Nat) (s : State) : State :=
      match g with
      | none => s
      | some g =>
        if g.frag.isRoot then rootRequest gid ctype p.ctl p.src att p.job s
        else passOn port (p.setDst (farEpid s g.frag.parent)) s
    if isFabric s port then
      (if ((g.map (fun g => g.frag.children.contains port)).getD false) then onward none s
       else count (kPort port iGRP_CTL_BAD) s)
    else match refuseRequest bd port g with
      | some (st, deny) =>
        let s := onlyIf deny (count (kPort port iENG_DENY)) s
        backOn port (sendReply p.src gid ((g.map (fun g => g.now.epoch)).getD 0) st noRank p.job) s
      | none => onward (some port) s

def execJoin (port : Nat) (p : Packet) (s : State) : Host.Outcome State Fault Refusal := .next (doRequest 0x40 port p s)
def execLeave (port : Nat) (p : Packet) (s : State) : Host.Outcome State Fault Refusal := .next (doRequest 0x41 port p s)
def execRenew (port : Nat) (p : Packet) (s : State) : Host.Outcome State Fault Refusal := .next (doRequest 0x43 port p s)

/-! ## Notices and plan set-up (R70, R77) -/

/-- EPOCH_NOTICE passes a Q7 other than the root (R68, R70, R77, R136). -/
def doEpochNotice (port : Nat) (p : Packet) (s : State) : State :=
  if ¬ engineFor s port p then s
  else
    let s := freeAll (deliveredAt s port p) (takeDelivered port p s)
    let gid := fld p.ctl 119 96
    match getGroup s gid with
    | none => s
    | some g =>
      let cause := fld p.ctl 11 10
      let rank := fld p.ctl 79 62
      let who := p.aux % 2 ^ 18
      if g.frag.isRoot ∨ planPort s g port p ≠ g.frag.parent
          ∨ ¬ (takesChanges g ∨ (g.state = .installing ∧ 2 ≤ cause)) then s
      else
        let before := if g.state = .installing then [] else g.now.admitted
        let home := (memberPorts g).find? (fun m => ((bindOf s m).map (fun b => b.epid == who)).getD false)
        let adm := match cause, home with
          | 0, some m => insertBy (fun x => x.2.1) (m, rank, who) (g.now.admitted.filter (fun x => x.2.1 != rank))
          | 1, _ => g.now.admitted.filter (fun x => x.2.1 != rank)
          | _, _ => g.now.admitted
        let r : Roster := { epoch := fld p.ctl 95 80, count := fld p.ctl 61 44, admitted := adm }
        let s := onGroup gid (fun g => { newEpoch s.tide.now r g with
          state := if g.state = .installing then .active else g.state, fromQuiesced := false, readyAt := none }) s
        let was := g.state
        match getGroup s gid with
        | none => s
        | some g => onlyIf (was == .installing) (failRetired gid) (sendNotice g cause rank who before s)

def execEpochNotice (port : Nat) (p : Packet) (s : State) : Host.Outcome State Fault Refusal := .next (doEpochNotice port p s)

/-- PLAN_READY from a child (R77). -/
def doPlanReady (port : Nat) (p : Packet) (s : State) : State :=
  if ¬ engineFor s port p then s
  else
    let s := freeAll (deliveredAt s port p) (takeDelivered port p s)
    let gid := fld p.ctl 119 96
    match getGroup s gid with
    | none => count (kPort port iGRP_CTL_BAD) s
    | some g =>
      if ¬ g.frag.children.contains port then count (kPort port iGRP_CTL_BAD) s
      else if g.state ≠ .installing ∨ g.ready.contains port then s
      else readyCheck gid (onGroup gid (fun g => { g with ready := g.ready ++ [port] }) s)

def execPlanReady (port : Nat) (p : Packet) (s : State) : Host.Outcome State Fault Refusal := .next (doPlanReady port p s)

/-- PLAN_READY_RESEND: 100 µs have passed and the entry is still INSTALLING (R77). -/
def doPlanReadyResend (gid : Nat) (s : State) : State :=
  match getGroup s gid with
  | none => s
  | some g => match g.readyAt with
    | none => s
    | some t =>
      if engineOn s ∧ g.state = .installing ∧ ¬ g.frag.isRoot ∧ due s (t + 100000) then sendPlanReady gid s else s

def execPlanReadyResend (group : Nat) (s : State) : Host.Outcome State Fault Refusal := .next (doPlanReadyResend group s)

/-! ## The root's commands at the other Q7s (R616) -/

/-- Apply a command of the root, then send this Q7's own copy on each child port: under the epoch in force here, but that
CALL_FAIL keeps the epoch of its call (R616, log entry 15). FAIL frees the data of a group that has failed here before it
came (R488). -/
def applyCmd (gid : Nat) (b : BitVec 128) (job : Nat) (s : State) : State :=
  let cmd := fld b 79 76
  let st := fld b 74 67
  let call := fld b 66 43
  let e := fld b 95 80
  match getGroup s gid with
  | none => s
  | some g =>
    let s :=
      if cmd = 0 then (if g.state = .active then onGroup gid (fun g => { g with state := .quiescing }) s else s)
      else if cmd = 1 then
        (if g.state = .quiescing ∨ g.state = .quiesced then failRetired gid (onGroup gid (fun g => { g with state := .active }) s) else s)
      else if cmd = 2 then enterDestroying gid s
      else if cmd = 3 then
        (if g.state = .destroying then s else onGroup gid (fun g => { g with state := .failed }) (endCalls gid st s))
      else if callFailed g e call then onlyIf (callStale g e call && st != stSTALE) (endStale gid e call) s
      else markFailed gid e call st s
    sendCmd gid (if cmd = 4 then e else g.now.epoch) cmd st call job s

/-- Apply the commands held, as far as SEQ order goes. -/
def drainCmds (gid : Nat) : Nat → State → State
  | 0, s => s
  | n + 1, s =>
    match getGroup s gid with
    | none => s
    | some g => match g.heldCmds.find? (fun c => c.1 == g.expectSeq) with
      | none => s
      | some c =>
        let s := onGroup gid (fun g => { g with
          heldCmds := g.heldCmds.filter (fun x => x.1 != c.1), expectSeq := (g.expectSeq + 1) % 65536 }) s
        drainCmds gid n (applyCmd gid c.2.ctl c.2.job s)

/-- GROUP_CMD (R616): taken from the parent port, acknowledged at every copy, applied once in SEQ order. -/
def doGroupCmd (port : Nat) (p : Packet) (s : State) : State :=
  if ¬ engineFor s port p then s
  else
    let s := freeAll (deliveredAt s port p) (takeDelivered port p s)
    let b := p.ctl
    let gid := fld b 119 96
    match getGroup s gid with
    | none => count (kPort port iGRP_CTL_BAD) s
    | some g =>
      if g.frag.isRoot ∨ port ≠ g.frag.parent ∨ 4 < fld b 79 76 then count (kPort port iGRP_CTL_BAD) s
      else
        let seq := fld b 42 27
        let s := originate (ctlPkt vcCTRL p.src 0 0 (setFld (setFld b 75 75 1) 95 80 g.now.epoch)) s
        let ahead := (seq + 65536 - g.expectSeq) % 65536
        if ahead < 32768 ∧ ¬ g.heldCmds.any (fun c => c.1 == seq) then
          drainCmds gid (g.heldCmds.length + 1) (onGroup gid (fun g => { g with heldCmds := g.heldCmds ++ [(seq, p)] }) s)
        else s

/-- GROUP_CMD_ACK: the command with its SEQ on that child port is sent no more (R616). -/
def doGroupCmdAck (port : Nat) (p : Packet) (s : State) : State :=
  if ¬ engineFor s port p then s
  else
    let s := freeAll (deliveredAt s port p) (takeDelivered port p s)
    let gid := fld p.ctl 119 96
    match getGroup s gid with
    | none => count (kPort port iGRP_CTL_BAD) s
    | some g =>
      let c := planPort s g port p
      onGroup gid (fun g => { g with sent := g.sent.filter (fun x => !(x.port == c && x.seq == fld p.ctl 42 27)) }) s

def execGroupCmdAck (port : Nat) (p : Packet) (s : State) : Host.Outcome State Fault Refusal := .next (doGroupCmdAck port p s)

/-- GROUP_CMD_RESEND: 10 µs without ACK (R616). -/
def doGroupCmdResend (gid port seq : Nat) (s : State) : State :=
  match getGroup s gid with
  | none => s
  | some g => match g.sent.find? (fun x => x.port == port && x.seq == seq) with
    | none => s
    | some x =>
      if engineOn s ∧ due s (x.sentAt + 10000) then
        let s := onGroup gid (fun g => { g with
          sent := g.sent.map (fun y => if y.port == port && y.seq == seq then { y with sentAt := s.tide.now } else y) }) s
        originate x.pkt s
      else s

def execGroupCmdResend (group port seq : Nat) (s : State) : Host.Outcome State Fault Refusal := .next (doGroupCmdResend group port seq s)

/-- GROUP_STORM from below is passed up the plan; the root fails the group (R488). -/
def doGroupStorm (port : Nat) (p : Packet) (s : State) : State :=
  if ¬ engineFor s port p then s
  else
    let s := freeAll (deliveredAt s port p) (takeDelivered port p s)
    let gid := fld p.ctl 119 96
    match getGroup s gid with
    | none => s
    | some g =>
      if ¬ g.frag.children.contains (planPort s g port p) then s
      else if g.frag.isRoot then failGroup gid (fld p.ctl 87 80) s
      else sendStorm g (fld p.ctl 95 88) (fld p.ctl 87 80) (fld p.ctl 79 62) s

def execGroupStorm (port : Nat) (p : Packet) (s : State) : Host.Outcome State Fault Refusal := .next (doGroupStorm port p s)

/-! ## Ends of waits (R76, R77) -/

/-- GROUP_QUIESCED: no call of a QUIESCING entry is open (R76). -/
def doGroupQuiesced (gid : Nat) (s : State) : State :=
  match getGroup s gid with
  | none => s
  | some g =>
    if engineOn s ∧ g.state = .quiescing ∧ (openCalls g).isEmpty then
      endQuiescer gid stDONE (onGroup gid (fun g => { g with state := .quiesced }) s)
    else s

def execGroupQuiesced (group : Nat) (s : State) : Host.Outcome State Fault Refusal := .next (doGroupQuiesced group s)

/-- GROUP_DESTROY_DONE: no buffer is retained and this Q7's own GROUP_DESTROY has been taken; the entry reaches
FREE and its reservations return (R76, R77, R293). -/
def doGroupDestroyDone (gid : Nat) (s : State) : State :=
  match getGroup s gid with
  | none => s
  | some g =>
    if g.state = .destroying ∧ g.destroyTaken ∧ g.chunks.isEmpty ∧ charge s (.group g.entry) = 0 then
      let t := noteIdle (usedRegions s) { s with groups := mdel s.groups gid }
      forAll g.destroyers (fun d => finishDesc d stDONE 0) t
    else s

def execGroupDestroyDone (group : Nat) (s : State) : Host.Outcome State Fault Refusal := .next (whenLive (doGroupDestroyDone group) s)

end Sys2Proof.Machine
end

