-- ==== Sys2Proof/Machine/Chunks.lean ====
section
/-! DEFINITION. Running a collective (R59 to R65, R72 to R74, R85 to R107, R109 to R139): contributions,
the exponent round, partials, results, seals, revokes, waits and accumulation. -/

namespace Sys2Proof.Machine

/-! ## The collective sub-header (R64) -/

/-- What a sub-header fixes for its call. -/
def parOf (b : BitVec 256) : CallPar :=
  { kind := fld b 251 248, op := fld b 247 244, mode := fld b 243 242, wfmt := fld b 241 241, estatic := fld b 240 240,
    infmt := fld b 239 236, outfmt := fld b 235 232, staticE := toSigned 12 (fld b 125 114), extSlot := fld b 69 66 }

/-- A sub-header; `x` is ROOT_RANK or MISM_RANK. -/
def mkSub (par : CallPar) (gid epoch call chunk phase rank dlen flags x hash : Nat) : BitVec 256 :=
  pack 256 [(4, 1), (4, par.kind), (4, par.op), (2, par.mode), (1, par.wfmt), (1, par.estatic), (4, par.infmt), (4, par.outfmt),
    (24, gid), (16, epoch), (24, call), (24, chunk), (18, rank), (12, ofSigned 12 par.staticE), (2, phase), (16, dlen),
    (8, flags), (18, x), (4, par.extSlot), (2, 0), (64, hash)]

/-- FLAGS (R64). -/
def mkFlags (last zero resend prov : Bool) (piece : Nat) : Nat :=
  128 * b2n last + 64 * b2n zero + 32 * b2n resend + 16 * b2n prov + piece

/-- SUBVER, KIND, OP, MODE, INFMT, OUTFMT hold defined codes and the reserved bits are zero (R18, R65 step 1). -/
def subCodesOk (b : BitVec 256) : Bool :=
  let p := parOf b
  fld b 255 252 == 1 && decide (p.kind ≤ 6) && decide (p.op ≤ 6) && decide (p.mode ≤ 2) && isFmt p.infmt && isFmt p.outfmt
  && fld b 65 64 == 0

/-- The data a packet carries behind its sub-header. -/
def pktData (p : Packet) : List Byte := p.data.take (scDlen p.sub)

/-! ## Calls: kinds, carried values, exponents (R59, R85 to R87, R99, R103, R113) -/

def reduces (par : CallPar) : Bool := par.kind == 0 || par.kind == 1 || par.kind == 3

/-- Elements are carried as window integers: EXACT, and order keys in every mode (R86, R99). -/
def usesWin (par : CallPar) : Bool := par.mode == mEXACT || isKeyed par.op

def parW96 (par : CallPar) : Bool := par.mode == mEXACT && par.wfmt == 1

/-- Size of an element of a partial (R116). -/
def partSize (par : CallPar) : Nat := if usesWin par then winSize (parW96 par) else 4

/-- The call runs the exponent round of R113. -/
def lookahead (par : CallPar) : Bool :=
  reduces par && par.mode == mEXACT && isSum par.op && par.estatic == 0 && isFloat par.infmt

/-- The exponent of a call without the round: STATIC_E, or F for integers (R87). -/
def givenExp (par : CallPar) : Int := if isFloat par.infmt then par.staticE else winF (parW96 par)

/-- The modes, formats and combinations of R65 step 5 and R85. STATIC_E under ESTATIC 0, and OP in a kind that does not
reduce, stand in no check: such a contribution is admitted (log entry 85). -/
def comboOk (f : Fragment) (p : CallPar) : Bool :=
  f.modes.testBit p.mode && f.fmtMask.testBit p.infmt && (p.wfmt == 0 || f.w96)
  && (!(isKeyed p.op) || p.mode == mEXACT || f.keys)
  && (if reduces p then
        (p.mode == mEXACT || (p.wfmt == 0 && p.estatic == 0))
        && (if isFloat p.infmt then isFloat p.outfmt && (isSum p.op || (isKeyed p.op && p.estatic == 0))
            else p.mode == mEXACT && p.estatic == 0 && isInt p.outfmt && (p.infmt != 0xA || p.wfmt == 1)
              && (isSum p.op || isKeyed p.op || p.outfmt == p.infmt))
      else p.outfmt == p.infmt && p.wfmt == 0 && p.estatic == 0)

/-! ## Pieces (R116) -/

/-- Segments of a piece: k = min(CHUNK_SEGS, floor(8,160 / (512 × s))). -/
def pieceSegs (segs size : Nat) : Nat := min segs (8160 / (512 * size))

/-- The number of pieces of a whole chunk. -/
def pieceCount (segs size : Nat) : Nat := ceilDiv segs (pieceSegs segs size)

/-- Bytes of a full piece at position j. -/
def fullPiece (segs size j : Nat) : Nat :=
  let k := pieceSegs segs size
  (if j + 1 < pieceCount segs size then k else segs - (pieceCount segs size - 1) * k) * 512 * size

/-- A piece ends its chunk: the last position, or with LAST the first that is not full. -/
def endsChunk (segs size j len : Nat) (last : Bool) : Bool :=
  decide (pieceCount segs size ≤ j + 1) || (last && decide (len < fullPiece segs size j))

/-- Cut data into pieces from position j; `fuel` is the number of positions left. -/
def cutFrom (segs size : Nat) (last : Bool) : Nat → Nat → List Byte → List (List Byte)
  | 0, _, _ => []
  | fuel + 1, j, d =>
    let p := d.take (fullPiece segs size j)
    p :: (if endsChunk segs size j p.length last then [] else cutFrom segs size last fuel (j + 1) (d.drop p.length))

/-- The pieces of a partial or a result. -/
def cutPieces (segs size : Nat) (last : Bool) (d : List Byte) : List (List Byte) :=
  cutFrom segs size last (pieceCount segs size) 0 d

/-! ## Combination (R72, R91, R92, R99 to R106) -/

/-- Elements combined position by position; a position only one list has keeps that value. -/
def zipLong {α : Type} (f : α → α → α) : List α → List α → List α
  | [], l => l
  | l, [] => l
  | a :: r, b :: t => f a b :: zipLong f r t

def isChild (x : Src) : Bool := match x with
  | .child _ => true
  | _ => false

/-- An input's elements as window integers (R91, R99, R100). -/
def inputWins (par : CallPar) (e : Int) (x : Input) : List Win :=
  if isChild x.src then winsOf (parW96 par) x.data
  else (elems (elemSize par.infmt) x.data).map (inWin par.op par.infmt (parW96 par) e)

/-- An input's elements as fp32 (R103). -/
def inputF32 (par : CallPar) (x : Input) : List Nat :=
  if isChild x.src then elems 4 x.data
  else match floatFmt par.infmt with
    | some f => (elems (elemSize par.infmt) x.data).map (fun c => toF32 (decodeF f c))
    | none => []

/-- The window integers of a chunk's inputs combined (R92, R99, R100). -/
def sumWins (par : CallPar) (e : Int) (l : List Input) : List Win :=
  l.foldl (fun acc x => zipLong (opWin par.op) acc (inputWins par e x)) []

/-- The fp32 values of a chunk's inputs combined: the ordered tree over ascending ranks (R104), or in order of
arrival (R106). -/
def sumF32 (par : CallPar) (w : Nat) (l : List Input) : List Nat :=
  if par.mode = mORDERED then
    let cols := (sortBy (·.rank) l).map (inputF32 par)
    let n := cols.foldl (fun m c => max m c.length) 0
    (List.range n).map (fun i => orderedCombine w (cols.filterMap (fun c => (c.drop i).head?)))
  else l.foldl (fun acc x => zipLong f32add acc (inputF32 par x)) []

/-- Lowest rank, its hash and MISM_RANK of a chunk's inputs (R72). -/
def mismOf (l : List Input) : Nat × Nat × Nat :=
  match sortBy (·.rank) l with
  | [] => (noRank, 0, noRank)
  | r :: _ => (r.rank, r.hash, l.foldl (fun c x => min c (if x.hash ≠ r.hash then x.rank else x.mism)) noRank)

/-! ## Chunks and calls -/

def findChunk (g : Group) (e n c : Nat) : Option Chunk := g.chunks.find? (fun k => k.epoch == e && k.call == n && k.chunk == c)

def onChunk (gid e n c : Nat) (f : Chunk → Chunk) : State → State :=
  onGroup gid (fun g => { g with chunks := g.chunks.map (fun k => if k.epoch == e && k.call == n && k.chunk == c then f k else k) })

/-- An input is stale: another epoch, a call ended or below the lowest open, or a chunk already sealed and
forgotten (R133). -/
def isStale (g : Group) (e n c : Nat) : Bool :=
  let opn := (g.calls.filter (fun k => k.epoch == e && !k.failed && !k.done)).map (·.call)
  e != g.now.epoch
  || (match findCall g e n with
      | some k => k.failed || k.done || k.sealedChunks.contains c
      | none => if opn.isEmpty then decide (n < g.nextCall) else opn.all (fun m => decide (n < m)))

/-- The number of the accumulation of a call, where it is a pass of one (R136). -/
def accumOf (g : Group) (n : Nat) : Nat := n / max 1 g.passes

/-- A call is a pass of an accumulation of more than one (R136); the kinds that do not reduce fold nothing (log
entry 18). -/
def inAccum (g : Group) (par : CallPar) : Bool := decide (1 < g.passes) && reduces par
def finalPass (g : Group) (n : Nat) : Bool := n % max 1 g.passes == g.passes - 1

/-- A call counts for the passes of its accumulation: it has not failed, and is not known to be of a kind that does not reduce
(log entry 18). -/
def passCounts (g : Group) (e m : Nat) : Bool :=
  !callFailed g e m && ((findCall g e m).bind (·.par)).map reduces != some false

/-- The earlier passes of a call's accumulation. -/
def earlierPasses (g : Group) (e n : Nat) : List Nat :=
  let k := max 1 g.passes
  ((List.range (n % k)).map (fun i => n / k * k + i)).filter (passCounts g e)

/-- A call leads its accumulation: pass 1, or the first none of whose forerunners counts, which then runs a round of its own and
begins the accumulators afresh (log entry 18). -/
def leadPass (g : Group) (e n : Nat) : Bool := (earlierPasses g e n).isEmpty

/-- The later passes of a call's accumulation. -/
def laterPasses (g : Group) (e n : Nat) : List Nat :=
  let k := max 1 g.passes
  ((List.range (k - 1 - n % k)).map (fun i => n + 1 + i)).filter (passCounts g e)

/-- The key of the exponent of chunk `c` in the accumulation of call `n`. -/
def accKey (g : Group) (n c : Nat) : Nat := accumOf g n * 2 ^ 24 + c

/-- E of a chunk: its own, or in a pass after the leading one the E that this fixed (R89, R90, R137). -/
def chunkExp (g : Group) (k : Chunk) : Option Int :=
  match k.exp with
  | some v => some v
  | none => match k.par with
    | some p => if inAccum g p && lookahead p && !leadPass g k.epoch k.call then mget g.accExp (accKey g k.call k.chunk) else none
    | none => none

/-- This Q7 folds the passes of a call into accumulator `c`: every Q7 in EXACT mode, the root in each (R138). -/
def foldsHere (g : Group) (par : CallPar) (c : Nat) : Bool :=
  inAccum g par && decide (c < g.accChunks) && (g.frag.isRoot || par.mode == mEXACT)

/-- Accumulator `c` is ready for call `n`: the pass before it is folded, or for the leading pass no earlier accumulation
still needs the accumulator (R104, R137, R138). -/
def foldReady (g : Group) (e n c : Nat) : Bool :=
  match (earlierPasses g e n).getLast? with
  | some m => mget g.accDone c == some m
  | none =>
    !(g.chunks.any (fun k => k.epoch == e && k.chunk == c && decide (accumOf g k.call < accumOf g n) && !k.combined && !callFailed g e k.call))
    && (match mget g.accDone c with
        | some m => accumOf g m == accumOf g n || (laterPasses g e m).isEmpty
        | none => true)

/-- Open a call's record. A call of an accumulation that has failed fails at the root at once (R137). -/
def openCall (gid e n : Nat) (s : State) : State :=
  match getGroup s gid with
  | none => s
  | some g =>
    if (findCall g e n).isSome then s
    else onGroup gid (fun g => { g with
      calls := g.calls ++ [{ epoch := e, call := n, exts := g.extents }],
      nextCall := if e = g.now.epoch then max g.nextCall (n + 1) else g.nextCall }) s

/-- Slots in use (R111). -/
def slotsUsed (g : Group) : Nat := (g.chunks.filter (·.slot)).length

/-- A chunk takes a slot at this Q7: every chunk but that of a kind that does not reduce away from the root (R111). -/
def needsSlot (g : Group) (par : Option CallPar) : Bool := g.frag.isRoot || (match par with
  | some p => reduces p
  | none => true)

/-- Begin the record of a chunk, under the job of the packet that speaks of it (R229). A report alone takes no slot. -/
def openChunk (gid e n c : Nat) (par : Option CallPar) (job : Nat) (s : State) : State :=
  let s := openCall gid e n s
  onGroup gid (fun g =>
    if (findChunk g e n c).isSome then g
    else { g with chunks := g.chunks ++ [{ epoch := e, call := n, chunk := c, par := par, job := job }] }) s

/-- An item of a chunk arrives: an input takes a slot where one is free, and the first item starts WAIT_TIMEOUT (R111, R119).
A child's EXP_UP is no input and takes no slot (log entry 91). -/
def startChunk (gid e n c : Nat) (input : Bool) (s : State) : State :=
  match getGroup s gid with
  | none => s
  | some g => onChunk gid e n c (fun k =>
      if k.combined || k.sealed || !needsSlot g k.par then k
      else { k with
        slot := k.slot || (input && decide (slotsUsed g < g.frag.chunkWindow)),
        inDeadline := if k.firstAt.isSome then k.inDeadline else some (k.inDeadline.getD (s.tide.now + g.frag.waitTimeout)) }) s

/-- The body of a chunk control packet (R109). -/
def chunkBody (ctype gid e n c low : Nat) : BitVec 128 :=
  pack 128 [(8, ctype), (24, gid), (16, e), (24, n), (24, c), (32, low)]

/-- Send a chunk control packet. -/
def sendChunk (vc dst job aux ctype gid e n c low : Nat) : State → State :=
  originate (ctlPkt vc dst job aux (chunkBody ctype gid e n c low))

/-- The low word of SEAL, REVOKE, RACK, NAK and MISSING (R109). -/
def lowWord (status : Nat) (recovered pass : Bool) (deliv : Nat) (last : Bool) : Nat :=
  packNat [(8, status), (1, b2n recovered), (1, b2n pass), (4, deliv), (1, b2n last), (17, 0)] 0

/-- The low word of EXP_UP and EXP_DOWN (R109). -/
def expWord (e : Option Int) : Nat := match e with
  | some v => ofSigned 12 v * 2 ^ 20
  | none => 2 ^ 19

/-! ## Receivers (R59, R60, R120) -/

/-- The start and length of each rank's extent in the chunk space (R59). -/
def spans (l : List (Nat × Nat)) : List (Nat × Nat × Nat) :=
  (l.foldl (fun (acc : Nat × List (Nat × Nat × Nat)) e => (acc.1 + e.2, acc.2 ++ [(e.1, acc.1, e.2)])) (0, [])).2

def chunkElems (g : Group) : Nat := 512 * g.frag.chunkSegs

/-- The part of a span that lies in a range, as offsets from `lo`; none when empty. -/
def overlap (x : Nat × Nat × Nat) (lo hi : Nat) : Option (Nat × Nat) :=
  let a := max x.2.1 lo
  let b := min (x.2.1 + x.2.2) hi
  if a < b then some (a - lo, b - lo) else none

/-- The extent table of a call (R57, R60). -/
def callTable (call : Option Call) (par : CallPar) : List (Nat × Nat) :=
  match call with
  | some k => mgetD k.exts par.extSlot []
  | none => []

/-- The members of this Q7 that receive data of a chunk (R120), as (port, rank, EPID). -/
def receivers (g : Group) (call : Option Call) (par : CallPar) (e c : Nat) : List (Nat × Nat × Nat) :=
  let adm := (rosterAt g e).admitted
  if par.kind = 3 then adm.filter (fun m => m.2.1 == ((call.map (·.rootRank)).getD noRank))
  else if par.kind = 1 then
    let lo := c * chunkElems g
    let own := ((spans (callTable call par)).filter (fun x => (overlap x lo (lo + chunkElems g)).isSome)).map (·.1)
    adm.filter (fun m => own.contains m.2.1)
  else adm

/-- Where this Q7's deliveries of a chunk must be RACKed from (R120, R121). -/
def downSrcs (g : Group) (k : Chunk) : List Src :=
  g.frag.children.map Src.child ++ (match k.par with
    | some par => (receivers g (findCall g k.epoch k.call) par k.epoch k.chunk).map (fun m => Src.member m.2.1)
    | none => [])

/-- ROOT_RANK of a RESULT (R64). -/
def resultRoot (call : Option Call) (par : CallPar) : Nat :=
  if par.kind = 3 ∨ par.kind = 4 then (call.map (·.rootRank)).getD noRank else noRank

/-- Send one packet of a delivery. -/
def sendResult (s : State) (dst gid job : Nat) (k : Chunk) (par : CallPar) (rank : Nat) (flags root : Nat) (d : List Byte) : State :=
  originate (dataPkt vcCDN dst job (mkSub par gid k.epoch k.call k.chunk 2 rank d.length flags root k.hash) d) s

/-- What a member receives of a piece: the whole, or under REDUCE_SCATTER its own elements (R116, R120). -/
def memberPart (g : Group) (call : Option Call) (par : CallPar) (k : Chunk) (rank j : Nat) (d : List Byte) : Option (List Byte) :=
  if par.kind = 1 then
    let size := elemSize par.outfmt
    let base := k.chunk * chunkElems g + j * pieceSegs g.frag.chunkSegs size * 512
    match (spans (callTable call par)).find? (fun x => x.1 == rank) with
    | none => none
    | some x => (overlap x base (base + d.length / size)).map (fun r => (d.drop (r.1 * size)).take ((r.2 - r.1) * size))
  else some d

/-- Send one piece of a delivery on the down ports that `want` selects: every child port, and this Q7's own
members what they receive (R120). -/
def deliverPiece (gid : Nat) (k : Chunk) (resend : Bool) (want : Src → Bool) (j : Nat) (d : List Byte) (s : State) : State :=
  match getGroup s gid, k.par with
  | some g, some par =>
    let call := findCall g k.epoch k.call
    let root := resultRoot call par
    let s := forAll (g.frag.children.filter (fun c => want (.child c))) (fun c s =>
      sendResult s (farEpid s c) gid k.job k par noRank (mkFlags k.resultLast d.isEmpty resend true j) root d) s
    forAll ((receivers g call par k.epoch k.chunk).filter (fun m => want (.member m.2.1))) (fun m s =>
      match memberPart g call par k m.2.1 j d with
      | none => s
      | some x =>
        let rank := if par.kind = 1 ∨ par.kind = 3 then m.2.1 else noRank
        sendResult s m.2.2 gid k.job k par rank (mkFlags k.resultLast x.isEmpty resend true j) root x) s
  | _, _ => s

/-- Tell every down port of a chunk: child ports, and the members that receive it (SEAL, REVOKE). -/
def tellDown (gid : Nat) (k : Chunk) (members : List (Nat × Nat × Nat)) (ctype low : Nat) (s : State) : State :=
  match getGroup s gid with
  | none => s
  | some g =>
    let tell (d : Nat) : State → State := sendChunk vcCDN d k.job 0 ctype gid k.epoch k.call k.chunk low
    forAll members (fun m => tell m.2.2) (forAll g.frag.children (fun c s => tell (farEpid s c) s) s)

/-! ## Waits observed (R564, R576) -/

/-- A wait trace record (R577). -/
def traceWait (g : Group) (k : Chunk) (rtype : Nat) (child tmo : Bool) (rank port t1 : Nat) (s : State) : State :=
  let d := (arrayOf g k.chunk).1
  let t := getTrace s d
  if ¬ t.en ∨ ¬ t.types.testBit (rtype - 1) ∨ s.tide.now - t1 < t.minWait ∨ (t.job ≠ 0 ∧ t.job ≠ k.job) then s
  else writeTrace d (bytesLE 1 rtype ++ bytesLE 1 (2 * b2n child + 4 * b2n tmo + 8 * b2n g.frag.isRoot)
    ++ bytesLE 3 g.frag.group ++ bytesLE 3 k.call ++ bytesLE 3 k.chunk ++ bytesLE 1 k.job ++ bytesLE 3 rank ++ bytesLE 1 0
    ++ bytesLE 2 k.epoch ++ bytesLE 2 port ++ bytesLE 6 t1 ++ bytesLE 6 s.tide.now) s

/-- The wait of a chunk for its inputs ends: WAIT_NS and the record of R576. -/
def endWait (gid e n c : Nat) (child tmo : Bool) (rank port : Nat) (s : State) : State :=
  match getGroup s gid with
  | none => s
  | some g => match findChunk g e n c with
    | none => s
    | some k => match k.waited, k.firstAt with
      | false, some t =>
        let s := onChunk gid e n c (fun k => { k with waited := true }) s
        let s := countN (kGroup g.entry iWAIT_NS) (s.tide.now - t) s
        let rt := if (k.par.map (·.kind)) = some 5 then 3 else 1
        traceWait g k rt child tmo rank port t s
      | _, _ => s

/-- Every admitted member of a chunk's epoch has contributed. -/
def membersIn (g : Group) (k : Chunk) : Bool := (rosterAt g k.epoch).admitted.all (fun m => k.seen.contains (.member m.2.1))

/-- An item of a chunk has arrived: a member's contribution, or the first item of a child (R576); EXP_UP is the item that is no
input. -/
def noteItem (gid e n c port rank : Nat) (child input : Bool) (s : State) : State :=
  let s := startChunk gid e n c input s
  let s := onChunk gid e n c (fun k => { k with
    firstAt := some (k.firstAt.getD s.tide.now), firsts := if child then addNew k.firsts port else k.firsts }) s
  match getGroup s gid with
  | none => s
  | some g => match findChunk g e n c with
    | none => s
    | some k => if membersIn g k ∧ g.frag.children.all (fun p => k.firsts.contains p) then endWait gid e n c child false rank port s else s

/-! ## Sealing (R121, R123, R139) -/

/-- The call's record notes a sealed chunk; when every chunk is sealed the call is done, and members that receive
no data of it get their header-only RESULT (R57, R63, R123). -/
def noteSealed (gid e n c : Nat) (last pass : Bool) (job : Nat) (s : State) : State :=
  let s := onCall gid e n (fun k => { k with
    sealedChunks := addNew k.sealedChunks c, lastChunk := if last then some c else k.lastChunk, job := if last then job else k.job }) s
  match getGroup s gid with
  | none => s
  | some g => match findCall g e n with
    | none => s
    | some k => match k.lastChunk with
      | none => s
      | some m =>
        if k.done ∨ k.failed ∨ ¬ (List.range (m + 1)).all (fun i => k.sealedChunks.contains i) then s
        else
          let s := onCall gid e n (fun k => { k with done := true }) s
          let s := count (kGroup g.entry iCALLS_DONE) s
          let s := if e = g.now.epoch then onGroup gid (fun g => { g with highSealed := some (max n (g.highSealed.getD 0)) }) s else s
          match k.par with
          | none => s
          | some par =>
            let adm := (rosterAt g e).admitted
            let none_ := if pass then []
              else if par.kind = 3 then adm.filter (fun x => x.2.1 != k.rootRank)
              else if par.kind = 1 then adm.filter (fun x => ((callTable (some k) par).find? (fun y => y.1 == x.2.1)).all (fun y => y.2 == 0))
              else []
            forAll none_ (fun x s => originate (dataPkt vcCDN x.2.2 k.job
              (mkSub par gid e n m 2 x.2.1 0 (mkFlags true true false false 0) (resultRoot (some k) par) (k.hash.getD 0)) []) s) s

/-- The SEAL has passed: copies, retained inputs and the slot are freed (R111, R118, R121, R133). -/
def sealChunk (gid e n c : Nat) (recovered last pass : Bool) (s : State) : State :=
  match getGroup s gid with
  | none => s
  | some g => match findChunk g e n c with
    | none => s
    | some k =>
      let s := letGo (inputBufs k ++ k.resultBufs) s
      let s := onChunk gid e n c (fun k => { k with
        sealed := true, sealedAt := s.tide.now, sealDue := false, inputs := [], taking := [], result := [], resultBufs := [],
        slot := if g.frag.isRoot then false else k.slot, inDeadline := none, rackDeadline := none }) s
      let s := count (kGroup g.entry iCHUNKS_SEALED) s
      let s := onlyIf recovered (count (kGroup g.entry iCHUNKS_RECOVERED)) s
      noteSealed gid e n c last pass k.job s

/-- Send the RACK of a delivery to the parent (R121). -/
def sendRack (g : Group) (k : Chunk) (s : State) : State :=
  sendChunk vcCTRL (farEpid s g.frag.parent) k.job 0 0x4C g.frag.group k.epoch k.call k.chunk (lowWord 0 k.recovered false k.deliv false) s

/-- The port and rank a RACK came from, for the record of R576: 0x3FFFF for a child port. -/
def srcPort (g : Group) (e : Nat) (x : Src) : Nat × Nat × Bool :=
  match x with
  | .child p => (p, noRank, true)
  | .member r => (((rosterAt g e).admitted.find? (fun m => m.2.1 == r)).map (·.1) |>.getD 0, r, false)
  | .forwarded r p => (p, r, false)

/-- The wait for the RACKs of a delivery ends, with the RACK that came last: SEAL_NS and the record of R576. -/
def endSealWait (g : Group) (k : Chunk) (s : State) : State :=
  match k.resultAt with
  | none => s
  | some t =>
    let s := countN (kGroup g.entry iSEAL_NS) (s.tide.now - t) s
    match k.racked.getLast? with
    | some x => traceWait g k 2 (srcPort g k.epoch x).2.2 false (srcPort g k.epoch x).2.1 (srcPort g k.epoch x).1 t s
    | none => s

/-- The root sends SEAL of a chunk whose RACKs are all in (R121). -/
def sealNow (g : Group) (k : Chunk) (s : State) : State :=
  let low := lowWord (if k.overflow then stOVERFLOW else stDONE) k.recovered false k.deliv k.resultLast
  let mem := match k.par with
    | some par => receivers g (findCall g k.epoch k.call) par k.epoch k.chunk
    | none => []
  sealChunk g.frag.group k.epoch k.call k.chunk k.recovered k.resultLast false (tellDown g.frag.group k mem 0x49 low (endSealWait g k s))

/-- The RACKs of the current delivery are in: another Q7 frees its copies and RACKs upward; the root is to send SEAL as
the instant ends, for a NAK of the same instant is taken instead (R120, R121, R127; log entry 92). -/
def checkRacks (gid e n c : Nat) (s : State) : State :=
  match getGroup s gid with
  | none => s
  | some g => match findChunk g e n c with
    | none => s
    | some k =>
      if k.resultAt.isNone ∨ k.sealed ∨ k.rackSent ∨ k.nakSent ∨ ¬ k.resultWhole
          ∨ ¬ (downSrcs g k).all (fun x => k.racked.contains x) then s
      else if g.frag.isRoot then onChunk gid e n c (fun k => { k with sealDue := true, rackDeadline := none }) s
      else
        let s := letGo k.resultBufs (endSealWait g k s)
        let s := onChunk gid e n c (fun k => { k with rackSent := true, rackDeadline := none, result := [], resultBufs := [] }) s
        sendRack g k s

/-- A piece has gone out on the down ports now; the last one starts WAIT_TIMEOUT of the RACKs (R119). -/
def noteOut (gid e n c : Nat) (s : State) : State :=
  match getGroup s gid with
  | none => s
  | some g => onChunk gid e n c (fun k => { k with
      resultAt := some s.tide.now, rackDeadline := if k.resultWhole then some (s.tide.now + g.frag.waitTimeout) else k.rackDeadline }) s

/-- The root sends every piece of the current delivery (R120, R127). -/
def deliverAll (gid e n c : Nat) (s : State) : State :=
  match getGroup s gid with
  | none => s
  | some g => match findChunk g e n c with
    | none => s
    | some k =>
      let s := forAll k.result (fun x => deliverPiece gid k false (fun _ => true) x.1 x.2) s
      checkRacks gid e n c (noteOut gid e n c s)

/-! ## At the root (R62, R73, R74, R94 to R106, R125, R136 to R139) -/

/-- The divisor of MEAN: the member count of the call's epoch times the passes (R102). -/
def meanDiv (g : Group) (par : CallPar) (e : Nat) : Nat := (rosterAt g e).roster.length * (if inAccum g par then g.passes else 1)

/-- The ranks whose data a chunk of a kind that does not reduce waits for at the root (R59, R61, R115). -/
def expectedRanks (g : Group) (call : Option Call) (par : CallPar) (k : Chunk) : List Nat :=
  let all := (rosterAt g k.epoch).roster.map (·.1)
  if k.chunk = 0 then all
  else if par.kind = 2 then
    let lo := k.chunk * chunkElems g
    ((spans ((callTable call par).filter (fun x => all.contains x.1))).filter (fun x => (overlap x lo (lo + chunkElems g)).isSome)).map (·.1)
  else []

/-- The result of a chunk of a kind that does not reduce: data and LAST (R59, R60, R125). -/
def movedResult (g : Group) (call : Option Call) (par : CallPar) (k : Chunk) : List Byte × Bool :=
  let ins : List Input := sortBy (·.rank) k.inputs
  if par.kind = 2 then
    let all := (rosterAt g k.epoch).roster.map (·.1)
    let total := sumOf ((callTable call par).filter (fun x => all.contains x.1)) (·.2)
    (ins.flatMap (·.data), decide (total ≤ (k.chunk + 1) * chunkElems g))
  else if par.kind = 4 then
    let rr := (call.map (·.rootRank)).getD noRank
    let x : Option Input := match ins.find? (fun i => i.rank == rr) with
      | some i => some i
      | none => match ins.find? (fun i => !i.data.isEmpty) with
        | some i => some i
        | none => ins.head?
    ((x.map (·.data)).getD [], (x.map (·.last)).getD true)
  else ([], true)

/-- The root's elements of a chunk in OUTFMT, and whether one reached it saturated (R94 to R96, R99 to R103). -/
def rounded (g : Group) (par : CallPar) (k : Chunk) (wins : List Win) (f32s : List Nat) : List Byte × Bool :=
  let d := meanDiv g par k.epoch
  if usesWin par then
    let l := wins.map (outWin par.op par.infmt par.outfmt (parW96 par) ((chunkExp g k).getD (givenExp par)) d)
    (l.flatMap (fun x => bytesLE (elemSize par.outfmt) x.1), l.any (·.2))
  else (f32s.flatMap (fun x => bytesLE (elemSize par.outfmt) (outF32 par.op par.outfmt d x)), false)

/-- The rank that a combined chunk's hashes show to be at fault: against the hash agreed at chunk 0 where there is one
(R74), else the chunk's MISM_RANK (R73). -/
def faultyRank (call : Call) (k : Chunk) : Option Nat :=
  if call.hash.isSome && call.hash != some k.hash then some k.lowRank
  else if k.mism ≠ noRank then some k.mism
  else none

/-- A combined chunk at the root: fail the call on a mismatch, else release it once chunk 0 of its call has
agreed (R62, R73, R74). -/
def rootDone (gid e n c : Nat) (s : State) : State :=
  match getGroup s gid with
  | none => s
  | some g => match findChunk g e n c, findCall g e n with
    | some k, some call =>
      match faultyRank call k with
      | some r => failCall gid e n stSHAPE r true s
      | none =>
      if c = 0 then
        let s := onCall gid e n (fun x => { x with hash := some k.hash, agreed := true, job := k.job }) s
        let others := g.chunks.filter (fun x => x.epoch == e && x.call == n && x.chunk != 0 && x.combined && !x.sealed)
        match others.find? (fun x => x.hash != k.hash) with
        | some x => failCall gid e n stSHAPE x.lowRank true s
        | none => forAll others (fun x => deliverAll gid e n x.chunk) (deliverAll gid e n 0 s)
      else if call.agreed then deliverAll gid e n c s
      else s
    | _, _ => s

/-- A pass that is not the last is folded at the root: its SEAL carries PASS and no result goes (R139). -/
def sealPass (gid e n c : Nat) (s : State) : State :=
  match getGroup s gid with
  | none => s
  | some g => match findChunk g e n c, findCall g e n with
    | some k, some call =>
      match faultyRank call k with
      | some r => failCall gid e n stSHAPE r true s
      | none =>
        let s := if c = 0 then onCall gid e n (fun x => { x with hash := some k.hash, agreed := true, job := k.job }) s else s
        let s := tellDown gid k (rosterAt g e).admitted 0x49 (lowWord stDONE k.recovered true k.deliv k.last) s
        sealChunk gid e n c k.recovered k.last true s
    | _, _ => s

/-- A chunk beyond ACC_CHUNKS fails its accumulation whole (R137). -/
def failAccum (gid e n : Nat) (s : State) : State :=
  match getGroup s gid with
  | none => s
  | some g =>
    let s := onGroup gid (fun g => { g with accFailed := some (accumOf g n) }) s
    forAll (g.calls.filter (fun x => x.epoch == e && accumOf g x.call == accumOf g n)) (fun x => failCall gid e x.call stNORES noRank true) s

/-- A member's contribution. -/
def isMember (x : Input) : Bool := match x.src with
  | .member _ => true
  | _ => false

/-- A contribution whose hash is not the one agreed is dropped: an empty input stands in its place and names its rank (R74;
log entry 39). -/
def struck (h : Nat) (x : Input) : Input :=
  if isMember x && x.hash != h then { x with data := [], bufs := [], hash := h, mism := x.rank } else x

/-- Contributions to later chunks that came before chunk 0 agreed are held to its hash too, and counted (R74). -/
def strikeBad (gid e n h : Nat) (s : State) : State :=
  match getGroup s gid with
  | none => s
  | some g =>
    let late (k : Chunk) : Bool := k.epoch == e && k.call == n && k.chunk != 0 && !k.combined && !k.sealed
      && (g.frag.isRoot || k.par.map reduces != some false)
    let bad := (g.chunks.filter late).flatMap (fun k => k.inputs.filter (fun x => isMember x && x.hash != h))
    let s := forAll bad (fun x s => count (kPort x.port iCOLL_BADHASH) (letGo x.bufs s)) s
    onGroup gid (fun g => { g with chunks := g.chunks.map (fun k => if late k then { k with inputs := k.inputs.map (struck h) } else k) }) s

/-- Chunk 0 of a call has agreed here on a hash: later chunks are held to it (R74). -/
def agreeHash (gid e n h : Nat) (s : State) : State :=
  match (getGroup s gid).bind (fun g => findCall g e n) with
  | none => s
  | some k =>
    let v := k.hash.getD h
    strikeBad gid e n v (onCall gid e n (fun x => { x with hash := some v }) s)

/-! ## Combining (R111, R113 to R115, R138) -/

/-- Store a packet in a group's reservation on a die, retained for a chunk; none where the reservation has no room for it or
no buffer is free (R293). -/
def retain (g : Group) (c d : Nat) (p : Packet) (s : State) : Option (Nat × State) :=
  let x : Stored := {
    die := d, bufs := [], acct := .group g.entry, port := 1024, pkt := p, owners := [], rtag := some s.route.tag,
    dest := lookupDest s p.dst, cap := capOf s, since := s.tide.now }
  if groupTakes s g.entry g.shoalRes d p.bufs then storePkt d (.group g.entry) x p.bufs (ownGroup g.entry c) s else none

/-- Send a packet of a chunk and retain it in the same buffers until PACK; where none is free it waits in the engine's
tables (R293, R310). The result names where it stands. -/
def sendRetained (g : Group) (c d : Nat) (p : Packet) (s : State) : List (Nat × Nat) × State :=
  let q := (numberPkt p s).1
  let t := (numberPkt p s).2
  match retain g c d q t with
  | some (b, u) => ([(d, b)], onRoute (fun r => { r with reentry := r.reentry ++ [(d, b)] }) u)
  | none => ([], sendOn q t)

/-- Send pieces one after another, each noted as unacknowledged. -/
def sendPieces (g : Group) (c d rank : Nat) : List Packet → State → List Unacked × State
  | [], s => ([], s)
  | p :: r, s =>
    let a := sendRetained g c d p s
    let b := sendPieces g c d rank r a.2
    ({ rank := rank, pkt := p, at_ := s.tide.now, bufs := a.1 } :: b.1, b.2)

/-- Send the pieces of a partial to the parent and keep them until PACK (R116, R131, R293). -/
def sendPartial (gid e n c : Nat) (data : List Byte) (mark : Bool) (s : State) : State :=
  match getGroup s gid with
  | none => s
  | some g => match findChunk g e n c with
    | none => s
    | some k => match k.par with
      | none => s
      | some par =>
        let ps := if mark then [[]] else cutPieces g.frag.chunkSegs (partSize par) k.last data
        let pk := ((List.range ps.length).zip ps).map (fun x => dataPkt vcCUP (farEpid s g.frag.parent) k.job
          (mkSub par gid e n c 1 k.lowRank x.2.length (mkFlags k.last x.2.isEmpty false false x.1) k.mism k.hash) x.2)
        let r := sendPieces g c (arrayOf g c).1 noRank pk s
        onChunk gid e n c (fun k => { k with unacked := k.unacked ++ r.1 }) r.2

/-- Bytes that folding a pass moves each way on the stacks of the accumulators' die, with ACC_HOME = HBM (R139). -/
def foldTraffic (g : Group) (par : CallPar) (c n : Nat) (s : State) : State :=
  if g.frag.accHome = 1 then
    let d := (arrayOf g c).1
    countN (kDie d iHBM_WR) (n * partSize par) (countN (kDie d iHBM_RD) (n * partSize par) s)
  else s

/-- Fold a pass into the accumulators and free its inputs (R104, R137 to R139): the leading pass begins them. In FREE mode
the pass is summed first and then added (log entry 93). -/
def foldPass (gid e n c : Nat) (wins : List Win) (f32s : List Nat) (s : State) : State :=
  match getGroup s gid with
  | none => s
  | some g => match (findChunk g e n c) with
    | none => s
    | some k => match k.par with
      | none => s
      | some par =>
        let first := leadPass g e n
        let s := onGroup gid (fun g =>
          let g := { g with accDone := mput g.accDone c n, accExp := if finalPass g n then mdel g.accExp (accKey g n c) else g.accExp }
          if usesWin par then { g with accWin := mput g.accWin c (if first then wins else zipLong (opWin par.op) (mgetD g.accWin c []) wins) }
          else { g with accF32 := mput g.accF32 c (if first then f32s else zipLong f32add (mgetD g.accF32 c []) f32s) }) s
        let s := foldTraffic g par c (max wins.length f32s.length) s
        let s := letGo (inputBufs k) s
        onChunk gid e n c (fun k => { k with inputs := [] }) s

/-- Keep the copies of a result in the group's reservation (R120, R293). -/
def forRetain (g : Group) (c d : Nat) : List Packet → State → List (Nat × Nat) × State
  | [], s => ([], s)
  | p :: r, s =>
    match retain g c d p s with
    | some (b, t) => ((d, b) :: (forRetain g c d r t).1, (forRetain g c d r t).2)
    | none => forRetain g c d r s

/-- The packets of a chunk's inputs that fail their parity check as they are read to be combined (R283, R476). -/
def badInputs (s : State) (k : Chunk) : List (Nat × Nat) := (inputBufs k).filter (fun e => !goodAt s e.1 e.2)

/-- Every input of a chunk has come: combine them, then send the partial or, at the root, round and release
(R115, R120, R138, R139). -/
def combineChunk (gid e n c : Nat) (s : State) : State :=
  match getGroup s gid with
  | none => s
  | some g => match findChunk g e n c with
    | none => s
    | some k => match k.par with
      | none => s
      | some par =>
        let call := findCall g e n
        let m := mismOf k.inputs
        let bad := badInputs s k
        if ¬ bad.isEmpty then onShoal (fun h => { h with badHeld := bad.foldl addNew h.badHeld }) s
        else
        let ex := (chunkExp g k).getD (givenExp par)
        let wins := if reduces par && usesWin par then sumWins par ex k.inputs else []
        let f32s := if reduces par && !usesWin par then sumF32 par (leafWidth s) k.inputs else []
        let lastIn := k.inputs.any (·.last)
        let s := onChunk gid e n c (fun k => { k with
          combined := true, inDeadline := none, exp := chunkExp g k, lowRank := m.1, hash := m.2.1, mism := m.2.2, last := lastIn }) s
        let s := if c = 0 ∧ m.2.2 = noRank then agreeHash gid e n m.2.1 s else s
        if g.frag.isRoot then
          if inAccum g par ∧ g.accChunks ≤ c then failAccum gid e n s
          else
            let s := if inAccum g par then foldPass gid e n c wins f32s s else s
            if inAccum g par ∧ ¬ finalPass g n then sealPass gid e n c s
            else
              let w := if inAccum g par then ((getGroup s gid).map (fun g => mgetD g.accWin c [])).getD [] else wins
              let f := if inAccum g par then ((getGroup s gid).map (fun g => mgetD g.accF32 c [])).getD [] else f32s
              let res : List Byte × Bool := if reduces par then rounded g par k w f else ((movedResult g call par k).1, false)
              let last := if reduces par then lastIn else (movedResult g call par k).2
              let size := elemSize par.outfmt
              let ps := cutPieces g.frag.chunkSegs size last res.1
              let ps := if par.kind = 5 ∨ par.kind = 6 then [[]] else ps
              let pieces := (List.range ps.length).zip ps
              let kept := forRetain g c (arrayOf g c).1 (pieces.map (fun x => dataPkt vcCDN (selfEpid s) k.job
                (mkSub par gid e n c 2 noRank x.2.length (mkFlags last x.2.isEmpty false true x.1) noRank m.2.1) x.2)) s
              let s := onChunk gid e n c (fun k => { k with
                result := pieces, resultBufs := kept.1, pieces := ps.length, resultLast := last, resultWhole := true, overflow := res.2 }) kept.2
              rootDone gid e n c s
        else if inAccum g par ∧ g.accChunks ≤ c then sendPartial gid e n c [] true s
        else if inAccum g par ∧ par.mode = mEXACT then
          let s := foldPass gid e n c wins f32s s
          if finalPass g n then
            let w := ((getGroup s gid).map (fun g => mgetD g.accWin c [])).getD []
            sendPartial gid e n c (winBytes (parW96 par) w) false s
          else sendPartial gid e n c [] true s
        else sendPartial gid e n c (if usesWin par then winBytes (parW96 par) wins else f32s.flatMap (bytesLE 4)) false s

/-- Record E for a chunk and, in the first pass of an accumulation, for the passes after it (R89, R90). -/
def fixExp (gid e n c : Nat) (v : Int) (s : State) : State :=
  onGroup gid (fun g => { g with accExp := if 1 < g.passes && leadPass g e n then mput g.accExp (accKey g n c) v else g.accExp })
    (onChunk gid e n c (fun k => { k with exp := some v }) s)

/-- Send EXP_DOWN to every child port (R113). -/
def sendExpDown (gid e n c job : Nat) (v : Int) (s : State) : State :=
  match getGroup s gid with
  | none => s
  | some g =>
    forAll g.frag.children (fun p s => sendChunk vcCDN (farEpid s p) job 0 0x48 gid e n c (expWord (some v)) s) s

/-- The greatest exponent over a chunk's members' inputs and its children's EXP values (R88, R113). -/
def chunkMaxExp (k : Chunk) : Option Int :=
  let own := k.inputs.foldl (fun m x => match k.par with
    | some par => if isChild x.src then m else optMax m (maxExp par.infmt x.data)
    | none => m) none
  k.exps.foldl (fun m x => optMax m x.2) own

/-- Move a chunk on as far as its inputs allow: the exponent round, which needs no slot, then the combination, which does (R88,
R111, R113 to R115). -/
def progress (gid e n c : Nat) (s : State) : State :=
  match getGroup s gid with
  | none => s
  | some g => match findChunk g e n c with
    | none => s
    | some k =>
      if k.combined ∨ k.sealed then s
      else match k.par.map reduces with
        | some false =>
          match k.par with
          | none => s
          | some par =>
            let ranks := k.inputs.map (·.rank)
            if g.frag.isRoot ∧ k.slot ∧ ¬ k.inputs.isEmpty ∧ (expectedRanks g (findCall g e n) par k).all (fun r => ranks.contains r) then
              combineChunk gid e n c s
            else s
        | _ =>
          if ¬ membersIn g k then s
          else
            let round := (chunkExp g k).isNone && (match k.par with
              | some par => lookahead par && (!inAccum g par || leadPass g e n)
              | none => leadPass g e n)
            let s :=
              if round ∧ g.frag.children.all (fun p => k.exps.any (fun x => x.1 == p)) then
                if g.frag.isRoot then
                  let v := (chunkMaxExp k).getD (-149)
                  sendExpDown gid e n c k.job v (fixExp gid e n c v s)
                else if k.expSent then s
                else
                  let s := onChunk gid e n c (fun k => { k with expSent := true }) s
                  sendChunk vcCUP (farEpid s g.frag.parent) k.job 0 0x47 gid e n c (expWord (chunkMaxExp k)) s
              else s
            let ready := match (getGroup s gid).bind (fun g => (findChunk g e n c).map (fun k => (g, k))) with
              | some (g, k) => k.slot && (match k.par with
                | some par => ((chunkExp g k).isSome || !lookahead par || (inAccum g par && decide (g.accChunks ≤ c)))
                    && (!foldsHere g par c || foldReady g e n c)
                | none => false) && g.frag.children.all (fun p => k.seen.contains (.child p))
              | none => false
            if ready then combineChunk gid e n c s else s

/-- An input of the chunk has come (R111). -/
def hasInput (k : Chunk) : Bool := !k.seen.isEmpty || !k.taking.isEmpty

/-- The number of an array: 16 times its die, and its unit. -/
def arrayKey (a : Nat × Nat) : Nat := 16 * a.1 + a.2

/-- Slots freed go to the chunks that wait, oldest first and on each array PRIMARY before FILL, and those move on (R111,
R233). -/
def grantSlots (gid : Nat) : Nat → State → State
  | 0, s => s
  | fuel + 1, s =>
    match getGroup s gid with
    | none => s
    | some g =>
      let ready := g.chunks.filter (fun k => !k.slot && !k.combined && !k.sealed && k.unacked.isEmpty && hasInput k && needsSlot g k.par)
      let a := ((ready.head?).map (fun k => arrayKey (arrayOf g k.chunk))).getD 0
      match nextByClass (fun k => isFill s k.job) (turnOfArray s a) (ready.filter (fun k => arrayKey (arrayOf g k.chunk) == a)) with
      | none => s
      | some (k, turn) =>
        if g.frag.chunkWindow ≤ slotsUsed g then s
        else
          let s := setTurn a turn s
          grantSlots gid fuel (progress gid k.epoch k.call k.chunk (onChunk gid k.epoch k.call k.chunk (fun k => { k with slot := true }) s))

/-- The chunks of accumulations whose inputs wait for an earlier pass, in the order of their calls (R104, R138). -/
def waitingPasses (g : Group) : List Chunk :=
  if g.passes ≤ 1 then [] else sortBy (·.call) (g.chunks.filter (fun k => k.slot && !k.combined && !k.sealed && !k.seen.isEmpty))

/-- Give out slots, then let the passes that waited go on, and so again while passes wait: each may free a slot. -/
def regrantLoop (gid : Nat) : Nat → State → State
  | 0, s => s
  | n + 1, s =>
    let s := grantSlots gid (((getGroup s gid).map (fun g => g.chunks.length)).getD 0) s
    match (getGroup s gid).map waitingPasses with
    | some (k :: l) => regrantLoop gid n (forAll (k :: l) (fun k => progress gid k.epoch k.call k.chunk) s)
    | _ => s

/-- After an event of a group: give out the slots it freed, and let the passes that waited for it go on. -/
def regrant (gid : Nat) (s : State) : State := regrantLoop gid (((getGroup s gid).map (fun g => g.chunks.length)).getD 0 + 1) s

/-- The instant ends: SEAL of every chunk whose RACKs are in and that no NAK has struck (R121, R127; log entry 92). -/
def settleSeals (s : State) : State :=
  forAll s.groups (fun x s =>
    let l := x.2.chunks.filter (fun k => k.sealDue && !k.sealed)
    onlyIf (!l.isEmpty) (regrant x.1) (forAll l (fun k s =>
      match getGroup s x.1 with
      | some g => sealNow g k s
      | none => s) s)) s

/-! ## Inputs (R65, R74, R115, R132) -/

/-- JOB of a chunk's lowest-ranked contribution known here, with an input of `rank` under `job` (R229). -/
def jobWith (k : Option Chunk) (rank job : Nat) : Nat := match k with
  | some k => if k.job ≠ 0 ∧ k.inputs.any (fun x => decide (x.rank < rank)) ∨ k.combined then k.job else job
  | none => job

/-- PACK to a child, under the job of the chunk; SRC_AUX names the contributor of a forwarded input (R110, R117, R229). -/
def sendPack (gid e n c port rank : Nat) (b : BitVec 256) (job : Nat) (s : State) : State :=
  sendChunk vcCTRL (farEpid s port) (jobWith ((getGroup s gid).bind (fun g => findChunk g e n c)) (scRank b) job) rank 0x4B gid e n c 0 s

/-- The root settles an input of an older epoch whose call it never saw: the call fails, under the job of that input (R69,
R229). -/
def lateInput (gid e n job : Nat) (s : State) : State :=
  match getGroup s gid with
  | none => s
  | some g =>
    if g.frag.isRoot ∧ e < g.now.epoch ∧ (findCall g e n).isNone then
      failCall gid e n stSTALE noRank true (onCall gid e n (fun k => { k with job := job }) (openCall gid e n s))
    else s

/-- An input of a failed accumulation at the root fails its call too (R137). -/
def accumDead (g : Group) (n : Nat) : Bool := g.frag.isRoot && g.accFailed == some (accumOf g n)

/-- Note JOB of the lowest-ranked contribution (R229). -/
def noteJob (k : Chunk) : Chunk :=
  match sortBy (·.rank) k.inputs with
  | x :: _ => { k with job := x.job }
  | [] => k

/-- Send a forwarded input from the buffers that retain it, or from the engine's tables where none do (R115, R293). -/
def forwardKept (bufs : List (Nat × Nat)) (p : Packet) (s : State) : State :=
  match bufs with
  | [] => originate p s
  | e :: _ =>
    let q := (numberPkt p s).1
    let t := (numberPkt p s).2
    onRoute (fun r => { r with reentry := r.reentry ++ [e] }) (onStored e.1 e.2 (fun y => { y with
      pkt := q, par := packetParity q, port := 1024, rtag := some s.route.tag, ptag := none, ctag := none, dest := lookupDest s q.dst, cap := capOf s,
      held := false, inOrder := false, since := s.tide.now }) t)

/-- A kind that does not reduce, away from the root: the hashes of chunk 0 that pass this Q7 are compared, and once every
member admitted here has sent its own and all agree, later chunks are held to that hash (R72, R74; log entry 39). -/
def noteShape (gid e n c : Nat) (x : Input) (s : State) : State :=
  if c ≠ 0 then s
  else
    let s := onChunk gid e n c (fun k =>
      if k.lowRank = noRank then { k with lowRank := x.rank, hash := x.hash }
      else if x.hash ≠ k.hash then { k with mism := min k.mism x.rank } else k) s
    match getGroup s gid with
    | none => s
    | some g => match findChunk g e n c with
      | none => s
      | some k => if membersIn g k ∧ k.mism = noRank then agreeHash gid e n k.hash s else s

/-- Take an input whose chunk is held or may begin: it is kept, and a kind that does not reduce is forwarded at
once (R115, R118, R132). -/
def addInput (gid e n c : Nat) (par : CallPar) (x : Input) (s : State) : State :=
  let s := openChunk gid e n c (some par) x.job s
  let s := onChunk gid e n c (fun k => noteJob { k with
    par := some (k.par.getD par), inputs := k.inputs ++ [x], seen := addNew (addNew k.seen x.src) (if isChild x.src then x.src else .member x.rank) }) s
  let s := onCall gid e n (fun k => { k with par := some (k.par.getD par), job := if c = 0 then x.job else k.job }) s
  match getGroup s gid with
  | none => s
  | some g =>
    if accumDead g n ∧ inAccum g par then failCall gid e n stNORES noRank true s
    else if ¬ reduces par ∧ ¬ g.frag.isRoot then
      let p := dataPkt vcCUP (farEpid s g.frag.parent) x.job
        (mkSub par gid e n c 1 x.rank x.data.length (mkFlags x.last (x.zero || x.data.isEmpty) false false 0) noRank x.hash) x.data
      let s := onChunk gid e n c (fun k => { k with unacked := k.unacked ++ [{ rank := x.rank, pkt := p, at_ := s.tide.now }] }) s
      forwardKept x.bufs p (noteShape gid e n c x s)
    else progress gid e n c s

/-! ## Commands: contributions and partials -/

/-- Keep the packets of an input: their buffers name the group's chunk as owner (R118, R303). -/
def keepBufs (g : Group) (c : Nat) (l : List (Nat × Nat)) : State → State :=
  forAll l (fun b => onStored b.1 b.2 (fun x => { x with owners := [ownGroup g.entry c], acct := .group g.entry }))

/-- The group's reservation takes the packets of an input or a result (R287, R293). -/
def takesInput (s : State) (g : Group) (l : List (Nat × Nat)) : Bool :=
  l.all (fun e => match storedAt s e.1 e.2 with
    | some x => x.acct == .group g.entry || groupTakes s g.entry g.shoalRes e.1 x.bufs.length
    | none => true)

/-- The status with which a contribution is refused, and the counter of the port that counts it (R50, R65, R232, R241): an
unbound port or job first; the Cove check stands behind the checks of the state (log entry 104). -/
def refuseContribution (s : State) (port : Nat) (p : Packet) : Option (Nat × Option Nat) :=
  let b := p.sub
  let par := parOf b
  match boundAt s port p with
  | none => some (stDENIED, none)
  | some bd =>
    if jobBound s port p = false then some (stDENIED, some iJOB_DENY)
    else match getGroup s (scGroup b) with
    | none => some (stNORES, none)
    | some g =>
      if g.state = .failed ∨ g.state = .destroying ∨ g.state = .free then some (stNORES, none)
      else if g.state = .installing ∨ g.state = .quiesced then some (stHELD, none)
      else if bd.cove ≠ g.frag.cove then some (stDENIED, some iENG_DENY)
      else if ¬ (memberPorts g).contains port ∨ ¬ g.now.admitted.any (fun m => m.1 == port && m.2.1 == scRank b) then some (stDENIED, none)
      else if scEpoch b ≠ g.now.epoch then some (stSTALE, none)
      else if ¬ comboOk g.frag par then some (stBAD, none)
      else if g.state = .quiescing ∧ ¬ (openCalls g).any (fun k => k.epoch == g.now.epoch && k.call == scCall b) then some (stHELD, none)
      else if (p.dst ≠ selfEpid s ∧ ¬ (par.kind = 6 ∧ 0 < scChunk b))
        ∨ (par.kind = 6 ∧ scChunk b = 0 ∧ ¬ (scDlen b = 0 ∧ scZero b))
        ∨ (par.kind = 4 ∧ 0 < scChunk b ∧ ((findCall g (scEpoch b) (scCall b)).map (·.rootRank)) ≠ some (scRank b)) then some (stBAD, none)
      else none

/-- Route a packet onward by its DST: where it is stored it re-enters path choice, else it waits to be stored
(R59, R65). -/
def forwardPkt (bufs : List (Nat × Nat)) (p : Packet) (s : State) : State :=
  if bufs.isEmpty then onRoute (fun r => { r with outbox := r.outbox ++ [p] }) s
  else onRoute (fun r => { r with reentry := r.reentry ++ bufs }) s

/-- The collective engine can take an input now: the gate of its chunk's region is open, and the group's reservation has
room for it (R30, R293). -/
def inputFits (s : State) (g : Group) (c : Nat) (bufs : List (Nat × Nat)) : Bool :=
  gateOpen s (4 * (arrayOf g c).1 + (arrayOf g c).2 / 2) && takesInput s g bufs

/-- An input of a class is ready on an array, delivered and not yet taken (R233). -/
def inputReady (s : State) (a : Nat) (fill : Bool) : Bool :=
  s.route.toEngine.any (fun e =>
    let p := e.2.1
    p.ptype != 0 && p.ovc == vcCUP && isFill s p.job == fill && (match getGroup s (scGroup p.sub) with
      | some g => arrayKey (arrayOf g (scChunk p.sub)) == a && inputFits s g (scChunk p.sub) (if e.2.2.1 < 4 then [e.2.2] else [])
      | none => false))

/-- An input must wait to be taken by the collective engine: the engine cannot take it, or its array takes the other class
first (R30, R233, R293). -/
def inputWaits (gid c job : Nat) (bufs : List (Nat × Nat)) (s : State) : Bool :=
  match getGroup s gid with
  | some g => !inputFits s g c bufs || classWaits s (arrayKey (arrayOf g c)) job (inputReady s (arrayKey (arrayOf g c)))
  | none => false

/-- An array takes an input of a chunk (R233). -/
def noteInputTurn (g : Group) (c job : Nat) (s : State) : State :=
  noteTurn (arrayKey (arrayOf g c)) job (inputReady s (arrayKey (arrayOf g c)) true) s

/-- A RESULT piece waits while the group's reservation has no room for it (R287, R293). -/
def resultWaits (gid : Nat) (bufs : List (Nat × Nat)) (s : State) : Bool :=
  ((getGroup s gid).map (fun g => !takesInput s g bufs)).getD false

/-- What an attachment port's link had not acknowledged of SEALs and RESULT pieces still waits to go again on it (R134). -/
def redelivering (s : State) (port : Nat) : Bool :=
  (getPort s port).queues.any (fun q => q.2.any (fun e => ((storedAt s e.1 e.2).map (fun x => x.again && x.pkt.ovc == vcCDN)).getD false))

/-- CONTRIBUTION on an attachment port (R65, R74, R88, R113 to R115, R132 to R134). ROOT_RANK is that of the chunk 0
contribution taken last, should they differ (log entry 94). -/
def doContribution (port : Nat) (p : Packet) (s : State) : State :=
  let b := p.sub
  let gid := scGroup b
  let e := scEpoch b
  let n := scCall b
  let c := scChunk b
  let par := parOf b
  let pair := par.kind == 6 && decide (0 < c) && p.dst != selfEpid s
  let wait : Bool := !pair && inputWaits gid c p.job (deliveredAt s port p) s || scResend b && redelivering s port
  if ¬ engineFor s port p ∨ wait = true then s
  else
    let bufs := deliveredAt s port p
    let refusal := refuseContribution s port p
    let s := takeDelivered port p s
    if ¬ subCodesOk b ∨ scPhase b ≠ 0 ∨ scPiece b ≠ 0 then freeAll bufs (count (kPort port iPKT_MALFORMED) s)
    else match refusal with
      | some (st, deny) =>
        let s := match deny with
          | some i => count (kPort port i) s
          | none => s
        let ep := ((getGroup s gid).map (fun g => g.now.epoch)).getD 0
        freeAll bufs (backOn port (sendCollFail p.src gid ep (scRank b) st n p.job) s)
      | none =>
        if pair then forwardPkt bufs p s
        else match getGroup s gid with
          | none => s
          | some g =>
            let rank := scRank b
            if ((findChunk g e n c).map (fun k => k.seen.contains (.member rank))).getD false then
              freeAll bufs (count (kGroup g.entry iCOLL_DUP) s)
            else if callFailed g e n then freeAll bufs (count (kGroup g.entry iCOLL_STALE) s)
            else if (findChunk g e n c).isNone ∧ isStale g e n c then
              freeAll bufs (lateInput gid e n p.job (count (kGroup g.entry iCOLL_STALE) s))
            else
              -- a dropped contribution leaves an empty input that tells the root whose it was (R74, log entry 39)
              let agreed := ((findCall g e n).bind (·.hash))
              let bad := 0 < c && agreed.isSome && agreed != some (scHash b)
              let folded := bad && (reduces par || g.frag.isRoot)
              let s := onlyIf bad (count (kPort port iCOLL_BADHASH)) s
              let x : Input := {
                src := .member rank, rank := rank, mism := if folded then rank else noRank,
                hash := if folded then agreed.getD 0 else scHash b, job := p.job, last := scLast b, zero := scZero b, root := scRoot b,
                port := port, at_ := s.tide.now, data := if bad then [] else pktData p, bufs := if bad then [] else bufs }
              let s := if bad then freeAll bufs s else keepBufs g c bufs s
              let s := openCall gid e n (noteInputTurn g c p.job s)
              let s := if c = 0 ∧ (par.kind = 3 ∨ par.kind = 4) then onCall gid e n (fun k => { k with rootRank := scRoot b }) s else s
              let s := openChunk gid e n c (some par) p.job s
              let s := onChunk gid e n c (fun k => { k with
                recovered := k.recovered || scResend b, seen := addNew k.seen (.member rank), par := some (k.par.getD par) }) s
              let s := noteItem gid e n c port rank false true s
              regrant gid (addInput gid e n c par x s)

def execContribution (port : Nat) (p : Packet) (s : State) : Host.Outcome State Fault Refusal := .next (doContribution port p s)

/-- An entry whose engine takes the inputs of other Q7s. -/
def groupLive (g : Group) : Bool := g.state == .active || g.state == .quiescing || g.state == .quiesced

/-- A forwarded input of a kind that does not reduce (R115, R132). -/
def takeForwarded (gid e n c port : Nat) (par : CallPar) (p : Packet) (bufs : List (Nat × Nat)) (s : State) : State :=
  let b := p.sub
  let rank := scRank b
  match getGroup s gid with
  | none => s
  | some g =>
    if callFailed g e n then freeAll bufs (count (kGroup g.entry iCOLL_STALE) s)
    else if ((findChunk g e n c).map (fun k => k.seen.contains (.member rank))).getD false then
      freeAll bufs (sendPack gid e n c port rank b p.job (count (kGroup g.entry iCOLL_DUP) s))
    else if (findChunk g e n c).isNone ∧ isStale g e n c then
      freeAll bufs (lateInput gid e n p.job (count (kGroup g.entry iCOLL_STALE) s))
    else
      let s := sendPack gid e n c port rank b p.job (keepBufs g c bufs s)
      let s := openChunk gid e n c (some par) p.job s
      let s := onChunk gid e n c (fun k => { k with recovered := k.recovered || scResend b }) s
      let s := noteItem gid e n c port rank true true s
      regrant gid (addInput gid e n c par {
        src := .forwarded rank port, rank := rank, mism := scRoot b, hash := scHash b,
        job := p.job, last := scLast b, zero := scZero b, root := noRank, port := port, at_ := s.tide.now,
        data := pktData p, bufs := bufs } s)

/-- A piece is a child's whole input: a pass mark, or the empty mark of a chunk beyond ACC_CHUNKS (R137, R138). -/
def isMark (g : Group) (par : CallPar) (n c : Nat) (b : BitVec 256) : Bool :=
  inAccum g par && scDlen b == 0 && scZero b && scPiece b == 0 && (decide (g.accChunks ≤ c) || (par.mode == mEXACT && !finalPass g n))

/-- A piece of a child's reducing partial or pass mark, of the child port `port`, in on port `via` (R116, R117, R132,
R138). A copy of a partial already taken is counted and answered once, as its last piece comes. -/
def takePiece (gid e n c port via : Nat) (par : CallPar) (p : Packet) (bufs : List (Nat × Nat)) (s : State) : State :=
  let b := p.sub
  match getGroup s gid with
  | none => s
  | some g =>
    let k0 := findChunk g e n c
    let ends := isMark g par n c b || endsChunk g.frag.chunkSegs (partSize par) (scPiece b) (pktData p).length (scLast b)
    if callFailed g e n then freeAll bufs (count (kGroup g.entry iCOLL_STALE) s)
    else if (k0.map (fun k => k.seen.contains (.child port))).getD false then
      freeAll bufs (onlyIf ends (fun s => sendPack gid e n c port noRank b p.job (count (kGroup g.entry iCOLL_DUP) s)) s)
    else if k0.isNone ∧ isStale g e n c then freeAll bufs (lateInput gid e n p.job (count (kGroup g.entry iCOLL_STALE) s))
    else
      let s := openChunk gid e n c (some par) p.job s
      let s := onChunk gid e n c (fun k => { k with par := some (k.par.getD par), recovered := k.recovered || scResend b }) s
      let s := onCall gid e n (fun k => { k with par := some (k.par.getD par) }) s
      let old := (k0.bind (fun k => k.taking.find? (fun t => t.port == port)))
      let j := scPiece b
      let drop (s : State) : State := onChunk gid e n c (fun k => { k with
        taking := k.taking.filterMap (fun t => if t.port = port then cutTaking t else some t) }) s
      let held := (old.map (·.bufs)).getD []
      let t0 : Option Taking :=
        if j = 0 ∧ scResend b then some { port := port, resend := true }
        else match old with
          | some t => if t.resend && !scResend b then none else if t.next = j then some t else none
          | none => if j = 0 then some { port := port, resend := scResend b } else none
      let late := (old.map (fun t => t.resend && !scResend b)).getD false
      match t0 with
      | none => if late then freeAll bufs s else freeAll (bufs ++ held) (drop s)
      | some t =>
        let s := if j = 0 then freeAll held s else s
        let d := pktData p
        let t : Taking := { t with via := via, next := j + 1, bytes := t.bytes ++ d, bufs := t.bufs ++ bufs }
        let s := keepBufs g c bufs s
        let s := onChunk gid e n c (fun k => { k with taking := k.taking.filter (fun x => x.port != port) ++ [t] }) s
        let s := noteItem gid e n c port (scRank b) true true s
        if ends = false then s
        else
          let s := sendPack gid e n c port noRank b p.job s
          let s := onChunk gid e n c (fun k => { k with
            taking := k.taking.filter (fun x => x.port != port), missingIn := k.missingIn.filter (fun x => x.1 != port) }) s
          regrant gid (addInput gid e n c par {
        src := .child port, rank := scRank b, mism := scRoot b, hash := scHash b,
            job := p.job, last := scLast b, zero := scZero b, root := noRank, port := port, at_ := s.tide.now,
            data := t.bytes, bufs := t.bufs } s)

/-- PARTIAL_PIECE from a child (R115 to R117, R132). -/
def doPartialPiece (port : Nat) (p : Packet) (s : State) : State :=
  let b := p.sub
  let gid := scGroup b
  if ¬ engineFor s port p ∨ inputWaits gid (scChunk b) p.job (deliveredAt s port p) s = true then s
  else
    let bufs := deliveredAt s port p
    let s := takeDelivered port p s
    if ¬ subCodesOk b ∨ scPhase b ≠ 1 then freeAll bufs (count (kPort port iPKT_MALFORMED) s)
    else match getGroup s gid with
      | none => freeAll bufs s
      | some g =>
        let c := planPort s g port p
        if ¬ groupLive g ∨ ¬ g.frag.children.contains c then freeAll bufs s
        else if reduces (parOf b) then takePiece gid (scEpoch b) (scCall b) (scChunk b) c port (parOf b) p bufs (noteInputTurn g (scChunk b) p.job s)
        else takeForwarded gid (scEpoch b) (scCall b) (scChunk b) c (parOf b) p bufs s

def execPartialPiece (port : Nat) (p : Packet) (s : State) : Host.Outcome State Fault Refusal := .next (doPartialPiece port p s)

/-! ## Commands: results, SEAL, REVOKE -/

/-- A RESULT piece from the parent is kept, in the group's reservation, and forwarded (R116, R120, R132, R293). A copy of a
delivery already whole is counted once, as its last piece comes, and answered with the RACK again; a late piece of an
earlier copy is dropped. -/
def takeResult (gid e n c : Nat) (par : CallPar) (p : Packet) (bufs : List (Nat × Nat)) (s : State) : State :=
  let b := p.sub
  let j := scPiece b
  match getGroup s gid with
  | none => s
  | some g =>
    let s := openCall gid e n s
    let s := onCall gid e n (fun k => { k with par := some (k.par.getD par) }) s
    let s := onlyIf (c == 0) (agreeHash gid e n (scHash b)) s
    let s := if (findChunk g e n c).isSome then s
      else onGroup gid (fun g => { g with chunks := g.chunks ++ [{ epoch := e, call := n, chunk := c, par := some par, combined := true }] }) s
    match (getGroup s gid).bind (fun g => findChunk g e n c) with
    | none => s
    | some k =>
      let last := k.pieces == j + 1
      if k.sealed then freeAll bufs (onlyIf last (count (kGroup g.entry iCOLL_DUP)) s)
      else if k.resultWhole then
        freeAll bufs (onlyIf last (fun s => onlyIf k.rackSent (sendRack g k) (count (kGroup g.entry iCOLL_DUP) s)) s)
      else if k.resultResend ∧ ¬ scResend b then freeAll bufs s
      else
        let fresh := j = 0 ∧ scResend b
        let have_ := if fresh then 0 else k.pieces
        if j ≠ have_ then
          onChunk gid e n c (fun k => { k with result := [], resultBufs := [], pieces := 0 }) (letGo k.resultBufs (freeAll bufs s))
        else
          let d := pktData p
          let whole := endsChunk g.frag.chunkSegs (elemSize par.outfmt) j d.length (scLast b) || par.kind == 5 || par.kind == 6
          let s := keepBufs g c bufs (if fresh then letGo k.resultBufs s else s)
          let s := onChunk gid e n c (fun k => { k with
            par := some (k.par.getD par), job := p.job, hash := scHash b, resultLast := scLast b,
            resultResend := k.resultResend || fresh, recovered := k.recovered || scResend b,
            result := (if fresh then [] else k.result) ++ [(j, d)], resultBufs := (if fresh then [] else k.resultBufs) ++ bufs,
            pieces := j + 1, resultWhole := whole }) s
          match (getGroup s gid).bind (fun g => findChunk g e n c) with
          | none => s
          | some k =>
            let s := deliverPiece gid k (scResend b) (fun x => !k.racked.contains x) j d s
            checkRacks gid e n c (noteOut gid e n c s)

/-- RESULT_PIECE (R120, R128, R130, R132). A result of a failed call is dropped, but for a chunk that an epoch commit let
go on (R69). -/
def doResultPiece (port : Nat) (p : Packet) (s : State) : State :=
  if ¬ engineFor s port p ∨ resultWaits (scGroup p.sub) (deliveredAt s port p) s = true then s
  else
    let b := p.sub
    let gid := scGroup b
    let bufs := deliveredAt s port p
    let s := takeDelivered port p s
    if ¬ subCodesOk b ∨ scPhase b ≠ 2 then freeAll bufs (count (kPort port iPKT_MALFORMED) s)
    else match getGroup s gid with
      | none => freeAll bufs s
      | some g =>
        let ended : Bool := match findCall g (scEpoch b) (scCall b) with
          | some k => k.failed && !k.stale
          | none => false
        if ¬ groupLive g ∨ g.frag.isRoot ∨ planPort s g port p ≠ g.frag.parent ∨ ended = true then freeAll bufs s
        else if (findChunk g (scEpoch b) (scCall b) (scChunk b)).isNone
            ∧ ((findCall g (scEpoch b) (scCall b)).map (fun k => k.done || k.sealedChunks.contains (scChunk b))).getD false then
          freeAll bufs (count (kGroup g.entry iCOLL_STALE) s)
        else takeResult gid (scEpoch b) (scCall b) (scChunk b) (parOf b) p bufs s

def execResultPiece (port : Nat) (p : Packet) (s : State) : Host.Outcome State Fault Refusal := .next (doResultPiece port p s)

/-- What a chunk control packet names. -/
def ccGroup (b : BitVec 128) : Nat := fld b 119 96
def ccEpoch (b : BitVec 128) : Nat := fld b 95 80
def ccCall (b : BitVec 128) : Nat := fld b 79 56
def ccChunk (b : BitVec 128) : Nat := fld b 55 32
def ccDeliv (b : BitVec 128) : Nat := fld b 21 18
def ccLast (b : BitVec 128) : Bool := bitAt b 17

/-- Take a chunk control packet of a live group: `f` gets the group and the port of the plan it belongs to. -/
def withChunkCtl (port : Nat) (p : Packet) (f : Group → Nat → State → State) (s : State) : State :=
  if ¬ engineFor s port p then s
  else
    let s := freeAll (deliveredAt s port p) (takeDelivered port p s)
    match getGroup s (ccGroup p.ctl) with
    | none => s
    | some g => if groupLive g then f g (planPort s g port p) s else s

/-- SEAL passes on its way down (R120, R121, R139). -/
def doSeal (port : Nat) (p : Packet) : State → State := withChunkCtl port p (fun g at_ s =>
  let b := p.ctl
  let gid := ccGroup b
  let e := ccEpoch b
  let n := ccCall b
  let c := ccChunk b
  match findChunk g e n c with
  | none => s
  | some k =>
    let pass := bitAt b 22
    if g.frag.isRoot ∨ at_ ≠ g.frag.parent ∨ k.sealed ∨ (¬ pass ∧ (ccDeliv b ≠ k.deliv ∨ ¬ k.resultWhole)) then s
    else
      let mem := if pass then (rosterAt g e).admitted else match k.par with
        | some par => receivers g (findCall g e n) par e c
        | none => []
      sealChunk gid e n c (bitAt b 23) (ccLast b) pass (tellDown gid { k with job := p.job } mem 0x49 (fld b 31 0) s))

def execSealPkt (port : Nat) (p : Packet) (s : State) : Host.Outcome State Fault Refusal := .next (doSeal port p s)

/-- Withdraw the current delivery of a chunk: copies freed, RACKs forgotten, the next DELIV in force (R127, R128). -/
def withdraw (gid e n c deliv : Nat) (keep : Bool) (s : State) : State :=
  match (getGroup s gid).bind (fun g => findChunk g e n c) with
  | none => s
  | some k =>
    onChunk gid e n c (fun k => { k with
      deliv := deliv, recovered := true, racked := [], rackSent := false, nakSent := false, missingRack := [], rackDeadline := none,
      sealDue := false, resultResend := false, result := if keep then k.result else [], resultBufs := if keep then k.resultBufs else [],
      pieces := if keep then k.pieces else 0, resultWhole := keep && k.resultWhole }) (if keep then s else letGo k.resultBufs s)

/-- REVOKE passes: older copies freed, and the REVOKE goes on before any newer piece (R128). A Q7 that none of the older
delivery has reached keeps its DELIV too, and tells whoever may receive the chunk. -/
def doRevoke (port : Nat) (p : Packet) : State → State := withChunkCtl port p (fun g at_ s =>
  let b := p.ctl
  let gid := ccGroup b
  let known : Bool := (findChunk g (ccEpoch b) (ccCall b) (ccChunk b)).isSome
    || ((findCall g (ccEpoch b) (ccCall b)).map (fun k => k.done || (k.failed && !k.stale) || k.sealedChunks.contains (ccChunk b))).getD false
  let s := if known || g.frag.isRoot || at_ != g.frag.parent then s
    else onGroup gid (fun g => { g with chunks := g.chunks ++ [{
      epoch := ccEpoch b, call := ccCall b, chunk := ccChunk b, job := p.job, combined := true,
      par := (findCall g (ccEpoch b) (ccCall b)).bind (·.par) }] }) (openCall gid (ccEpoch b) (ccCall b) s)
  match (getGroup s gid).bind (fun g => findChunk g (ccEpoch b) (ccCall b) (ccChunk b)) with
  | none => s
  | some k =>
    if g.frag.isRoot ∨ at_ ≠ g.frag.parent ∨ k.sealed ∨ ccDeliv b ≤ k.deliv then s
    else
      let mem := match k.par with
        | some par => receivers g (findCall g k.epoch k.call) par k.epoch k.chunk
        | none => (rosterAt g k.epoch).admitted
      let s := tellDown gid { k with job := p.job } mem 0x4A (fld b 31 0) s
      withdraw gid k.epoch k.call k.chunk (ccDeliv b) false (count (kGroup g.entry iREVOKES) s))

def execRevoke (port : Nat) (p : Packet) (s : State) : Host.Outcome State Fault Refusal := .next (doRevoke port p s)

/-! ## Commands: EXP_UP, EXP_DOWN, PACK, RACK, NAK, MISSING -/

/-- EXP_UP from a child (R113). -/
def doExpUp (port : Nat) (p : Packet) : State → State := withChunkCtl port p (fun g at_ s =>
  let b := p.ctl
  let gid := ccGroup b
  let e := ccEpoch b
  let n := ccCall b
  let c := ccChunk b
  if ¬ g.frag.children.contains at_ then s
  else if (findChunk g e n c).isNone ∧ isStale g e n c then lateInput gid e n p.job (count (kGroup g.entry iCOLL_STALE) s)
  else
    let v := if bitAt b 19 then none else some (toSigned 12 (fld b 31 20))
    let s := openChunk gid e n c none p.job s
    let s := onChunk gid e n c (fun k => { k with exps := k.exps.filter (fun x => x.1 != at_) ++ [(at_, v)] }) s
    regrant gid (progress gid e n c (noteItem gid e n c at_ noRank true false s)))

def execExpUp (port : Nat) (p : Packet) (s : State) : Host.Outcome State Fault Refusal := .next (doExpUp port p s)

/-- EXP_DOWN from the parent: E is recorded once, passed on, and conversion begins (R89, R113). -/
def doExpDown (port : Nat) (p : Packet) : State → State := withChunkCtl port p (fun g at_ s =>
  let b := p.ctl
  let gid := ccGroup b
  let e := ccEpoch b
  let n := ccCall b
  let c := ccChunk b
  match findChunk g e n c with
  | none => s
  | some k =>
    if g.frag.isRoot ∨ at_ ≠ g.frag.parent ∨ k.exp.isSome then s
    else
      let v := toSigned 12 (fld b 31 20)
      regrant gid (progress gid e n c (sendExpDown gid e n c p.job v (fixExp gid e n c v s))))

def execExpDown (port : Nat) (p : Packet) (s : State) : Host.Outcome State Fault Refusal := .next (doExpDown port p s)

/-- PACK from the parent: the partial, or the named forwarded input, is freed here (R115, R117, R118). -/
def doPack (port : Nat) (p : Packet) : State → State := withChunkCtl port p (fun g at_ s =>
  let b := p.ctl
  let gid := ccGroup b
  match findChunk g (ccEpoch b) (ccCall b) (ccChunk b) with
  | none => s
  | some k =>
    let r := p.aux % 2 ^ 18
    if g.frag.isRoot ∨ at_ ≠ g.frag.parent then s
    else if r = noRank then
      if k.unacked.any (fun x => x.rank == noRank) then
        let s := letGo (inputBufs k ++ k.unacked.flatMap (·.bufs)) s
        regrant gid (onChunk gid k.epoch k.call k.chunk (fun k => { k with unacked := [], inputs := [], slot := false }) s)
      else s
    else
      let s := letGo ((k.inputs.filter (fun x => x.rank == r)).flatMap (·.bufs)) s
      onChunk gid k.epoch k.call k.chunk (fun k => { k with
        unacked := k.unacked.filter (fun x => x.rank != r), inputs := k.inputs.filter (fun x => x.rank != r) }) s)

def execPack (port : Nat) (p : Packet) (s : State) : Host.Outcome State Fault Refusal := .next (doPack port p s)

/-- The down port of a chunk that a RACK or NAK came from. -/
def downSrc (g : Group) (e port : Nat) : Option Src :=
  if g.frag.children.contains port then some (.child port)
  else ((rosterAt g e).admitted.find? (fun m => m.1 == port)).map (fun m => .member m.2.1)

/-- RACK (R121, R127). -/
def doRack (port : Nat) (p : Packet) : State → State := withChunkCtl port p (fun g at_ s =>
  let b := p.ctl
  let gid := ccGroup b
  let e := ccEpoch b
  match findChunk g e (ccCall b) (ccChunk b), downSrc g e at_ with
  | some k, some x =>
    if k.sealed ∨ ccDeliv b ≠ k.deliv ∨ ¬ (downSrcs g k).contains x then s
    else
      let s := onChunk gid e k.call k.chunk (fun k => { k with
        racked := addNew k.racked x, missingRack := k.missingRack.filter (fun y => y.1 != at_), recovered := k.recovered || (isChild x && bitAt b 23) }) s
      regrant gid (checkRacks gid e k.call k.chunk s)
  | _, _ => s)

def execRack (port : Nat) (p : Packet) (s : State) : Host.Outcome State Fault Refusal := .next (doRack port p s)

/-- Send a partial, or the forwarded inputs, that have no PACK and that `want` selects again, with RESEND (R131). -/
def resendPartial (gid e n c : Nat) (want : Unacked → Bool) (s : State) : State :=
  match getGroup s gid with
  | none => s
  | some g => match findChunk g e n c with
    | none => s
    | some k =>
      let l := k.unacked.filter want
      if l.isEmpty then s
      else
        let s := count (kGroup g.entry iRESENDS) s
        let s := onChunk gid e n c (fun k => { k with
          recovered := true, unacked := k.unacked.map (fun u => if want u then { u with at_ := s.tide.now, on_ := [] } else u) }) s
        forAll l (fun u s =>
          let b := setFld u.pkt.sub 93 93 1
          originate { u.pkt with body := bytesBE 32 b.toNat ++ u.pkt.data } s) s

/-- The whole partial stands for each of its pieces; a forwarded input stands alone (R115, R131). -/
def wholePartial (k : Chunk) (f : Unacked → Bool) (u : Unacked) : Bool := f u || (u.rank == noRank && k.unacked.any (fun v => v.rank == noRank && f v))

/-- A NAK of the current delivery at the root: REVOKE with DELIV + 1, then the result again (R127, R129). -/
def rootNak (g : Group) (k : Chunk) (s : State) : State :=
  let gid := g.frag.group
  let a := arrayOf g k.chunk
  if 15 ≤ k.deliv then
    let s := failCall gid k.epoch k.call stPOISONED noRank true s
    detect 0x22 (mkLoc a.1 a.2 0) gid (failGroup gid 0x22 s)
  else
    let mem := match k.par with
      | some par => receivers g (findCall g k.epoch k.call) par k.epoch k.chunk
      | none => []
    let s := tellDown gid k mem 0x4A (lowWord 0 false false (k.deliv + 1) false) s
    let s := withdraw gid k.epoch k.call k.chunk (k.deliv + 1) true (count (kGroup g.entry iREVOKES) s)
    deliverAll gid k.epoch k.call k.chunk s

/-- NAK of a result toward the root, or of a partial at the child that sent it (R126, R127, R131). -/
def doNak (port : Nat) (p : Packet) : State → State := withChunkCtl port p (fun g at_ s =>
  let b := p.ctl
  let gid := ccGroup b
  let e := ccEpoch b
  let n := ccCall b
  let c := ccChunk b
  if ¬ ccLast b then (if at_ = g.frag.parent then resendPartial gid e n c (fun _ => true) s else s)
  else if (downSrc g e at_).isNone then s
  else if ¬ g.frag.isRoot then
    sendChunk vcCTRL (farEpid s g.frag.parent) p.job (p.aux % 2 ^ 18) 0x4D gid e n c (fld b 31 0) s
  else match findChunk g e n c with
    | none => if ((findCall g e n).map (fun k => k.sealedChunks.contains c)).getD false then count (kGroup g.entry iNAK_LATE) s else s
    | some k =>
      if k.sealed then count (kGroup g.entry iNAK_LATE) s
      else if ccDeliv b ≠ k.deliv ∨ k.resultAt.isNone then s
      else regrant gid (rootNak g k s))

def execNak (port : Nat) (p : Packet) (s : State) : Host.Outcome State Fault Refusal := .next (doNak port p s)

/-- MISSING from a child is recorded, to be merged into this Q7's own report (R119, R127). One that comes before any input
takes no slot, but the wait for the chunk's inputs starts with it (log entry 91). -/
def doMissing (port : Nat) (p : Packet) : State → State := withChunkCtl port p (fun g at_ s =>
  let b := p.ctl
  let gid := ccGroup b
  let e := ccEpoch b
  let n := ccCall b
  let c := ccChunk b
  let r := p.aux % 2 ^ 18
  if ¬ g.frag.children.contains at_ then s
  else if ccLast b then
    match findChunk g e n c with
    | none => s
    | some k =>
      if ccDeliv b ≠ k.deliv ∨ k.sealed then s
      else onChunk gid e n c (fun k => { k with missingRack := k.missingRack.filter (fun x => x.1 != at_) ++ [(at_, r)] }) s
  else if (findChunk g e n c).isNone ∧ isStale g e n c then lateInput gid e n p.job (count (kGroup g.entry iCOLL_STALE) s)
  else
    let s := openChunk gid e n c none p.job s
    onChunk gid e n c (fun k => { k with
      missingIn := k.missingIn.filter (fun x => x.1 != at_) ++ [(at_, r)],
      inDeadline := if k.firstAt.isNone then some (k.inDeadline.getD (s.tide.now + g.frag.waitTimeout)) else k.inDeadline }) s)

def execMissing (port : Nat) (p : Packet) (s : State) : Host.Outcome State Fault Refusal := .next (doMissing port p s)

/-! ## Commands: timeouts (R119, R131, R133) -/

/-- The lowest of a list of ranks; 0x3FFFF when empty. -/
def lowest (l : List Nat) : Nat := l.foldl min noRank

/-- The ranks a Q7 knows to be missing of a chunk's inputs (R119). -/
def missingRanks (g : Group) (k : Chunk) : List Nat :=
  match k.par.map reduces, k.par with
  | some false, some par =>
    let ranks := k.inputs.map (·.rank)
    (expectedRanks g (findCall g k.epoch k.call) par k).filter (fun r => !ranks.contains r)
  | _, _ =>
    (((rosterAt g k.epoch).admitted.map (fun m => m.2.1)).filter (fun r => !k.seen.contains (.member r)))
    ++ (k.missingIn.filter (fun x => !k.seen.contains (.child x.1))).map (·.2)

/-- Inputs of a chunk are still missing. A Q7 below the root knows no set of inputs to wait for of a kind that does not
reduce (R119). -/
def inputsMissing (g : Group) (k : Chunk) : Bool :=
  match k.par.map reduces with
  | some false => g.frag.isRoot && !(missingRanks g k).isEmpty
  | _ => !(membersIn g k && g.frag.children.all (fun p => k.seen.contains (.child p)))

/-- The rank that the hashes of the inputs come so far show to be at fault (R73, R74). -/
def faultyNow (g : Group) (k : Chunk) : Option Nat :=
  if k.inputs.isEmpty then none
  else
    let m := mismOf k.inputs
    faultyRank ((findCall g k.epoch k.call).getD { epoch := k.epoch, call := k.call }) { k with lowRank := m.1, hash := m.2.1, mism := m.2.2 }

/-- CHUNK_WAIT_TIMEOUT (R73, R74, R119). -/
def doChunkWait (gid e n c : Nat) (s : State) : State :=
  match getGroup s gid with
  | none => s
  | some g => match findChunk g e n c with
    | none => s
    | some k => match k.inDeadline with
      | none => s
      | some t =>
        if ¬ engineOn s ∨ ¬ due s t ∨ k.combined ∨ ¬ groupLive g then s
        else
          let s := onChunk gid e n c (fun k => { k with inDeadline := none }) s
          let r := lowest (missingRanks g k)
          if ¬ inputsMissing g k then s
          else if g.frag.isRoot then
            let s := endWait gid e n c false true r 0 s
            regrant gid (match faultyNow g k with
              | some x => failCall gid e n stSHAPE x true s
              | none => failCall gid e n stTIMEOUT r true s)
          else
            let s := endWait gid e n c false true r 0 s
            sendChunk vcCTRL (farEpid s g.frag.parent) k.job r 0x4E gid e n c 0 s

def execChunkWaitTimeout (group epoch call chunk : Nat) (s : State) : Host.Outcome State Fault Refusal :=
  .next (doChunkWait group epoch call chunk s)

/-- The ranks a Q7 knows to lack a RACK of a delivery, with those its children reported (R119). -/
def missingRackRanks (g : Group) (k : Chunk) : List Nat :=
  ((downSrcs g k).filter (fun x => !k.racked.contains x)).filterMap (fun x => match x with
    | .member m => some m
    | _ => none) ++ k.missingRack.map (·.2)

/-- RACK_WAIT_TIMEOUT (R119). A chunk of a call that a commit has failed already ends without SEAL, and CALL_FAIL goes down the
plan; no second COLL_FAIL is sent (log entry 104). -/
def doRackWait (gid e n c : Nat) (s : State) : State :=
  match getGroup s gid with
  | none => s
  | some g => match findChunk g e n c with
    | none => s
    | some k => match k.rackDeadline with
      | none => s
      | some t =>
        let left := (downSrcs g k).filter (fun x => !k.racked.contains x)
        if ¬ engineOn s ∨ ¬ due s t ∨ k.sealed ∨ left.isEmpty ∨ ¬ groupLive g then s
        else
          let s := onChunk gid e n c (fun k => { k with rackDeadline := none }) s
          let r := lowest (missingRackRanks g k)
          let s := match k.resultAt with
            | some t1 => traceWait g k 2 false true r 0 t1 (countN (kGroup g.entry iSEAL_NS) (s.tide.now - t1) s)
            | none => s
          if g.frag.isRoot then
            regrant gid (if callStale g e n then sendCmd gid e 4 stTIMEOUT n k.job (endStale gid e n s) else failCall gid e n stTIMEOUT r true s)
          else sendChunk vcCTRL (farEpid s g.frag.parent) k.job r 0x4E gid e n c (lowWord 0 false false k.deliv true) s

def execRackWaitTimeout (group epoch call chunk : Nat) (s : State) : Host.Outcome State Fault Refusal :=
  .next (doRackWait group epoch call chunk s)

/-- 12 µs have passed since the last piece of a partial, or a forwarded input, was sent (R131). -/
def overdue (s : State) (k : Chunk) (u : Unacked) : Bool :=
  if u.rank = noRank then k.unacked.all (fun v => v.rank != noRank || due s (v.at_ + 12000)) else due s (u.at_ + 12000)

/-- PARTIAL_RESEND_TIMEOUT: 12 µs after the last piece without a PACK (R131). -/
def doPartialResend (gid e n c : Nat) (s : State) : State :=
  match (getGroup s gid).bind (fun g => findChunk g e n c) with
  | none => s
  | some k => onlyIf (engineOn s) (resendPartial gid e n c (overdue s k)) s

def execPartialResendTimeout (group epoch call chunk : Nat) (s : State) : Host.Outcome State Fault Refusal :=
  .next (doPartialResend group epoch call chunk s)

/-- CHUNK_BITMAP_EXPIRY: 200 µs after SEAL passed (R133). -/
def doBitmapExpiry (gid e n c : Nat) (s : State) : State :=
  match (getGroup s gid).bind (fun g => findChunk g e n c) with
  | none => s
  | some k => if engineOn s ∧ k.sealed ∧ due s (k.sealedAt + 200000) then
      dropChunks gid (fun k => k.epoch == e && k.call == n && k.chunk == c) s else s

def execChunkBitmapExpiry (group epoch call chunk : Nat) (s : State) : Host.Outcome State Fault Refusal :=
  .next (doBitmapExpiry group epoch call chunk s)

/-! ## Links of the plan that go down (R131, R134) -/

/-- A port is declared down: partials that left on it without PACK go again over the current route, and pieces of a
partial not whole that came on it are discarded (R131). -/
def collPortDown (port : Nat) (s : State) : State :=
  forAll s.groups (fun e s =>
    let g := e.2
    let s := forAll g.chunks (fun k => resendPartial e.1 k.epoch k.call k.chunk (wholePartial k (fun u => u.on_.contains port))) s
    let s := letGo (g.chunks.flatMap (fun k => (k.taking.filter (fun t => t.via == port)).flatMap (·.bufs))) s
    onGroup e.1 (fun g => { g with chunks := g.chunks.map (fun k => { k with
      taking := k.taking.filterMap (fun t => if t.via = port then cutTaking t else some t) }) }) s) s

/-- The child ports of a plan whose deliveries of a chunk left on a port and have no RACK (R131). -/
def cutChildren (s : State) (g : Group) (k : Chunk) (port : Nat) : List Nat :=
  g.frag.children.filter (fun c => !k.racked.contains (.child c) && k.leftOn.contains (port, farEpid s c))

/-- The route around a down port is repaired: RESULT pieces that left on it and have no RACK go again with RESEND (R131). -/
def collRepair (port : Nat) (s : State) : State :=
  forAll s.groups (fun e s =>
    let g := e.2
    forAll (g.chunks.filter (fun k => !k.sealed && !k.result.isEmpty && !(cutChildren s g k port).isEmpty))
      (fun k s =>
        let l := cutChildren s g k port
        let s := count (kGroup g.entry iRESENDS) s
        let s := onChunk e.1 k.epoch k.call k.chunk (fun k => { k with recovered := true }) s
        let s := forAll k.result (fun x => deliverPiece e.1 k true (fun y => l.any (fun c => y == .child c)) x.1 x.2) s
        noteOut e.1 k.epoch k.call k.chunk s) s) s

/-- The packets that stand in a port's egress queues or that its link has not acknowledged whole. -/
def portPkts (s : State) (port : Nat) : List Packet :=
  (((getPort s port).queues.flatMap (·.2)) ++ ((getPort s port).link.tx.filter (fun t => t.die < 4)).map (fun t => (t.die, t.buf))).filterMap
    (fun e => (storedAt s e.1 e.2).map (·.pkt))

/-- A packet of a chunk that this Q7 sent is routed again or goes again on a retrained link: recovery has touched the chunk
here (R121, R135). -/
def noteTouched (p : Packet) (s : State) : State :=
  if p.src ≠ selfEpid s ∨ ¬ (p.ovc = vcCUP ∨ p.ovc = vcCDN) then s
  else
    let touch (k : Chunk) : Chunk := { k with recovered := true }
    if p.ptype = 0 then onChunk (ccGroup p.ctl) (ccEpoch p.ctl) (ccCall p.ctl) (ccChunk p.ctl) touch s
    else onChunk (scGroup p.sub) (scEpoch p.sub) (scCall p.sub) (scChunk p.sub) touch s

/-- PORT_DOWN_COMMIT: the mask commits and the port's packets re-enter path choice (R258, R259); the deliveries
of the plan that used the port go again (R131), and the chunks concerned are marked (R121). -/
def execPortDownCommit (port : Nat) (s : State) : Host.Outcome State Fault Refusal :=
  .next (if regsLive s && (getPort s port).declared.isSome then
    forAll (portPkts s port) noteTouched (collRepair port (doPortDownCommit port s)) else s)

/-- GROUP_CMD: a call it fails frees slots, which the inputs that wait take (R111, R616). -/
def execGroupCmd (port : Nat) (p : Packet) (s : State) : Host.Outcome State Fault Refusal :=
  .next (onlyIf (engineFor s port p) (fun s => regrant (fld p.ctl 119 96) (doGroupCmd port p s)) s)

end Sys2Proof.Machine
end

