-- ==== Sys2Proof/Machine/Embed.lean ====
section
/-! DEFINITION. Embedding tables (R140 to R185): packets and their streams, pooling, gradients and the shadow
pool, the apply, Rockpool, SPLIT bags at their home and at a shard, and the table descriptors. -/

namespace Sys2Proof.Machine

/-! ## The embedding sub-header and control body (R151, R183) -/

def ekBAG : Nat := 0
def ekPOOLED : Nat := 1
def ekGRAD : Nat := 2
def ekSUB_BAG : Nat := 3
def ekSUB_POOLED : Nat := 4
def ekSUB_GRAD : Nat := 5

def poSUM : Nat := 0
def poMEAN : Nat := 1
def poMAX : Nat := 2
def poWSUM : Nat := 3

def emKind (b : BitVec 256) : Nat := fld b 251 248
def emPool (b : BitVec 256) : Nat := fld b 247 246
def emW96 (b : BitVec 256) : Bool := bitAt b 245
def emIdx8 (b : BitVec 256) : Bool := bitAt b 244
def emSplit (b : BitVec 256) : Bool := bitAt b 243
def emResend (b : BitVec 256) : Bool := bitAt b 242
def emLast (b : BitVec 256) : Bool := bitAt b 241
def emVfmt (b : BitVec 256) : Nat := fld b 239 236
def emTable (b : BitVec 256) : Nat := fld b 235 220
def emStep (b : BitVec 256) : Nat := fld b 219 188
def emBag (b : BitVec 256) : Nat := fld b 187 156
def emNidx (b : BitVec 256) : Nat := fld b 155 143
def emNtot (b : BitVec 256) : Nat := fld b 142 130
def emPiece (b : BitVec 256) : Nat := fld b 129 118
def emDim (b : BitVec 256) : Nat := fld b 105 95
def emCove (b : BitVec 256) : Nat := fld b 93 78

/-- GRAD or SUB_GRAD. -/
def emIsGrad (b : BitVec 256) : Bool := emKind b == ekGRAD || emKind b == ekSUB_GRAD

/-- The fields of a sub-header that this Q7 builds. -/
structure EmbHdr where
  kind : Nat
  pool : Nat
  w96 : Bool := false
  idx8 : Bool := false
  resend : Bool := false
  empty : Bool := false
  vfmt : Nat := 0
  table : Nat
  step : Nat
  bag : Nat
  nidx : Nat
  ntot : Nat
  exp : Int := 0
  dim : Nat
  recovered : Bool := false
  cove : Nat := 0
deriving DecidableEq, Repr

/-- The sub-header of piece `piece` (R151). -/
def embBits (f : EmbHdr) (piece : Nat) (last : Bool) : BitVec 256 :=
  pack 256 [(4, 1), (4, f.kind), (2, f.pool), (1, b2n f.w96), (1, b2n f.idx8), (1, 0), (1, b2n f.resend), (1, b2n last),
    (1, b2n f.empty), (4, f.vfmt), (16, f.table), (32, f.step), (32, f.bag), (13, f.nidx), (13, f.ntot), (12, piece),
    (12, ofSigned 12 f.exp), (11, f.dim), (1, b2n f.recovered), (16, f.cove), (78, 0)]

/-- The packets of a stream: pieces of 8,160 bytes (R152). -/
def embPkts (f : EmbHdr) (data : List Byte) (dst job : Nat) : List Packet :=
  let ps := if data.isEmpty then [[]] else pieces 8160 data
  ((List.range ps.length).zip ps).map (fun x => dataPkt vcEMB dst job (embBits f x.1 (x.1 + 1 == ps.length)) x.2)

/-- Send a stream. -/
def emit (f : EmbHdr) (data : List Byte) (dst job : Nat) : State → State :=
  forAll (embPkts f data dst job) (fun p => originate p)

/-- An embedding control packet (R183); EXP_UP_E and EXP_DOWN_E travel on EMB. -/
def embCtl (ctype table step bag status : Nat) (e : Option Int) (none_ recovered : Bool) (dst job : Nat) : Packet :=
  ctlPkt (if ctype = 0x53 ∨ ctype = 0x54 then vcEMB else vcCTRL) dst job 0
    (pack 128 [(8, ctype), (16, table), (32, step), (32, bag), (8, status), (12, ofSigned 12 (e.getD 0)), (1, b2n none_),
      (1, b2n recovered), (18, 0)])

def ecTable (b : BitVec 128) : Nat := fld b 119 104
def ecStep (b : BitVec 128) : Nat := fld b 103 72
def ecBag (b : BitVec 128) : Nat := fld b 71 40

/-- R153 step 1 on a BAG, GRAD, SUB_BAG or SUB_GRAD: codes defined, fields that do not apply and reserved bits zero. -/
def emCodesOk (b : BitVec 256) : Bool :=
  let k := emKind b
  fld b 255 252 == 1 && (k == ekBAG || k == ekGRAD || k == ekSUB_BAG || k == ekSUB_GRAD) && fld b 77 0 == 0
  && fld b 240 240 == 0 && fld b 117 106 == 0 && fld b 94 94 == 0
  && (k == ekBAG || k == ekGRAD || !emSplit b) && (!emIsGrad b || !emW96 b)
  && (if k == ekSUB_BAG then emVfmt b == 0 else isFloat (emVfmt b))
  && (k == ekSUB_BAG || k == ekSUB_GRAD || emNtot b == emNidx b)

/-- Bytes that R152 gives a stream. -/
def emLen (b : BitVec 256) : Nat :=
  if emKind b = ekSUB_POOLED then emDim b * winSize (emW96 b)
  else (if emIsGrad b then emDim b * elemSize (emVfmt b) else 0) + emNidx b * (if emIdx8 b then 8 else 4)
    + (if emPool b = poWSUM then 4 * emNidx b else 0)

/-- Bytes of the gradient vector at the head of a stream. -/
def emHead (b : BitVec 256) : Nat := if emIsGrad b then emDim b * elemSize (emVfmt b) else 0

/-- The indices of a stream (R149, R152). -/
def emIndices (b : BitVec 256) (d : List Byte) : List Nat :=
  let w := if emIdx8 b then 8 else 4
  (List.range (emNidx b)).map (fun j => leAt d (emHead b + w * j) w)

/-- The weights of a stream, under WSUM (R152). -/
def emWeights (b : BitVec 256) (d : List Byte) : Option (List Nat) :=
  if emPool b = poWSUM then
    let o := emHead b + emNidx b * (if emIdx8 b then 8 else 4)
    some ((List.range (emNidx b)).map (fun j => leAt d (o + 4 * j) 4))
  else none

/-! ## Tables: record, rows, translation (R142, R145 to R149) -/

/-- The fields of a table record (R142). -/
def recOf (d : List Byte) : TableRec :=
  { table := leAt d 6 2, cove := leAt d 8 2, rfmt := byteAt d 10, imode := byteAt d 11, dim := leAt d 12 2, die := byteAt d 14,
    paMask := byteAt d 15, rows := leAt d 16 8, seed := leAt d 24 8, shadowRows := leAt d 32 4, gw96 := (byteAt d 36).testBit 0,
    master := (byteAt d 36).testBit 1, opt := byteAt d 37, rpShare := byteAt d 38, gradE := toSigned 16 (leAt d 40 2),
    owner := if leAt d 44 4 = 0xFFFFFFFF then none else some (leAt d 44 4), firstStep := leAt d 48 4, lr := leAt d 52 4,
    mu := leAt d 56 4, beta1 := leAt d 60 4, beta2 := leAt d 64 4, eps := leAt d 68 4, wd := leAt d 72 4,
    p1 := leAt d 76 4, p2 := leAt d 80 4 }

/-- The 128-byte record with A in bytes 84 to 87 (R142, R179). -/
def recBytes (r : TableRec) (a : Nat) : List Byte :=
  bytesLE 4 0x4B515442 ++ bytesLE 2 1 ++ bytesLE 2 r.table ++ bytesLE 2 r.cove ++ bytesLE 1 r.rfmt ++ bytesLE 1 r.imode
  ++ bytesLE 2 r.dim ++ bytesLE 1 r.die ++ bytesLE 1 r.paMask ++ bytesLE 8 r.rows ++ bytesLE 8 r.seed ++ bytesLE 4 r.shadowRows
  ++ bytesLE 1 (b2n r.gw96 + 2 * b2n r.master) ++ bytesLE 1 r.opt ++ bytesLE 1 r.rpShare ++ bytesLE 1 0
  ++ bytesLE 2 (ofSigned 16 r.gradE) ++ bytesLE 2 0 ++ bytesLE 4 (r.owner.getD 0xFFFFFFFF) ++ bytesLE 4 r.firstStep
  ++ bytesLE 4 r.lr ++ bytesLE 4 r.mu ++ bytesLE 4 r.beta1 ++ bytesLE 4 r.beta2 ++ bytesLE 4 r.eps ++ bytesLE 4 r.wd
  ++ bytesLE 4 r.p1 ++ bytesLE 4 r.p2 ++ bytesLE 4 a ++ List.replicate 40 0

/-- Bytes of a row of a space before padding (R145, R147). -/
def spaceBytes (r : TableRec) (sp : Nat) : Nat :=
  if sp = 0 then (if r.rfmt = 8 then 8 else 0) + r.dim * elemSize r.rfmt
  else if sp = 2 ∧ r.opt = 3 then 4 else 4 * r.dim

/-- The stride of a space (R145). -/
def spaceStride (r : TableRec) (sp : Nat) : Nat := 32 * ceilDiv (spaceBytes r sp) 32

/-- The table has the space (R147). -/
def hasSpace (r : TableRec) (sp : Nat) : Bool :=
  sp == 0 || (sp == 1 && r.master) || (sp == 2 && (r.opt == 2 || r.opt == 3 || r.opt == 4)) || (sp == 3 && r.opt == 4)

def spaceOf (t : Table) (sp : Nat) : Memory :=
  match sp with
  | 0 => t.space0
  | 1 => t.space1
  | 2 => t.space2
  | _ => t.space3

def setSpace (sp : Nat) (m : Memory) (t : Table) : Table :=
  match sp with
  | 0 => { t with space0 := m }
  | 1 => { t with space1 := m }
  | 2 => { t with space2 := m }
  | _ => { t with space3 := m }

/-- The HBM3 stack of a row, 0 to 7, and its byte offset from the table's base in that stack (R147). -/
def rowStack (r : TableRec) (row : Nat) : Nat := 2 * r.die + row % 2
def rowOffset (r : TableRec) (sp row : Nat) : Nat := row / 2 * spaceStride r sp

/-- Where a space's memory holds a row: the bytes of the odd stack stand above those of the even one. -/
def rowPlace (r : TableRec) (sp row : Nat) : Nat := rowStack r row % 2 * 2 ^ 52 + rowOffset r sp row

/-- A row of a space. Its bytes leave the stack with the parity generated after on-die ECC (R475). -/
def rowBytes (t : Table) (sp row : Nat) : List Byte :=
  bareBytes (genParity (memReadN (spaceOf t sp) (rowPlace t.info sp row) (spaceStride t.info sp)))

/-- A row as it is stored: bytes 4 to 7 of an int8 row and the padding are zero (R145, R180). -/
def normRow (r : TableRec) (sp : Nat) (b : List Byte) : List Byte :=
  let b := if sp = 0 ∧ r.rfmt = 8 then sliceB b 0 4 ++ List.replicate 4 0 ++ sliceB b 8 r.dim else sliceB b 0 (spaceBytes r sp)
  sliceB b 0 (spaceStride r sp)

/-- Write a row of a space. -/
def putRow (sp row : Nat) (b : List Byte) (t : Table) : Table :=
  setSpace sp (memWriteN (spaceOf t sp) (rowPlace t.info sp row) (normRow t.info sp b)) t

/-- From index to row (R149); none when out of range under direct translation. -/
def translate (imode rows seed i : Nat) : Option Nat :=
  let m := 2 ^ 64
  if imode = 0 then (if i < rows then some i else none)
  else if imode = 1 then some (i % rows)
  else
    let h := i ^^^ seed
    let h := h ^^^ (h >>> 31)
    let h := (h * 0xA5D31C7E94B26F19) % m
    let h := h ^^^ (h >>> 29)
    let h := (h * 0x6B1FE4C93D87A253) % m
    let h := h ^^^ (h >>> 32)
    some (((h % m) * rows) >>> 64)

/-- Every option of a list, or none. -/
def allSome : List (Option Nat) → Option (List Nat)
  | [] => some []
  | none :: _ => none
  | some x :: r => (allSome r).map (fun l => x :: l)

/-! ## Terms and pooling (R155, R156, R160) -/

/-- The exact product of two float values. -/
def mulF (a b : FVal) : FVal :=
  match a, b with
  | .nan, _ => .nan
  | _, .nan => .nan
  | .inf x, .inf y => .inf (x != y)
  | .inf x, .fin y m _ => if m = 0 then .nan else .inf (x != y)
  | .fin x m _, .inf y => if m = 0 then .nan else .inf (x != y)
  | .fin x m q, .fin y n r => .fin (x != y) (m * n) (q + r)

/-- The value of an int8 element. -/
def int8Val (x : Nat) : FVal := .fin (decide (toSigned 8 x < 0)) (toSigned 8 x).natAbs 0

/-- The exact values of a row's elements (R81, R146). -/
def rowVals (r : TableRec) (raw : List Byte) : List FVal :=
  match floatFmt r.rfmt with
  | some f => (elems (elemSize r.rfmt) (raw.take (spaceBytes r 0))).map (decodeF f)
  | none => (elems 1 ((raw.drop 8).take r.dim)).map (fun x => mulF (decodeF fmtFp32 (leAt raw 0 4)) (int8Val x))

/-- The terms of a bag, position by position (R155). -/
def bagTerms (r : TableRec) (raw : List (List Byte)) (ws : Option (List Nat)) : List (List FVal) :=
  match ws with
  | none => raw.map (rowVals r)
  | some w => (raw.zip w).map (fun x => (rowVals r x.1).map (mulF (decodeF fmtFp32 x.2)))

/-- The greatest e over terms (R88). -/
def termsExp (l : List (List FVal)) : Option Int := l.foldl (fun m row => row.foldl (fun m v => optMax m (expOf v)) m) none

/-- The terms converted at a window and added, element by element (R91, R92). -/
def sumTerms (dim : Nat) (w96 : Bool) (e : Int) (l : List (List FVal)) : List Win :=
  l.foldl (fun acc row => zipWin combine acc (row.map (fun v => toWindow v e (winF w96)))) (List.replicate dim (.fin 0))

/-- A zero of an int8 product counts as +0 (R156). -/
def plusZero (v : FVal) : FVal := match v with
  | .fin _ 0 q => .fin false 0 q
  | v => v

/-- `a` is below `b`, by exact value; neither is NaN. -/
def ltF (a b : FVal) : Bool :=
  match a, b with
  | .inf x, .inf y => x && !y
  | .inf x, _ => x
  | _, .inf y => !y
  | .fin x m q, .fin y n r =>
    let c := min q r
    let u : Int := (m * 2 ^ (q - c).toNat : Nat)
    let v : Int := (n * 2 ^ (r - c).toNat : Nat)
    decide ((if x then -u else u) < (if y then -v else v))
  | _, _ => false

/-- The order key of a term (R99). -/
def termKey (v : FVal) : Win := match v with
  | .nan => .nan
  | v => .fin (keyOf32 (toF32 v))

/-- `a` is below `b` in the order of MAX: by exact value for int8 rows, else by order key (R99, R156). -/
def belowMax (int8 : Bool) (a b : FVal) : Bool :=
  if int8 then ltF a b
  else match termKey a, termKey b with
    | .fin x, .fin y => decide (x < y)
    | _, _ => false

/-- The position that supplies the maximum of a column: the lowest NaN, else the lowest greatest (R99, R168). -/
def supplier (int8 : Bool) (col : List FVal) : Nat × FVal :=
  let l := (List.range col.length).zip col
  match l.find? (fun x => x.2 == .nan) with
  | some x => x
  | none => match l with
    | [] => (0, .fin false 0 0)
    | x :: r => r.foldl (fun m y => if belowMax int8 m.2 y.2 then y else m) x

/-- Column `i` of the terms. -/
def column (l : List (List FVal)) (i : Nat) : List FVal := l.map (fun row => nth row i (.fin false 0 0))

/-- The pooled elements of a bag in VFMT (R155, R156). -/
def poolBag (r : TableRec) (b : BitVec 256) (l : List (List FVal)) : List Nat :=
  let f := (floatFmt (emVfmt b)).getD fmtFp32
  if l.isEmpty then List.replicate r.dim 0
  else if emPool b = poMAX then
    (List.range r.dim).map (fun i =>
      let v := (supplier (r.rfmt == 8) (column l i)).2
      convF (if r.rfmt = 8 then plusZero v else v) f)
  else
    let e := (termsExp l).getD (-149)
    let op := if emPool b = poMEAN then opMEAN else opSUM
    (sumTerms r.dim (emW96 b) e l).map (fun w => (outWin op 5 (emVfmt b) (emW96 b) e l.length w).1)

/-- The order key of an int8 term's exact value: above every key of R99 in magnitude, so that a home tells the two apart
(log entry 83). A product has at most 31 significant bits; a zero counts as +0, whose key is 0 (R156). -/
def wideKey (v : FVal) : Win :=
  match v with
  | .nan => .nan
  | .inf neg => .fin (if neg then -(2 ^ 43) else 2 ^ 43)
  | .fin neg m q =>
    if m = 0 then .fin 0
    else
      let k : Int := 2 ^ 42 + (m.log2 + q + 1024) * 2 ^ 30 + (m * 2 ^ (30 - m.log2) - 2 ^ 30 : Nat)
      .fin (if neg then -k else k)

/-- The value that a key carries: of R99, or of an int8 term. -/
def keyVal (w : Win) : FVal :=
  match w with
  | .fin k =>
    let a := k.natAbs
    if a < 2 ^ 42 then decodeF fmtFp32 (of32Key k)
    else if 2 ^ 43 ≤ a then .inf (decide (k < 0))
    else
      let d := a - 2 ^ 42
      .fin (decide (k < 0)) (2 ^ 30 + d % 2 ^ 30) ((d / 2 ^ 30 : Nat) - 1024 - 30)
  | _ => .nan

/-- The greater of two keys by what they carry: NaN absorbs, −0 below +0 (R99, R156). -/
def keyMax (a b : Win) : Win :=
  match a, b with
  | .nan, _ => .nan
  | _, .nan => .nan
  | a, b => match keyVal a, keyVal b with
    | .fin x 0 _, .fin y 0 _ => if x && !y then b else a
    | v, w => if ltF v w then b else a

/-- The greatest keys over a shard's terms (R160). -/
def poolKeys (r : TableRec) (l : List (List FVal)) : List Win :=
  let key := if r.rfmt = 8 then wideKey else termKey
  (List.range r.dim).map (fun i => match column l i with
    | [] => .fin 0
    | v :: vs => vs.foldl (fun m x => keyMax m (key x)) (key v))

/-! ## Rockpool (R163 to R165) -/

/-- Bytes of Rockpool that a table's lines hold on a die. -/
def rpHeld (s : State) (d : Nat) (r : TableRec) : Nat :=
  spaceStride r 0 * (s.emb.rockpool.filter (fun x => x.1 == d && x.2.table == r.table)).length

/-- Bytes of a Rockpool line's row. -/
def lineBytes (s : State) (x : RpLine) : Nat := ((getTable s x.table).map (fun t => spaceStride t.info 0)).getD 0

/-- Rockpool of a core die: 16 MiB (R163). -/
def rpSize : Nat := 16 * 2 ^ 20

/-- Fill a row into its set (R164): into the lowest free way, or over the line with the lowest counter, the lowest
way on a tie; a table at its share takes only a line of its own. A die whose 16 MiB are taken counts as a full set, and a
row that even then does not fit is not cached (R163, log entry 84). -/
def rpFill (r : TableRec) (row : Nat) (s : State) : State :=
  let d := r.die
  let set := Config.rockpoolSet r.table row
  let lines := (s.emb.rockpool.filter (fun x => x.1 == d && x.2.set == set)).map (·.2)
  let full := decide (r.rpShare * 262144 < rpHeld s d r + spaceStride r 0)
  let pool := if full then lines.filter (fun x => x.table == r.table) else lines
  let held := sumOf (s.emb.rockpool.filter (fun x => x.1 == d)) (fun x => lineBytes s x.2)
  let free := if rpSize < held + spaceStride r 0 then none else (List.range 16).find? (fun w => !lines.any (fun x => x.way == w))
  let victim := (sortBy (·.way) pool).foldl (fun (m : Option RpLine) x => match m with
    | none => some x
    | some y => if x.hits < y.hits then some x else some y) none
  let way : Option Nat := if full then victim.map (·.way) else match free with
    | some w => some w
    | none => victim.map (·.way)
  match way with
  | none => s
  | some w =>
    let old := sumOf (lines.filter (fun x => x.way == w)) (lineBytes s)
    if r.rpShare = 0 ∨ rpSize + old < held + spaceStride r 0 then s
    else onEmb (fun e => { e with
      rockpool := e.rockpool.filter (fun x => !(x.1 == d && x.2.set == set && x.2.way == w)) ++ [(d, ⟨set, w, r.table, row, 0⟩)] }) s

/-- A table above its share gives up lines: the lowest counters first, then the lowest set and way (R163, log entry 84). -/
def rpTrim (r : TableRec) (s : State) : State :=
  let mine (x : Nat × RpLine) : Bool := x.1 == r.die && x.2.table == r.table
  let l := sortBy (fun x => x.2.hits) (sortBy (fun x => x.2.set) (sortBy (fun x => x.2.way) (s.emb.rockpool.filter mine)))
  let keep := l.drop (l.length - r.rpShare * 262144 / spaceStride r 0)
  onEmb (fun e => { e with rockpool := e.rockpool.filter (fun x => !mine x || keep.contains x) }) s

/-- Reading a row: a hit raises the line's counter; a miss reads HBM3, and the second one within 1 ms admits the
row (R164; log entry 105). The bits read are the same (R165). -/
def touchRow (r : TableRec) (row : Nat) (s : State) : State :=
  let d := r.die
  let mine (x : Nat × RpLine) : Bool := x.1 == d && x.2.table == r.table && x.2.row == row
  if s.emb.rockpool.any mine then
    count (kDie d iRP_HIT) (onEmb (fun e => { e with
      rockpool := e.rockpool.map (fun x => if mine x then (x.1, { x.2 with hits := min 15 (x.2.hits + 1) }) else x) }) s)
  else
    let s := countN (kDie d iHBM_RD) (spaceStride r 0) (count (kDie d iRP_MISS) s)
    let same (x : Nat × Nat × Nat × Nat) : Bool := x.1 == d && x.2.1 == r.table && x.2.2.1 == row
    if s.emb.missed.any (fun x => same x && decide (s.tide.now < x.2.2.2 + 1000000)) then
      rpFill r row (onEmb (fun e => { e with missed := e.missed.filter (fun x => !same x) }) s)
    else
      onEmb (fun e =>
        let l := (d, r.table, row, s.tide.now) :: e.missed.filter (fun x => !same x)
        { e with missed := (l.filter (fun x => x.1 == d)).take 65536 ++ l.filter (fun x => x.1 != d) }) s

/-- Invalidate a table's cached rows that `f` selects. -/
def rpDrop (t : Nat) (f : Nat → Bool) : State → State :=
  onEmb (fun e => { e with rockpool := e.rockpool.filter (fun x => !(x.2.table == t && f x.2.row)) })

/-- ROCKPOOL_DECAY: every 1 ms of Tide every hit counter is halved (R164). -/
def execRockpoolDecay (s : State) : Host.Outcome State Fault Refusal :=
  .next (if s.stop.frozen || !regsLive s || !due s (s.emb.rpDecayAt + 1000000) then s
    else onEmb (fun e => { e with
      rpDecayAt := e.rpDecayAt + 1000000, rockpool := e.rockpool.map (fun x => (x.1, { x.2 with hits := x.2.hits / 2 })) }) s)

/-! ## Answers (R153, R170, R183) -/

/-- The core die of a table; its answers are built there (R282). -/
def tableDie (s : State) (tid : Nat) : Nat := ((getTable s tid).map (fun t => t.info.die)).getD 0

/-- EMB_FAIL for a bag or gradient (R153); EMB_FAILS counts it where the table exists. -/
def embFailTo (dst job table step bag status : Nat) (s : State) : State :=
  let s := if (getTable s table).isSome then count (kTable table iEMB_FAILS) s else s
  builtOn (tableDie s table) (originate (embCtl 0x51 table step bag status none false false dst job)) s

/-- A whole stream ends with EMB_FAIL; its pieces are freed. -/
def failStream (x : Stream) (status : Nat) (s : State) : State :=
  freeAll x.bufs (embFailTo x.src x.job (emTable x.sub) (emStep x.sub) (emBag x.sub) status s)

/-- GRAD_ACK. -/
def gradAckTo (dst job table step bag : Nat) (recovered : Bool) : State → State :=
  originate (embCtl 0x50 table step bag 0 none false recovered dst job)

/-! ## Serving a bag at its table (R150, R155 to R157, R160) -/

/-- The pool array that serves a table's next work: one of the enabled arrays of PA_MASK (R157). -/
def poolArray (s : State) (t : Table) : Nat :=
  match (bitsOf 4 t.info.paMask).filter (paEnabled s t.info.die) with
  | [] => 4
  | [a] => a
  | l => nth l (Config.poolChoice t.info.table t.served % l.length) 4

/-- A recovery on array `a` (4: any of the table's) touched the work in progress of a table: what it does in the instant
of the detection (R25, R184). -/
def touchedNow (s : State) (t : Table) (a : Nat) : Bool :=
  t.touched.any (fun e => e.2 == s.tide.now && (e.1 == a || e.1 == 4 || a == 4))

/-- A pool array takes a table's work: whether a recovery touched it, which no later work then sees (R24, R184). -/
def takeTouched (tid : Nat) (s : State) : Bool × State :=
  match getTable s tid with
  | none => (false, s)
  | some t => (touchedNow s t (poolArray s t), onTable tid (fun t => { t with touched := [], served := t.served + 1 }) s)

/-- The key of a bag at a table. -/
def sameBag (src : Nat) (b : BitVec 256) (x : ShardBag) : Bool :=
  x.src == src && emTable x.stream.sub == emTable b && emStep x.stream.sub == emStep b && emBag x.stream.sub == emBag b

/-- A shard's SUB_BAG has ended (R160, R162). -/
def dropShardBag (src : Nat) (b : BitVec 256) (s : State) : State :=
  let s := freeAll ((s.emb.shardBags.filter (sameBag src b)).flatMap (fun x => x.stream.bufs)) s
  onEmb (fun e => { e with shardBags := e.shardBags.filter (fun x => !sameBag src b x) }) s

/-- Serve an admitted BAG or SUB_BAG; a local row of a SUB_BAG is translated by the IMODE of the shard's own table (log entry
105). -/
def serveBag (tid : Nat) (x : Stream) (s : State) : State :=
  match getTable s tid with
  | none => failStream x stNORES s
  | some t =>
    let r := t.info
    let b := x.sub
    match allSome ((emIndices b x.bytes).map (translate r.imode r.rows r.seed)) with
    | none => failStream x stBAD (count (kTable tid iEMB_OOR) s)
    | some rows =>
      let s := forAll rows (touchRow r) s
      let s := countN (kTable tid iBAG_ROWS) rows.length (count (kTable tid iBAGS) s)
      let raw := rows.map (rowBytes t 0)
      let terms := bagTerms r raw (emWeights b x.bytes)
      let h : EmbHdr := {
        kind := ekPOOLED, pool := emPool b, w96 := emW96 b, vfmt := emVfmt b, table := tid, step := emStep b, bag := emBag b,
        nidx := emNidx b, ntot := emNtot b, dim := r.dim }
      if emKind b = ekSUB_BAG then
        let s := dropShardBag x.src b s
        if emPool b = poMAX then
          freeAll x.bufs (emit { h with kind := ekSUB_POOLED, vfmt := 0 } (winBytes (emW96 b) (poolKeys r terms)) x.src x.job s)
        else
          let s := onEmb (fun e => { e with
            shardBags := e.shardBags ++ [{ src := x.src, stream := { x with tag := mgetD e.tags tid 0 }, rows := raw }] }) s
          originate (embCtl 0x53 tid (emStep b) (emBag b) 0 (termsExp terms) (termsExp terms).isNone false x.src x.job) s
      else
        let m := takeTouched tid s
        freeAll x.bufs (emit { h with empty := rows.isEmpty, recovered := m.1 }
          ((poolBag r b terms).flatMap (bytesLE (elemSize (emVfmt b)))) x.src x.job m.2)

/-! ## Serving a gradient (R167 to R170) -/

/-- A float value divided by n, truncated toward zero at the window (R91, R167). -/
def toWindowQ (v : FVal) (e : Int) (f n : Nat) : Win :=
  match v with
  | .nan => .nan
  | .inf neg => if neg then .negInf else .posInf
  | .fin neg m q =>
    if m = 0 then .fin 0
    else if e < floorLog2Ratio m n + q then (if neg then .negSat else .posSat)
    else
      let sh := q - (e - f)
      let a : Int := ((m * 2 ^ sh.toNat) / (2 ^ (-sh).toNat * n) : Nat)
      .fin (if neg then -a else a)

/-- The terms a gradient adds for each position: none where it adds nothing to an element (R167, R168). -/
def gradTerms (r : TableRec) (b : BitVec 256) (g : List FVal) (ws : Option (List Nat)) (raw : List (List Byte)) :
    List (List (Option Win)) :=
  let f := winF r.gw96
  let n := raw.length
  match emPool b with
  | 1 => List.replicate n (g.map (fun v => some (toWindowQ v r.gradE f (max 1 (emNtot b)))))
  | 2 =>
    let terms := bagTerms r raw none
    let sup := (List.range r.dim).map (fun i => (supplier (r.rfmt == 8) (column terms i)).1)
    (List.range n).map (fun j => (sup.zip g).map (fun x => if x.1 = j then some (toWindow x.2 r.gradE f) else none))
  | 3 => (ws.getD []).map (fun w => g.map (fun v => some (toWindow (mulF (decodeF fmtFp32 w) v) r.gradE f)))
  | _ => List.replicate n (g.map (fun v => some (toWindow v r.gradE f)))

/-- Add terms into a shadow entry; a sum of finite terms stays exact, be it beyond the window's range (log entry 105). -/
def addTerms (old : List Win) (ts : List (Option Win)) : List Win :=
  (old.zip ts).map (fun x => match x.2 with
    | some w => combine x.1 w
    | none => x.1)

/-- The window of a source (R170). -/
def bagWin (t : Table) (src : Nat) : BagWin := (t.windows.find? (fun w => w.src == src)).getD { src := src }

/-- Advance a window past answered BAG_IDs; `fuel` bounds the ids. -/
def advanceWin : Nat → BagWin → BagWin
  | 0, w => w
  | n + 1, w => if w.marks.any (fun m => m.1 == w.base) then advanceWin n { w with base := w.base + 1 } else w

/-- Mark a BAG_ID answered with its status (R170). -/
def markBag (bag status : Nat) (w : BagWin) : BagWin :=
  let w := { w with marks := w.marks.filter (fun m => m.1 != bag) ++ [(bag, status)] }
  advanceWin w.marks.length w

def onBagWin (tid src : Nat) (f : BagWin → BagWin) : State → State :=
  onTable tid (fun t => { t with windows := t.windows.filter (fun w => w.src != src) ++ [f (bagWin t src)] })

/-- Distinct elements, in order. -/
def distinct (l : List Nat) : List Nat := l.foldl addNew []

/-- Serve an admitted GRAD or SUB_GRAD (R150, R167 to R170). -/
def serveGrad (tid : Nat) (x : Stream) (s : State) : State :=
  match getTable s tid with
  | none => failStream x stNORES s
  | some t =>
    let r := t.info
    let b := x.sub
    let bag := emBag b
    let w := bagWin t x.src
    match w.marks.find? (fun m => m.1 == bag) with
    | some m =>
      let s := count (kTable tid iGRAD_DUP) s
      if m.2 = stDONE then freeAll x.bufs (gradAckTo x.src x.job tid (emStep b) bag false s) else failStream x m.2 s
    | none =>
      if w.base + 256 ≤ bag then freeAll x.bufs (count (kTable tid iGRAD_EARLY) s)
      else
        match allSome ((emIndices b x.bytes).map (translate r.imode r.rows r.seed)) with
        | none => failStream x stBAD (onBagWin tid x.src (markBag bag stBAD) (count (kTable tid iEMB_OOR) s))
        | some rows =>
          let g := match floatFmt (emVfmt b) with
            | some f => (elems (elemSize (emVfmt b)) (x.bytes.take (emHead b))).map (decodeF f)
            | none => []
          let raw := rows.map (rowBytes t 0)
          let s := if emPool b = poMAX then forAll rows (touchRow r) s else s
          let ts := gradTerms r b g (emWeights b x.bytes) raw
          let adds := (rows.zip ts).filter (fun y => y.2.any Option.isSome)
          let fresh := distinct ((adds.map (·.1)).filter (fun y => (mget t.shadow y).isNone))
          if r.shadowRows < t.shadow.length + fresh.length then
            failStream x stNORES (onBagWin tid x.src (markBag bag stNORES) (onTable tid (fun t => { t with overflowed := true }) s))
          else
            let zero := List.replicate r.dim (Win.fin 0)
            let s := onTable tid (fun t => { t with
              shadow := adds.foldl (fun m y => mput m y.1 (addTerms (mgetD m y.1 zero) y.2)) t.shadow }) s
            let n := adds.length * r.dim * winSize r.gw96
            let s := countN (kDie r.die iHBM_WR) n (countN (kDie r.die iHBM_RD) n s)
            let m := takeTouched tid (count (kTable tid iGRADS) (onBagWin tid x.src (markBag bag stDONE) s))
            freeAll x.bufs (gradAckTo x.src x.job tid (emStep b) bag m.1 m.2)

/-- Serve an admitted stream. -/
def serve (tid : Nat) (x : Stream) : State → State := if emIsGrad x.sub then serveGrad tid x else serveBag tid x

/-! ## Admission (R153, R172) -/

inductive Adm where
  | pass | wait | refuse (status : Nat)
deriving DecidableEq, Repr

/-- R172: the outcome for a bag or gradient of step `st`. -/
def admission (t : Table) (st : Nat) : Adm :=
  let begun := match t.sched with
    | some c => c.begun && c.step == st
    | none => false
  let next := match t.sched with
    | some c => decide ((c.step + 1) % 2 ^ 32 = st)
    | none => false
  if (t.applied + 1) % 2 ^ 32 = st ∧ begun = false then .pass
  else if st ≤ t.applied ∨ begun = true then .refuse stSTALE
  else if (t.applied + 2) % 2 ^ 32 = st ∧ next = true then .wait
  else .refuse stHELD

/-- R153 step 2. -/
def tableStatus (t : Option Table) : Option Nat :=
  match t with
  | none => some stNORES
  | some t => match t.state with
    | .active => none
    | .loading => some stHELD
    | .quiescing => some stHELD
    | .quiesced => some stHELD
    | _ => some stNORES

/-- A packet that an attachment port may not bring in: the port is unbound, or the job is not bound to it
(R232, R241). -/
def portDenies (s : State) (port : Nat) (p : Packet) : Bool :=
  decide (port < 768) && !isFabric s port && ((boundAt s port p).isNone || !jobBound s port p)

/-- Count a refusal for the job (R232). -/
def noteJobDeny (s : State) (port : Nat) (p : Packet) : State → State :=
  onlyIf (decide (port < 768) && (boundAt s port p).isSome && !jobBound s port p) (count (kPort port iJOB_DENY))

/-- The Cove a bag or gradient carries: the bound port's where the packet enters the fabric (R141). -/
def coveOf (s : State) (port : Nat) (p : Packet) : Nat :=
  match boundAt s port p with
  | some x => x.cove
  | none => emCove p.sub

/-! ## Streams (R152, R153, R294, R295) -/

/-- The same stream: source, table, step and BAG_ID (R153). A logical table, a table here and the shard table that a
SUB_POOLED comes from are three tables, whatever their numbers. -/
def sameStream (src : Nat) (b : BitVec 256) (x : Stream) : Bool :=
  x.src == src && (emKind x.sub == ekSUB_POOLED) == (emKind b == ekSUB_POOLED) && emSplit x.sub == emSplit b
  && emTable x.sub == emTable b && emStep x.sub == emStep b && emBag x.sub == emBag b

/-- Buffers of a SUB_POOLED that a bag home awaits (R295). -/
def subRoom (dim : Nat) (w96 : Bool) : Nat :=
  sumOf (pieces 8160 (List.replicate (dim * winSize w96) ())) (fun x => ceilDiv (48 + x.length) 256)

/-- The SUB_POOLED stream of a shard of a home. -/
def isSubOf (h : HomeBag) (x : Stream) : Bool :=
  emKind x.sub == ekSUB_POOLED && h.works.any (fun w =>
    let e := nth h.shards w.shard (0, 0, 0)
    x.src == e.2.1 && emTable x.sub == e.2.2 && emStep x.sub == h.step && emBag x.sub == w.subId)

/-- A packet is a SUB_POOLED that a home awaits. -/
def isSubPkt (h : HomeBag) (k : Packet) : Bool :=
  k.ptype != 0 && k.ovc == vcEMB && emKind k.sub == ekSUB_POOLED && h.works.any (fun w =>
    let e := nth h.shards w.shard (0, 0, 0)
    k.src == e.2.1 && emTable k.sub == e.2.2 && emStep k.sub == h.step && emBag k.sub == w.subId)

/-- Embedding reservation of a die in use: packets charged to it, and the room that homes hold beyond what has
come (R294, R295). -/
def embUsed (s : State) (d : Nat) : Nat :=
  charge s (.emb d) + sumOf (s.emb.homes.filter (fun h => h.die == d && !h.isGrad)) (fun h =>
    h.works.length * subRoom (emDim h.sub) (emW96 h.sub)
    - sumOf (s.shoal.stored.filter (fun x => x.acct == .emb d && isSubPkt h x.pkt)) (fun x => x.bufs.length))

/-- A stored packet is charged to an embedding reservation. -/
def inEmb (x : Stored) : Bool :=
  match x.acct with
  | .emb _ => true
  | _ => false

/-- The reservation of a die takes a packet's buffers, where they are not in one already (R294). -/
def embFits (s : State) (d : Nat) (bufs : List (Nat × Nat)) : Bool :=
  bufs.all (fun e => match storedAt s e.1 e.2 with
    | some x => inEmb x || decide (embUsed s d + x.bufs.length ≤ s.shoal.cfg.embRes * 256)
    | none => true)

/-- A packet is admitted into the embedding reservation of a die. -/
def keepEmb (d : Nat) (bufs : List (Nat × Nat)) : State → State :=
  forAll bufs (fun e => onStored e.1 e.2 (fun x => { x with owners := [ownEmb e.2], acct := if inEmb x then x.acct else .emb d }))

/-- Take a piece: PIECE 0 begins its stream again; one out of order is dropped with those held, and counted
(R153). The result is the whole stream, and whether every piece but the last was full. -/
def gather (d src job port : Nat) (p : Packet) (bufs : List (Nat × Nat)) (s : State) : State × Option (Stream × Bool) :=
  let b := p.sub
  let old := s.emb.streams.find? (sameStream src b)
  let s := onEmb (fun e => { e with streams := e.streams.filter (fun x => !sameStream src b x) }) s
  let held := (old.map (·.bufs)).getD []
  let x0 : Option Stream :=
    if emPiece b = 0 then some { src := src, sub := b, job := job, next := 0, bytes := [], port := port }
    else match old with
      | some x => if x.next = emPiece b ∧ emKind x.sub = emKind b then some x else none
      | none => none
  match x0 with
  | none => (freeAll (held ++ bufs) (count (kDie d iEMB_DROP) s), none)
  | some x =>
    let s := if emPiece b = 0 then freeAll held s else s
    let full := decide (x.bytes.length = 8160 * x.next)
    let s := keepEmb d bufs s
    let x := { x with next := x.next + 1, bytes := x.bytes ++ p.data, bufs := x.bufs ++ bufs }
    if emLast b then (s, some (x, full))
    else (onEmb (fun e => { e with streams := e.streams ++ [x] }) s, none)

/-- The core die of a table, or of the port a packet came on. -/
def embDie (s : State) (tid port : Nat) : Nat :=
  match getTable s tid with
  | some t => t.info.die
  | none => if port < 768 then dieOf port else 0

/-- A table's work may run: one of its enabled pool arrays has its gate open, or none is enabled (R30, R157). -/
def paReady (s : State) (tid : Nat) : Bool :=
  match getTable s tid with
  | none => true
  | some t =>
    let l := (bitsOf 4 t.info.paMask).filter (paEnabled s t.info.die)
    l.isEmpty || l.any (fun r => gateOpen s (4 * t.info.die + r))

/-! ## The optimiser (R175, R176) -/

def f32one : Nat := 0x3F800000

/-- fp32 elements of a row of a space. -/
def rowF32 (t : Table) (sp row n : Nat) : List Nat := elems 4 ((rowBytes t sp row).take (4 * n))

def zip2 (f : Nat → Nat → Nat) (a b : List Nat) : List Nat := (a.zip b).map (fun x => f x.1 x.2)

/-- Adjacent pairs added up to one value (R175). -/
def pairwise (l : List Nat) : Nat := treeUp l.length l

/-- An int8 element from w and the row's scale (R176). -/
def quant8 (w scale : Nat) : Nat :=
  let lim (v : Int) : Int := max (-127) (min 127 v)
  match decodeF fmtFp32 w, decodeF fmtFp32 scale with
  | .fin _ 0 _, .fin _ 0 _ => ofSigned 8 (lim (Config.openQuotient w scale).toInt)
  | .fin x _ _, .fin y 0 _ => ofSigned 8 (lim (if x != y then -127 else 127))
  | .fin x m q, .fin y n r =>
    let k := q - r
    let a : Int := divEven (m * 2 ^ k.toNat) (n * 2 ^ (-k).toNat)
    ofSigned 8 (lim (if x != y then -a else a))
  | .fin _ _ _, .inf _ => 0
  | _, _ => ofSigned 8 (lim (Config.openQuotient w scale).toInt)

/-- The row bytes of updated weights (R176). -/
def rowOfF32 (r : TableRec) (w : List Nat) : List Byte :=
  match floatFmt r.rfmt with
  | some f => w.flatMap (fun x => bytesLE (elemSize r.rfmt) (convF (decodeF fmtFp32 x) f))
  | none =>
    if w.any (fun x => decodeF fmtFp32 x == .nan) then bytesLE 4 f32nan ++ List.replicate (4 + r.dim) 0
    else if w.all (fun x => x % 2 ^ 31 == 0) then List.replicate (8 + r.dim) 0
    else
      let scale := f32div (w.foldl (fun m x => max m (x % 2 ^ 31)) 0) (f32ofNat 127)
      bytesLE 4 scale ++ List.replicate 4 0 ++ w.flatMap (fun x => bytesLE 1 (quant8 x scale))

/-- The optimiser on one touched row (R175 to R177). -/
def applyRow (row : Nat) (sh : List Win) (t : Table) : Table :=
  let r := t.info
  let g := sh.map (fun v => (outWin opSUM 5 5 r.gw96 r.gradE 1 v).1)
  let w := if r.master then rowF32 t 1 row r.dim else (rowVals r (rowBytes t 0 row)).map toF32
  let gp := if r.wd % 2 ^ 31 = 0 then g else zip2 f32add g (w.map (f32mul r.wd))
  let out : List Nat × Table :=
    match r.opt with
    | 1 => (zip2 f32sub w (gp.map (f32mul r.lr)), t)
    | 2 =>
      let m := zip2 f32add ((rowF32 t 2 row r.dim).map (f32mul r.mu)) gp
      (zip2 f32sub w (m.map (f32mul r.lr)), putRow 2 row (m.flatMap (bytesLE 4)) t)
    | 3 =>
      let gg := f32add ((rowF32 t 2 row 1).headD 0) (f32div (pairwise (gp.map (fun x => f32mul x x))) (f32ofNat r.dim))
      let den := f32add (f32sqrt gg) r.eps
      (zip2 f32sub w (gp.map (fun x => f32div (f32mul r.lr x) den)), putRow 2 row (bytesLE 4 gg) t)
    | 4 =>
      let m := zip2 f32add ((rowF32 t 2 row r.dim).map (f32mul r.beta1)) (gp.map (f32mul (f32sub f32one r.beta1)))
      let v := zip2 f32add ((rowF32 t 3 row r.dim).map (f32mul r.beta2)) (gp.map (fun x => f32mul (f32mul (f32sub f32one r.beta2) x) x))
      let a := f32div (f32mul r.lr (f32sqrt (f32sub f32one r.p2))) (f32sub f32one r.p1)
      (zip2 f32sub w (zip2 (fun mi vi => f32div (f32mul a mi) (f32add (f32sqrt vi) r.eps)) m v),
        putRow 3 row (v.flatMap (bytesLE 4)) (putRow 2 row (m.flatMap (bytesLE 4)) t))
    | _ => (w, t)
  let t := if r.master then putRow 1 row (out.1.flatMap (bytesLE 4)) out.2 else out.2
  putRow 0 row (rowOfF32 r out.1) t

/-- The table as an apply sees it: the hyperparameters in force at step 1 (R178). -/
def atStep1 (c : Sched) (t : Table) : Table :=
  match c.hyper with
  | none => t
  | some h => { t with info := { t.info with
      lr := h.lr, mu := h.mu, beta1 := h.beta1, beta2 := h.beta2, eps := h.eps, wd := h.wd } }

/-- p1 and p2 at the start of an apply of Adam (R175). -/
def adamPowers (r : TableRec) : TableRec :=
  if r.opt = 4 then { r with p1 := f32mul r.p1 r.beta1, p2 := f32mul r.p2 r.beta2 } else r

/-- HBM bytes an apply moves for a row: shadow read; state and master read and written; row written (R185). -/
def applyBytes (r : TableRec) : Nat × Nat :=
  let st := sumOf ((List.range 4).filter (fun sp => sp != 0 && hasSpace r sp)) (spaceStride r)
  (st + r.dim * winSize r.gw96, st + spaceStride r 0)

/-! ## The apply (R172 to R174, R178) -/

/-- Report an apply: its TABLE_APPLY completes, or APPLY_DONE goes to OWNER (R174). -/
def reportApply (t : Table) (c : Sched) (status : Nat) (recovered : Bool) (s : State) : State :=
  match c.desc with
  | some ri => (match findDesc s ri.1 ri.2 with
    | some d => complete d status 0 false recovered s
    | none => s)
  | none => originate (embCtl 0x55 t.info.table c.step 0 status none false recovered (t.info.owner.getD 0) c.job) s

/-- The number of the pool array that takes a table's next work: 16 times its die, and its unit (R157). -/
def bagArray (s : State) (t : Table) : Nat := 16 * t.info.die + 8 + poolArray s t

/-- Steps 3 to 6 of R174, then the bags that waited are admitted (R172), PRIMARY before FILL (R233). -/
def finishApply (tid : Nat) (s : State) : State :=
  match getTable s tid with
  | none => s
  | some t => match t.sched with
    | none => s
    | some c =>
      let t0 := t
      let t := atStep1 c t
      let t := { t with info := adamPowers t.info }
      let rows := if t.overflowed then [] else t.shadow
      let sat := rows.any (fun x => x.2.any isSat)
      let st := if t.overflowed then stNORES else if sat then stOVERFLOW else stDONE
      let t' := rows.foldl (fun t x => applyRow x.1 x.2 t) t
      let m := takeTouched tid s
      let s := forAll (rows.map (·.1)) (touchRow t.info) m.2
      let s := countN (kDie t.info.die iHBM_WR) (rows.length * (applyBytes t.info).2)
        (countN (kDie t.info.die iHBM_RD) (rows.length * (applyBytes t.info).1) s)
      let s := onTable tid (fun u => { t' with
        info := { t0.info with p1 := t.info.p1, p2 := t.info.p2 }, touched := u.touched, served := u.served,
        shadow := [], windows := [], overflowed := false, applied := c.step, sched := none, waiting := [] }) s
      let s := reportApply t c st m.1 (count (kTable tid iAPPLIES) s)
      if t.state = .destroying then forAll t.waiting (fun x => failStream x.stream stABORTED) s
      else
        let a := bagArray s t
        let order := byClass (fun x => isFill s x.stream.job) t.waiting.length (turnOfArray s a) t.waiting
        let s := onlyIf (!t.waiting.isEmpty) (setTurn a order.2) s
        forAll order.1 (fun x s => match getTable s tid with
        | none => failStream x.stream stNORES s
        | some t => match admission t (emStep x.stream.sub) with
          | .pass => serve tid x.stream s
          | .wait => onTable tid (fun t => { t with waiting := t.waiting ++ [x] }) s
          | .refuse st => failStream x.stream st s) s

/-- A table has SUB_BAGs in progress. -/
def hasShardBags (s : State) (tid : Nat) : Bool := s.emb.shardBags.any (fun x => emTable x.stream.sub == tid)

/-- An apply that has begun goes on once every admitted bag of its step has ended (R174 step 2). -/
def goApply (tid : Nat) (s : State) : State :=
  match (getTable s tid).bind (·.sched) with
  | some c => if c.begun ∧ ¬ hasShardBags s tid then builtOn (tableDie s tid) (finishApply tid) s else s
  | none => s

/-- A descriptor runs from now on to its own end (R436). -/
def nowRunning (ri : Option (Nat × Nat)) : State → State :=
  onHost (fun h => { h with accepted := h.accepted.map (fun e => if ri = some (e.ring, e.idx) then { e with stage := .running } else e) })

/-- The Tidemark of a scheduled apply has passed: the step closes and the apply runs, unless the table is
QUIESCED (R174 step 1, R182). -/
def beginApply (tid : Nat) (s : State) : State :=
  match getTable s tid with
  | none => s
  | some t => match t.sched with
    | none => s
    | some c =>
      if ¬ engineOn s ∨ ¬ due s c.mark ∨ ¬ paReady s tid ∨ ¬ (t.state = .active ∨ t.state = .quiescing) then s
      else goApply tid (nowRunning c.desc (onTable tid (fun t => { t with sched := some { c with begun := true, hyper := some t.info } }) s))

def execTableApplyTidemark (table : Nat) (s : State) : Host.Outcome State Fault Refusal := .next (whenLive (beginApply table) s)

/-- A request for an apply is refused (R173). -/
def applyBad (t : Table) (step : Nat) : Bool :=
  decide (step ≠ (t.applied + 1) % 2 ^ 32) || t.sched.isSome || t.applied == 0xFFFFFFFF

/-- APPLY from an endpoint (R173). -/
def doApply (port : Nat) (p : Packet) (s : State) : State :=
  if ¬ engineFor s port p then s
  else
    let bound := boundAt s port p
    let s := freeAll (deliveredAt s port p) (takeDelivered port p s)
    let b := p.ctl
    let tid := ecTable b
    let refuse (st : Nat) : State := backOn port (embFailTo p.src p.job tid (ecStep b) 0 st) s
    if port < 768 ∧ ¬ isFabric s port ∧ bound.isNone then refuse stDENIED
    else match getTable s tid with
      | none => refuse stNORES
      | some t => match tableStatus (some t) with
        | some st => refuse st
        | none =>
          if t.info.owner ≠ some p.src ∨ applyBad t (ecStep b) then refuse stBAD
          else beginApply tid (onTable tid (fun t => { t with sched := some { step := ecStep b, mark := fld b 71 8, job := p.job } }) s)

def execApplyReq (port : Nat) (p : Packet) (s : State) : Host.Outcome State Fault Refusal := .next (doApply port p s)

/-! ## Commands: pieces at a table -/

/-- A whole BAG, GRAD, SUB_BAG or SUB_GRAD at its table: R153 steps 2 to 5. -/
def takeStream (port cove : Nat) (full : Bool) (x : Stream) (s : State) : State :=
  let b := x.sub
  let tid := emTable b
  match getTable s tid with
  | none => failStream x stNORES s
  | some t =>
    match tableStatus (some t) with
    | some st => failStream x st s
    | none =>
      if cove ≠ t.info.cove then failStream x stDENIED (onlyIf (decide (port < 768)) (count (kPort port iENG_DENY)) s)
      else if emDim b ≠ t.info.dim ∨ 4096 < emNidx b ∨ (emIsGrad b ∧ t.info.opt = 0) ∨ ¬ full ∨ x.bytes.length ≠ emLen b then
        failStream x stBAD s
      else match admission t (emStep b) with
        | .pass => serve tid x s
        | .wait => onTable tid (fun t => { t with
            waiting := t.waiting ++ [{ stream := { x with tag := mgetD s.emb.tags tid 0 }, isGrad := emIsGrad b }] }) s
        | .refuse st =>
          if emKind b = ekSUB_BAG then goApply tid (failStream x st (dropShardBag x.src b s)) else failStream x st s

/-- A piece of a bag or gradient of a class is ready on a pool array, delivered and not yet taken (R233). -/
def bagReady (s : State) (a : Nat) (fill : Bool) : Bool :=
  s.route.toEngine.any (fun e =>
    let p := e.2.1
    p.ptype != 0 && p.ovc == vcEMB && !emSplit p.sub && isFill s p.job == fill && (match getTable s (emTable p.sub) with
      | some t => bagArray s t == a && paReady s (emTable p.sub)
          && embFits s (embDie s (emTable p.sub) e.1) (if e.2.2.1 < 4 then [e.2.2] else [])
      | none => false))

/-- A piece for a table must wait: the pool array that takes it takes the other class first (R233). -/
def bagWaits (s : State) (p : Packet) : Bool :=
  match getTable s (emTable p.sub) with
  | some t => classWaits s (bagArray s t) p.job (bagReady s (bagArray s t))
  | none => false

/-- A pool array takes a piece of a bag or gradient (R233). -/
def noteBagTurn (p : Packet) (s : State) : State :=
  match getTable s (emTable p.sub) with
  | some t => noteTurn (bagArray s t) p.job (bagReady s (bagArray s t) true) s
  | none => s

/-- A piece of a BAG, GRAD, SUB_BAG or SUB_GRAD (R152, R153, R184, R233). -/
def doEmbPiece (kind port : Nat) (p : Packet) (s : State) : State :=
  let b := p.sub
  let bad := ¬ emCodesOk b
  let deny := portDenies s port p
  if ¬ engineFor s port p ∨ (¬ bad ∧ (emKind b ≠ kind ∨ emSplit b = true)) ∨ (¬ bad ∧ ¬ deny = true ∧ p.dst ≠ selfEpid s) then s
  else if ¬ bad ∧ ¬ deny = true ∧ ¬ (paReady s (emTable b) ∧ embFits s (embDie s (emTable b) port) (deliveredAt s port p) ∧ bagWaits s p = false) then s
  else
    let bufs := deliveredAt s port p
    let cove := coveOf s port p
    let denied := noteJobDeny s port p
    let s := takeDelivered port p s
    if bad then freeAll bufs (onlyIf (decide (port < 768)) (count (kPort port iPKT_MALFORMED)) s)
    else if deny then
      let s := freeAll bufs (denied s)
      if emLast b then backOn port (embFailTo p.src p.job (emTable b) (emStep b) (emBag b) stDENIED) s else s
    else
      let out := gather (embDie s (emTable b) port) p.src p.job port p bufs (noteBagTurn p s)
      match out.2 with
      | none => out.1
      | some x => builtOn (embDie s (emTable b) port) (takeStream port cove x.2 x.1) out.1

def execBag (port : Nat) (p : Packet) (s : State) : Host.Outcome State Fault Refusal := .next (doEmbPiece ekBAG port p s)
def execGrad (port : Nat) (p : Packet) (s : State) : Host.Outcome State Fault Refusal := .next (doEmbPiece ekGRAD port p s)
def execSubBag (port : Nat) (p : Packet) (s : State) : Host.Outcome State Fault Refusal := .next (doEmbPiece ekSUB_BAG port p s)
def execSubGrad (port : Nat) (p : Packet) (s : State) : Host.Outcome State Fault Refusal := .next (doEmbPiece ekSUB_GRAD port p s)

/-! ## EXP_DOWN_E at a shard (R160 step 6) -/

def doExpDownE (port : Nat) (p : Packet) (s : State) : State :=
  if ¬ engineFor s port p then s
  else
    let s := freeAll (deliveredAt s port p) (takeDelivered port p s)
    let b := p.ctl
    let tid := ecTable b
    match s.emb.shardBags.find? (fun x => x.src == p.src && emTable x.stream.sub == tid && emStep x.stream.sub == ecStep b
        && emBag x.stream.sub == ecBag b), getTable s tid with
    | some x, some t =>
      let k := x.stream.sub
      let e := toSigned 12 (fld b 31 20)
      let h : EmbHdr := {
        kind := ekSUB_POOLED, pool := emPool k, w96 := emW96 k, table := tid, step := emStep k, bag := emBag k,
        nidx := emNidx k, ntot := emNtot k, exp := e, dim := t.info.dim }
      let ws := sumTerms t.info.dim (emW96 k) e (bagTerms t.info x.rows (emWeights k x.stream.bytes))
      goApply tid (dropShardBag x.src k (builtOn (tableDie s tid) (emit h (winBytes (emW96 k) ws) x.src x.stream.job) s))
    | _, _ => s

def execExpDownE (port : Nat) (p : Packet) (s : State) : Host.Outcome State Fault Refusal := .next (doExpDownE port p s)

end Sys2Proof.Machine
end

