-- ==== Sys2Proof/Machine/EmbHome.lean ====
section
/-! DEFINITION. The bag home of SPLIT bags and gradients (R158 to R162, R171), and the descriptors and states of
tables and shard maps (R142 to R144, R173, R178 to R184). -/

namespace Sys2Proof.Machine

/-! ## The bag home's records -/

/-- A home's record of a SPLIT bag or gradient. -/
def isHome (src : Nat) (grad : Bool) (ltid step bag : Nat) (h : HomeBag) : Bool :=
  h.src == src && h.isGrad == grad && h.ltid == ltid && h.step == step && h.bag == bag

def onHome (h : HomeBag) (f : HomeBag → HomeBag) : State → State :=
  onEmb (fun e => { e with homes := e.homes.map (fun x => if isHome h.src h.isGrad h.ltid h.step h.bag x then f x else x) })

def findHome (s : State) (src : Nat) (grad : Bool) (ltid step bag : Nat) : Option HomeBag :=
  s.emb.homes.find? (isHome src grad ltid step bag)

/-- The shard entry of a part. -/
def shardOfWork (h : HomeBag) (w : SubWork) : Nat × Nat × Nat := nth h.shards w.shard (0, 0, 0)

/-- The part of a home that an answer from a shard belongs to. -/
def findWork (s : State) (src table step bag : Nat) : Option (HomeBag × SubWork) :=
  s.emb.homes.findSome? (fun h => (h.works.find? (fun w =>
    (shardOfWork h w).2.1 == src && (shardOfWork h w).2.2 == table && h.step == step && w.subId == bag)).map (fun w => (h, w)))

def onWork (h : HomeBag) (w : SubWork) (f : SubWork → SubWork) : State → State :=
  onHome h (fun x => { x with works := x.works.map (fun y => if y.shard == w.shard then f y else y) })

/-- Tell the bag's sender (R183: TABLE is the logical table ID). -/
def tellHome (h : HomeBag) (ctype status : Nat) (recovered : Bool) : State → State :=
  builtOn h.die (originate (embCtl ctype h.ltid h.step h.bag status none false recovered h.src h.job))

/-- A home's bag is answered or has failed: its buffers and room are released (R295). -/
def endHome (h : HomeBag) (s : State) : State :=
  let subs := s.emb.streams.filter (isSubOf h)
  let s := freeAll (h.bufs ++ subs.flatMap (·.bufs)) s
  onEmb (fun e => { e with
    homes := e.homes.filter (fun x => !isHome h.src h.isGrad h.ltid h.step h.bag x),
    streams := e.streams.filter (fun x => !isSubOf h x) }) s

/-- The window of a sender of SPLIT GRADs at its home (R170). -/
def homeWin (s : State) (ltid step src : Nat) : BagWin :=
  ((s.emb.homeWins.find? (fun w => w.1 == ltid && w.2.1 == step && w.2.2.src == src)).map (·.2.2)).getD { src := src }

/-- Mark a GRAD answered at its home. -/
def markHome (ltid step src bag status : Nat) (s : State) : State :=
  let w := markBag bag status (homeWin s ltid step src)
  onEmb (fun e => { e with
    homeWins := e.homeWins.filter (fun w => !(w.1 == ltid && w.2.1 == step && w.2.2.src == src)) ++ [(ltid, step, w)] }) s

/-- The parts of a failed gradient that their shards have not answered: their numbers still must be (R170). -/
def orphansOf (h : HomeBag) : List Orphan :=
  if h.isGrad then (h.works.filter (fun w => !w.acked)).map (fun w =>
    let e := shardOfWork h w
    { src := h.src, ltid := h.ltid, bag := h.bag, shard := w.shard, epid := e.2.1, table := e.2.2, step := h.step, subId := w.subId,
      pkts := w.pkts, sentAt := w.sentAt, die := h.die })
  else []

/-- Fail a bag at its home (R162). A GRAD that failed after R153 counts as answered (R170). -/
def failHome (h : HomeBag) (status : Nat) (s : State) : State :=
  let s := onEmb (fun e => { e with orphans := e.orphans ++ orphansOf h }) s
  let s := if h.isGrad ∧ (status = stBAD ∨ status = stNORES) then markHome h.ltid h.step h.src h.bag status s else s
  endHome h (tellHome h 0x51 status false s)

/-- Answer a bag with POOLED (R160 step 7), IDXW 0 (log entry 105). -/
def answerHome (h : HomeBag) (data : List Byte) (empty : Bool) (s : State) : State :=
  let b := h.sub
  let f : EmbHdr := {
    kind := ekPOOLED, pool := emPool b, w96 := emW96 b, vfmt := emVfmt b, table := h.ltid, step := h.step, bag := h.bag,
    nidx := emNidx b, ntot := emNtot b, dim := emDim b, empty := empty, recovered := h.recovered }
  endHome h (builtOn h.die (emit f data h.src h.job) s)

/-- A SPLIT gradient's shards have all acknowledged (R171). -/
def ackHome (h : HomeBag) (s : State) : State :=
  endHome h (tellHome h 0x50 0 h.recovered (markHome h.ltid h.step h.src h.bag stDONE s))

/-- The window exponent of a home's bag (R160 step 5). -/
def homeExp (h : HomeBag) : Int := (h.works.foldl (fun m w => optMax m (w.exp.getD none)) none).getD (-149)

/-- A packet sent again, with RESEND set (R151). -/
def asResend (p : Packet) : Packet := { p with body := bytesBE 32 (setFld p.sub 242 242 1).toNat ++ p.data }

/-- Send a part to its shard; a resend carries RESEND. -/
def sendWork (h : HomeBag) (w : SubWork) (resend : Bool) (s : State) : State :=
  let s := onWork h w (fun x => { x with sentAt := s.tide.now }) s
  builtOn h.die (forAll w.pkts (fun p => originate (if resend then asResend p else p))) s

/-! ## SPLIT_BAG and SPLIT_GRAD (R159, R160, R168, R171) -/

/-- The shard whose range holds a logical row. -/
def shardIndex (shards : List (Nat × Nat × Nat)) (row : Nat) : Nat := (shards.filter (fun e => e.1 ≤ row)).length - 1

/-- One shard's part: the positions in bag order, as 8-byte local rows (R160 step 3, R171; log entry 105). -/
def mkWork (m : ShardMap) (x : Stream) (rows : List Nat) (k subId : Nat) : SubWork :=
  let b := x.sub
  let e := nth m.shards k (0, 0, 0)
  let pos := ((List.range rows.length).zip rows).filter (fun y => shardIndex m.shards y.2 == k)
  let wt := match emWeights b x.bytes with
    | some w => pos.flatMap (fun y => bytesLE 4 (nth w y.1 0))
    | none => []
  let grad := emIsGrad b
  let f : EmbHdr := {
    kind := if grad then ekSUB_GRAD else ekSUB_BAG, pool := emPool b, w96 := emW96 b, idx8 := true,
    vfmt := if grad then emVfmt b else 0, table := e.2.2, step := emStep b, bag := subId, nidx := pos.length,
    ntot := rows.length, dim := emDim b, cove := m.cove }
  let data := x.bytes.take (emHead b) ++ pos.flatMap (fun y => bytesLE 8 (y.2 - e.1)) ++ wt
  { shard := k, positions := pos.map (·.1), subId := subId, pkts := embPkts f data e.2.1 x.job, sentAt := 0 }

/-- The numbers of the SUB_GRADs to a shard table in a step that it has not answered. -/
def unanswered (s : State) (epid table step : Nat) : List Nat :=
  (s.emb.homes.flatMap (fun h => if h.isGrad ∧ h.step = step then
      (h.works.filter (fun w => !w.acked && (shardOfWork h w).2 == (epid, table))).map (·.subId) else []))
  ++ (s.emb.orphans.filter (fun o => o.epid == epid && o.table == table && o.step == step)).map (·.subId)

/-- A SUB_GRAD to the shard table may be sent: its number lies within 256 of the lowest without an answer (R170). -/
def subGradRoom (s : State) (e : Nat × Nat × Nat) (step : Nat) : Bool :=
  let key (x : Nat × Nat × Nat × Nat) : Bool := x.1 == e.2.1 && x.2.1 == e.2.2 && x.2.2.1 == step
  s.emb.subFree.any key || (unanswered s e.2.1 e.2.2 step).all (fun n =>
    decide (((s.emb.subNo.find? key).map (·.2.2.2)).getD 0 < n + 256))

/-- The numbers of the sub-packets of a bag: SUB_GRADs to a shard table from 0 in each step, one that R153 refused first of
all (R170, R171); SUB_BAGs from the home's own count, in the upper half of the numbers (log entry 19). -/
def takeSubId (grad : Bool) (e : Nat × Nat × Nat) (step : Nat) (s : State) : Nat × State :=
  if grad then
    let same (x : Nat × Nat × Nat × Nat) : Bool := x.1 == e.2.1 && x.2.1 == e.2.2 && x.2.2.1 == step
    match s.emb.subFree.find? same with
    | some f => (f.2.2.2, onEmb (fun m => { m with subFree := m.subFree.erase f }) s)
    | none =>
    let n := ((s.emb.subNo.find? same).map (·.2.2.2)).getD 0
    (n, onEmb (fun m => { m with subNo := m.subNo.filter (fun x => !same x) ++ [(e.2.1, e.2.2, step, (n + 1) % 2 ^ 32)] }) s)
  else (2 ^ 31 + s.emb.subBagNo, onEmb (fun m => { m with subBagNo := (m.subBagNo + 1) % 2 ^ 31 }) s)

/-- The parts of a SPLIT bag or gradient, numbered, by ascending shard. -/
def mkWorks (m : ShardMap) (x : Stream) (rows : List Nat) : List Nat → State → List SubWork × State
  | [], s => ([], s)
  | k :: r, s =>
    let i := takeSubId (emIsGrad x.sub) (nth m.shards k (0, 0, 0)) (emStep x.sub) s
    let rest := mkWorks m x rows r i.2
    (mkWork m x rows k i.1 :: rest.1, rest.2)

/-- A whole SPLIT BAG or GRAD at its home; none while its embedding reservation has no room for the answers it
would await (R295), or a shard table has 256 SUB_GRADs to answer (R170, R171). An index out of range is counted in EMB_OOR of
the logical table's number (R150, log entry 84). -/
def takeSplit (die port cove : Nat) (full : Bool) (x : Stream) (s : State) : Option State :=
  let b := x.sub
  let grad := emIsGrad b
  let h : HomeBag := {
    src := x.src, ltid := emTable b, step := emStep b, bag := emBag b, isGrad := grad, sub := b, job := x.job, n := emNidx b,
    shards := [], works := [], die := die, bufs := x.bufs, tag := mgetD s.emb.mapTags (emTable b) 0 }
  let bad (st : Nat) (s : State) : Option State := some (freeAll x.bufs (tellHome h 0x51 st false s))
  if (findHome s h.src grad h.ltid h.step h.bag).isSome then some (freeAll x.bufs s)
  else match mget s.emb.maps h.ltid with
    | none => bad stNORES s
    | some m =>
      if cove ≠ m.cove then bad stDENIED (onlyIf (decide (port < 768)) (count (kPort port iENG_DENY)) s)
      else if emDim b ≠ m.dim ∨ 4096 < emNidx b ∨ ¬ full ∨ x.bytes.length ≠ emLen b ∨ (grad = true ∧ emPool b = poMAX) then bad stBAD s
      else
        let w := homeWin s h.ltid h.step h.src
        match if grad then w.marks.find? (fun y => y.1 == h.bag) else none with
        | some y => some (freeAll x.bufs (if y.2 = stDONE then tellHome h 0x50 0 false s else tellHome h 0x51 y.2 false s))
        | none =>
          if grad = true ∧ w.base + 256 ≤ h.bag then some (freeAll x.bufs (count (kTable h.ltid iGRAD_EARLY) s))
          else match allSome ((emIndices b x.bytes).map (translate m.imode m.lrows m.seed)) with
            | none =>
              let s := count (kTable h.ltid iEMB_OOR) s
              bad stBAD (if grad then markHome h.ltid h.step h.src h.bag stBAD s else s)
            | some rows =>
              if rows.isEmpty then
                some (if grad then ackHome h s else answerHome h (List.replicate (emDim b * elemSize (emVfmt b)) 0) true s)
              else
                let ks := (List.range m.shards.length).filter (fun k => rows.any (fun y => shardIndex m.shards y == k))
                let need := if grad then 0 else ks.length * subRoom (emDim b) (emW96 b)
                if s.shoal.cfg.embRes * 256 < embUsed s die + need ∨
                    (grad && !ks.all (fun k => subGradRoom s (nth m.shards k (0, 0, 0)) h.step)) then none
                else
                  let ws := mkWorks m x rows ks s
                  let h := { h with shards := m.shards, works := ws.1 }
                  let s := onEmb (fun e => { e with homes := e.homes ++ [h] }) ws.2
                  some (forAll h.works (fun w => sendWork h w false) s)

/-- The die of a bag home: the one that stores its pieces, or that of the port. -/
def splitDie (s : State) (port : Nat) (p : Packet) : Nat :=
  match deliveredAt s port p with
  | (d, _) :: _ => d
  | [] => if port < 768 then dieOf port else 0

/-- A piece of a SPLIT BAG or GRAD at its home (R153, R160, R171). -/
def doSplitPiece (kind port : Nat) (p : Packet) (s : State) : State :=
  let b := p.sub
  let bad := ¬ emCodesOk b
  let deny := portDenies s port p
  if ¬ engineFor s port p ∨ (¬ bad ∧ (emKind b ≠ kind ∨ emSplit b = false)) ∨ (¬ bad ∧ ¬ deny = true ∧ p.dst ≠ selfEpid s) then s
  else if ¬ bad ∧ ¬ deny = true ∧ embFits s (splitDie s port p) (deliveredAt s port p) = false then s
  else
    let bufs := deliveredAt s port p
    let t := takeDelivered port p s
    if bad then freeAll bufs (onlyIf (decide (port < 768)) (count (kPort port iPKT_MALFORMED)) t)
    else if deny then
      let t := freeAll bufs (noteJobDeny s port p t)
      if emLast b then backOn port (originate (embCtl 0x51 (emTable b) (emStep b) (emBag b) stDENIED none false false p.src p.job)) t else t
    else
      let die := splitDie s port p
      let out := gather die p.src p.job port p bufs t
      match out.2 with
      | none => out.1
      | some x => (takeSplit die port (coveOf s port p) x.2 x.1 out.1).getD s

def execSplitBag (port : Nat) (p : Packet) (s : State) : Host.Outcome State Fault Refusal := .next (doSplitPiece ekBAG port p s)
def execSplitGrad (port : Nat) (p : Packet) (s : State) : Host.Outcome State Fault Refusal := .next (doSplitPiece ekGRAD port p s)

/-! ## Answers of shards (R160 to R162, R171) -/

/-- EXP_UP_E: once every shard has reported, E goes to each; a resent sub-bag that reports again gets E again. -/
def doExpUpE (port : Nat) (p : Packet) (s : State) : State :=
  if ¬ engineFor s port p then s
  else
    let s := freeAll (deliveredAt s port p) (takeDelivered port p s)
    let b := p.ctl
    match findWork s p.src (ecTable b) (ecStep b) (ecBag b) with
    | none => s
    | some (h, w) =>
      let v : Option Int := if bitAt b 19 then none else some (toSigned 12 (fld b 31 20))
      let works := h.works.map (fun y => if y.shard == w.shard then { y with exp := some v } else y)
      let h' := { h with works := works, expSent := h.expSent || works.all (fun y => y.exp.isSome) }
      let s := onHome h (fun _ => h') s
      let down (y : SubWork) : State → State := builtOn h.die (originate (embCtl 0x54 (shardOfWork h y).2.2 h.step y.subId 0 (some (homeExp h')) false false
        (shardOfWork h y).2.1 h.job))
      if h.expSent then down w s
      else if h'.expSent then forAll works down s
      else s

def execExpUpE (port : Nat) (p : Packet) (s : State) : Host.Outcome State Fault Refusal := .next (doExpUpE port p s)

/-- R153 step 1 on a SUB_POOLED. -/
def subPooledOk (b : BitVec 256) : Bool :=
  fld b 255 252 == 1 && emKind b == ekSUB_POOLED && fld b 77 0 == 0 && fld b 240 240 == 0 && emVfmt b == 0 && !emSplit b
  && fld b 94 94 == 0

/-- The pooled elements of a home's bag from its shards' integers or keys (R160 step 7), rounded once (R156, R161). -/
def homeElems (h : HomeBag) : List Nat :=
  let b := h.sub
  let f (x y : List Win) : List Win := if emPool b = poMAX then zipWin keyMax x y else zipWin combine x y
  let sums := h.works.filterMap (·.sums)
  let all : List Win := match sums with
    | [] => []
    | x :: r => r.foldl f x
  if emPool b = poMAX then all.map (fun w => convF (keyVal w) ((floatFmt (emVfmt b)).getD fmtFp32))
  else
    let op := if emPool b = poMEAN then opMEAN else opSUM
    all.map (fun w => (outWin op 5 (emVfmt b) (emW96 b) (homeExp h) (emNidx b) w).1)

/-- SUB_POOLED: kept in its reserved room; with the last one the bag is rounded once and answered (R160, R162). -/
def doSubPooled (port : Nat) (p : Packet) (s : State) : State :=
  if ¬ engineFor s port p then s
  else
    let b := p.sub
    let bufs := deliveredAt s port p
    let s := takeDelivered port p s
    let die := if port < 768 then dieOf port else 0
    if ¬ subPooledOk b then freeAll bufs (onlyIf (decide (port < 768)) (count (kPort port iPKT_MALFORMED)) s)
    else match findWork s p.src (emTable b) (emStep b) (emBag b) with
      | none => freeAll bufs (onlyIf (emLast b) (count (kDie die iEMB_DROP)) s)
      | some (h, w) =>
        if w.sums.isSome then freeAll bufs s
        else
          let out := gather h.die p.src p.job port p bufs s
          match out.2 with
          | none => out.1
          | some x =>
            let s := freeAll x.1.bufs out.1
            if ¬ x.2 ∨ x.1.bytes.length ≠ emDim h.sub * winSize (emW96 h.sub) then count (kDie h.die iEMB_DROP) s
            else
              let v := winsOf (emW96 h.sub) x.1.bytes
              let works := h.works.map (fun y => if y.shard == w.shard then { y with sums := some v } else y)
              let h' := { h with works := works }
              let s := onHome h (fun _ => h') s
              if works.all (fun y => y.sums.isSome) then
                answerHome h' ((homeElems h').flatMap (bytesLE (elemSize (emVfmt h.sub)))) false s
              else s

def execSubPooled (port : Nat) (p : Packet) (s : State) : Host.Outcome State Fault Refusal := .next (doSubPooled port p s)

/-- A shard's answer to a part whose gradient has failed (R170). -/
def dropOrphan (src table step bag : Nat) : State → State :=
  onEmb (fun e => { e with orphans := e.orphans.filter (fun o => !(o.epid == src && o.table == table && o.step == step && o.subId == bag)) })

/-- GRAD_ACK from a shard (R171). -/
def doGradAck (port : Nat) (p : Packet) (s : State) : State :=
  if ¬ engineFor s port p then s
  else
    let s := freeAll (deliveredAt s port p) (takeDelivered port p s)
    let b := p.ctl
    match findWork s p.src (ecTable b) (ecStep b) (ecBag b) with
    | none => dropOrphan p.src (ecTable b) (ecStep b) (ecBag b) s
    | some (h, w) =>
      if h.isGrad = false ∨ w.acked = true then s
      else
        let works := h.works.map (fun y => if y.shard == w.shard then { y with acked := true } else y)
        let h' := { h with works := works, recovered := h.recovered || bitAt b 18 }
        let s := onHome h (fun _ => h') s
        if works.all (·.acked) then ackHome h' s else s

def execGradAck (port : Nat) (p : Packet) (s : State) : Host.Outcome State Fault Refusal := .next (doGradAck port p s)

/-- EMB_FAIL from a shard fails the whole bag with its status (R162). A SUB_GRAD number that R153 refused is still expected
and goes out with the next part; one refused under R150 or R169 counts as answered (R170). -/
def doEmbFail (port : Nat) (p : Packet) (s : State) : State :=
  if ¬ engineFor s port p then s
  else
    let s := freeAll (deliveredAt s port p) (takeDelivered port p s)
    let b := p.ctl
    let st := fld b 39 32
    let known := (findWork s p.src (ecTable b) (ecStep b) (ecBag b)).isSome
      || s.emb.orphans.any (fun o => o.epid == p.src && o.table == ecTable b && o.step == ecStep b && o.subId == ecBag b)
    let s := if ecBag b < 2 ^ 31 ∧ known = true ∧ ¬ (st = stBAD ∨ st = stNORES) then
        onEmb (fun e => { e with subFree := e.subFree ++ [(p.src, ecTable b, ecStep b, ecBag b)] }) s
      else s
    match findWork s p.src (ecTable b) (ecStep b) (ecBag b) with
    | none => dropOrphan p.src (ecTable b) (ecStep b) (ecBag b) s
    | some (h, w) =>
      let works := h.works.map (fun y => if y.shard == w.shard then { y with acked := true } else y)
      let h' := { h with works := works }
      failHome h' st (onHome h (fun _ => h') s)

def execEmbFail (port : Nat) (p : Packet) (s : State) : Host.Outcome State Fault Refusal := .next (doEmbFail port p s)

/-- A part of a failed gradient goes again until its shard answers it (R170). -/
def resendOrphan (src ltid step bag shard : Nat) (s : State) : State :=
  let mine (o : Orphan) : Bool := o.src == src && o.ltid == ltid && o.step == step && o.bag == bag && o.shard == shard
  match s.emb.orphans.find? (fun o => mine o && due s (o.sentAt + 100000)) with
  | none => s
  | some o =>
    if ¬ engineOn s then s
    else
      let s := onEmb (fun e => { e with orphans := e.orphans.map (fun x => if x == o then { x with sentAt := s.tide.now } else x) }) s
      builtOn o.die (forAll o.pkts (fun p => originate (asResend p))) s

/-- A part without its answer 100 µs after it was sent goes again with RESEND; a bag whose part has timed out
three times fails with TIMEOUT (R162), a gradient's part goes again each time (R170, R171). -/
def doSubTimeout (grad : Bool) (src ltid step bag shard : Nat) (s : State) : State :=
  match findHome s src grad ltid step bag with
  | none => if grad then resendOrphan src ltid step bag shard s else s
  | some h => match h.works.find? (fun w => w.shard == shard) with
    | none => s
    | some w =>
      if ¬ engineOn s ∨ ¬ due s (w.sentAt + 100000) ∨ w.sums.isSome ∨ w.acked = true then s
      else if grad = false ∧ 2 ≤ w.tries then failHome h stTIMEOUT s
      else
        let s := onHome h (fun x => { x with recovered := true }) s
        sendWork h w true (onWork h w (fun y => { y with tries := y.tries + 1 }) s)

def execSubBagTimeout (src ltid step bag shard : Nat) (s : State) : Host.Outcome State Fault Refusal :=
  .next (doSubTimeout false src ltid step bag shard s)
def execSubGradResendTimeout (src ltid step bag shard : Nat) (s : State) : Host.Outcome State Fault Refusal :=
  .next (doSubTimeout true src ltid step bag shard s)

/-! ## Table states (R181, R182, R184) -/

/-- Bags and gradients in flight at a table end with a status. -/
def failBags (tid status : Nat) (s : State) : State :=
  let ws := ((getTable s tid).map (·.waiting)).getD []
  let bs := s.emb.shardBags.filter (fun x => emTable x.stream.sub == tid)
  let s := onTable tid (fun t => { t with waiting := [] }) s
  let s := onEmb (fun e => { e with shardBags := e.shardBags.filter (fun x => emTable x.stream.sub != tid) }) s
  forAll bs (fun x => failStream x.stream status) (forAll ws (fun x => failStream x.stream status) s)

/-- A scheduled apply ends with a status (R182). -/
def cancelApply (tid status : Nat) (s : State) : State :=
  match getTable s tid with
  | none => s
  | some t => match t.sched with
    | none => s
    | some c => reportApply t c status false (onTable tid (fun t => { t with sched := none }) s)

/-- A TABLE_QUIESCE that waits completes with a status. -/
def endQuiesce (tid status : Nat) (s : State) : State :=
  match (getTable s tid).bind (·.quiescer) with
  | none => s
  | some ri => finishDesc ri status 0 (onTable tid (fun t => { t with quiescer := none }) s)

/-- A Storm on a table (R181, R184). -/
def failTable (tid status : Nat) (s : State) : State :=
  match getTable s tid with
  | none => s
  | some t =>
    if t.state = .failed ∨ t.state = .destroying ∨ t.state = .free then s
    else endQuiesce tid status (cancelApply tid status (failBags tid status (onTable tid (fun t => { t with state := .failed }) s)))

/-- Nothing is in flight at a table and no apply runs (R182). -/
def tableQuiet (s : State) (t : Table) : Bool :=
  t.waiting.isEmpty && !hasShardBags s t.info.table && !((t.sched.map (·.begun)).getD false)

/-- TABLE_QUIESCED (R182). -/
def doTableQuiesced (tid : Nat) (s : State) : State :=
  match getTable s tid with
  | none => s
  | some t =>
    if t.state = .quiescing ∧ tableQuiet s t then endQuiesce tid stDONE (onTable tid (fun t => { t with state := .quiesced }) s) else s

def execTableQuiesced (table : Nat) (s : State) : Host.Outcome State Fault Refusal := .next (whenLive (doTableQuiesced table) s)

/-- TABLE_DESTROY_DONE: the table's HBM3, shadow pool and Rockpool lines are freed (R182). -/
def doTableDestroyDone (tid : Nat) (s : State) : State :=
  match getTable s tid with
  | none => s
  | some t =>
    if t.state = .destroying ∧ tableQuiet s t then
      let before := usedRegions s
      let s := onEmb (fun e => { e with tables := mdel e.tables tid }) (rpDrop tid (fun _ => true) s)
      forAll t.destroyers (fun ri => finishDesc ri stDONE 0) (noteIdle before s)
    else s

def execTableDestroyDone (table : Nat) (s : State) : Host.Outcome State Fault Refusal := .next (whenLive (doTableDestroyDone table) s)

/-! ## Table descriptors (R143, R144, R173, R178 to R182) -/

/-- LR, MU, BETA1, BETA2, EPS and WD within R143. -/
def hyperOk (r : TableRec) (opt : Nat) : Bool :=
  let fin (x : Nat) : Bool := x / 2 ^ 23 % 256 != 255
  let nonneg (x : Nat) : Bool := decide (x < 2 ^ 31) || x == 2 ^ 31
  let unit (x : Nat) : Bool := nonneg x && decide (x % 2 ^ 31 < f32one)
  [r.lr, r.mu, r.beta1, r.beta2, r.eps, r.wd].all fin && nonneg r.lr && nonneg r.wd && unit r.mu && unit r.beta1 && unit r.beta2
  && ((opt != 3 && opt != 4) || decide (0 < r.eps ∧ r.eps < 2 ^ 31))

/-- The checks of R143 on a record, apart from the Cove and the table ID's use. P1 and P2 are read as hyperparameters that
must be finite (DESIGN CHOICE, log entry 99). -/
def recOk (s : State) (r : TableRec) (d : List Byte) : Bool :=
  leAt d 0 4 == 0x4B515442 && leAt d 4 2 == 1 && byteAt d 36 < 4 && byteAt d 39 == 0 && leAt d 42 2 == 0 && leAt d 84 44 == 0
  && [1, 2, 3, 4, 5, 8].contains r.rfmt && decide (r.imode ≤ 2) && r.dim % 16 == 0 && decide (16 ≤ r.dim ∧ r.dim ≤ 1024)
  && decide (r.die ≤ 3) && decide (1 ≤ r.paMask ∧ r.paMask < 16) && (bitsOf 4 r.paMask).all (paEnabled s r.die)
  && decide (1 ≤ r.rows ∧ r.rows ≤ 2 ^ 40) && (r.imode == 2 || r.seed == 0) && decide (r.shadowRows ≤ 2 ^ 28) && decide (r.opt ≤ 4)
  && decide (r.rpShare ≤ 64) && decide (-2048 ≤ r.gradE ∧ r.gradE ≤ 2047) && decide ((r.owner.getD 0) < 2 ^ 18)
  && ((r.opt == 0) == (r.shadowRows == 0)) && !(r.master && r.rfmt == 5)
  && hyperOk r r.opt && [r.p1, r.p2].all (fun x => x / 2 ^ 23 % 256 != 255)

/-- HBM3 of a table: every space and the shadow pool (R144 to R148). -/
def tableHbm (r : TableRec) : Nat :=
  r.rows * sumOf ((List.range 4).filter (hasSpace r)) (spaceStride r) + r.shadowRows * (32 + r.dim * winSize r.gw96)

/-- Table opcodes that write the table's entry (R273). -/
def tableWrites (c : Nat) : Bool := c == 0x38 || c == 0x3C || c == 0x3D || c == 0x3E || c == 0x3F

/-- An earlier write of the same table waits for its tag (R272). -/
def queuedBehind (s : State) (f : Desc → Bool) : Bool := s.host.accepted.any (fun d => d.stage == .commitWait && f d)

def tableOf (op : BitVec 384) : Nat := fld op 15 0

/-- An earlier write of a table's entry waits (R272). -/
def tableBehind (s : State) (op : BitVec 384) : Bool := queuedBehind s (fun d => tableWrites d.opcode && tableOf d.op == tableOf op)

/-- A commit to a table's entry must wait (R272). -/
def tableMust (s : State) (op : BitVec 384) : Bool := mustWait (tableTags s (tableOf op)) (mgetD s.emb.tags (tableOf op) 0) || lookedNow s (5, tableOf op)

/-- The table a descriptor writes, by TSEL and INDEX (R273). -/
def tableKey (op : BitVec 384) : Nat × Nat := (5, tableOf op)

def tableBump (op : BitVec 384) : State → State :=
  onEmb (fun e => { e with tags := mput e.tags (tableOf op) ((mgetD e.tags (tableOf op) 0 + 1) % 16) })

/-- TABLE_INSTALL (R143, R144, R182). A record of another TABLE than the descriptor's is refused (DESIGN CHOICE, log
entry 99). -/
def rawTableInstall : Work := fun cx op d s =>
  let r := recOf d
  let tid := tableOf op
  if ¬ onlyBits op [(383, 320), (319, 288), (15, 0)] ∨ fld op 383 320 % 32 ≠ 0 ∨ fld op 319 288 ≠ 128 ∨ r.table ≠ tid
      ∨ recOk s r d = false ∨ ¬ s.mem.coves.contains r.cove ∨ (getTable s tid).isSome then (s, fail stBAD)
  else if ¬ coveAllowed s cx.func r.cove then (s, fail stDENIED)
  else
    let t : Table := { info := r, state := .loading, applied := (r.firstStep + 2 ^ 32 - 1) % 2 ^ 32, bytes := tableHbm r }
    let u := onEmb (fun e => { e with tables := mput e.tables tid t }) s
    if ¬ hbmFits u then (s, fail stNORES)
    else (openGates ((bitsOf 4 r.paMask).map (fun k => 4 * r.die + k)) (resetInstance 7 tid u), ok)

/-- The common part of the opcodes that name an installed table (R56, R179, R180, R409). -/
def tableWork (fields : List (Nat × Nat)) (f : Table → Work) : Work := fun cx op d s =>
  if ¬ onlyBits op ((15, 0) :: fields) ∨ fld op 383 320 % 32 ≠ 0 then (s, fail stBAD)
  else match getTable s (tableOf op) with
    | none => (s, fail stHELD)
    | some t => if coveAllowed s cx.func t.info.cove then f t cx op d s else (s, fail stDENIED)

/-- States in which rows move, and from which TABLE_RESUME goes on. -/
def atRest (t : Table) : Bool := t.state == .loading || t.state == .quiesced

/-- The rows a TABLE_WRITE or TABLE_READ names are in a space of the table (R180). -/
def rowsOk (t : Table) (op : BitVec 384) : Bool :=
  let sp := fld op 119 118
  hasSpace t.info sp && decide (fld op 191 152 + fld op 151 120 ≤ t.info.rows)
  && fld op 319 288 == fld op 151 120 * spaceStride t.info sp

def rowFields : List (Nat × Nat) := [(383, 320), (319, 288), (191, 152), (151, 120), (119, 118)]

/-- TABLE_WRITE: cached rows it overwrites are invalidated (R165, R180). -/
def workTableWrite : Work := tableWork rowFields (fun t _ op d s =>
  let sp := fld op 119 118
  let first := fld op 191 152
  let n := fld op 151 120
  let st := spaceStride t.info sp
  if ¬ atRest t then (s, fail stHELD)
  else if ¬ rowsOk t op then (s, fail stBAD)
  else
    let t' := (List.range n).foldl (fun t k => putRow sp (first + k) (sliceB d (k * st) st) t) t
    let s := onTable (tableOf op) (fun _ => t') s
    let s := if sp = 0 then rpDrop (tableOf op) (fun r => decide (first ≤ r ∧ r < first + n)) s else s
    (countN (kDie t.info.die iHBM_WR) (n * st) s, ok))

/-- TABLE_READ (R180). -/
def workTableRead : Work := tableWork rowFields (fun t cx op _ s =>
  let sp := fld op 119 118
  let first := fld op 191 152
  let n := fld op 151 120
  if ¬ atRest t then (s, fail stHELD)
  else if ¬ rowsOk t op then (s, fail stBAD)
  else
    let s := hostWrite cx.func (fld op 383 320) ((List.range n).flatMap (fun k => rowBytes t sp (first + k))) s
    (countN (kDie t.info.die iHBM_RD) (n * spaceStride t.info sp) s, ok))

/-- TABLE_APPLY: a Tidemark that has passed begins the apply at once (R173). -/
def workTableApply : Work := tableWork [(287, 256), (255, 192)] (fun t cx op _ s =>
  if t.state ≠ .active then (s, fail stHELD)
  else if applyBad t (fld op 287 256) then (s, fail stBAD)
  else
    let c : Sched := { step := fld op 287 256, mark := fld op 255 192, desc := some (cx.ring, cx.idx), fixed := s.stop.frozen }
    let u := beginApply (tableOf op) (onTable (tableOf op) (fun t => { t with sched := some c }) s)
    let begun := match (getTable u (tableOf op)).bind (·.sched) with
      | some c => c.begun
      | none => true
    (u, .wait (if begun then .running else .scheduled)))

/-- TABLE_SET (R178, R179): the record it brings carries no reserved format code (R18). A table above a lowered share gives
up lines at once (R163). -/
def rawTableSet : Work := tableWork [(383, 320), (319, 288)] (fun t _ op d s =>
  let r := recOf d
  if t.state = .failed ∨ t.state = .free then (s, fail stHELD)
  else if fld op 319 288 ≠ 128 ∨ ¬ isFmt r.rfmt ∨ 64 < r.rpShare ∨ ¬ hyperOk r t.info.opt then (s, fail stBAD)
  else
    let n : TableRec := { t.info with
      lr := r.lr, mu := r.mu, beta1 := r.beta1, beta2 := r.beta2, eps := r.eps, wd := r.wd, rpShare := r.rpShare }
    (rpTrim n (onTable (tableOf op) (fun t => { t with info := n }) s), ok))

/-- TABLE_QUIESCE (R182). -/
def rawTableQuiesce : Work := tableWork [] (fun t cx op _ s =>
  if t.state ≠ .active then (s, fail stHELD)
  else (onTable (tableOf op) (fun t => { t with state := .quiescing, quiescer := some (cx.ring, cx.idx) }) s, .wait .draining))

/-- TABLE_RESUME (R182): a scheduled apply whose Tidemark has passed runs at once. -/
def rawTableResume : Work := tableWork [] (fun t _ op _ s =>
  if ¬ atRest t then (s, fail stHELD)
  else (beginApply (tableOf op) (onTable (tableOf op) (fun t => { t with state := .active }) s), ok))

/-- TABLE_DESTROY (R182). An apply that runs completes first, with the bags it waits for; then the bags in flight fail
(R178). -/
def rawTableDestroy : Work := tableWork [] (fun t cx op _ s =>
  let tid := tableOf op
  let s := onTable tid (fun t => { t with state := .destroying, destroyers := t.destroyers ++ [(cx.ring, cx.idx)] }) s
  if t.state = .destroying then (s, .wait .draining)
  else
    let s := endQuiesce tid stABORTED s
    if (t.sched.map (·.begun)).getD false then (s, .wait .draining)
    else (cancelApply tid stABORTED (failBags tid stABORTED s), .wait .draining))

/-- TABLE_QUERY (R179). -/
def workTableQuery : Work := tableWork [(383, 320), (319, 288)] (fun t cx op _ s =>
  if fld op 319 288 < 128 then (s, fail stBAD)
  else (hostWrite cx.func (fld op 383 320) (recBytes t.info t.applied) s, ok))

def execTableInstall (r i : Nat) (d : List Byte) (s : State) : Host.Outcome State Fault Refusal :=
  .next (runDesc 0x38 (withTag tableKey tableBehind tableMust tableBump rawTableInstall) r i d s)
def execTableWrite (r i : Nat) (d : List Byte) (s : State) : Host.Outcome State Fault Refusal := .next (runDesc 0x39 workTableWrite r i d s)
def execTableRead (r i : Nat) (s : State) : Host.Outcome State Fault Refusal := .next (runDesc 0x3A workTableRead r i [] s)
def execTableApply (r i : Nat) (s : State) : Host.Outcome State Fault Refusal := .next (runDesc 0x3B workTableApply r i [] s)
def execTableSet (r i : Nat) (d : List Byte) (s : State) : Host.Outcome State Fault Refusal :=
  .next (runDesc 0x3C (withTag tableKey tableBehind tableMust tableBump rawTableSet) r i d s)
def execTableQuiesce (r i : Nat) (s : State) : Host.Outcome State Fault Refusal :=
  .next (runDesc 0x3D (withTag tableKey tableBehind tableMust tableBump rawTableQuiesce) r i [] s)
def execTableResume (r i : Nat) (s : State) : Host.Outcome State Fault Refusal :=
  .next (runDesc 0x3E (withTag tableKey tableBehind tableMust tableBump rawTableResume) r i [] s)
def execTableDestroy (r i : Nat) (s : State) : Host.Outcome State Fault Refusal :=
  .next (runDesc 0x3F (withTag tableKey tableBehind tableMust tableBump rawTableDestroy) r i [] s)
def execTableQuery (r i : Nat) (s : State) : Host.Outcome State Fault Refusal := .next (runDesc 0x41 workTableQuery r i [] s)

/-! ## SHARD_MAP (R158, R159) -/

/-- A shard map's entries. -/
def mapEntries (d : List Byte) (n : Nat) : List (Nat × Nat × Nat) :=
  (List.range n).map (fun k => (leAt d (32 + 16 * k) 8, leAt d (40 + 16 * k) 4, leAt d (44 + 16 * k) 2))

/-- The checks of R159. -/
def mapOk (s : State) (d : List Byte) (len : Nat) : Bool :=
  let n := leAt d 10 2
  let es := mapEntries d n
  leAt d 0 4 == 0x4B51534D && byteAt d 7 == 0 && leAt d 14 2 == 0 && decide (1 ≤ n ∧ n ≤ 4096) && len == 32 + 16 * n
  && decide (leAt d 4 2 ≤ 0xFFF) && decide (byteAt d 6 ≤ 2) && leAt d 8 2 % 16 == 0 && decide (16 ≤ leAt d 8 2 ∧ leAt d 8 2 ≤ 1024)
  && decide (1 ≤ leAt d 16 8 ∧ leAt d 16 8 ≤ 2 ^ 40) && (byteAt d 6 == 2 || leAt d 24 8 == 0)
  && (es.headD (1, 0, 0)).1 == 0 && ascending (es.map (·.1)) && es.all (fun e => decide (e.1 < leAt d 16 8))
  && (List.range n).all (fun k => leAt d (46 + 16 * k) 2 == 0)
  && es.all (fun e => decide (e.2.1 < 2 ^ 18) && epValid (mgetD s.route.eps e.2.1 0)) && s.mem.coves.contains (leAt d 12 2)

def mapMust (s : State) (l : Nat) : Bool := mustWait (mapTags s l) (mgetD s.emb.mapTags l 0) || lookedNow s (6, l)

/-- An earlier write of a shard map waits (R272). -/
def mapBehind (s : State) (l : Nat) : Bool := queuedBehind s (fun d => d.opcode == 0x40 && leAt d.data 4 2 == l)

/-- SHARD_MAP. -/
def rawShardMap : Work := fun cx op d s =>
  let l := leAt d 4 2
  let m : ShardMap := {
    ltid := l, imode := byteAt d 6, dim := leAt d 8 2, cove := leAt d 12 2, lrows := leAt d 16 8, seed := leAt d 24 8,
    shards := mapEntries d (leAt d 10 2) }
  let maps := mput s.emb.maps l m
  if ¬ onlyBits op [(383, 320), (319, 288)] ∨ fld op 383 320 % 32 ≠ 0 ∨ mapOk s d (fld op 319 288) = false then (s, fail stBAD)
  else if ¬ coveAllowed s cx.func m.cove then (s, fail stDENIED)
  else if 4096 < maps.length ∨ 262144 < sumOf maps (fun e => e.2.shards.length) then (s, fail stNORES)
  else (onEmb (fun e => { e with maps := maps, mapTags := mput e.mapTags l ((mgetD e.mapTags l 0 + 1) % 16) }) s, ok)

def execShardMap (r i : Nat) (d : List Byte) (s : State) : Host.Outcome State Fault Refusal :=
  .next (runDesc 0x40 (withTag (fun _ => (6, leAt d 4 2)) (fun s _ => mapBehind s (leAt d 4 2)) (fun s _ => mapMust s (leAt d 4 2)) (fun _ s => s) rawShardMap) r i d s)

end Sys2Proof.Machine
end

