-- ==== Sys2Proof/Machine/MemSpace.lean ====
section
/-! DEFINITION. The memory space (R186 to R221): Coves, port bindings, windows, regions, requests at the first
Q7 and at a region, responses and timeouts; the jobs of R229 to R234; and the commits that waited for a tag
(R272). -/

namespace Sys2Proof.Machine

/-! ## The memory sub-header (R195) -/

def mopREAD : Nat := 0
def mopWRITE : Nat := 1
def mopFADD64 : Nat := 2
def mopXADD : Nat := 3
def mopCAS64 : Nat := 4
def mopSWAP64 : Nat := 5
def mopFENCE : Nat := 6

def mmOp (b : BitVec 256) : Nat := fld b 251 248
def mmResp (b : BitVec 256) : Bool := bitAt b 247
def mmLen (b : BitVec 256) : Nat := fld b 238 230
def mmTag (b : BitVec 256) : Nat := fld b 229 214
def mmCove (b : BitVec 256) : Nat := fld b 213 198
def mmTadm (b : BitVec 256) : Nat := fld b 185 154
def mmAddr (b : BitVec 256) : Nat := fld b 127 64
/-- Byte offset within the endpoint, and the endpoint (R186). -/
def mmOff (b : BitVec 256) : Nat := fld b 109 64
def mmEpid (b : BitVec 256) : Nat := fld b 127 110

/-- A response to a request (R197): MOP, LEN, TAG, COVE, TADM and ADDR unchanged, XEXP zero. -/
def responseBits (b : BitVec 256) (status : Nat) : BitVec 256 :=
  setFld (setFld (setFld b 247 247 1) 246 239 status) 197 186 0

/-- R198 step 1: SUBVER, MOP and the reserved bits, and RESP clear, in a packet that carries the whole sub-header (R195). -/
def reqDefined (p : Packet) : Bool :=
  let b := p.sub
  decide (32 ≤ p.body.length) && fld b 255 252 == 1 && decide (mmOp b ≤ 6) && !mmResp b && fld b 153 128 == 0 && fld b 63 0 == 0

/-- R198 step 2, apart from the TAG. -/
def reqWellFormed (p : Packet) : Bool :=
  let b := p.sub
  let op := mmOp b
  let len := mmLen b
  (if op = mopREAD ∨ op = mopWRITE then decide (1 ≤ len ∧ len ≤ 256 ∧ mmOff b % 256 + len ≤ 256)
   else if op = mopFENCE then len == 0 && mmOff b == 0
   else len == 8 && mmOff b % 8 == 0)
  && p.data.length == (if op = mopREAD ∨ op = mopFENCE then 0 else if op = mopWRITE then len else if op = mopCAS64 then 16 else 8)
  && mmCove b == 0 && mmTadm b == 0 && fld b 246 239 == 0 && mmEpid b == p.dst
  && (if op = mopXADD then leAt p.data 4 4 == 0 else fld b 197 186 == 0)

/-- The permission a MOP needs (R208). -/
def permits (w : Window) (op : Nat) : Bool :=
  if op = mopREAD then w.pr else if op = mopWRITE ∨ op = mopFENCE then w.pw else if op = mopXADD then w.px else w.pa

/-- A window covers a request (R209). -/
def covers (cove : Nat) (b : BitVec 256) (w : Window) : Bool :=
  w.cove == cove && decide (w.lo ≤ mmEpid b ∧ mmEpid b ≤ w.hi) && permits w (mmOp b)
  && (mmOp b == mopFENCE || decide (w.base ≤ mmOff b / 4096 ∧ mmOff b / 4096 ≤ w.limit))

/-- The outstanding entry of a port and TAG (R199). -/
def findOut (s : State) (port tag : Nat) : Option Outst := s.mem.outst.find? (fun o => o.port == port && o.tag == tag)

/-- Free an outstanding entry: its lookups have ended (R219, R273). -/
def freeOut (port tag : Nat) : State → State :=
  onMem (fun m => { m with outst := m.outst.filter (fun o => !(o.port == port && o.tag == tag)) })

/-- Outstanding requests of a port. -/
def outCount (s : State) (port : Nat) : Nat := (s.mem.outst.filter (fun o => o.port == port)).length

/-- An answer of the first Q7 itself to a request, back on the requester's port: its header names the request's destination
as its source (R197). -/
def answerReq (port : Nat) (p : Packet) (status : Nat) : State → State :=
  builtOn (dieOf port) (directOn port (originateAs p.dst (dataPkt vcRSP p.src p.job (responseBits p.sub status) [])))

/-- The request has a route: an entry that leads here or to a port, or a node entry with an up port (R250, R254, R257). -/
def hasRoute (s : State) (p : Packet) : Bool :=
  match lookupDest s p.dst with
  | .noRoute => false
  | .via _ e => !(allowedSet s (capOf s) e).isEmpty
  | _ => true

/-! ## MEM_REQUEST_ADMIT (R198 to R201) -/

/-- The status with which the first Q7 refuses a request at steps 2 to 6; none when it is admitted. -/
def refuseReq (s : State) (port : Nat) (p : Packet) : Option Nat :=
  let b := p.sub
  if ¬ reqWellFormed p ∨ (findOut s port (mmTag b)).isSome then some stBAD
  else match boundAt s port p with
    | none => some stDENIED
    | some bd =>
      if ¬ jobBound s port p then some stDENIED
      else if ¬ s.mem.windows.any (fun w => covers bd.cove b w.2) then some stDENIED
      else if bd.maxOut ≤ outCount s port then some stNORES
      else if ¬ hasRoute s p then some stNORES
      else none

/-- A request that step 3 refuses for its job (R198, R232). -/
def refusedJob (s : State) (port : Nat) (p : Packet) : Bool :=
  reqWellFormed p && (findOut s port (mmTag p.sub)).isNone && (boundAt s port p).isSome && !jobBound s port p

/-- Count a refusal, for the port and the Cove of the binding the request was judged under, and post MEM_DENIED once for each
Cove and millisecond (R201, R271). -/
def noteRefusal (port addr : Nat) (bound : Option Binding) (s : State) : State :=
  let s := count (kPort port iMEM_DENY) s
  match bound with
  | none => s
  | some b =>
    let s := count (kCove b.cove 1) s
    let ms := s.tide.now / 1000000
    if s.mem.denied.contains (b.cove, ms) then s
    else
      let s := onMem (fun m => { m with denied := m.denied.filter (fun x => x.1 != b.cove) ++ [(b.cove, ms)] }) s
      postDev 0x12 (bytesLE 2 b.cove ++ bytesLE 2 port ++ bytesLE 8 addr) s

/-- A request as the first Q7 forwards it: SRC, COVE and TADM written (R199). -/
def stampReq (p : Packet) (src cove tide : Nat) : Packet :=
  let b := setFld (setFld p.sub 213 198 cove) 185 154 (tide % 2 ^ 32)
  { (p.setSrc src) with body := bytesBE 32 b.toNat ++ p.data }

/-- A packet delivered to an engine has been admitted before: it stands in a LOCAL account. -/
def isLocalAcct (s : State) (bufs : List (Nat × Nat)) : Bool :=
  bufs.any (fun e => match ((storedAt s e.1 e.2).map (fun x => x.acct) : Option Acct) with
    | some (Acct.egress q _) => decide (768 ≤ q)
    | _ => false)

/-- MEM_REQUEST_ADMIT. -/
def doAdmit (port : Nat) (p : Packet) (s : State) : State :=
  let b := p.sub
  if ¬ engineFor s port p ∨ isFabric s port = true ∨ 768 ≤ port ∨ p.ovc ≠ vcREQ ∨ isLocalAcct s (deliveredAt s port p) = true then s
  else
    let bufs := deliveredAt s port p
    let refused := refuseReq s port p
    let bound := boundAt s port p
    let ptag := ((deliveredIn s port p).bind (·.ptag)).getD s.mem.ptag
    let ctag := ((deliveredIn s port p).bind (·.ctag)).getD s.mem.ctag
    let jobDenied := refusedJob s port p
    let s := takeDelivered port p s
    if ¬ reqDefined p then freeAll bufs (count (kPort port iMEM_MALFORMED) s)
    else match refused, bound with
      | none, some bd =>
        let k := stampReq p bd.epid bd.cove s.tide.now
        let o : Outst := {
          port := port, tag := mmTag b, dst := p.dst, wtag := s.mem.wtag, ptag := ptag, ctag := ctag,
          at_ := s.tide.now, pkt := k }
        let s := onMem (fun m => { m with outst := m.outst ++ [o] }) (count (kCove bd.cove 0) s)
        let s := forAll bufs (fun e s => setStored e.1 e.2 (fun _ => k) (onStored e.1 e.2 (fun x => { x with
          ptag := none, ctag := none, dest := lookupDest s k.dst, cap := capOf s, rtag := some s.route.tag }) s)) s
        forwardPkt bufs k s
      | r, _ =>
        let s := noteRefusal port (mmAddr b) bound (onlyIf jobDenied (count (kPort port iJOB_DENY)) s)
        freeAll bufs (answerReq port p (r.getD stDENIED) s)

def execMemRequestAdmit (port : Nat) (p : Packet) (s : State) : Host.Outcome State Fault Refusal := .next (doAdmit port p s)

/-! ## MEM_REQUEST_PERFORM (R192, R194, R211 to R218) -/

/-- The region that covers an offset of this Q7. -/
def regionAt (s : State) (off : Nat) : Option (Nat × Region) :=
  s.mem.regions.find? (fun r => decide (r.2.offset ≤ off ∧ off < r.2.offset + r.2.size) && r.2.releasing.isNone)

/-- XADD on an 8-byte target: the code stored, and whether it is saturated (R212, R213). -/
def xadd (t value : Nat) (e : Int) : Nat × Bool :=
  let lim : Int := 2 ^ 63 - 4
  let w := match combine (winOf false t) (toWindow (decodeF fmtFp32 value) e 40) with
    | .fin v => if lim < v then Win.posSat else if v < -lim then Win.negSat else .fin v
    | w => w
  (winCode false w, isSat w)

/-- An atomic's new value and status (R212, R213). -/
def atomic (b : BitVec 256) (d : List Byte) (t : Nat) : Nat × Nat :=
  let op := mmOp b
  if op = mopFADD64 then ((t + leAt d 0 8) % 2 ^ 64, stDONE)
  else if op = mopXADD then
    let r := xadd t (leAt d 0 4) (toSigned 12 (fld b 197 186))
    (r.1, if r.2 then stOVERFLOW else stDONE)
  else if op = mopCAS64 then (if t = leAt d 0 8 then leAt d 8 8 else t, stDONE)
  else (leAt d 0 8, stDONE)

/-- Write a region's bytes. -/
def putRegion (ridx off : Nat) (d : List Byte) : State → State :=
  onMem (fun m => { m with regions := mmod m.regions ridx (fun r => { r with mem := memWriteN r.mem off d }) })

/-- Bytes with their parity bits on the way to a stack are checked at its PHY: a byte that fails is sent again, a Ripple
(R475, source 0x05). -/
def phyCheck (stack object : Nat) (l : List (Byte × Bool)) : State → State :=
  onlyIf (!parityGood l) (detect 0x05 (mkLoc (17 + stack) 0 0) object)

/-- The HBM3 stack of byte `off` of a region (R190). -/
def byteStack (r : Region) (off : Nat) : Nat := 2 * r.die + off / 256 % 2

/-- Perform a request at a region: status, response data, and the state (R192, R194, R212). -/
def perform (p : Packet) (s : State) : Nat × List Byte × State :=
  let b := p.sub
  let op := mmOp b
  if op = mopFENCE then (stDONE, [], s)
  else match regionAt s (mmOff b) with
    | none => (stDENIED, [], s)
    | some (ridx, r) =>
      if r.poisoned then (stPOISONED, [], s)
      else if hbmLost s r.die then
        (stPOISONED, [], onMem (fun m => { m with regions := mmod m.regions ridx (fun r => { r with poisoned := true }) })
          (detect 0x21 (mkLoc (17 + byteStack r (mmOff b - r.offset)) 0 0) ridx s))
      else
        let off := mmOff b - r.offset
        let n := mmLen b
        let put (l : List (Byte × Bool)) (s : State) : State :=
          countN (kDie r.die iHBM_WR) l.length (phyCheck (byteStack r off) ridx l (putRegion ridx off (bareBytes l) s))
        if op = mopREAD then (stDONE, bareBytes (genParity (memReadN r.mem off n)), countN (kDie r.die iHBM_RD) n s)
        else if op = mopWRITE then (stDONE, [], put (genParity (sliceB p.data 0 n)) s)
        else
          let old := bareBytes (genParity (memReadN r.mem off 8))
          let out := atomic b p.data (ofLE old)
          (out.2, old, put (genParity (bytesLE 8 out.1)) (countN (kDie r.die iHBM_RD) 8 s))

/-- A request's age is above its lifetime (R218). -/
def reqStale (s : State) (b : BitVec 256) : Bool := decide (400000 < ahead (mmTadm b) (s.tide.now % 2 ^ 32))

/-- A request has reached the regions' engine: it came over the fabric, or its first Q7, this one, has admitted it. -/
def atRegion (s : State) (e : Nat × Packet × Nat × Nat) : Bool :=
  e.2.1.ovc == vcREQ && e.2.1.ptype != 0 && (decide (768 ≤ e.1) || isFabric s e.1 || isLocalAcct s [e.2.2])

/-- A later request waits for every earlier one of its source, but a READ not for a READ (R211, R215). -/
def behindEarlier (s : State) (port : Nat) (p : Packet) : Bool :=
  (s.route.toEngine.takeWhile (fun e => !(e.1 == port && e.2.1 == p))).any (fun e =>
    atRegion s e && e.2.1.src == p.src && !(mmOp e.2.1.sub == mopREAD && mmOp p.sub == mopREAD))

/-- The die that serves a request: that of the region it addresses. -/
def serveDie (s : State) (p : Packet) : Nat := ((regionAt s (mmOff p.sub)).map (fun r => r.2.die)).getD 0

/-- MEM_REQUEST_PERFORM: what an attachment port brings in is performed only once its first Q7, this one, has
admitted it, and each request in the order of R215. -/
def doPerform (port : Nat) (p : Packet) (s : State) : State :=
  let b := p.sub
  let bufs := deliveredAt s port p
  if ¬ engineFor s port p ∨ p.ovc ≠ vcREQ ∨ p.dst ≠ selfEpid s
      ∨ (port < 768 ∧ ¬ isFabric s port = true ∧ ¬ isLocalAcct s bufs = true) ∨ behindEarlier s port p = true then s
  else
    let s := freeAll bufs (takeDelivered port p s)
    if ¬ reqDefined p then onlyIf (decide (port < 768)) (count (kPort port iMEM_MALFORMED)) s
    else if reqStale s b then onlyIf (decide (port < 768)) (count (kPort port iMEM_STALE)) s
    else
      let out := perform p s
      builtOn (serveDie s p) (originate (dataPkt vcRSP p.src p.job (responseBits b out.1) out.2.1)) out.2.2

def execMemRequestPerform (port : Nat) (p : Packet) (s : State) : Host.Outcome State Fault Refusal := .next (doPerform port p s)

/-! ## MEM_RESPONSE and MEM_REQUEST_TIMEOUT (R203, R219) -/

/-- Give a packet, stored and charged to a port's egress account, to the queue of the port, or leave it waiting
for a job slot. -/
def toQueue (port : Nat) (e : Nat × Nat) (s : State) : State :=
  match storedAt s e.1 e.2 with
  | none => s
  | some x => match queueFor s port x.pkt with
    | none => onRoute (fun r => { r with reentry := r.reentry ++ [e] }) (noteSlotWait port x s)
    | some (q, s) =>
      let s := onStored e.1 e.2 (fun x => { x with owners := ownQueue port q :: retainers x, since := s.tide.now }) s
      enqueue port q e s

/-- MEM_RESPONSE at the requester's port. -/
def doMemResponse (port : Nat) (p : Packet) (s : State) : State :=
  let b := p.sub
  if ¬ engineFor s port p ∨ p.ovc ≠ vcRSP then s
  else
    let bufs := deliveredAt s port p
    let s := takeDelivered port p s
    match findOut s port (mmTag b) with
    | none => freeAll bufs (count (kPort port iMEM_STRAY) s)
    | some o =>
      if o.dst ≠ p.src ∨ ¬ mmResp b then freeAll bufs (count (kPort port iMEM_STRAY) s)
      else
        let s := freeOut port (mmTag b) s
        if bufs.isEmpty then onRoute (fun r => { r with outbox := r.outbox ++ [p], direct := r.direct ++ [noteOf p port true] }) s
        else forAll bufs (toQueue port) s

def execMemResponse (port : Nat) (p : Packet) (s : State) : Host.Outcome State Fault Refusal := .next (doMemResponse port p s)

/-- A response to an outstanding request has reached its Q7 by the instant of its timeout, wherever in the Q7 it stands, and
is to be delivered (R219). -/
def responseHere (s : State) (port tag : Nat) (o : Outst) : Bool :=
  let mine (k : Packet) : Bool := k.ovc == vcRSP && k.ptype != 0 && mmTag k.sub == tag && mmResp k.sub && k.src == o.dst
    && k.dst == o.pkt.src
  s.route.toEngine.any (fun e => e.1 == port && mine e.2.1)
    || s.shoal.stored.any (fun x => mine x.pkt && x.dest == .lport port && decide (x.at_ ≤ o.at_ + 500000))
    || s.route.outbox.any mine

/-- The 500 µs of a request have passed: it is answered TIMEOUT, and its entry freed, unless a response has come (R219). -/
def timeOut (port tag : Nat) (o : Outst) (s : State) : State :=
  if responseHere s port tag o then s else answerReq port o.pkt stTIMEOUT (freeOut port tag s)

/-- MEM_REQUEST_TIMEOUT: 500 µs since admission; in that very instant what arrives comes first. -/
def doMemTimeout (port tag : Nat) (s : State) : State :=
  match findOut s port tag with
  | none => s
  | some o =>
    if ¬ engineOn s ∨ ¬ due s (o.at_ + 500000) then s
    else if s.tide.now = o.at_ + 500000 then
      onMem (fun m => { m with outst := m.outst.map (fun x => if x.port == port && x.tag == tag then { x with expire := true } else x) }) s
    else timeOut port tag o s

/-- The requests whose 500 µs end with this instant (R219). -/
def settleOuts (s : State) : State :=
  forAll (s.mem.outst.filter (·.expire)) (fun o s =>
    timeOut o.port o.tag o (onMem (fun m => { m with outst := m.outst.map (fun x => { x with expire := x.expire && !(x.port == o.port && x.tag == o.tag) }) }) s)) s

def execMemRequestTimeout (port tag : Nat) (s : State) : Host.Outcome State Fault Refusal := .next (doMemTimeout port tag s)

/-! ## Coves (R204, R205, R573) -/

def coveBehind (s : State) (_ : BitVec 384) : Bool := queuedBehind s (fun d => d.opcode == 0x48 || d.opcode == 0x49)
def coveMust (s : State) (_ : BitVec 384) : Bool := mustWait (coveTags s) s.mem.ctag || lookedNow s (4, 0)
def coveBump (_ : BitVec 384) : State → State := onMem (fun m => { m with ctag := (m.ctag + 1) % 16 })

/-- COVE_CREATE. -/
def rawCoveCreate : Work := fun cx op _ s =>
  let c := fld op 15 0
  if ¬ onlyBits op [(15, 0)] ∨ c = 0 ∨ s.mem.coves.contains c then (s, fail stBAD)
  else if ¬ coveAllowed s cx.func c then (s, fail stDENIED)
  else (resetInstance 8 c (onMem (fun m => { m with coves := insertAsc c m.coves }) s), ok)

/-- A port, window, group or table names a Cove (R205). -/
def coveNamed (s : State) (c : Nat) : Bool :=
  s.mem.binds.any (fun b => b.2.cove == c) || s.mem.windows.any (fun w => w.2.cove == c)
  || s.groups.any (fun g => g.2.frag.cove == c) || s.emb.tables.any (fun t => t.2.info.cove == c)

/-- COVE_DESTROY. -/
def rawCoveDestroy : Work := fun cx op _ s =>
  let c := fld op 15 0
  if ¬ onlyBits op [(15, 0)] ∨ ¬ s.mem.coves.contains c then (s, fail stBAD)
  else if ¬ coveAllowed s cx.func c then (s, fail stDENIED)
  else if coveNamed s c then (s, fail stHELD)
  else (onMem (fun m => { m with coves := m.coves.filter (fun x => x != c) }) s, ok)

def execCoveCreate (r i : Nat) (s : State) : Host.Outcome State Fault Refusal :=
  .next (runDesc 0x48 (withTag (fun _ => (4, 0)) coveBehind coveMust coveBump rawCoveCreate) r i [] s)
def execCoveDestroy (r i : Nat) (s : State) : Host.Outcome State Fault Refusal :=
  .next (runDesc 0x49 (withTag (fun _ => (4, 0)) coveBehind coveMust coveBump rawCoveDestroy) r i [] s)

/-! ## Port bindings (R206, R207, R534) -/

/-- The descriptors that write the port bindings and wait (R272). -/
def bindQueue (s : State) : List Desc := s.host.accepted.filter (fun d => d.stage == .commitWait && (d.opcode == 0x4A || d.opcode == 0x59))

def bindBehind (s : State) (_ : BitVec 384) : Bool :=
  queuedBehind s (fun d => d.opcode == 0x4A || d.opcode == 0x59) || !s.mem.unbindWait.isEmpty
def bindMust (s : State) (_ : BitVec 384) : Bool := mustWait (bindTags s) s.mem.ptag || lookedNow s (2, 0)
def bindBump (_ : BitVec 384) : State → State := onMem (fun m => { m with ptag := (m.ptag + 1) % 16 })

def pbEpid (op : BitVec 384) : Nat := fld op 287 270
def pbPort (op : BitVec 384) : Nat := fld op 269 260
def pbCove (op : BitVec 384) : Nat := fld op 15 0
def bindFields : List (Nat × Nat) := [(287, 270), (269, 260), (259, 247), (15, 0)]

/-- PORT_BIND with COVE other than 0. -/
def rawPortBind : Work := fun cx op _ s =>
  let p := pbPort op
  let peer := (getPort s p).peer
  if ¬ onlyBits op bindFields ∨ isFabric s p ∨ ¬ portExists s p ∨ pbEpid op = selfEpid s
      ∨ s.mem.binds.any (fun b => b.1 != p && b.2.epid == pbEpid op) ∨ ¬ s.mem.coves.contains (pbCove op)
      ∨ ¬ inRange (fld op 259 247) 1 4096 then (s, fail stBAD)
  else if ¬ coveAllowed s cx.func (pbCove op) then (s, fail stDENIED)
  else if (bindOf s p).isSome then (s, fail stHELD)
  else if ¬ portRun s p ∨ peer.role ≠ some 1 ∨ peer.epid ≠ pbEpid op then (s, fail stDENIED)
  else (onMem (fun m => { m with binds := mput m.binds p ⟨pbEpid op, pbCove op, fld op 259 247⟩ }) s, ok)

/-- Unbind a port at a commit point (R207). -/
def unbind (p : Nat) : State → State := onMem (fun m => { m with binds := mdel m.binds p })

/-- PORT_BIND with COVE 0: completes when the port's outstanding count reaches zero. -/
def rawPortUnbind : Work := fun cx op _ s =>
  let p := pbPort op
  if ¬ onlyBits op bindFields ∨ isFabric s p ∨ ¬ portExists s p then (s, fail stBAD)
  else if ((bindOf s p).map (fun b => coveAllowed s cx.func b.cove)).getD true = false then (s, fail stDENIED)
  else if outCount s p = 0 then (unbind p s, ok)
  else (onMem (fun m => { m with unbinding := m.unbinding ++ [(p, cx.ring, cx.idx)] }) (unbind p s), .wait .draining)

/-- PORT_BIND: which of the two it is lies in its COVE. -/
def rawBindAny : Work := fun cx op d s => if pbCove op = 0 then rawPortUnbind cx op d s else rawPortBind cx op d s

/-- The descriptor's COVE is zero as the command says. -/
def bindIs (zero : Bool) (r i : Nat) (s : State) : Bool := (findDesc s r i).all (fun d => decide (pbCove d.op = 0) == zero)

def execPortBind (r i : Nat) (s : State) : Host.Outcome State Fault Refusal :=
  .next (if bindIs false r i s then runDesc 0x4A (withTag (fun _ => (2, 0)) bindBehind bindMust bindBump rawPortBind) r i [] s else s)
def execPortUnbind (r i : Nat) (s : State) : Host.Outcome State Fault Refusal :=
  .next (if bindIs true r i s then runDesc 0x4A (withTag (fun _ => (2, 0)) bindBehind bindMust bindBump rawPortUnbind) r i [] s else s)

/-- A port is unbound without a descriptor, as PORT_BIND with COVE 0 unbinds it: at once, or behind the writes that wait and
once its tag allows (R272, R534). -/
def unbindAlone (p : Nat) (s : State) : State :=
  if bindMust s 0 ∨ bindBehind s 0 = true then
    onMem (fun m => { m with unbindWait := m.unbindWait ++ [(p, (bindQueue s).map (fun d => (d.ring, d.idx)))] }) s
  else bindBump 0 (unbind p s)

/-- The next write of the port bindings that waits is an unbinding of R534: no descriptor that waited before it waits still. -/
def unbindNext (s : State) : Option Nat :=
  match s.mem.unbindWait with
  | [] => none
  | e :: _ => if (bindQueue s).any (fun d => e.2.contains (d.ring, d.idx)) then none else some e.1

/-- PORT_UNBIND_DONE (R207). -/
def doPortUnbindDone (p : Nat) (s : State) : State :=
  if outCount s p ≠ 0 then s
  else
    let l := s.mem.unbinding.filter (fun x => x.1 == p)
    let s := onMem (fun m => { m with unbinding := m.unbinding.filter (fun x => x.1 != p) }) s
    forAll l (fun x => finishDesc x.2 stDONE 0) s

def execPortUnbindDone (port : Nat) (s : State) : Host.Outcome State Fault Refusal := .next (whenLive (doPortUnbindDone port) s)

/-! ## Windows (R208 to R210, R220) -/

def winBehind (s : State) (_ : BitVec 384) : Bool := queuedBehind s (fun d => d.opcode == 0x4B || d.opcode == 0x4C)
def winMust (s : State) (_ : BitVec 384) : Bool := mustWait (windowTags s) s.mem.wtag || lookedNow s (1, 0)
def winBump (_ : BitVec 384) : State → State := onMem (fun m => { m with wtag := (m.wtag + 1) % 16 })

/-- The window record in 32 bytes of host memory (R208). -/
def windowOf (d : List Byte) : Window × BitVec 256 :=
  let b : BitVec 256 := BitVec.ofNat 256 (beAt d 0 32)
  ({ cove := fld b 255 240, lo := fld b 239 222, hi := fld b 221 204, base := fld b 203 170, limit := fld b 169 136,
     pr := bitAt b 135, pw := bitAt b 134, pa := bitAt b 133, px := bitAt b 132 }, b)

/-- Two windows of one Cove overlap (R210). -/
def winOverlap (a b : Window) : Bool :=
  a.cove == b.cove && decide (a.lo ≤ b.hi ∧ b.lo ≤ a.hi) && decide (a.base ≤ b.limit ∧ b.base ≤ a.limit)

/-- WINDOW_ADD. -/
def rawWindowAdd : Work := fun cx op d s =>
  let w := (windowOf d).1
  let i := fld op 246 230
  if ¬ onlyBits op [(383, 320), (319, 288), (246, 230)] ∨ fld op 383 320 % 32 ≠ 0 ∨ fld op 319 288 ≠ 32
      ∨ w.cove = 0 ∨ w.hi < w.lo ∨ w.limit < w.base ∨ fld (windowOf d).2 131 0 ≠ 0 ∨ ¬ (w.pr || w.pw || w.pa || w.px)
      ∨ ¬ s.mem.coves.contains w.cove ∨ (mget s.mem.windows i).isSome ∨ s.mem.windows.any (fun x => winOverlap w x.2) then
    (s, fail stBAD)
  else if ¬ coveAllowed s cx.func w.cove then (s, fail stDENIED)
  else (onMem (fun m => { m with windows := mput m.windows i w }) s, ok)

/-- WINDOW_REMOVE: completes when no request of the old epoch is in flight (R220). -/
def rawWindowRemove : Work := fun cx op _ s =>
  let i := fld op 246 230
  match mget s.mem.windows i with
  | none => (s, fail stBAD)
  | some w =>
    if ¬ onlyBits op [(246, 230)] then (s, fail stBAD)
    else if ¬ coveAllowed s cx.func w.cove then (s, fail stDENIED)
    else (onMem (fun m => { m with
      windows := mdel m.windows i, removing := m.removing ++ [(cx.ring, cx.idx, i, (m.wtag + 1) % 16)] }) s, .wait .draining)

def execWindowAdd (r i : Nat) (d : List Byte) (s : State) : Host.Outcome State Fault Refusal :=
  .next (runDesc 0x4B (withTag (fun _ => (1, 0)) winBehind winMust winBump rawWindowAdd) r i d s)
def execWindowRemove (r i : Nat) (s : State) : Host.Outcome State Fault Refusal :=
  .next (runDesc 0x4C (withTag (fun _ => (1, 0)) winBehind winMust winBump rawWindowRemove) r i [] s)

/-- WINDOW_REMOVE_DONE (R220). -/
def doWindowRemoveDone (w : Nat) (s : State) : State :=
  let isDone (x : Nat × Nat × Nat × Nat) : Bool := x.2.2.1 == w && drained (windowTags s) s.mem.wtag x.2.2.2
  let l := s.mem.removing.filter isDone
  let t := onMem (fun m => { m with removing := m.removing.filter (fun x => !isDone x) }) s
  forAll l (fun x => finishDesc (x.1, x.2.1) stDONE 0) t

def execWindowRemoveDone (window : Nat) (s : State) : Host.Outcome State Fault Refusal := .next (whenLive (doWindowRemoveDone window) s)

/-! ## Regions (R190 to R194) -/

/-- REGION_EXPORT. -/
def workRegionExport : Work := fun _ op d s =>
  let ridx := fld op 184 177
  let size := fld op 204 187 * 2 ^ 21
  let off := fld op 229 205 * 2 ^ 21
  let len := fld op 319 288
  let r : Region := { offset := off, size := size, die := fld op 186 185, mem := memWriteN [] 0 (sliceB d 0 len) }
  let t := onMem (fun m => { m with regions := mput m.regions ridx r }) s
  if ¬ onlyBits op [(383, 320), (319, 288), (229, 205), (204, 187), (186, 185), (184, 177)] ∨ fld op 383 320 % 32 ≠ 0
      ∨ (mget s.mem.regions ridx).isSome ∨ ¬ inRange (fld op 204 187) 1 49152 ∨ size < len ∨ 2 ^ 46 < off + size
      ∨ s.mem.regions.any (fun x => decide (off < x.2.offset + x.2.size ∧ x.2.offset < off + size)) then (s, fail stBAD)
  else if ¬ hbmFits t then (s, fail stNORES)
  else (countN (kDie r.die iHBM_WR) size t, ok)

def execRegionExport (r i : Nat) (d : List Byte) (s : State) : Host.Outcome State Fault Refusal := .next (runDesc 0x4D workRegionExport r i d s)

/-- REGION_RELEASE: new accesses are refused from here (R193). -/
def workRegionRelease : Work := fun cx op _ s =>
  let ridx := fld op 184 177
  match mget s.mem.regions ridx with
  | none => (s, fail stBAD)
  | some r =>
    if ¬ onlyBits op [(184, 177)] ∨ r.releasing.isSome then (s, fail stBAD)
    else (onMem (fun m => { m with regions := mmod m.regions ridx (fun r => { r with releasing := some (cx.ring, cx.idx) }) }) s, .wait .draining)

def execRegionRelease (r i : Nat) (s : State) : Host.Outcome State Fault Refusal := .next (runDesc 0x4E workRegionRelease r i [] s)

/-- REGION_RELEASE_DONE: no access is still being performed, since each is one step; the HBM3 is freed (R193). -/
def doRegionReleaseDone (ridx : Nat) (s : State) : State :=
  match (mget s.mem.regions ridx).bind (·.releasing) with
  | none => s
  | some ri => finishDesc ri stDONE 0 (onMem (fun m => { m with regions := mdel m.regions ridx }) s)

def execRegionReleaseDone (region : Nat) (s : State) : Host.Outcome State Fault Refusal := .next (whenLive (doRegionReleaseDone region) s)

/-! ## Jobs (R230, R231, R234) -/

/-- The jobs bound to a port. -/
def jobsOn (s : State) (p : Nat) : List Nat := (s.mem.jobPorts.filter (fun x => x.1 == p)).map (·.2)

/-- A port would hold two jobs of one class. -/
def classClash (s : State) (p job : Nat) (cls : Bool) : Bool := (jobsOn s p).any (fun j => j != job && isFill s j == cls)

/-- JOB_CLASS. A lookup of a job's class ends at once, so the commit never waits (R273). -/
def workJobClass : Work := fun _ op _ s =>
  let j := fld op 7 0
  let cls := bitAt op 372
  let ports := (s.mem.jobPorts.filter (fun x => x.2 == j)).map (·.1)
  if ¬ onlyBits op [(372, 372), (371, 362), (7, 0)] ∨ j = 0 ∨ ¬ inRange (fld op 371 362) 1 640 then (s, fail stBAD)
  else if ports.any (fun p => classClash s p j cls) then (s, fail stNORES)
  else (onMem (fun m => { m with jobs := mput m.jobs j (cls, fld op 371 362), jtag := (m.jtag + 1) % 16 }) s, ok)

def execJobClass (r i : Nat) (s : State) : Host.Outcome State Fault Refusal := .next (runDesc 0x58 workJobClass r i [] s)

/-- The checks JOB_PORT makes in both directions (R231). -/
def jobPortBad (s : State) (op : BitVec 384) : Bool :=
  !onlyBits op [(383, 374), (373, 373), (7, 0)] || fld op 7 0 == 0 || isFabric s (fld op 383 374) || (bindOf s (fld op 383 374)).isNone
  || (mget s.mem.jobs (fld op 7 0)).isNone

/-- JOB_PORT. -/
def rawJobPort : Work := fun _ op _ s =>
  let p := fld op 383 374
  let j := fld op 7 0
  if jobPortBad s op then (s, fail stBAD)
  else if classClash s p j (isFill s j) then (s, fail stNORES)
  else (onMem (fun m => { m with jobPorts := addNew m.jobPorts (p, j) }) s, ok)

/-- JOB_PORT with UNBIND. -/
def rawJobUnbind : Work := fun _ op _ s =>
  if jobPortBad s op then (s, fail stBAD)
  else (onMem (fun m => { m with jobPorts := m.jobPorts.filter (fun x => x != (fld op 383 374, fld op 7 0)) }) s, ok)

def rawJobAny : Work := fun cx op d s => if bitAt op 373 then rawJobUnbind cx op d s else rawJobPort cx op d s

/-- The descriptor's UNBIND is as the command says. -/
def jobIs (unb : Bool) (r i : Nat) (s : State) : Bool := (findDesc s r i).all (fun d => bitAt d.op 373 == unb)

def execJobPort (r i : Nat) (s : State) : Host.Outcome State Fault Refusal :=
  .next (if jobIs false r i s then runDesc 0x59 (withTag (fun _ => (2, 0)) bindBehind bindMust bindBump rawJobPort) r i [] s else s)
def execJobPortUnbind (r i : Nat) (s : State) : Host.Outcome State Fault Refusal :=
  .next (if jobIs true r i s then runDesc 0x59 (withTag (fun _ => (2, 0)) bindBehind bindMust bindBump rawJobUnbind) r i [] s else s)

/-! ## TABLE_COMMIT_WAIT_END (R272) -/

/-- The first waiting commit of a table goes ahead, once the next tag has no lookup in flight; what it writes is
checked at this commit point. -/
def retryCommit (f : Desc → Bool) (must : Bool) (work : Nat → Work) (bump : BitVec 384 → State → State) (s : State) : State :=
  match s.host.accepted.find? (fun d => d.stage == .commitWait && f d) with
  | none => s
  | some d =>
    if must ∨ s.dev.state = .cliff then s
    else
      let out := thenBump bump (work d.opcode) ⟨d.ring, d.idx, d.func, true⟩ d.op d.data s
      settleDesc d d.data out.2 out.1

/-- The work of an opcode that writes an embedding table's entry. -/
def tableRaw (c : Nat) : Work :=
  if c = 0x38 then rawTableInstall else if c = 0x3C then rawTableSet else if c = 0x3D then rawTableQuiesce
  else if c = 0x3E then rawTableResume else rawTableDestroy

def doCommitWaitEnd (tsel index : Nat) (s : State) : State :=
  match tsel with
  | 0 => drainCommits 1 s
  | 1 => retryCommit (fun d => d.opcode == 0x4B || d.opcode == 0x4C) (winMust s 0)
      (fun c => if c = 0x4B then rawWindowAdd else rawWindowRemove) winBump s
  | 2 => match unbindNext s with
    | some p => if bindMust s 0 then s else bindBump 0 (unbind p (onMem (fun m => { m with unbindWait := m.unbindWait.drop 1 }) s))
    | none => retryCommit (fun d => d.opcode == 0x4A || d.opcode == 0x59) (bindMust s 0)
        (fun c => if c = 0x4A then rawBindAny else rawJobAny) bindBump s
  | 4 => retryCommit (fun d => d.opcode == 0x48 || d.opcode == 0x49) (coveMust s 0)
      (fun c => if c = 0x48 then rawCoveCreate else rawCoveDestroy) coveBump s
  | 5 => retryCommit (fun d => tableWrites d.opcode && tableOf d.op == index)
      (tableMust s (BitVec.ofNat 384 index)) tableRaw tableBump s
  | 6 => retryCommit (fun d => d.opcode == 0x40 && leAt d.data 4 2 == index)
      (mapMust s index) (fun _ => rawShardMap) (fun _ s => s) s
  | _ => s

def execTableCommitWaitEnd (tsel index : Nat) (s : State) : Host.Outcome State Fault Refusal := .next (whenLive (doCommitWaitEnd tsel index) s)

end Sys2Proof.Machine
end

