-- ==== Sys2Proof/Machine/Packets.lean ====
section
/-! DEFINITION. The path of a packet through the Q7: the checks at a port, the resequencer, dispatch, the move
to the escape channel, and the Ethernet-mode bridge (R240 to R245, R250, R257, R261 to R267, R284 to R289,
R312 to R314, R364 to R369, R615). -/

namespace Sys2Proof.Machine

/-! ## Which packets the Q7 takes (R615) -/

/-- A kind of packet that comes to a Q7 only from another Q7, by CTYPE. -/
def ctypeQ7 (c : Nat) : Bool :=
  c == 0x31 || c == 0x42 || c == 0x44 || c == 0x4F || (decide (0x47 ≤ c) && decide (c ≤ 0x4B)) || c == 0x4E || c == 0x50
  || c == 0x51 || c == 0x53 || c == 0x54

/-- A kind that endpoints send to a Q7 over either kind of port, by CTYPE. -/
def ctypeAny (c : Nat) : Bool := c == 0x40 || c == 0x41 || c == 0x43 || c == 0x4C || c == 0x4D || c == 0x52

/-- The Q7 consumes a packet addressed to it, from a fabric port (or of its own) or from an attachment port. -/
def consumes (fab : Bool) (p : Packet) : Bool :=
  if p.ptype = 0 then (if p.ctype = 0x02 then !fab else ctypeAny p.ctype || (fab && ctypeQ7 p.ctype))
  else if p.ovc = vcREQ ∨ p.ovc = vcRSP then true
  else if p.ovc = vcCUP then fab && scPhase p.sub == 1
  else if p.ovc = vcCDN then fab && scPhase p.sub == 2
  else if p.ovc = vcEMB then
    (let k := emKind p.sub
     if k = ekPOOLED then false else if 3 ≤ k ∧ k ≤ 5 then fab else true)
  else false

/-! ## The resequencer (R261 to R266) -/

/-- A packet at a resequencer: FSEQ, ingress port, packet, die and first buffer (die 4 where it is not stored). -/
abbrev RItem := Nat × Nat × Packet × Nat × Nat

/-- What handling one arrival gives: the flow, the packets delivered in order with their new GAP mark, the
packets dropped with the counter of each, and the counters of events. -/
structure ROut where
  flow : Flow
  out : List (RItem × Bool) := []
  drop : List (RItem × Nat) := []
  cnt : List Nat := []
deriving DecidableEq, Repr

/-- Deliver every held packet that continues the sequence; the timer stops when nothing stays held. -/
def runOn : Nat → ROut → ROut
  | 0, o => { o with flow := { o.flow with timer := if o.flow.held.isEmpty then none else o.flow.timer } }
  | n + 1, o =>
    match o.flow.held.find? (fun it => it.1 == o.flow.exp) with
    | none => { o with flow := { o.flow with timer := if o.flow.held.isEmpty then none else o.flow.timer } }
    | some it => runOn n { o with
        flow := { o.flow with exp := (o.flow.exp + 1) % 2 ^ 32, held := o.flow.held.erase it },
        out := o.out ++ [(it, false)] }

/-- Deliver a packet at EXP and what continues from it. -/
def deliverAt (it : RItem) (gap : Bool) (o : ROut) : ROut :=
  runOn o.flow.held.length { o with
    flow := { o.flow with exp := (it.1 + 1) % 2 ^ 32 },
    out := o.out ++ [(it, gap)] }

/-- The held packets in the order of their distance from EXP. -/
def heldOrder (f : Flow) : List RItem := sortBy (fun it => ahead f.exp it.1) f.held

/-- Skip a gap: the lowest held FSEQ is delivered with GAP set, with all that continues from it (R264). -/
def skipGap (now : Nat) (o : ROut) : ROut :=
  match heldOrder o.flow with
  | [] => o
  | it :: _ =>
    let o := deliverAt it true { o with
      flow := { o.flow with held := o.flow.held.erase it, timer := none },
      cnt := o.cnt ++ [iRSQ_GAP] }
    { o with flow := { o.flow with timer := if o.flow.held.isEmpty then none else some now } }

/-- Skip gaps until a packet lies within the window or nothing is held (R263, overrun). -/
def skipTo (now f : Nat) : Nat → ROut → ROut
  | 0, o => o
  | n + 1, o => if ahead o.flow.exp f ≤ 511 ∨ o.flow.held.isEmpty then o else skipTo now f n (skipGap now o)

/-- The packet at EXP was taken in the instant of its gap timeout, which is abandoned: for what stays held the timer starts
again (R264, R265). -/
def restartGap (now : Nat) (o : ROut) : ROut :=
  { o with flow := { o.flow with timer := o.flow.timer.map (fun t => if t + 50000 = now then now else t) } }

/-- A packet at an entry in RUN (R263). -/
def runArrive (now : Nat) (it : RItem) (o : ROut) : ROut :=
  let d := ahead o.flow.exp it.1
  let hold (o : ROut) : ROut :=
    if o.flow.held.any (fun x => x.1 == it.1) then { o with drop := o.drop ++ [(it, iRSQ_DUP)] }
    else { o with flow := { o.flow with held := o.flow.held ++ [it], timer := some (o.flow.timer.getD now) } }
  if d = 0 then restartGap now (deliverAt it false o)
  else if d ≤ 511 then hold o
  else if it.2.2.1.fs then
    deliverAt it false { o with
      flow := { o.flow with held := [], timer := none },
      out := o.out ++ (heldOrder o.flow).map (fun x => (x, false)),
      cnt := o.cnt ++ [iRSQ_REBASE] }
  else if 2 ^ 31 ≤ d then { o with drop := o.drop ++ [(it, iRSQ_LATE)] }
  else
    let o := skipTo now it.1 o.flow.held.length { o with cnt := o.cnt ++ [iRSQ_OVERRUN] }
    let d := ahead o.flow.exp it.1
    if 511 < d then deliverAt it true { o with cnt := o.cnt ++ [iRSQ_GAP] }
    else if d = 0 then deliverAt it false o
    else hold o

/-- Held packets of a BASE entry in sequence order about a new EXP, earlier ones first. -/
def baseOrder (exp : Nat) (l : List RItem) : List RItem := sortBy (fun it => ahead ((exp + 2 ^ 31) % 2 ^ 32) it.1) l

/-- A BASE entry enters RUN with an EXP; its held packets are handled as arriving now (R263). -/
def enterRun (now exp : Nat) (first : List RItem) (o : ROut) : ROut :=
  let l := first ++ baseOrder exp o.flow.held
  l.foldl (fun o it => runArrive now it o) { o with flow := { o.flow with run := true, exp := exp, held := [], timer := none } }

/-- The earliest held FSEQ in sequence order: the one for which the largest distance of a held FSEQ is least, the
lower number on a tie (R263). -/
def earliest (l : List Nat) : Nat :=
  let span (f : Nat) : Nat := l.foldl (fun m g => max m (ahead f g)) 0
  match sortBy span (sortBy id l) with
  | [] => 0
  | f :: _ => f

/-- The base timer has run out (R263). -/
def baseOut (now : Nat) (o : ROut) : ROut := enterRun now (earliest (o.flow.held.map (fun it => it.1))) [] o

/-- An arriving packet at its flow's entry (R263). -/
def flowArrive (now : Nat) (it : RItem) (f : Flow) : ROut :=
  let o : ROut := { flow := { f with lastAt := now } }
  if f.run then runArrive now it o
  else if it.2.2.1.fs then enterRun now it.1 [it] o
  else { o with flow := { o.flow with held := f.held ++ [it], timer := some (f.timer.getD now) } }

/-- A packet would overrun or rebase a RUN entry: one of its instant that stands before it is handled first (R265). -/
def disrupts (f : Flow) (k : Packet) : Bool :=
  f.run && decide (512 ≤ ahead f.exp k.fseq) && (k.fs || decide (ahead f.exp k.fseq < 2 ^ 31))

/-- What one outcome adds to another. -/
def ROut.add (a b : ROut) : ROut := { flow := b.flow, out := a.out ++ b.out, drop := a.drop ++ b.drop, cnt := a.cnt ++ b.cnt }

/-- The packets of an entry that waited for the end of their instant arrive, in sequence order (R265). -/
def takeLate (now : Nat) (f : Flow) : ROut :=
  (baseOrder f.exp f.late).foldl (fun o it => o.add (flowArrive now it o.flow)) { flow := { f with late := [] } }

/-- Force the gap timeouts of an entry until it holds nothing (R262). -/
def flushFlow (now : Nat) : Nat → ROut → ROut
  | 0, o => o
  | n + 1, o => if o.flow.held.isEmpty then o else flushFlow now n (skipGap now o)

/-! ## What the resequencer's outcomes do -/

/-- A packet goes to the engines through the queue of the LOCAL pseudo-port of its die, from which it is gone when its engine
has taken it; while all 14 job slots there are bound it waits behind path choice (R250, R317, R318, R564; log entry 102). -/
def toLocal (port : Nat) (k : Packet) (e : Nat × Nat) (s : State) : State :=
  let l := 768 + k.src % 4
  let give : State → State := onRoute (fun r => { r with toEngine := r.toEngine ++ [(port, k, e.1, e.2)] })
  match storedAt s e.1 e.2 with
  | none => give s
  | some x => match queueFor s l k with
    | none => onRoute (fun r => { r with reentry := r.reentry ++ [e] }) (noteSlotWait l x s)
    | some (q, s) =>
      let s := onStored e.1 e.2 (fun x => { x with owners := ownQueue l q :: retainers x }) s
      give (enqueue l q e (count (kQueue l q 0) (countN (kQueue l q 1) k.size s)))

/-- Packets that the engines have taken leave the LOCAL queues; a job slot left empty notes since when (R318). -/
def settleLocal (die : Nat) (s : State) : State :=
  let waits (e : Nat × Nat) : Bool := s.route.toEngine.any (fun x => x.2.2 == e)
  let x := getPort s (768 + die)
  if x.queues.all (fun q => q.2.all waits) then s
  else
    let y : Port := { x with queues := x.queues.map (fun q => (q.1, q.2.filter waits)) }
    onPort (768 + die) (fun _ => { y with
      slots := y.slots.map (fun j => if slotEmpty y j.1 && !slotEmpty x j.1 then (j.1, (j.2.1, s.tide.now)) else j) }) s

/-- Where a packet goes at its last Q7: a port an answer of this Q7 names, or what its lookup found. -/
def lastDest (s : State) (it : RItem) : Dest :=
  match s.route.direct.find? (noteIs it.2.2.1) with
  | some e => .lport e.at_
  | none => match storedAt s it.2.2.2.1 it.2.2.2.2 with
    | some x => x.dest
    | none => lookupDest s it.2.2.1.dst

/-- An answer of this Q7 itself that goes back on a port it names. -/
def isDirect (s : State) (it : RItem) : Bool :=
  s.route.direct.any (noteIs it.2.2.1)

/-- Such an answer that nothing resequences here: it has had its turn, it names another source, or its flow does not end at
this Q7 on that port. -/
def skipsReseq (s : State) (k : Packet) : Bool :=
  s.route.direct.any (fun e => noteIs k e && (e.inOrder || !(k.src == selfEpid s && lookupDest s k.dst == .lport e.at_)))

/-- Deliver one packet in order: to this Q7's engines, to the check of responses, or to the queue of its
attachment port (R250, R203, R266). One whose parity fails as it is read is discarded (R283, R476). -/
def deliverItem (it : RItem) (gap : Bool) (s : State) : State :=
  let k := if gap then it.2.2.1.setGap true else it.2.2.1
  let d := it.2.2.2.1
  let b := it.2.2.2.2
  if goodAt s d b = false then dropBad d b s
  else
  let dest := lastDest s it
  let direct := isDirect s it
  let s := onRoute (fun r => { r with direct := r.direct.filter (fun e => !noteIs it.2.2.1 e) }) s
  let s := setStored d b (fun _ => k) (onStored d b (fun x => { x with inOrder := true }) s)
  match dest with
  | .lport l =>
    if k.ovc = vcRSP ∧ k.ptype ≠ 0 ∧ ¬ direct = true then
      onRoute (fun r => { r with toEngine := r.toEngine ++ [(l, k, d, b)] }) s
    else toQueue l (d, b) s
  | _ => toLocal it.2.1 k (d, b) s

/-- Put a flow back, and apply the outcomes of handling it. -/
def applyOut (die : Nat) (o : ROut) (s : State) : State :=
  let same (e : Nat × Flow) : Bool := e.1 == die && e.2.entry == o.flow.entry
  let s := onShoal (fun h => { h with flows := h.flows.map (fun e => if same e then (die, o.flow) else e) }) s
  let s := forAll o.drop (fun e s => releaseStored e.1.2.2.2.1 e.1.2.2.2.2 (count (kDie die e.2) s)) s
  let s := forAll o.cnt (fun c => count (kDie die c)) s
  let s := forAll o.out (fun e => deliverItem e.1 e.2) s
  forAll (o.flow.held ++ o.flow.late) (fun it => onStored it.2.2.2.1 it.2.2.2.2 (fun x => { x with
    held := true, owners := ownReseq die o.flow.entry :: retainers x })) s

/-- The flow entry of a packet on a die. -/
def findFlow (s : State) (die src dst ovc : Nat) : Option Flow :=
  (s.shoal.flows.find? (fun e => e.1 == die && e.2.src == src && e.2.dst == dst && e.2.ovc == ovc)).map (fun e => e.2)

def dieFlows (s : State) (die : Nat) : List Flow := (s.shoal.flows.filter (fun e => e.1 == die)).map (fun e => e.2)

def freeFlow (die entry : Nat) : State → State :=
  onShoal (fun h => { h with flows := h.flows.filter (fun e => !(e.1 == die && e.2.entry == entry)) })

/-- Make room on a die whose 65,536 entries are in use: the empty entry that has waited longest, else the entry
whose timer started earliest, its packets delivered by forced gap timeouts (R262). -/
def evictFlow (die : Nat) (s : State) : State :=
  let l := dieFlows s die
  if l.length < 65536 then s
  else
    let empty := l.filter (fun f => f.held.isEmpty && f.late.isEmpty)
    let pick := if empty.isEmpty then sortBy (fun f => f.timer.getD 0) l else sortBy (fun f => f.lastAt) empty
    match pick with
    | [] => s
    | f :: _ =>
      let o := takeLate s.tide.now f
      let o := if f.run then o else baseOut s.tide.now o
      let o := flushFlow s.tide.now (o.flow.held.length) o
      count (kDie die iRSQ_EVICT) (freeFlow die f.entry (applyOut die o s))

/-- The core die that resequences a packet for a destination at this Q7 (R261). -/
def reseqDie (dest : Dest) (k : Packet) : Nat :=
  match dest with
  | .lport l => dieOf l
  | _ => k.src % 4

/-- A packet arrives at its flow's resequencer entry (R262, R263). One that would overrun or rebase it waits for the end of the
instant (R265). -/
def reseqTake (die : Nat) (it : RItem) (s : State) : State :=
  let k := it.2.2.1
  match findFlow s die k.src k.dst k.ovc with
  | some f => applyOut die (if disrupts f k then { flow := { f with late := f.late ++ [it], lastAt := s.tide.now } } else flowArrive s.tide.now it f) s
  | none =>
    let s := evictFlow die s
    let n := lowestFree 0 (sortBy id ((dieFlows s die).map (fun f => f.entry)))
    let f : Flow := {
      entry := n, src := k.src, dst := k.dst, ovc := k.ovc, run := k.fs, exp := k.fseq, held := [], timer := none,
      lastAt := s.tide.now }
    let s := onShoal (fun h => { h with flows := h.flows ++ [(die, f)] }) s
    applyOut die (flowArrive s.tide.now it f) s

/-- A flow's timer or its 150 µs end with this instant: what arrives in it is taken first (R265). -/
def expireFlow (die entry : Nat) : State → State :=
  onShoal (fun h => { h with flows := h.flows.map (fun e => if e.1 == die && e.2.entry == entry then (die, { e.2 with expire := true }) else e) })

/-- A flow's wait has run out: BASE enters RUN, RUN skips its gap, and an entry that holds nothing and saw no packet for
150 µs is freed (R262 to R264). -/
def flowOut (die : Nat) (f : Flow) (s : State) : State :=
  let f := { f with expire := false }
  let ends (n : Nat) : Bool := (f.timer.map (fun t => due s (t + n))).getD false
  if f.held.isEmpty ∧ due s (f.lastAt + 150000) then freeFlow die f.entry s
  else
    let o : ROut := { flow := f }
    applyOut die (if f.run && ends 50000 then skipGap s.tide.now o else if !f.run && ends 2000 then baseOut s.tide.now o else o) s

/-- The flows whose late packets are handled, and those whose wait ends, with this instant (R265). -/
def settleFlows (s : State) : State :=
  let s := forAll (s.shoal.flows.filter (fun e => !e.2.late.isEmpty)) (fun e s => applyOut e.1 (takeLate s.tide.now e.2) s) s
  forAll (s.shoal.flows.filter (fun e => e.2.expire)) (fun e s =>
    match (dieFlows s e.1).find? (fun f => f.entry == e.2.entry) with
    | some f => if f.expire then flowOut e.1 f s else s
    | none => s) s

/-- The end of a flow's wait at a Tide count: what arrives in that very instant comes before it (R265). -/
def endFlowWait (die : Nat) (f : Flow) (at_ : Nat) (s : State) : State :=
  if s.tide.now = at_ then expireFlow die f.entry s else flowOut die f s

/-- RESEQ_BASE_TIMEOUT: 2 µs after a BASE entry first held a packet (R263). -/
def doBaseTimeout (die src dst ovc : Nat) (s : State) : State :=
  match findFlow s die src dst ovc with
  | none => s
  | some f => match f.timer with
    | none => s
    | some t => if engineOn s ∧ f.run = false ∧ due s (t + 2000) then endFlowWait die f (t + 2000) s else s

def execReseqBaseTimeout (die src dst ovc : Nat) (s : State) : Host.Outcome State Fault Refusal := .next (doBaseTimeout die src dst ovc s)

/-- RESEQ_GAP_TIMEOUT: 50 µs since the gap timer started (R264). -/
def doGapTimeout (die src dst ovc : Nat) (s : State) : State :=
  match findFlow s die src dst ovc with
  | none => s
  | some f => match f.timer with
    | none => s
    | some t => if engineOn s ∧ f.run = true ∧ due s (t + 50000) then endFlowWait die f (t + 50000) s else s

def execReseqGapTimeout (die src dst ovc : Nat) (s : State) : Host.Outcome State Fault Refusal := .next (doGapTimeout die src dst ovc s)

/-- RESEQ_ENTRY_FREE: an entry that holds nothing and saw no packet for 150 µs (R262). -/
def doEntryFree (die src dst ovc : Nat) (s : State) : State :=
  match findFlow s die src dst ovc with
  | none => s
  | some f => if engineOn s ∧ f.held.isEmpty ∧ due s (f.lastAt + 150000) then endFlowWait die f (f.lastAt + 150000) s else s

def execReseqEntryFree (die src dst ovc : Nat) (s : State) : Host.Outcome State Fault Refusal := .next (doEntryFree die src dst ovc s)

/-! ## Dispatch (R257, R284, R287, R288, R314) -/

/-- The egress account of a packet on a port: by OVC, or the port's ESC sub-account (R284, R314). -/
def egressAcct (s : State) (p : Nat) (k : Packet) : Acct :=
  let c := outClass s p k
  .egress p (if 7 ≤ c then c else k.ovc)

/-- An engine's reservation keeps the charge of what it holds until its last owner lets go (R284, R293, R294). -/
def keepsAcct (a : Acct) : Bool :=
  match a with
  | .group _ => true
  | .emb _ => true
  | _ => false

/-- A packet of this Q7's own that has just been stored and that no account has yet taken (R310). -/
def isNew (x : Stored) : Bool := x.owners == [mkOwner 7 0]

/-- The account a stored packet moves to takes its buffers. -/
def canMove (s : State) (x : Stored) (a : Acct) : Bool :=
  keepsAcct x.acct ||
  (if isNew x then acctCan (onShoal (fun h => { h with stored := h.stored.filter (fun y => y != x) }) s) a (acctDie a x.die) x.bufs.length
   else x.acct == a || acctCan s a (acctDie a x.die) x.bufs.length)

/-- What placing a packet comes to. -/
inductive Placed where
  | done (s : State)      -- dispatched, or dropped for a reason R257 or R615 gives
  | wait (s : State)      -- it waits where it is

/-- Drop a stored packet, counted on the port it came in on (log entry 24 for one of this Q7's own). -/
def dropAt (x : Stored) (i : Nat) (s : State) : State :=
  releaseStored x.die (x.bufs.headD 0xFFFFF) (onlyIf (decide (cameOn x < 768)) (count (kPort (cameOn x) i)) s)

/-- A packet served on a transit Q7 for a job without a class here, counted once (R231). -/
def noteClassless (x : Stored) (s : State) : State :=
  if (qvcOf x.pkt.ovc).isSome ∧ x.pkt.job ≠ 0 ∧ (mget s.mem.jobs x.pkt.job).isNone ∧ x.classless = false then
    count (kJob x.pkt.job 2) (onStored x.die (x.bufs.headD 0xFFFFF) (fun y => { y with classless := true }) s)
  else s

/-- Place a stored packet in the queue of a port. -/
def placeOn (p : Nat) (x : Stored) (s : State) : Placed :=
  let b := x.bufs.headD 0xFFFFF
  let a := egressAcct s p x.pkt
  if ¬ canMove s x a then .wait s
  else match queueFor s p x.pkt with
    | none => .wait (noteSlotWait p x s)
    | some (q, s) =>
      let s := onStored x.die b (fun y => { y with
        acct := if keepsAcct y.acct then y.acct else a, owners := ownQueue p q :: retainers y, since := s.tide.now }) s
      .done (enqueue p q (x.die, b) (noteClassless x s))

/-- The embedding reservation that a packet for this Q7's embedding engine enters, and whether it takes the packet (R294,
R295): the table's die for a bag or gradient of a table, the die that stores it for one of a shard map, and the home's own
room, without waiting, for a SUB_POOLED that a home awaits. -/
def embAdmits (s : State) (x : Stored) : Option (Nat × Bool) :=
  let b := x.pkt.sub
  let k := emKind b
  let fits (d : Nat) : Option (Nat × Bool) := some (d, keepsAcct x.acct || decide (embUsed s d + x.bufs.length ≤ s.shoal.cfg.embRes * 256))
  if x.pkt.ovc ≠ vcEMB ∨ x.pkt.ptype = 0 then none
  else if k = ekSUB_POOLED then (s.emb.homes.find? (fun h => isSubPkt h x.pkt)).map (fun h => (h.die, true))
  else if k = ekPOOLED then none
  else match (if emSplit b then none else getTable s (emTable b)) with
    | some t => fits t.info.die
    | none => fits x.die

/-- A packet at its last Q7 goes to the resequencer, charged to the embedding reservation of its engine, to LOCAL or to the
egress account of LPORT; a job slot of the port or of LOCAL is bound as it is taken (R261, R284, R294, R318). A control packet
for this Q7 waits for no buffer, and a SUB_POOLED that a home awaits for no slot (R295, R310). -/
def placeLast (dest : Dest) (x : Stored) (s : State) : Placed :=
  let b := x.bufs.headD 0xFFFFF
  let k := x.pkt
  let it : RItem := (k.fseq, x.port, k, x.die, b)
  let move (a : Acct) (s : State) : State :=
    reseqTake (reseqDie dest k) it (onStored x.die b (fun y => { y with
      acct := if keepsAcct y.acct then y.acct else a, since := s.tide.now }) s)
  match dest with
  | .lport l =>
    let a := Acct.egress l k.ovc
    if x.inOrder then (if canMove s x a then placeOn l x s else .wait s)
    else if ¬ canMove s x a then .wait s
    else match queueFor s l k with
      | none => .wait (noteSlotWait l x s)
      | some (_, s) => .done (move a s)
  | _ =>
    let l := 768 + k.src % 4
    let a := Acct.egress l k.ovc
    if x.inOrder then (if (queueFor s l k).isSome then .done (toLocal x.port k (x.die, b) s) else .wait (noteSlotWait l x s))
    else if ¬ consumes (decide (768 ≤ x.port) || isFabric s x.port) k then .done (dropAt x iPKT_MALFORMED s)
    else if k.ovc = vcCTRL ∧ canMove s x a = false then .done (move x.acct s)
    else match embAdmits s x, queueFor s l k with
      | some (d, true), slot => if emKind k.sub = ekSUB_POOLED then .done (move (.emb d) ((slot.map (·.2)).getD s))
        else (match slot with
          | some (_, t) => .done (move (.emb d) t)
          | none => .wait (noteSlotWait l x s))
      | some (_, false), _ => .wait s
      | none, some (_, t) => if canMove s x a then .done (move a t) else .wait s
      | none, none => .wait (noteSlotWait l x s)

/-- Route a stored packet onward (R250, R254 to R257). -/
def place (x : Stored) (s : State) : Placed :=
  match x.dest with
  | .noRoute => .done (dropAt x iROUTE_NONE s)
  | .via node e =>
    let choice : Option (Nat × State) :=
      if x.pkt.vc = vcESC then (chooseEsc s x.cap e x.pkt).map (fun p => (p, s)) else choosePort s x.cap x.die node e x.pkt
    match choice with
    | none => .done (dropAt x iROUTE_NONE s)
    | some (p, t) =>
      if isFabric s p ∧ x.cap.hopLimit ≤ x.pkt.hops then .done (dropAt x iROUTE_LOOP s)
      else match placeOn p x t with
        | .done u => .done u
        | .wait u => .wait { u with route := { u.route with rr := s.route.rr } }
  | d => placeLast d x s

/-- The state a placing leaves, and whether the packet moved. -/
def placedState : Placed → State
  | .done s => s
  | .wait s => s

def placedMoved : Placed → Bool
  | .done _ => true
  | .wait _ => false

/-- The packets of an ingress account. -/
def ingressList (s : State) (port c : Nat) : List (Nat × Nat) := mgetD (getPort s port).ingress c []

/-- The first packet of an ingress account (R288). -/
def ingressHead (s : State) (port c : Nat) : Option Stored :=
  match mgetD (getPort s port).ingress c [] with
  | [] => none
  | e :: _ => storedAt s e.1 e.2

/-- Take a packet off its ingress account; the next one's wait begins. -/
def popIngress (port c : Nat) (s : State) : State :=
  let l := (mgetD (getPort s port).ingress c []).drop 1
  let s := match l with
    | e :: _ => onStored e.1 e.2 (fun x => { x with since := max x.since s.tide.now }) s
    | [] => s
  onPort port (fun x => { x with ingress := mput x.ingress c l }) s

/-- DISPATCH of the head of an ingress account. -/
def dispatchIngress (port c : Nat) (s : State) : State :=
  match ingressHead s port c with
  | none => s
  | some x =>
    let r := place x s
    if placedMoved r then popIngress port c (placedState r) else placedState r

/-- The core die that builds a packet of this Q7's own, and the reservation it is charged to (R282, R293, R294): a group's
data and the control packets of a chunk on the array of the chunk, and a result copy of a Q7 that is not the root on the die of its parent port; what an engine
names itself on the die named; POOLED and SUB_POOLED in the embedding reservation of that die. Any other packet is kept as
state until an egress account takes it (R310), on CD0 where the manual names no die (log entry 24). -/
def originAt (s : State) (k : Packet) : Nat × Option Acct :=
  let named := (s.route.built.find? (noteIs k)).map (·.at_)
  if k.ptype ≠ 0 ∧ (k.ovc = vcCUP ∨ k.ovc = vcCDN) then
    match getGroup s (scGroup k.sub) with
    | some g =>
      let d := if k.ovc = vcCDN ∧ ¬ g.frag.isRoot then dieOf g.frag.parent else (arrayOf g (scChunk k.sub)).1
      (named.getD d, some (.group g.entry))
    | none => (named.getD 0, none)
  else if k.ptype = 0 ∧ 0x47 ≤ k.ctype ∧ k.ctype ≤ 0x4E then
    (named.getD (((getGroup s (fld k.ctl 119 96)).map (fun g => (arrayOf g (fld k.ctl 55 32)).1)).getD 0), none)
  else if k.ptype ≠ 0 ∧ k.ovc = vcEMB ∧ (emKind k.sub = ekPOOLED ∨ emKind k.sub = ekSUB_POOLED) then
    (named.getD 0, some (.emb (named.getD 0)))
  else (named.getD 0, none)

/-- The retained RESULT piece that a port's copy of it is read from (R120, R304). -/
def resultBase (s : State) (k : Packet) : Option (Nat × Nat) :=
  if k.ptype = 0 ∨ k.ovc ≠ vcCDN then none
  else
    let same (q : Packet) : Bool := q.ptype != 0 && q.ovc == vcCDN && scGroup q.sub == scGroup k.sub && scEpoch q.sub == scEpoch k.sub
      && scCall q.sub == scCall k.sub && scChunk q.sub == scChunk k.sub && scPiece q.sub == scPiece k.sub
    (s.shoal.stored.find? (fun x => x.base.isNone && x.owners.any (fun o => o / 2 ^ 21 == 4) && same x.pkt)).map
      (fun x => (x.die, x.bufs.headD 0xFFFFF))

/-- The packet of the outbox has gone: what was noted of it ends with it, but for the port an answer goes back on while its
flow may still hold it. -/
def leaveOutbox (k : Packet) (skips : Bool) : State → State :=
  onRoute (fun r =>
    let other (e : Noted) : Bool := !noteIs k e
    { r with
      outbox := r.outbox.eraseP (fun q => q == k), built := r.built.filter other, slotWaits := r.slotWaits.filter other,
      came := r.came.filter (fun e => other e.1),
      direct := if skips then r.direct.filter other else r.direct })

/-- Where a packet of this Q7's own is stored, and the reservation it is charged to: a port's copy of a retained RESULT in the
buffers of that (R304). -/
def ownPlace (s : State) (k : Packet) : Nat × Option Acct :=
  (((resultBase s k).map (·.1)).getD (originAt s k).1, (originAt s k).2)

/-- The reservation of a group table entry. -/
def entryRes (s : State) (entry : Nat) : List (Nat × Nat) :=
  ((s.groups.find? (fun g => g.2.entry == entry)).map (fun g => g.2.shoalRes)).getD []

/-- An engine's reservation has no room yet for a packet of its own (R293, R294), or the owner table none for a further
multicast port (R304). -/
def ownFull (s : State) (k : Packet) : Bool :=
  match (ownPlace s k).2 with
  | some (.emb d) => decide (s.shoal.cfg.embRes * 256 < embUsed s d + k.bufs)
  | some (.group e) =>
    if (resultBase s k).isSome then ownersFull s (ownPlace s k).1 else !groupTakes s e (entryRes s e) (ownPlace s k).1 k.bufs
  | _ => false

/-- Store a packet of this Q7's own, with its lookup captured. -/
def storeOwn (k : Packet) (s : State) : Option (Nat × State) :=
  let at_ := ownPlace s k
  let s := noteLooks [(0, 0)] s
  let x : Stored := {
    die := at_.1, bufs := [], acct := at_.2.getD (.egress (768 + at_.1) k.ovc), port := 1024, pkt := k, owners := [],
    rtag := some s.route.tag, dest := lastDest s (k.fseq, 1024, k, 4, 0), cap := capOf s, inOrder := skipsReseq s k,
    slotWait := s.route.slotWaits.any (noteIs k), came := ((s.route.came.find? (fun e => noteIs k e.1)).map (·.2)).getD 1024, at_ := s.tide.now, since := s.tide.now }
  match resultBase s k with
  | some e => some (storeCopy e.1 e.2 x (mkOwner 7 0) s)
  | none => storePkt at_.1 x.acct x k.bufs (mkOwner 7 0) s

/-- DISPATCH of the first originated packet on a channel: stored once the account it goes to takes it (R287, R293, R294,
R304, R310). One that waits for a job slot is counted once (R318). -/
def dispatchOwn (vc : Nat) (s : State) : State :=
  match s.route.outbox.find? (fun k => k.ovc == vc) with
  | none => s
  | some k =>
    if ownFull s k then s
    else match storeOwn k s with
    | none => s
    | some (b, t) =>
      match storedAt t (ownPlace s k).1 b with
      | none => s
      | some y => match place y t with
        | .done u => leaveOutbox k (skipsReseq s k) u
        | .wait u =>
          if y.slotWait = false ∧ ((storedAt u y.die b).map (·.slotWait)).getD false = true then
            onRoute (fun r => { r with slotWaits := r.slotWaits ++ [noteOf k 0 false] }) { s with obs := u.obs, host := u.host }
          else s

/-- DISPATCH of the first packet on a channel that re-entered path choice (R259). -/
def dispatchAgain (vc : Nat) (s : State) : State :=
  let here (e : Nat × Nat) : Bool := ((storedAt s e.1 e.2).map (fun x => x.pkt.vc == vc)).getD true
  match s.route.reentry.find? here with
  | none => s
  | some e =>
    match storedAt s e.1 e.2 with
    | none => onRoute (fun r => { r with reentry := r.reentry.erase e }) s
    | some x =>
      let r := place x s
      if placedMoved r then onRoute (fun r => { r with reentry := r.reentry.erase e }) (placedState r) else placedState r

/-- DISPATCH: the ingress accounts of ports 0 to 767 by credit class; 1024 names the packets this Q7 originates
and 1025 those that re-enter path choice, by channel. -/
def doDispatch (port vc : Nat) (s : State) : State :=
  if ¬ engineOn s then s
  else if port = 1024 then dispatchOwn vc s
  else if port = 1025 then dispatchAgain vc s
  else dispatchIngress port vc s

def execDispatch (port vc : Nat) (s : State) : Host.Outcome State Fault Refusal := .next (doDispatch port vc s)

/-- RESEQ_ARRIVAL: a packet for this Q7 or an endpoint attached to it arrives at its entry, from the head of its
ingress account where it stands there. -/
def doReseqArrival (port : Nat) (p : Packet) (s : State) : State :=
  let dest := lookupDest s p.dst
  let last := match dest with
    | .here => true
    | .lport _ => true
    | _ => false
  if ¬ engineOn s ∨ last = false then s
  else match (List.range 9).find? (fun c => ((ingressHead s port c).map (fun x => x.pkt == p)).getD false) with
    | some c => dispatchIngress port c s
    | none =>
      if dest = .here ∧ ¬ consumes (decide (768 ≤ port) || isFabric s port) p then
        onlyIf (decide (port < 768)) (count (kPort port iPKT_MALFORMED)) s
      else match dest with
        | .lport l =>
          let a := Acct.egress l p.ovc
          let x : Stored := {
            die := dieOf l, bufs := [], acct := a, port := port, pkt := p, owners := [], rtag := some s.route.tag, dest := dest,
            cap := capOf s, at_ := s.tide.now, since := s.tide.now }
          if acctCan s a (dieOf l) p.bufs = false then s
          else (match storePkt (dieOf l) a x p.bufs (mkOwner 7 0) s with
            | some (b, t) => reseqTake (reseqDie dest p) (p.fseq, port, p, dieOf l, b) t
            | none => s)
        | _ => reseqTake (reseqDie dest p) (p.fseq, port, p, 4, 0) s

def execReseqArrival (port : Nat) (p : Packet) (s : State) : Host.Outcome State Fault Refusal := .next (doReseqArrival port p s)

/-! ## ESC_MOVE (R312 to R314) -/

/-- No egress account of a packet's allowed set can take it. -/
def allBlocked (s : State) (x : Stored) (e : BitVec 512) : Bool :=
  (allowedSet s x.cap e).all (fun p => !(canMove s x (egressAcct s p x.pkt)) || (queueFor s p x.pkt).isNone)

/-- The wait of a packet has lasted ESC_WAIT. -/
def waitedEsc (s : State) (x : Stored) : Bool := due s (x.since + s.shoal.cfg.escWait)

/-- Move a packet to ESC and dispatch it to its escape port, by the way it leaves `f`. -/
def toEsc (port : Nat) (x : Stored) (f : State → State) (s : State) : State :=
  let k := (x.pkt.setVc vcESC).setDline 0
  let y := { x with pkt := k }
  let r := place y (setStored x.die (x.bufs.headD 0xFFFFF) (fun _ => k) s)
  if placedMoved r then count (kPort port iESC_MOVE) (f (placedState r)) else s

/-- The head packet of an egress queue on a channel. -/
def egressHead (s : State) (port vc : Nat) : Option (Nat × Stored) :=
  (List.range 64).findSome? (fun q => match queuePkts s port q with
    | [] => none
    | e :: _ => match storedAt s e.1 e.2 with
      | some x => if x.pkt.vc = vc then some (q, x) else none
      | none => none)

/-- An engine of this Q7 has taken a packet in: its data or its answers, which never move to ESC (R313). -/
def engineHolds (x : Stored) : Bool := keepsAcct x.acct || !(retainers x).isEmpty

/-- Move a queue's head to ESC, where it has waited for a credit for ESC_WAIT on a fabric port and its escape port takes it
(R312, R313). -/
def escFromQueue (port vc q : Nat) (s : State) : Option State :=
  match (headOf s port q).bind (fun h => storedAt s h.1 h.2.1) with
  | none => none
  | some x =>
    let b := x.bufs.headD 0xFFFFF
    if x.pkt.vc = vc ∧ x.pkt.vc ≠ vcESC ∧ hasCredit s port x.pkt = false ∧ waitedEsc s x = true ∧ engineHolds x = false then
      -- the packet leaves this queue before it enters its escape port's
      let t := toEsc port x id (dequeue port q s)
      if ((storedAt t x.die b).map (fun y => y.pkt.vc == vcESC)).getD true then some t else none
    else none

/-- Move the head of an ingress account to ESC, where no egress account of its allowed set has taken it for ESC_WAIT and its
escape port takes it (R312). -/
def escFromIngress (port vc : Nat) (s : State) : Option State :=
  match ingressHead s port vc with
  | none => none
  | some x => match x.dest with
    | .via _ e =>
      if x.pkt.vc ≠ vcESC ∧ waitedEsc s x = true ∧ allBlocked s x e = true ∧ ¬ (allowedSet s x.cap e).isEmpty then
        let t := toEsc port x (popIngress port vc) s
        if ingressList t port vc = ingressList s port vc then none else some t
      else none
    | _ => none

/-- ESC_MOVE of the head of an ingress account, or of the first queue head of that channel on a fabric port that is due and
can move. -/
def doEscMove (port vc : Nat) (s : State) : State :=
  if ¬ engineOn s then s
  else match escFromIngress port vc s with
    | some t => t
    | none => if isFabric s port then ((List.range 64).findSome? (fun q => escFromQueue port vc q s)).getD s else s

def execEscMove (port vc : Nat) (s : State) : Host.Outcome State Fault Refusal := .next (doEscMove port vc s)

/-! ## PACKET_INGRESS (R240, R241, R232, R328) -/

/-- The device takes packets from links: after a cut they are stored and not dispatched (R456, R457). -/
def linksOn (s : State) : Bool := s.dev.state == .train || s.dev.state == .run || s.dev.state == .stopped

/-- A control packet that the receiving port consumes before route lookup (R241, R458, R498, R529). -/
def portControl (fab : Bool) (p : Packet) : Bool :=
  p.ptype == 0 && (p.ctype == 0x08 || (decide (0x20 ≤ p.ctype) && decide (p.ctype ≤ 0x2F))
    || (p.ctype == 0x09) || (fab && p.ctype == 0x30))

/-- The first Q7's engines answer a packet at its port, whatever its DST: memory requests and contributions, and
refused bags and gradients (R65, R198, R232, R241). -/
def engineAtPort (denied : Bool) (p : Packet) : Bool :=
  p.ptype != 0 && (p.ovc == vcREQ || p.ovc == vcCUP || (denied && p.ovc == vcEMB && (emKind p.sub == ekBAG || emKind p.sub == ekGRAD)))

/-- JOB is checked on a packet (R232). -/
def jobChecked (p : Packet) : Bool := p.ovc == vcREQ || p.ovc == vcXFER || p.ovc == vcCUP || p.ovc == vcEMB

/-- A bag or gradient as the first Q7 stamps it with its port's Cove (R141). -/
def stampCove (cove : Nat) (p : Packet) : Packet :=
  if p.ovc = vcEMB ∧ p.ptype ≠ 0 ∧ (emKind p.sub = ekBAG ∨ emKind p.sub = ekGRAD) then
    { p with body := bytesBE 32 (setFld p.sub 93 78 cove).toNat ++ p.data }
  else p

/-- Give a packet straight to an engine of the port, in no buffer. -/
def giveEngine (port : Nat) (p : Packet) : State → State :=
  onRoute (fun r => { r with toEngine := r.toEngine ++ [(port, p, 4, 0)] })

/-- Note the job whose Shoal reached its cap, and the channel of the packet that reached it (R236). -/
def noteCap (before : Nat) (p : Packet) (s : State) : State :=
  match mget s.mem.jobs p.job with
  | none => s
  | some j =>
    let cap := j.2 * 2 ^ 20
    if before < cap ∧ cap ≤ jobHeld s p.job then
      onMem (fun m => { m with capped := m.capped.filter (fun e => e.1 != p.job) ++ [(p.job, p.vc)] }) s
    else s

/-- Store an arriving packet in its ingress account, with its lookups captured, for the engines of the port or
for dispatch; none where no buffer takes it. -/
def storeIngress (port : Nat) (engine jobOk : Bool) (p : Packet) (s : State) : Option State :=
  let c := classOn s port p
  let a := Acct.ingress port c
  let before := jobHeld s p.job
  let att := !isFabric s port
  let x : Stored := {
    die := dieOf port, bufs := [], acct := a, port := port, pkt := p, owners := [], rtag := some s.route.tag,
    ptag := if att then some s.mem.ptag else none, ctag := if att then some s.mem.ctag else none, dest := lookupDest s p.dst,
    cap := capOf s, bound := bindOf s port, jobOk := jobOk, at_ := s.tide.now, since := s.tide.now }
  match storePkt (dieOf port) a x p.bufs (ownIngress port) s with
  | none => none
  | some (b, s) =>
    let s := if att then noteCap before p s else s
    some (if engine then onRoute (fun r => { r with toEngine := r.toEngine ++ [(port, p, dieOf port, b)] }) s
      else onPort port (fun y => { y with ingress := mput y.ingress c (mgetD y.ingress c [] ++ [(dieOf port, b)]) }) s)

/-- A packet dropped by a policer: counted for the port, the Cove and the job; a REQ is answered (R328, R329). -/
def polDrop (port cove : Nat) (p : Packet) (s : State) : State :=
  let s := count (kPort port iPOL_DROP) (count (kCove cove 2) (count (kJob p.job 1) s))
  if p.ovc = vcREQ ∧ reqDefined p then answerReq port p stNORES s else s

/-- What an unbound port refuses with ACCESS_DENIED beside what its engines answer: the other CUP, EMB and group control
packets (R241, log entry 48). -/
def denyUnbound (port : Nat) (p : Packet) : Option (State → State) :=
  let c := p.ctl
  let gid := fld c 119 96
  let epoch (s : State) : Nat := ((getGroup s gid).map (fun g => g.now.epoch)).getD (fld c 95 80)
  let f : Option (State → State) :=
    if p.ptype = 0 then
      if p.ctype = 0x42 ∨ (0x44 ≤ p.ctype ∧ p.ctype ≤ 0x46) ∨ p.ctype = 0x4F then
        some (fun s => sendReply p.src gid (epoch s) stDENIED noRank p.job s)
      else if p.ctype = 0x47 then some (fun s => sendCollFail p.src gid (epoch s) noRank stDENIED (fld c 79 56) p.job s)
      else if p.ctype = 0x53 ∨ p.ctype = 0x54 then some (embFailTo p.src p.job (ecTable c) (ecStep c) (ecBag c) stDENIED)
      else none
    else if p.ovc = vcEMB then
      some (if emLast p.sub then embFailTo p.src p.job (emTable p.sub) (emStep p.sub) (emBag p.sub) stDENIED else id)
    else none
  f.map (backOn port)

/-- The checks of an attachment port and what they lead to; none where the packet must wait for a buffer. -/
def ingressAttach (port : Nat) (p : Packet) (s : State) : Option State :=
  if p.vc = vcESC ∨ p.hops ≠ 0 ∨ p.dline ≠ 0 ∨ p.gap = true then some (count (kPort port iPKT_MALFORMED) s)
  else match bindOf s port with
    | none =>
      if p.ptype = 0 ∧ (p.ctype = 0x08 ∨ (0x20 ≤ p.ctype ∧ p.ctype ≤ 0x2F)) then some (giveEngine port p s)
      else if engineAtPort true p ∨ (p.ptype = 0 ∧ (p.ctype = 0x40 ∨ p.ctype = 0x41 ∨ p.ctype = 0x43 ∨ p.ctype = 0x52)) then
        storeIngress port true false p s
      else match denyUnbound port p with
        | some f => some (f s)
        | none => some (count (kPort port iPORT_UNBOUND) s)
    | some b =>
      let p := stampCove b.cove (p.setSrc b.epid)
      if portControl false p then some (giveEngine port p s)
      else
        let denied := jobChecked p && !s.mem.jobPorts.contains (port, p.job)
        if denied ∧ ¬ engineAtPort true p then some (((denyUnbound port p).getD id) (count (kPort port iJOB_DENY) s))
        else if denied then storeIngress port true false p s
        else match police (dieOf port) b.cove p s with
          | none => some (polDrop port b.cove p s)
          | some s => storeIngress port (engineAtPort false p) true p s

/-- A packet, whole on the link, at its port (R240, R241, R358). -/
def ingressOf (port : Nat) (p : Packet) (s : State) : Option State :=
  let keying := decide ((getPort s port).lstate = .keying)
  if ¬ p.wellFormed then some (count (kPort port iPKT_MALFORMED) s)
  else if keying then
    (if p.ptype = 0 ∧ 0x20 ≤ p.ctype ∧ p.ctype ≤ 0x2F then some (giveEngine port p s)
     else some (count (kPort port iPKT_MALFORMED) s))
  else if isFabric s port then
    (if portControl true p then some (giveEngine port p s) else storeIngress port false true p s)
  else ingressAttach port p s

/-- The packet leaves the link layer: it is counted, and the credits it used are in use no more but by what the
account now holds (R286, R458, R564). Its lookups belong to this instant (R269). -/
def leaveLink (port : Nat) (p : Packet) (s : State) : State :=
  let c := classOn s port p
  let s := onPort port (fun x => { x with
    pktsRx := if p.ptype = 0 ∧ p.ctype = 0x08 then x.pktsRx else (x.pktsRx + 1) % 2 ^ 32,
    link := { x.link with rxPkts := x.link.rxPkts.erase p, credOut := modAt x.link.credOut c (fun n => n - p.bufs) } }) s
  let s := count (kPort port iRX_PKTS) (countN (kPort port iRX_BYTES) p.size s)
  noteLooks [(0, 0), (2, 0), (4, 0)] (onlyIf (p.job != 0) (countN (kJob p.job 0) p.size) s)

/-- Nothing stands before a packet given to the link of a port: every packet given to it before has been sent whole. -/
def linkFree (s : State) (p : Nat) : Bool := (getPort s p).link.tx.all (fun t => t.lastFsn.isSome)

/-- The one packet of an ingress account cuts through where its egress queue is empty and it needs no resequencing, nothing of
its flow being held behind it: it is dispatched, and the port's next choice, with its credits, shaper, deficit and fill credit, is that packet at once. Where the
choice is another, or the link is not free, the packet stays in Shoal (R40, R266, R324). -/
def cutThrough (port c : Nat) (s : State) : State :=
  match ingressList s port c with
  | [e] =>
    let t := dispatchIngress port c (onStored e.1 e.2 (fun x => { x with cut := true }) s)
    match t.net.ports.find? (fun y => y.2.queues.any (fun q => q.2 == [e])), storedAt t e.1 e.2 with
    | some y, some x =>
      let holds := ((findFlow t (dieOf y.1) x.pkt.src x.pkt.dst x.pkt.ovc).map (fun f => !f.held.isEmpty || !f.late.isEmpty)).getD false
      if holds then s else
      let u := doEgressTurn y.1 t
      if engineOn s ∧ linkFree t y.1 ∧ (getPort u y.1).link.tx.any (fun x => x.die == e.1 && x.buf == e.2) then
        count (kPort y.1 iCUT_THROUGH) u
      else s
    | _, _ => s
  | _ => s

/-- A packet comes in at a port: its link carries packets, or did until this instant, or the link has accepted it (R352). -/
def linkBrings (s : State) (port : Nat) (p : Packet) : Bool :=
  (getPort s port).lstate == .keying || linkTook s port || (getPort s port).link.rxPkts.contains p

/-- PACKET_INGRESS. The packet counts for the soundings as it was received, with the node looked up for it (R275, R276). -/
def doPacketIngress (port : Nat) (p : Packet) (s : State) : State :=
  if ¬ linksOn s ∨ ¬ isDrezhPort s port ∨ ¬ linkBrings s port p then s
  else match ingressOf port p (leaveLink port p s) with
    | none => s
    | some t =>
      let c := classOn s port p
      let ingress := decide ((ingressList s port c).length < (ingressList t port c).length)
      let at_ := (t.shoal.stored.drop s.shoal.stored.length).map (fun x => (x.die, x.bufs.headD 0xFFFFF))
      let u := if ingress then cutThrough port c t else t
      let cut := ingress && decide ((ingressList u port c).length < (ingressList t port c).length)
      hear (heardIn t port p (if at_.isEmpty then .noRoute else lookupDest s p.dst) at_ cut) u

def execPacketIngress (port : Nat) (p : Packet) (s : State) : Host.Outcome State Fault Refusal := .next (doPacketIngress port p s)

/-! ## Ethernet-mode ports (R364 to R369) -/

def frameDst (f : List Byte) : Nat := beAt f 0 6
def frameSrc (f : List Byte) : Nat := beAt f 6 6
/-- A bit of the CRC-32 of IEEE 802.3, reflected. -/
def fcsBit (c : Nat) : Nat := if c % 2 = 1 then (c / 2) ^^^ 0xEDB88320 else c / 2

/-- The frame check sequence of a frame's bytes before it (R364, R367; log entry 55). -/
def fcsOf (l : List Byte) : Nat :=
  (l.foldl (fun c b => fcsBit (fcsBit (fcsBit (fcsBit (fcsBit (fcsBit (fcsBit (fcsBit (c ^^^ b.toNat))))))))) 0xFFFFFFFF) ^^^ 0xFFFFFFFF

/-- A frame ends in the check sequence of the bytes before (R367). -/
def fcsOk (f : List Byte) : Bool := leAt f (f.length - 4) 4 == fcsOf (f.take (f.length - 4))

/-- A group address: broadcast or multicast. -/
def isGroupMac (m : Nat) : Bool := m.testBit 40

/-- The Ethernet-mode ports in RUN. -/
def ethPorts (s : State) : List Nat := (s.net.ports.filter (fun e => isEthPort s e.1 && e.2.lstate == .run)).map (fun e => e.1)

/-- Queue a frame on an Ethernet-mode port, from Shoal: at once, or once its account takes it, and dropped where neither that
account nor the ingress account can hold it (R284, R285, R369). -/
def queueFrame (inp : Nat) (f : List Byte) (t : Nat) (s : State) : State :=
  let n := ceilDiv f.length 256
  let okE := acctCan s (.ethOut t) (dieOf t) n && !s.net.ethWait.any (fun e => e.1 == t)
  let d := dieOf (if inp < 768 then inp else t)
  let a := if okE then Acct.ethOut t else Acct.ethIn (if inp < 768 then inp else t)
  let x : Stored := {
    die := d, bufs := [], acct := a, port := inp, pkt := { hdr := 0, body := f }, owners := [], rtag := none,
    dest := .lport t, since := s.tide.now }
  let okI := okE || acctCan s a d n
  match (if okI then storePkt d a x n (if okE then ownQueue t 0 else ownIngress (min inp 767)) s else none) with
  | none => count (kPort (if inp < 768 then inp else t) iETH_DROP) s
  | some (b, s) => onNet (fun e => if okE then { e with ethOut := e.ethOut ++ [(t, d, b)] } else { e with ethWait := e.ethWait ++ [(t, d, b)] }) s

/-- Learn a source address on a port (R368). -/
def learnMac (m port : Nat) (s : State) : State :=
  if (mget s.net.macs m).isNone ∧ 16384 ≤ s.net.macs.length then count kETH_LEARN_FULL s
  else onNet (fun n => { n with macs := mput n.macs m (port, s.tide.now) }) s

/-- Where a frame goes: ports, and whether to the management controller (R368). -/
def bridge (s : State) (inp : Option Nat) (dst : Nat) : List Nat × Bool :=
  let flood := (ethPorts s).filter (fun p => inp != some p)
  if isGroupMac dst then (flood, inp.isSome)
  else if dst = Config.macAddr.toNat then ([], inp.isSome)
  else match mget s.net.macs dst with
    | some e => (if inp = some e.1 then [] else [e.1], false)
    | none => (flood, false)

/-- ETHERNET_FRAME: `good` false for a PCS error (R366, R367, R368). -/
def doEthernetFrame (port : Nat) (good : Bool) (f : List Byte) (s : State) : State :=
  if ¬ linksOn s ∨ ¬ isEthPort s port ∨ ¬ portRun s port then s
  else
    let s := count (kPort port iRX_PKTS) (countN (kPort port iRX_BYTES) f.length s)
    if ¬ good ∨ f.length < 64 ∨ 9216 < f.length ∨ fcsOk f = false then count (kPort port iETH_BAD) s
    else if beAt f 12 2 = 0x8808 then count (kPort port iETH_CTL) s
    else if ¬ acctCan s (.ethIn port) (dieOf port) (ceilDiv f.length 256) then count (kPort port iETH_DROP) s
    else
      let s := learnMac (frameSrc f) port s
      let to_ := bridge s (some port) (frameDst f)
      let s := forAll to_.1 (queueFrame port f) s
      if to_.2 then onNet (fun n => { n with mgmtIn := n.mgmtIn ++ [f] }) s else s

def execEthernetFrame (port : Nat) (good : Bool) (frame : List Byte) (s : State) : Host.Outcome State Fault Refusal :=
  .next (doEthernetFrame port good frame s)

/-- MGMT_FRAME_SEND: to the port the management controller names, or to every Ethernet-mode port in RUN (R368). -/
def doMgmtFrame (port : Option Nat) (f : List Byte) (s : State) : State :=
  if ¬ linksOn s then s
  else match port with
    | some p => if isEthPort s p ∧ portRun s p then queueFrame 1024 f p s else s
    | none => forAll (ethPorts s) (queueFrame 1024 f) s

def execMgmtFrameSend (port : Option Nat) (frame : List Byte) (s : State) : Host.Outcome State Fault Refusal := .next (doMgmtFrame port frame s)

/-- MAC_AGE_OUT: an entry not refreshed for 300 s of Tide time (R368). -/
def doMacAgeOut (mac : Nat) (s : State) : State :=
  match mget s.net.macs mac with
  | none => s
  | some e => if due s (e.2 + 300000000000) then onNet (fun n => { n with macs := mdel n.macs mac }) s else s

def execMacAgeOut (mac : Nat) (s : State) : Host.Outcome State Fault Refusal := .next (whenLive (doMacAgeOut mac) s)

end Sys2Proof.Machine
end

