-- ==== Sys2Proof/Machine/Symbols.lean ====
section
/-! DEFINITION. A lane's bit stream on the line (R335 to R337, R370, R371): codeword pairs, the Gray map to PAM4 levels
and the 1/(1+D) precoder. -/

namespace Sys2Proof.Machine

/-! ## Levels (R370) -/

/-- The level of two bits, the first the more significant (R370). -/
def grayLevel (a b : Bool) : Nat := if a then (if b then 2 else 3) else (if b then 1 else 0)

/-- The two bits of a level (R370). -/
def levelBits (n : Nat) : List Bool := [decide (2 ≤ n), n == 1 || n == 2]

/-- A bit stream, two bits at a time (R370). -/
def grayMap : List Bool → List Nat
  | a :: b :: r => grayLevel a b :: grayMap r
  | _ => []

/-- The bits of a run of levels. -/
def grayUnmap (l : List Nat) : List Bool := l.flatMap levelBits

/-! ## The precoder (R371) -/

/-- The symbols sent for levels after the symbol `b`: b_n = (a_n − b_(n−1)) mod 4. -/
def precode : Nat → List Nat → List Nat
  | _, [] => []
  | b, a :: r => (a + 4 - b % 4) % 4 :: precode ((a + 4 - b % 4) % 4) r

/-- The levels received in symbols after the symbol `b`: a_n = (b_n + b_(n−1)) mod 4. -/
def unprecode : Nat → List Nat → List Nat
  | _, [] => []
  | b, x :: r => (x + b) % 4 :: unprecode x r

/-- The width of a Drezh port in lanes (R374). -/
def portWidth (s : State) (p : Nat) : Nat := 2 ^ groupMode s p

/-! ## Patterns (R381, R397) -/

/-- The exponents of a pattern's polynomial, the highest first: PRBS7, 9, 13, 15, 23 and 31 (R397). -/
def prbsTaps (pat : Nat) : List Nat :=
  if pat = 0 then [7, 6] else if pat = 1 then [9, 5] else if pat = 2 then [13, 12, 2, 1]
  else if pat = 3 then [15, 14] else if pat = 4 then [23, 18] else [31, 28]

/-- The next bit of a generator: the sum of the bits its polynomial names (R381, R397; log entry 101). -/
def prbsBit (taps : List Nat) (st : Nat) : Bool := taps.foldl (fun b k => b != st.testBit (k - 1)) false

/-- The next `n` bits of a generator and its state after them. -/
def prbsRun (taps : List Nat) : Nat → Nat → List Bool × Nat
  | 0, st => ([], st)
  | n + 1, st =>
    let b := prbsBit taps st
    let r := prbsRun taps n ((2 * st + b2n b) % 2 ^ taps.headD 1)
    (b :: r.1, r.2)

/-- The marker of a training frame and of a wake from Neap (R381, R395). -/
def laneMarker : List Nat := List.replicate 32 3 ++ List.replicate 32 0

/-- A control or status field on the line, most significant bit first (R381). -/
def fieldLevels (v : Word) : List Nat := (List.range 32).flatMap (fun i => if bitAt v (31 - i) then [3, 3, 0, 0] else [0, 0, 3, 3])

/-- The 4,096 symbols of a training frame and the generator's state after it: the marker and the fields as they stand, then
PRBS13, Gray-mapped and precoded (R371, R381). -/
def trainFrame (control status : Word) (gen : Nat) : List Nat × Nat :=
  let plain := laneMarker ++ fieldLevels control ++ fieldLevels status
  let r := prbsRun (prbsTaps 2) 7552 gen
  (plain ++ precode (plain.getLastD 0) (grayMap r.1), r.2)

/-- Pattern bits on the line where GRAY is clear: two bits a level, as a number (R397). -/
def plainMap : List Bool → List Nat
  | a :: b :: r => (2 * b2n a + b2n b) :: plainMap r
  | _ => []

/-- Pattern bits with the first inverted where an error is to be injected (R399). -/
def withBitError (inj : Bool) : List Bool → List Bool
  | b :: r => (b != inj) :: r
  | [] => []

/-- The levels of a lane's pattern generator over `n` symbols, and its state after them (R397). -/
def patternLevels (y : Lane) (n : Nat) : List Nat × Nat :=
  let pat := fld y.prbs 29 27
  let taps := prbsTaps pat
  if pat = 6 then
    let i := y.genPos.getD 0
    ((List.range n).map (fun k => Config.ssprq (i + k) % 4), i + n)
  else if pat = 7 then
    let i := y.genPos.getD 0
    ((List.range n).map (fun k => nth [3, 3, 0, 0] ((i + k) % 4) 0), i + n)
  else
    let r := prbsRun taps (2 * n) (y.genPos.getD (Config.patternSeed pat % (2 ^ taps.headD 1 - 1) + 1))
    let bits := withBitError y.injBit r.1
    (if bitAt y.prbs 23 then grayMap bits else plainMap bits, r.2)

/-- The levels that a lane puts on the line, or takes from it: inverted where its polarity is (R377, R388). -/
def inverted (inv : Bool) (l : List Nat) : List Nat := if inv then l.map (3 - ·) else l

/-- Levels go out on a lane (R377). -/
def driveLine (y : Lane) (l : List Nat) : Lane := { y with line := inverted (bitAt y.ctl 25) l }

/-- Units of an interval of GAP have gone by on a lane whose injection has that target (R399). -/
def passGap (target n : Nat) (y : Lane) : Lane :=
  if fld y.inj 31 30 = target then { y with injLeft := y.injLeft - n } else y

/-- `n` symbols of the generator leave a lane in TEST (R371, R397). -/
def drivePattern (n : Nat) (y : Lane) : Lane :=
  if ¬ bitAt y.prbs 31 ∨ fld y.ctl 21 20 = 0 then y
  else
    let r := patternLevels y n
    let line := if bitAt y.prbs 22 then precode y.symTx r.1 else r.1
    driveLine (passGap 1 (2 * n) { y with symTx := line.getLastD y.symTx, genPos := some r.2, injBit := false }) line

/-- The number of lanes of the port that starts at a lane: eight for a 1.6 Tb/s Ethernet-mode port (R365). -/
def lanesWide (s : State) (p : Nat) : Nat :=
  if bitAt (getLane s p).ctl 28 ∧ bitAt (getLane s p).ctl 27 ∧ groupMode s p = 2 then 8 else portWidth s p

/-- The lanes of a port that leaves RUN or TEST end their eye scans; the counts stand as far as they got (R402). -/
def endEyes (p : Nat) (s : State) : State :=
  let x := getPort s p
  if x.lstate = .run ∨ x.lstate = .test then
    forAll ((List.range (lanesWide s p)).map (fun k => p + k)) (fun l => onLane l (fun y =>
      if bitAt y.eyeCtl 31 then { y with eyeCtl := setFld (setFld y.eyeCtl 31 31 0) 7 7 1 } else y)) s
  else s

/-! ## Codeword pairs (R335 to R337) -/

/-- A product in GF(2^10), whose polynomial is x^10 + x^3 + 1 (R335; log entry 107). -/
def gf10Mul (a b : Nat) : Nat :=
  (List.range 10).foldl (fun r k =>
    (if 512 ≤ r then (2 * r - 1024) ^^^ 9 else 2 * r) ^^^ (if b.testBit (9 - k) then a else 0)) 0

/-- The generator of RS(544,514) below its leading coefficient, the highest power first: its roots are the first thirty powers
of 2 (R335). -/
def rsGenerator : List Nat :=
  ((List.range 30).foldl (fun (g : List Nat × Nat) _ =>
    (List.zipWith (· ^^^ ·) (g.1 ++ [0]) (0 :: g.1.map (gf10Mul g.2)), gf10Mul 2 g.2)) ([1], 1)).1.drop 1

/-- The thirty parity symbols of a message (R335). -/
def rsParity (m : List Nat) : List Nat :=
  let g := rsGenerator
  m.foldl (fun p a => List.zipWith (· ^^^ ·) (p.drop 1 ++ [0]) (g.map (gf10Mul (a ^^^ p.headD 0)))) (List.replicate 30 0)

/-- The bits of a number, least significant first. -/
def bitsLE (n v : Nat) : List Bool := (List.range n).map v.testBit

/-- Every second element, from the first on. -/
def evens {α : Type} : List α → List α
  | a :: _ :: r => a :: evens r
  | l => l

/-- The 10,880 bits of a codeword pair in the order in which they leave the lane: header and flits in symbols of ten bits, the
even ones codeword A and the odd ones codeword B, and their parity after them (R335; log entry 107). -/
def pairCode (header : Nat) (flits : List (List Byte)) : List Bool :=
  let bits := (bytesBE 5 header ++ flits.flatten).flatMap (fun b => bitsLE 8 b.toNat)
  let syms := (pieces 10 bits).map (fun l => l.foldr (fun b n => b2n b + 2 * n) 0)
  let a := evens syms
  let b := evens (syms.drop 1)
  ((a ++ rsParity a).zip (b ++ rsParity b)).flatMap (fun e => bitsLE 10 e.1 ++ bitsLE 10 e.2)

/-- The 40-bit pair header: LIDX, WIDTH, PAIR_NO (R336). -/
def pairHeader (lidx width no : Nat) : Nat :=
  lidx % 4 * 2 ^ 38 + (if width = 1 then 0 else if width = 2 then 1 else 2) * 2 ^ 36 + no % 2 ^ 32

/-- A flit leaves on the lane of its slot; the fifth of a pair completes the pair, which goes out on the line (R335,
R337, R370, R371). -/
def laneSend (p slot : Nat) (f : List Byte) (s : State) : State :=
  let w := portWidth s p
  let n := slot / w
  onLane (p + slot % w) (fun y =>
    let fs := (if n % 5 = 0 then [] else y.pairTx) ++ [f]
    let y := passGap 3 1 y
    if n % 5 = 4 then
      let bits := pairCode (pairHeader (slot % w) w (n / 5)) fs
      let bits := (y.injSym.map (fun i => Config.corruptPair i.1 i.2 bits)).getD bits
      let line := precode y.symTx (grayMap bits)
      driveLine (passGap 2 1 { y with pairTx := fs, symTx := line.getLastD y.symTx, injSym := none }) line
    else { y with pairTx := fs }) s

/-- The physical lane on which a slot comes: the order that DETECT found may be reversed (R388). -/
def laneIn (s : State) (p slot : Nat) : Nat :=
  let w := portWidth s p
  if (getPort s p).reversed then p + (w - 1 - slot % w) else p + slot % w

/-- A pair has come when its first flit is taken: the receiver decodes the symbols it decided on (R370, R371), and reads the
header of a pair that FEC has corrected (R336). What FEC makes of the pair holds for all its flits (R346). -/
def laneReceive (p slot : Nat) (fecOk : Bool) (s : State) : State :=
  let w := portWidth s p
  let n := slot / w
  let l := laneIn s p slot
  if n % 5 ≠ 0 then onLane l (fun y => { y with pairOk := y.pairOk && fecOk }) s
  else onLane l (fun y =>
    let line := inverted y.rxInvDet (Config.symbolsIn l (n / 5))
    let hdr := Config.headerIn l (n / 5)
    { y with
      bitsRx := grayUnmap (unprecode y.symRx line), symRx := line.getLastD y.symRx, pairOk := fecOk,
      pairHdr := if fecOk then hdr else y.pairHdr,
      pairWant := if fecOk then BitVec.ofNat 40 (pairHeader (slot % w) w (n / 5)) else y.pairWant }) s

/-- Both ends of a port's lanes take 0 as the symbol before the next: pair 0 after training, and the first symbol after a
Neap wake marker, which goes out on every lane of a port that is in RUN again (R371, R395). -/
def precodersAfresh (p : Nat) (s : State) : State :=
  let wakes := (getPort s p).lstate == .run
  forAll ((List.range (portWidth s p)).map (fun k => p + k)) (fun l => onLane l (fun y => { y with
    symTx := 0, symRx := 0, line := if wakes then inverted (bitAt y.ctl 25) laneMarker else y.line })) s

end Sys2Proof.Machine
end

