-- ==== Sys2Proof/Machine/Link.lean ====
section
/-! DEFINITION. The Drezh link layer (R335 to R362): flits as they are checked, accepted and closed, replay,
credits, encryption, link messages, and a port that goes down. -/

namespace Sys2Proof.Machine

/-! ## Widths, periods and codes -/

/-- A bit of CRC-32C, reflected (R341; log entry 25). -/
def crcBit (c : Nat) : Nat := if c % 2 = 1 then (c / 2) ^^^ 0x82F63B78 else c / 2

/-- CRC-32C of bytes (R341). -/
def crc32c (l : List Byte) : Nat :=
  (l.foldl (fun c b => crcBit (crcBit (crcBit (crcBit (crcBit (crcBit (crcBit (crcBit (c ^^^ b.toNat))))))))) 0xFFFFFFFF) ^^^ 0xFFFFFFFF

/-- The bytes of an ASCII string. -/
def ascii (s : String) : List Byte := s.toList.map (fun c => BitVec.ofNat 8 c.toNat)

/-- The key after a key of a chain (R531). -/
def nextKey (k : List Byte) : List Byte := expandKey k (ascii "drezh next") 32

/-- The 8 tag bytes of a flit (R359). -/
def flitTag (key iv aad ct : List Byte) : List Byte := (gcmTag key iv aad ct).take 8

/-- The IV of a slot: the salt, then the slot number (R359). -/
def slotIv (salt : List Byte) (slot : Nat) : List Byte := salt ++ bytesBE 8 slot

/-! ## Flit fields (R339) -/

def flitHdr (f : List Byte) : BitVec 160 := BitVec.ofNat 160 (beAt f 0 20)
def flType (h : BitVec 160) : Nat := fld h 159 156
def flKph (h : BitVec 160) : Nat := fld h 155 155
def flNakv (h : BitVec 160) : Bool := bitAt h 154
def flBadp (h : BitVec 160) : Bool := bitAt h 153
def flFsn (h : BitVec 160) : Nat := fld h 148 137
def flAck (h : BitVec 160) : Nat := fld h 136 125
def flSop (h : BitVec 160) : Nat := fld h 124 117
def flCred (h : BitVec 160) (c : Nat) : Nat := fld h (12 * c + 11) (12 * c)

/-- A flit header from its fields. -/
def mkFlitHdr (ftype kph : Nat) (nakv badp : Bool) (fsn ack sop : Nat) (cred : List Nat) : BitVec 160 :=
  pack 160 ([(4, ftype), (1, kph), (1, b2n nakv), (1, b2n badp), (4, 0), (12, fsn), (12, ack), (8, sop), (9, 0)]
    ++ cred.reverse.map (fun c => (12, c)))

/-! ## A port that goes down (R134, R258, R352) -/

/-- Every valid node entry keeps an up port among its PRI and DET items (R484). -/
def allRouted (s : State) : Bool := s.route.nodes.all (fun e => !ndValid e.2 || !(allowedSet s (capOf s) e.2).isEmpty)

/-- The lanes of a port. -/
def portLanes (s : State) (p : Nat) : List Nat := (List.range (portWidth s p)).map (fun k => p + k)

/-- Post a PORT event (R432): cause 0 up, 1 down, 2 training failed. -/
def postPort (p lstate cause : Nat) : State → State := postDev 0x10 (bytesLE 2 p ++ bytesLE 1 lstate ++ bytesLE 1 cause)

/-- ENABLE of a port, as it takes effect: from TRAIN on, not while an abort holds the port DOWN (R379, R533), nor
while a CLIFF_NOTICE or a fault of its lane die does (R484, R493). -/
def portEnabled (s : State) (p : Nat) : Bool :=
  let x := getPort s p
  bitAt (getLane s p).ctl 31 && linksOn s && !x.peer.held && x.cliffHold.isNone && !s.flt.deadDies.contains (p / 64)

/-- The state in which a port waits when its link has ended: DETECT at 56 Gb/s with preset 1, or DOWN (R386, R390). -/
def toDetect (p : Nat) (s : State) : State :=
  let on := portEnabled s p
  let st := (getPort s p).lstate
  let trains := st == .detect || st == .switch || st == .coeff || st == .align
  let s := endEyes p s
  let s := onPort p (fun x => { x with
    lstate := if on then .detect else .down, rate := if on then 2 else x.rate, failed := 0, reversed := false,
    squelched := !on, signal := false, phaseAt := 0, countdown := none, framePos := 4096, countOn := false, retryAt := none, reqKind := 0 }) s
  forAll (portLanes s p) (fun l => onLane l (fun y => { y with
    taps := [0, 0, 0, 63, 0], rid := 0, echo := 0, tapSt := [0, 0, 0, 0, 0], rxReady := false, farRates := 0, farTrained := false,
    farLidx := 0, farWidth := 0, markers := 0, noMarker := 0, farCount := none, trainGen := if trains then y.trainGen else 0x1FFF })) s

/-- Record a declaration: a fabric port with a route around it is source 0x1C, any other port that carried traffic
source 0x23; every declaration counts in LL_DOWN (R352, R484; log entry 26). -/
def recordDown (p : Nat) (wasUp : Bool) (s : State) : State :=
  let k := kFault (1024 * locDie (locPort p) + locUnit (locPort p)) 0x1C
  if wasUp = true ∧ isFabric s p = true ∧ allRouted s = true then detect 0x1C (locPort p) p s
  else if wasUp then detect 0x23 (locPort p) p (count k s)
  else count k s

/-- The port stops carrying packets: partial packets are discarded, what the link had not acknowledged waits for
the mask to commit, collectives and the stop take note (R131, R258, R259, R352, R460). -/
def stopLink (p : Nat) (s : State) : State :=
  let wasUp := linkUp s p
  let s := endEyes p s
  let s := onPort p (fun x => { x with
    lstate := .down, declared := if wasUp then some s.tide.now else x.declared,
    peer := { x.peer with runTx := false, runRx := false },
    link := { x.link with rx := [], msgs := [], rxMsgs := [], replay := [], resend := [], waitingFor := false, nakvDue := false } }) s
  let s := onStop (fun t => { t with ports := t.ports.map (fun e => if e.port = p then { e with down := true } else e) }) s
  let s := onlyIf wasUp (postPort p 0 1) s
  if wasUp then collPortDown p s else s

/-- A message of R361. -/
def linkMsg (mtype : Nat) (a b : List Byte) : List Byte := bytesLE 1 mtype ++ List.replicate 7 0 ++ sliceB a 0 8 ++ sliceB b 0 8 ++ List.replicate 8 0

/-! ## Closing a flit (R342 to R345, R348, R350, R353, R356, R359) -/

/-- What filling a payload gives. -/
structure Filled where
  bytes : List (Byte × Bool) := []
  sop : Nat := 0xFF
  bad : Bool := false
  ended : Bool := false
  ctrl : Nat                               -- CTRL credits left
  done : List TxPkt := []                  -- packets sent whole by now, in order
  rest : List TxPkt := []
  off : Nat := 0
deriving DecidableEq, Repr

/-- The CTRL credits that must be held before a packet of no egress queue begins: one for the stop logic's own
packets, two for any other (R458). -/
def ctrlNeed (k : Packet) : Nat := if k.ctype = 0x08 ∨ k.ctype = 0x09 then 1 else 2

/-- Put packets end to end into a payload; one that fails a parity check on the way to the encryption is marked bad
(R342, R344, R356, R475). -/
def fillPayload (fsn : Nat) : Nat → List TxPkt → Filled → Filled
  | 0, l, a => { a with rest := l }
  | _ + 1, [], a => { a with rest := [] }
  | n + 1, t :: r, a =>
    let room := 224 - a.bytes.length
    let bs := ((storedBytes t.pkt).zip t.par).drop a.off
    let t := { t with badp := t.badp || !parityGood bs }
    let begins := a.off = 0
    if room = 0 ∨ (begins ∧ t.die = 4 ∧ a.ctrl < ctrlNeed t.pkt) ∨ (begins ∧ t.badp = true ∧ a.ended = true ∧ bs.length ≤ room) then
      { a with rest := t :: r }
    else
      let a := if begins then
          { a with sop := if a.sop = 0xFF then a.bytes.length else a.sop, ctrl := if t.die = 4 then a.ctrl - 1 else a.ctrl }
        else a
      if bs.length ≤ room then
        let a := { a with bytes := a.bytes ++ bs, ended := true, off := 0, done := a.done ++ [{ t with lastFsn := some fsn }] }
        if t.badp then { a with bad := true, rest := r } else fillPayload fsn n r a
      else { a with bytes := a.bytes ++ bs.take room, off := a.off + room, rest := t :: r }

/-- Seal header and payload into the 256 bytes of a flit: plain in KEYING, under the direction's key in RUN, with
the CRC last (R341, R358, R359). -/
def sealFlit (l : Link) (run : Bool) (h : BitVec 160) (payload : List Byte) : List Byte :=
  let hb := bytesBE 20 h.toNat
  let iv := slotIv l.saltTx l.slotTx
  let ct := if run then gcmCrypt l.keyTx iv payload else payload
  let tag := if run then flitTag l.keyTx iv hb ct else List.replicate 8 0
  let body := hb ++ ct ++ tag
  body ++ bytesLE 4 (crc32c body)

/-- Issue every new credit of a port: they enter the counters of the flit (R286, R340, R353). -/
def issueCredits (p : Nat) (s : State) : State :=
  let w := portWidth s p
  forAll (List.range 9) (fun c s =>
    let n := creditsNew s p w c
    onLink p (fun l => { l with
      issued := modAt l.issued c (fun x => (x + n) % 4096), credOut := modAt l.credOut c (fun x => x + n) }) s) s

/-- Move to the next link key from the next slot on (R360). -/
def changeKey (l : Link) : Link := { l with keyTx := nextKey l.keyTx, keyTxNo := l.keyTxNo + 1, keyTxSlot := l.slotTx }

/-- What precedes every flit that is closed: the new credits enter its counters, and a key that 2^31 slots have used gives way
(R353, R360). -/
def openSlot (p : Nat) (s : State) : State :=
  onPort p (fun x => if x.peer.runTx = true ∧ 2 ^ 31 ≤ x.link.slotTx - x.link.keyTxSlot + 1 then { x with link := changeKey x.link } else x)
    (issueCredits p s)

/-- The codeword or flit that a forced lane source corrupts has been sent: its bit reads 0 and FLT_FORCE_DONE is posted (R501). -/
def noteForced (lane : Nat) (s : State) : State :=
  let y := getLane s lane
  match y.injForce with
  | none => s
  | some (src, w) =>
    if (if src = 3 then y.injFlit else y.injSym.isSome) then s
    else postDev 0x23 (bytesLE 1 src ++ bytesLE 1 0 ++ bytesLE 4 w.toNat)
      (onLane lane (fun y => { y with injForce := none }) (onFlt (fun f => { f with armed := mdel f.armed src }) s))

/-- The flit of the port's next slot leaves: its type, SOP, BADP, FSN and payload. -/
def emitFlit (p ftype sop : Nat) (badp : Bool) (fsn : Nat) (payload : List Byte) (s : State) : State :=
  let s := openSlot p s
  let x := getPort s p
  let run := x.peer.runTx
  let lane := p + x.link.slotTx % portWidth s p
  let ln := getLane s lane
  let l := x.link
  let h := mkFlitHdr ftype (if run then l.keyTxNo % 2 else 0) l.nakvDue badp fsn ((l.expect + 4095) % 4096) sop l.issued
  let f := sealFlit l run h payload
  let f := if ln.injCrc = true ∧ ftype = 1 then putBytes f 252 (bytesLE 4 (leAt f 252 4 ^^^ 2 ^ (Config.injectBit ln.injDone % 32))) else f
  let f := if ln.injFlit then
      (let g := putBytes f 244 [BitVec.ofNat 8 (byteAt f 244) ^^^ 1]
       putBytes g 252 (bytesLE 4 (crc32c (g.take 252))))
    else f
  let s := onLane lane (fun y => { y with injCrc := y.injCrc && ftype != 1, injFlit := false }) s
  let s := noteForced lane (laneSend p (l.baseTx + l.slotTx) f s)
  onLink p (fun l => { l with
    sent := l.sent ++ [f], slotTx := l.slotTx + 1, nakvDue := false,
    dataAt := if ftype = 1 then s.tide.now else l.dataAt }) s

/-- Send a new DATA flit, if any byte waits and the replay buffer has room (R348). -/
def sendNew (p : Nat) (s : State) : Option State :=
  let l := (getPort s p).link
  if 256 * portWidth s p ≤ l.replay.length then none
  else
    let whole := l.tx.takeWhile (fun t => t.lastFsn.isSome)
    let wait := l.tx.dropWhile (fun t => t.lastFsn.isSome)
    let a := fillPayload l.nextFsn (224 + wait.length) wait { ctrl := nth l.avail 0 0, off := l.txOff }
    if a.bytes.isEmpty then none
    else
      let payload := a.bytes ++ genParity (List.replicate (224 - a.bytes.length) 0)
      let s := onLink p (fun l => { l with
        avail := modAt l.avail 0 (fun _ => a.ctrl),
        tx := whole ++ a.done ++ a.rest, txOff := a.off,
        replay := l.replay ++ [{ fsn := l.nextFsn, sop := a.sop, badp := a.bad, payload := payload, at_ := s.tide.now }],
        nextFsn := (l.nextFsn + 1) % 4096 }) s
      -- the last flit of these packets has left: the egress queue lets go (R304)
      let s := forAll a.done (fun t s => if t.die < 4 then dropOwner t.die t.buf (ownQueue p t.queue) s else s) s
      some (emitFlit p 1 a.sop a.bad l.nextFsn (bareBytes payload) s)

/-- The payload of a LINKCTL flit: up to seven messages, TIDE_SYNC stamped with the time its pair leaves the pins
(R361, R362). -/
def ctlPayload (p now : Nat) (msgs : List (List Byte)) : List Byte :=
  sliceB ((msgs.take 7).flatMap (fun m => if byteAt m 0 = 1 then putBytes m 8 (bytesLE 8 (now + Config.pinLag p now)) else m)) 0 224

/-- The held flit that a rewind sends next (R350). -/
def nextResend (l : Link) : Option HeldFlit := l.resend.findSome? (fun n => l.replay.find? (fun h => h.fsn == n))

/-- Close one flit: a replayed one first, then link messages on a slot of lane 0, then new data, else NULL (R345,
R348, R350, R362; log entry 27). -/
def closeFlit (p : Nat) (s : State) : State :=
  let l := (getPort s p).link
  let idle (s : State) : State :=
    match sendNew p s with
    | some s => s
    | none => emitFlit p 0 0xFF false ((l.nextFsn + 4095) % 4096) (List.replicate 224 0) s
  match nextResend l with
  | some h => emitFlit p 1 h.sop (h.badp || !parityGood h.payload) h.fsn (bareBytes h.payload) (onLink p (fun l => { l with resend := l.resend.dropWhile (fun n => n != h.fsn) |>.drop 1 }) s)
  | none =>
    if ¬ l.msgs.isEmpty ∧ l.slotTx % portWidth s p = 0 then
      emitFlit p 2 0xFF false ((l.nextFsn + 4095) % 4096) (ctlPayload p s.tide.now l.msgs)
        (onLink p (fun l => { l with msgs := l.msgs.drop 7, resend := [] }) s)
    else idle (onLink p (fun l => { l with resend := [] }) s)

/-- A link message leaves in a LINKCTL flit of its own; behind held flits that a rewind sends again it waits (R350, R361). -/
def sendLinkMsg (p : Nat) (m : List Byte) (s : State) : State :=
  let l := (getPort s p).link
  if (nextResend l).isSome then onLink p (fun l => { l with msgs := l.msgs ++ [m] }) s
  else emitFlit p 2 0xFF false ((l.nextFsn + 4095) % 4096) (ctlPayload p s.tide.now [m]) s

/-- The link layer of a port runs: KEYING or RUN. -/
def linkRuns (s : State) (p : Nat) : Bool :=
  linksOn s && isDrezhPort s p && ((getPort s p).lstate == .keying || (getPort s p).lstate == .run)

/-- FLIT_CLOSE. -/
def doFlitClose (p : Nat) (s : State) : State := if linkRuns s p then closeFlit p s else s

def execFlitClose (port : Nat) (s : State) : Host.Outcome State Fault Refusal := .next (doFlitClose port s)

/-! ## Port down -/

/-- Take a port down: LINK_DOWN in a LINKCTL flit where it is to be told and the link still carries one, then the link
layer stops, `note` records it, and the port retrains (R352). -/
def takeDown (p cause : Nat) (tell : Bool) (note : Bool → State → State) (s : State) : State :=
  let up := linkUp s p
  if ¬ (up = true ∨ (getPort s p).lstate = .keying) then s
  else
    let s := if tell = true ∧ linkRuns s p = true then
        (let s := onLink p (fun l => { l with msgs := [linkMsg 3 (bytesLE 8 cause) []], resend := [] }) s
         let l := (getPort s p).link
         emitFlit p 2 0xFF false ((l.nextFsn + 4095) % 4096) (ctlPayload p s.tide.now l.msgs) s)
      else s
    toDetect p (note up (stopLink p s))

/-- A declaration of a port down by this end (R352). -/
def declareDown (p cause : Nat) (tell : Bool) (s : State) : State := takeDown p cause tell (recordDown p) s

/-- A lane of a port has read a pair header other than it expected (R336). -/
def pairBad (s : State) (p : Nat) : Bool := (portLanes s p).any (fun l => (getLane s l).pairHdr != (getLane s l).pairWant)

/-- Whether the events of R352 that this end measures itself have come: no flit passed for 1.5 µs or a flit
unacknowledged for 2.5 µs (cause 0), a pair header other than expected on a lane (cause 1), sixteen authentication
failures within 1 ms (cause 2). The lane layer's reports come by LANE_LOCK_LOSS. They do not apply in Neap and Low
water (R392). -/
def downHolds (s : State) (p cause : Nat) : Bool :=
  let x := getPort s p
  let l := x.link
  let quiet := x.lstate == .neap || x.lstate == .lowWater
  if cause = 0 then !quiet && (due s (l.goodAt + 1500) || (match l.replay with
    | h :: _ => due s (h.at_ + 2500)
    | [] => false))
  else if cause = 1 then !quiet && pairBad s p
  else if cause = 2 then decide (16 ≤ (l.authFails.filter (fun t => s.tide.now < t + 1000000)).length)
  else false

/-- PORT_DOWN_DECLARE: cause 0 timeout, 1 pair check, 2 authentication (R352, R361). -/
def doPortDownDeclare (p cause : Nat) (s : State) : State :=
  if linksOn s ∧ isDrezhPort s p ∧ downHolds s p cause then declareDown p cause true s else s

def execPortDownDeclare (port cause : Nat) (s : State) : Host.Outcome State Fault Refusal := .next (doPortDownDeclare port cause s)

/-- The first message of a type among those received has its effect now (R361). -/
def takeMsg (p mtype : Nat) (s : State) : State :=
  if (getPort s p).link.rxMsgs.any (fun m => byteAt m 0 == mtype) then
    onLink p (fun l => { l with rxMsgs := l.rxMsgs.eraseP (fun m => byteAt m 0 == mtype) }) s
  else s

/-- LINK_DOWN received: it ends the link, or training, which returns to DETECT (R352, R391). -/
def doLinkDown (p cause : Nat) (s : State) : State :=
  let st := (getPort s p).lstate
  if ¬ linksOn s ∨ ¬ isDrezhPort s p ∨ 3 < cause then s
  else if st = .switch ∨ st = .coeff ∨ st = .align ∨ st = .detect then toDetect p s
  else declareDown p cause false s

def execLinkDown (port cause : Nat) (s : State) : Host.Outcome State Fault Refusal := .next (doLinkDown port cause (takeMsg port 3 s))

/-! ## Receiving a flit (R346 to R350, R352, R357, R359) -/

/-- Reassembly of packets: bytes of the packet begun, packets that ended, in order (R342, R343). -/
structure Reasm where
  rx : List (Byte × Bool)
  pkts : List Packet := []
deriving DecidableEq, Repr

/-- The whole length of a packet whose header has come (R238). -/
def wholeLen (rx : List (Byte × Bool)) : Nat :=
  let rx := bareBytes rx
  let k : Packet := ⟨BitVec.ofNat 128 (beAt rx 0 16), []⟩
  if k.ptype = 0 then 32 else 16 + k.plen

def toPacket (rx : List (Byte × Bool)) : Packet := ⟨BitVec.ofNat 128 (beAt (bareBytes rx) 0 16), (bareBytes rx).drop 16⟩

/-- Take bytes until the payload is used up or fill begins. -/
def reasm : Nat → List (Byte × Bool) → Reasm → Reasm
  | 0, _, a => a
  | _ + 1, [], a => a
  | n + 1, b :: r, a =>
    if a.rx.isEmpty ∧ b.1 = 0 then a
    else
      let want := if a.rx.length < 16 then 16 - a.rx.length else wholeLen a.rx - a.rx.length
      let rx := a.rx ++ (b :: r).take want
      let rest := (b :: r).drop want
      if 16 ≤ rx.length ∧ rx.length = wholeLen rx then reasm n rest { rx := [], pkts := a.pkts ++ [toPacket rx] }
      else reasm n rest { a with rx := rx }

/-- The packet in progress takes its bytes before the first header of the flit; one that a header cuts short is
delivered short (R240, R343). -/
def takePayload (sop : Nat) (rx payload : List (Byte × Bool)) : Reasm :=
  let first := payload.take (min sop 224)
  let a : Reasm :=
    if rx.isEmpty then { rx := [] }
    else
      let cut := if rx.length < 16 ∧ rx.length + first.length < 16 then first
        else first.take (wholeLen (rx ++ first) - rx.length)
      let rx := rx ++ cut
      if 16 ≤ rx.length ∧ rx.length = wholeLen rx then { rx := [], pkts := [toPacket rx] }
      else if sop < 224 then { rx := [], pkts := [toPacket rx] }
      else { rx := rx }
  if sop < 224 then reasm 512 (payload.drop sop) a else a

/-- The payload a flit opens to, each byte with the parity generated as it leaves the GCM unit (R475), and the receive
keys after it; none where step 3 of R346 fails. -/
def openFlit (x : Port) (slot : Nat) (f : List Byte) : Option (List (Byte × Bool) × Link) :=
  let l := x.link
  let h := flitHdr f
  let ct := sliceB f 20 224
  let tag := sliceB f 244 8
  if ¬ x.peer.runRx then (if flKph h = 0 ∧ ofBE tag = 0 then some (genParity ct, l) else none)
  else
    let iv := slotIv l.saltRx slot
    let same := decide (flKph h = l.keyRxNo % 2)
    let key := if same then l.keyRx else nextKey l.keyRx
    if tag = flitTag key iv (f.take 20) ct then
      some (genParity (gcmCrypt key iv ct), if same then l else { l with keyRx := key, keyRxNo := l.keyRxNo + 1 })
    else none

/-- Free the flits an ACK covers; the packets now acknowledged whole leave the link's retry (R304, R348). -/
def takeAck (p a : Nat) (s : State) : State :=
  let l := (getPort s p).link
  if ¬ l.replay.any (fun h => h.fsn == a) then s
  else
    let freed := (l.replay.takeWhile (fun h => h.fsn != a)).map (fun h => h.fsn) ++ [a]
    let gone := l.tx.filter (fun t => (t.lastFsn.map (fun n => freed.contains n)).getD false)
    let s := onLink p (fun l => { l with
      replay := l.replay.drop freed.length, resend := l.resend.filter (fun n => !freed.contains n),
      tx := l.tx.filter (fun t => !((t.lastFsn.map (fun n => freed.contains n)).getD false)) }) s
    forAll gone (fun t s => if t.die < 4 then dropOwner t.die t.buf (ownRetry p) s else s) s

/-- A rewind to the flit after `a`, unless one naming the same `a` began less than 0.5 µs before (R350). -/
def takeNakv (p a : Nat) (s : State) : State :=
  let l := (getPort s p).link
  let again := match l.rewound with
    | some r => r.1 == a && decide (s.tide.now < r.2 + 500)
    | none => false
  if again then s
  else onLink p (fun l => { l with resend := l.replay.map (fun h => h.fsn), rewound := some (a, s.tide.now) }) s

/-- Add the credits a flit's counters bring (R357). -/
def takeCred (p : Nat) (h : BitVec 160) : State → State :=
  onLink p (fun l => { l with
    avail := (List.range 9).map (fun c => nth l.avail c 0 + (flCred h c + 4096 - nth l.taken c 0) % 4096),
    taken := (List.range 9).map (flCred h) })

/-- Ask for a replay in the next flit, and wait for EXPECT, unless waiting already (R349). -/
def askReplay (p : Nat) (s : State) : State :=
  onLink p (fun l => if l.waitingFor then l else { l with waitingFor := true, nakvDue := true, nakvAt := s.tide.now }) s

/-- Packets whole on the link: a bad one is discarded and counted, the others wait for their ingress (R342, R344). -/
def takePackets (p : Nat) (badp : Bool) (l : List Packet) (s : State) : State :=
  let bad := if badp then l.take 1 else []
  let good := if badp then l.drop 1 else l
  let s := forAll bad (fun k s =>
    let c := classOn s p k
    count (kPort p iLL_BADPKT) (onPort p (fun x => { x with
      pktsRx := (x.pktsRx + 1) % 2 ^ 32, link := { x.link with credOut := modAt x.link.credOut c (fun n => n - k.bufs) } }) s)) s
  onLink p (fun y => { y with rxPkts := y.rxPkts ++ good }) s

/-- A DATA flit that passed its checks (R347). -/
def takeData (p : Nat) (h : BitVec 160) (payload : List (Byte × Bool)) (s : State) : State :=
  let l := (getPort s p).link
  if flFsn h = l.expect then
    let a := takePayload (flSop h) l.rx payload
    -- a lane power request that waits for its reply counts as refused (R394)
    let s := onPort p (fun x => { x with reqKind := 0 }) s
    let s := onLink p (fun l => { l with
      expect := (l.expect + 1) % 4096, waitingFor := false, rx := a.rx, dataAt := s.tide.now }) s
    takePackets p (flBadp h) a.pkts s
  else askReplay p (count (kPort p iLL_OOS) s)

/-- A failed flit is counted with its source, and nothing of it is used (R346, R349). -/
def failedFlit (p slot src : Nat) (s : State) : State :=
  askReplay p (detect src (locPort (laneIn s p slot)) p s)

/-- The messages of a LINKCTL payload, in order: NONE ends them, and a reserved MTYPE names nothing (R361). -/
def msgsIn : List (List Byte) → List (List Byte)
  | [] => []
  | m :: r => if byteAt m 0 = 0 then [] else if byteAt m 0 < 8 then m :: msgsIn r else msgsIn r

/-- The messages of a LINKCTL flit wait, each for the command that brings its effect (R361; log entry 51). -/
def takeMsgs (p : Nat) (payload : List (Byte × Bool)) : State → State :=
  onLink p (fun l => { l with rxMsgs := l.rxMsgs ++ msgsIn (pieces 32 (bareBytes payload)) })

/-- FEC has corrected the pair of a slot, as far as its flits have come: one codeword that it cannot correct fails all five
(R346). -/
def pairFec (s : State) (p slot : Nat) (fecOk : Bool) : Bool := fecOk && (getLane s (laneIn s p slot)).pairOk

/-- FLIT_RECEIVE: FEC, CRC, authentication, then reserved values (R346). -/
def doFlitReceive (p slot : Nat) (fecOk : Bool) (f : List Byte) (s : State) : State :=
  if ¬ linkRuns s p then s
  else
    let at_ := (getPort s p).link.baseRx + slot
    let s := laneReceive p at_ fecOk (onLink p (fun l => { l with slotRx := slot + 1 }) s)
    let h := flitHdr f
    if ¬ pairFec s p at_ fecOk ∨ f.length ≠ 256 ∨ leAt f 252 4 ≠ crc32c (f.take 252) then failedFlit p slot 0x02 s
    else match openFlit (getPort s p) slot f with
      | none =>
        let s := failedFlit p slot 0x03 s
        let s := onLink p (fun l => { l with authFails := l.authFails.filter (fun t => s.tide.now < t + 1000000) ++ [s.tide.now] }) s
        if downHolds s p 2 then declareDown p 2 true s else s
      | some (payload, l) =>
        if 2 < flType h ∨ fld h 152 149 ≠ 0 ∨ fld h 116 108 ≠ 0 then failedFlit p slot 0x02 s
        else
          let s := onLink p (fun _ => { l with goodAt := s.tide.now }) s
          let s := takeCred p h (takeAck p (flAck h) s)
          let s := if flNakv h then takeNakv p (flAck h) s else s
          if flType h = 1 then takeData p h payload s else if flType h = 2 then takeMsgs p payload s else s

def execFlitReceive (port slot : Nat) (fecOk : Bool) (flit : List Byte) (s : State) : Host.Outcome State Fault Refusal :=
  .next (doFlitReceive port slot fecOk flit s)

/-- NAKV_REPEAT: still waiting for EXPECT 1 µs after the last NAKV (R349). -/
def doNakvRepeat (p : Nat) (s : State) : State :=
  let l := (getPort s p).link
  if linkRuns s p ∧ l.waitingFor ∧ due s (l.nakvAt + 1000) then
    onLink p (fun l => { l with nakvDue := true, nakvAt := s.tide.now }) s
  else s

def execNakvRepeat (port : Nat) (s : State) : Host.Outcome State Fault Refusal := .next (doNakvRepeat port s)

/-- KEY_PHASE_CHANGE: no sooner than 2^20 slots after the previous change (R360). -/
def doKeyPhaseChange (p : Nat) (s : State) : State :=
  let x := getPort s p
  if linkRuns s p ∧ x.peer.runTx ∧ (x.link.keyTxNo = 0 ∨ 2 ^ 20 ≤ x.link.slotTx - x.link.keyTxSlot) then onLink p changeKey s else s

def execKeyPhaseChange (port : Nat) (s : State) : Host.Outcome State Fault Refusal := .next (doKeyPhaseChange port s)

/-- TIDE_SYNC_SEND: a TIDE_SYNC waits for the next LINKCTL flit on lane 0; at least one each 10 µs (R362). -/
def doTideSyncSend (p : Nat) (s : State) : State :=
  if ¬ linkRuns s p ∨ ¬ portRun s p then s
  else onLink p (fun l => { l with
    msgs := (l.msgs.filter (fun m => byteAt m 0 != 1)) ++ [linkMsg 1 (bytesLE 8 s.tide.now) []], syncAt := s.tide.now }) s

def execTideSyncSend (port : Nat) (s : State) : Host.Outcome State Fault Refusal := .next (doTideSyncSend port s)

end Sys2Proof.Machine
end

