-- ==== Sys2Proof/Machine/Peer.lean ====
section
/-! DEFINITION. The peer exchange of a Drezh port (R529 to R535): messages in segments, the proof of identity,
the link keys, the switch of each direction to encryption, and measurements asked of a peer. -/

namespace Sys2Proof.Machine

/-! ## Messages (R529) -/

/-- The control body of a segment. -/
def segBody (ctype seg last : Nat) (d : List Byte) : BitVec 128 :=
  pack 128 [(8, ctype), (12, seg), (12, last), (96, beAt d 0 12)]

def segNo (p : Packet) : Nat := fld p.ctl 119 108
def segLast (p : Packet) : Nat := fld p.ctl 107 96
def segData (p : Packet) : List Byte := bytesBE 12 (fld p.ctl 95 0)

/-- The peer's claimed endpoint ID, once its HELLO has come. -/
def helloEpid (m : List Byte) : Nat := leAt m 4 3

/-- Send a message in segments: SRC this Q7, DST the peer as its HELLO names it, or zero (R529). -/
def sendMsg (p ctype : Nat) (m : List Byte) (s : State) : State :=
  let dst := helloEpid (getPort s p).peer.hello % 2 ^ 18
  let last := ceilDiv m.length 12 - 1
  forAll (List.range (last + 1)) (fun k s =>
    let x := (ctlPkt vcCTRL dst 0 0 (segBody ctype k last (sliceB m (12 * k) 12))).setSrc (selfEpid s)
    soundCtl p x (linkSend p x s)) s

/-- A message: LEN in front of its bytes (R529). -/
def peerMsg (b : List Byte) : List Byte := bytesLE 2 (b.length + 2) ++ b

/-! ## Ends of an exchange (R533) -/

/-- Note an abort: PEER_FAIL, and after three within 1 s the port is held DOWN (R533). -/
def noteAbort (p cause : Nat) (byPeer : Bool) (s : State) : State :=
  let s := onPeer p (fun e =>
    let l := e.aborts.filter (fun t => s.tide.now < t + 1000000000) ++ [s.tide.now]
    { e with aborts := l, held := e.held || decide (3 ≤ l.length) }) s
  postDev 0x3A (bytesLE 2 p ++ bytesLE 1 cause ++ bytesLE 1 (b2n byPeer)) s

/-- Abort: the segments not begun give way to ABORT, which leaves in a flit; then LINK_DOWN with cause 2, and the
port is declared down (R533). -/
def abortPort (p cause : Nat) (s : State) : State :=
  let s := onLink p (fun l => { l with
    tx := l.tx.takeWhile (fun t => t.lastFsn.isSome) ++ (if l.txOff = 0 then [] else (l.tx.dropWhile (fun t => t.lastFsn.isSome)).take 1) }) s
  let s := sendMsg p 0x24 (peerMsg (bytesLE 1 cause)) s
  let s := (sendNew p s).getD s
  declareDown p 2 true (noteAbort p cause false s)

/-! ## Segments taken (R529) -/

/-- Take a segment of a message. None: a segment out of order. Some: the state, and the message once whole. -/
def takeSegment (port ctype : Nat) (p : Packet) (s : State) : Option (State × Option (List Byte)) :=
  let k := segNo p
  let last := segLast p
  let got : Option (List Byte) :=
    match (getPort s port).peer.segs with
    | none => if k = 0 then some [] else none
    | some (c, n, b) => if c = ctype ∧ n = k then some b else none
  match got with
  | none => none
  | some b =>
    let b := b ++ segData p
    if last < k then none
    else if k < last then some (onPeer port (fun e => { e with segs := some (ctype, k + 1, b) }) s, none)
    else
      let len := leAt b 0 2
      if len < 3 ∨ len ≤ 12 * last ∨ b.length < len then none
      else some (onPeer port (fun e => { e with segs := none }) s, some (b.take len))

/-- A port in KEYING takes a message of the exchange; a segment out of order aborts with cause 1, and in RUN the
message is refused (R529). -/
def keyingMsg (ctype port : Nat) (p : Packet) (f : List Byte → State → State) (s : State) : State :=
  if ¬ linksOn s then s
  else
  let s := takeDelivered port p s
  if ¬ linkRuns s port ∨ (getPort s port).lstate ≠ .keying ∨ p.ctype ≠ ctype then s
  else match takeSegment port ctype p s with
    | none => abortPort port 1 s
    | some (s, none) => s
    | some (s, some m) => f m s

/-- A port in RUN takes a measurement message; in KEYING, and out of order, it is refused (R529). -/
def runMsg (ctype port : Nat) (p : Packet) (f : List Byte → State → State) (s : State) : State :=
  if ¬ linksOn s then s
  else
  let s := takeDelivered port p s
  if ¬ linkRuns s port ∨ ¬ portRun s port ∨ p.ctype ≠ ctype then s
  else match takeSegment port ctype p s with
    | none => onPeer port (fun e => { e with segs := none }) s
    | some (s, none) => s
    | some (s, some m) => f m s

/-! ## HELLO and CERT (R530) -/

/-- Bits of the random source, taken once each (log entry 5). -/
def randomBytes (n : Nat) (s : State) : List Byte × State :=
  ((List.range n).map (fun i => Config.randomByte (s.sec.fresh + i)), onSec (fun x => { x with fresh := x.fresh + n }) s)

/-- This Q7's HELLO. -/
def myHelloMsg (s : State) (nonce eph : List Byte) : List Byte :=
  peerMsg (bytesLE 1 1 ++ bytesLE 1 0 ++ bytesLE 3 (selfEpid s) ++ bytesLE 1 0 ++ bytesLE 8 s.sec.cfg.fabric ++ nonce ++
    x25519Public eph)

/-! ## The part's own keys (R503 to R505) -/

/-- The key PRK of the part's secret (R503). -/
def partKey : List Byte := hmac (ascii "Kwezar Q7 B0") Config.pufSecret

/-- M_fw: SHA-512 over measurements 3 and 4 (R503). -/
def fwMeasure (s : State) : List Byte := sha (bytesBE 64 s.sec.fw.mgmtDigest.toNat ++ bytesBE 64 s.sec.fw.laneDigest.toNat)

/-- A signature under the Alias key, which is that of the firmware in force (R503, R504). -/
def aliasSign (s : State) (m : List Byte) : List Byte := edSign (expandKey partKey (ascii "alias" ++ fwMeasure s) 32) m

/-- The DER certificates of levels 1 to 3 (R505). -/
def aliasChain (s : State) : List Byte :=
  Config.deviceChain ++ Config.aliasCert (expandKey partKey (ascii "devid") 32) (fwMeasure s) s.sec.fw.svn s.sec.fw.id

/-- The Unwrap private key (R503, R517). -/
def unwrapKey : List Byte := expandKey partKey (ascii "unwrap") 32

/-- Begin the exchange as the port enters KEYING: HELLO, then CERT (R530). What an earlier exchange recorded of the
peer stays until this one passes. -/
def startExchange (p : Nat) (s : State) : State :=
  let (nonce, s) := randomBytes 32 s
  let (eph, s) := randomBytes 32 s
  let hello := myHelloMsg s nonce eph
  let cert := peerMsg (aliasChain s)
  let s := onPeer p (fun e =>
    { role := e.role, epid := e.epid, leaf := e.leaf, aborts := e.aborts, held := e.held, measured := e.measured,
      myHello := hello, myCert := cert, eph := eph, startAt := s.tide.now }) s
  sendMsg p 0x21 cert (sendMsg p 0x20 hello s)

def helloRole (m : List Byte) : Nat := byteAt m 3
def helloNonce (m : List Byte) : Nat := beAt m 16 32

/-- This end is A: its NONCE is the lower (R530). -/
def isEndA (e : Peer) : Bool := decide (helloNonce e.myHello < helloNonce e.hello)

/-- Two messages in the order A, B. -/
def inAB (e : Peer) (mine theirs : List Byte) : List Byte := if isEndA e then mine ++ theirs else theirs ++ mine

def hash1 (e : Peer) : List Byte := sha (inAB e e.myHello e.hello ++ inAB e e.myCert e.cert)

/-- HELLO. -/
def helloMsg (port : Nat) (m : List Byte) (s : State) : State :=
  let e := (getPort s port).peer
  if m.length ≠ 80 ∨ byteAt m 2 ≠ 1 ∨ 1 < helloRole m ∨ ¬ e.hello.isEmpty ∨ helloNonce m = helloNonce e.myHello then abortPort port 1 s
  else onPeer port (fun e => { e with hello := m }) s

def execHello (port : Nat) (p : Packet) (s : State) : Host.Outcome State Fault Refusal := .next (keyingMsg 0x20 port p (helloMsg port) s)

/-- A certificate's key is revoked by the TRUST section in force (R516). -/
def revokedKey (s : State) (key : List Byte) : Bool := s.sec.cfg.revoked.contains ((sha key).take 32)

/-- The checks of R530 on a peer's chain: the cause of an abort, or none. -/
def certCause (s : State) (hello chain : List Byte) : Option Nat :=
  if helloRole hello = 0 ∧ ¬ (Config.chainTo chain Config.heldelRoot = true ∧ Config.leafIsQ7 chain = true) then some 7
  else if helloRole hello = 1 ∧ ¬ s.sec.cfg.anchors.any (fun a => Config.chainTo chain a) then some 2
  else if (Config.chainKeys chain).any (revokedKey s) then some 2
  else if helloRole hello = 0 ∧ leAt hello 8 8 ≠ s.sec.cfg.fabric then some 3
  else none

/-- What a PROOF signs: the label, the end's letter, H1 (R530). -/
def proofText (e : Peer) (endA : Bool) : List Byte := ascii "Drezh proof v1" ++ bytesLE 1 (if endA then 0x41 else 0x42) ++ hash1 e

/-- CERT: the chain is checked, and this end's PROOF sent (R530). -/
def certMsg (port : Nat) (m : List Byte) (s : State) : State :=
  let e := (getPort s port).peer
  if e.hello.isEmpty ∨ ¬ e.cert.isEmpty ∨ 8194 < m.length then abortPort port 1 s
  else match certCause s e.hello (m.drop 2) with
    | some c => abortPort port c s
    | none =>
      let e := { e with cert := m }
      let proof := peerMsg (aliasSign s (proofText e (isEndA e)))
      sendMsg port 0x22 proof (onPeer port (fun _ => { e with myProof := proof }) s)

def execCert (port : Nat) (p : Packet) (s : State) : Host.Outcome State Fault Refusal := .next (keyingMsg 0x21 port p (certMsg port) s)

/-! ## PROOF, keys and FINISH (R530 to R532) -/

/-- The leaf key of a chain. -/
def leafKey (chain : List Byte) : List Byte := ((Config.chainKeys chain).getLast?).getD []

/-- The labels of the direction from A or from B (R531). -/
def dirLabel (fromA : Bool) (what : String) : List Byte := ascii ("drezh " ++ (if fromA then "a2b " else "b2a ") ++ what)

/-- The FINISH key of an end (R531). -/
def finishKey (prk : List Byte) (endA : Bool) : List Byte := expandKey prk (ascii (if endA then "drezh finish a" else "drezh finish b")) 64

/-- The MAC of a FINISH (R532). -/
def finishMac (e : Peer) (endA : Bool) (pair : Nat) : List Byte :=
  hmac (finishKey e.prk endA) (e.h2 ++ bytesLE 4 pair)

/-- The least pairs from the one that carries a FINISH to its SWITCH_PAIR: 5 µs, rounded up, of 48.57 ns pairs at
224 Gb/s and in proportion below (R532). -/
def switchDistance (rate : Nat) : Nat := if rate = 0 then 103 else if rate = 1 then 52 else 26

/-- The number of the pair the next flit lies in: five flits a lane (R336, R532). -/
def pairOf (s : State) (p : Nat) : Nat := (getPort s p).link.slotTx / (5 * portWidth s p)

/-- PROOF: verified under the peer's leaf key; the keys are derived, the ephemeral key discarded, FINISH sent. -/
def proofMsg (port : Nat) (m : List Byte) (s : State) : State :=
  let x := getPort s port
  let e := x.peer
  if e.cert.isEmpty ∨ ¬ e.proof.isEmpty ∨ m.length ≠ 66 then abortPort port 1 s
  else if ¬ edVerify (leafKey (e.cert.drop 2)) (proofText e (!isEndA e)) (m.drop 2) then abortPort port 4 s
  else
    let a := isEndA e
    let e := { e with proof := m }
    let h2 := sha (hash1 e ++ inAB e e.myProof e.proof)
    let z := x25519 e.eph (sliceB e.hello 48 32)
    let prk := hmac h2 z
    let pair := pairOf s port + switchDistance x.rate + Config.switchSlack port (pairOf s port)
    let e := { e with h2 := h2, prk := prk, eph := [], switchTx := some pair }
    let s := onPeer port (fun _ => e) s
    let s := onLink port (fun l => { l with
      keyTx := expandKey prk (dirLabel a "key") 32, keyRx := expandKey prk (dirLabel (!a) "key") 32,
      saltTx := expandKey prk (dirLabel a "salt") 4, saltRx := expandKey prk (dirLabel (!a) "salt") 4 }) s
    sendMsg port 0x23 (peerMsg (bytesLE 4 pair ++ finishMac e a pair)) s

def execProof (port : Nat) (p : Packet) (s : State) : Host.Outcome State Fault Refusal := .next (keyingMsg 0x22 port p (proofMsg port) s)

/-- FINISH: the MAC is verified under the peer's FINISH key, and its direction's switch pair is fixed (R532). -/
def finishMsg (port : Nat) (m : List Byte) (s : State) : State :=
  let e := (getPort s port).peer
  if e.proof.isEmpty ∨ e.switchRx.isSome ∨ m.length ≠ 70 then abortPort port 1 s
  else if m.drop 6 ≠ finishMac e (!isEndA e) (leAt m 2 4) then abortPort port 5 s
  else onPeer port (fun e => { e with switchRx := some (leAt m 2 4) }) s

def execFinish (port : Nat) (p : Packet) (s : State) : Host.Outcome State Fault Refusal := .next (keyingMsg 0x23 port p (finishMsg port) s)

/-- ABORT from the peer: the exchange ends and the port goes down (R533). -/
def abortMsg (port : Nat) (m : List Byte) (s : State) : State := declareDown port 2 false (noteAbort port (byteAt m 2) true s)

def execAbort (port : Nat) (p : Packet) (s : State) : Host.Outcome State Fault Refusal := .next (keyingMsg 0x24 port p (abortMsg port) s)

/-- KEYING_TIMEOUT: 5 ms after pair 0 (R532). -/
def doKeyingTimeout (p : Nat) (s : State) : State :=
  if linkRuns s p ∧ (getPort s p).lstate = .keying ∧ due s ((getPort s p).peer.startAt + 5000000) then abortPort p 6 s else s

def execKeyingTimeout (port : Nat) (s : State) : Host.Outcome State Fault Refusal := .next (doKeyingTimeout port s)

/-! ## LINK_RUN_SWITCH (R532, R534) -/

/-- A bound port whose peer is another than before is unbound, and PEER_CHANGED posted (R534). -/
def peerChanged (p : Nat) (old new : Peer) (s : State) : State :=
  match bindOf s p with
  | none => s
  | some _ =>
    if old.role.isSome ∧ (old.leaf ≠ new.leaf ∨ old.epid ≠ new.epid) then
      postDev 0x3B (bytesLE 2 p ++ bytesLE 3 old.epid) (unbindAlone p s)
    else s

/-- Both directions run: the port is in RUN, and the peer is recorded (R532, R534). -/
def linkToRun (p : Nat) (s : State) : State :=
  let e := (getPort s p).peer
  if ¬ (e.runTx = true ∧ e.runRx = true) then s
  else
    let e' := { e with role := some (helloRole e.hello), epid := helloEpid e.hello % 2 ^ 18, leaf := leafKey (e.cert.drop 2) }
    let s := onPort p (fun x => { x with lstate := .run, peer := e', pktsTx := 0, pktsRx := 0, reqKind := 0 }) s
    let s := onLink p (fun l => { l with goodAt := s.tide.now, dataAt := s.tide.now }) s
    let s := onShoal (fun h => { h with everRun := true }) s
    postPort p 6 0 (retide (markAtRun p (peerChanged p e e' s)))

/-- The FINISH this end sent still waits for its ACK (R532). -/
def finishWaits (l : Link) : Bool := l.tx.any (fun t => t.pkt.ctype == 0x23)

/-- The first slot of the pair that a slot begins, or of the next one: RUN begins on a pair (R336, R359). -/
def pairAfter (s : State) (p slot : Nat) : Nat := (slot + 5 * portWidth s p - 1) / (5 * portWidth s p) * (5 * portWidth s p)

/-- LINK_RUN_SWITCH: the first flit slot of pair SWITCH_PAIR of a direction. -/
def doLinkRunSwitch (p : Nat) (tx : Bool) (s : State) : State :=
  let x := getPort s p
  let at_ (n : Option Nat) (slot : Nat) : Bool := (n.map (fun k => decide (5 * portWidth s p * k ≤ slot))).getD false
  if ¬ linkRuns s p ∨ x.lstate ≠ .keying then s
  else if tx then
    (if x.peer.runTx ∨ ¬ at_ x.peer.switchTx x.link.slotTx then s
     else if finishWaits x.link then declareDown p 0 true s
     else linkToRun p (onPort p (fun x => { x with
       peer := { x.peer with runTx := true }, link := { x.link with
         slotTx := 0, keyTxSlot := 0, keyTxNo := 0, baseTx := pairAfter s p (x.link.baseTx + x.link.slotTx) } }) s))
  else if x.peer.runRx ∨ ¬ at_ x.peer.switchRx x.link.slotRx then s
  else linkToRun p (onPort p (fun x => { x with
    peer := { x.peer with runRx := true }, link := { x.link with
      slotRx := 0, keyRxNo := 0, baseRx := pairAfter s p (x.link.baseRx + x.link.slotRx) } }) s)

def execLinkRunSwitch (port : Nat) (tx : Bool) (s : State) : Host.Outcome State Fault Refusal := .next (doLinkRunSwitch port tx s)

/-! ## Measurements (R527, R529, R535) -/

/-- The digest of the configuration bundle in force that its signature covers; zero if there is none (R515, R527). -/
def cfgDigest (s : State) : List Byte :=
  if s.sec.cfg.bundle.isEmpty then List.replicate 64 0 else sha (s.sec.cfg.bundle.take (s.sec.cfg.bundle.length - 64))

/-- The eight measurement blocks (R527), raw where the spec gives raw contents. -/
def measBlocks (s : State) : List (List Byte) :=
  let x := s.sec
  [bytesBE 64 Config.romDigest.toNat, bytesBE 64 Config.mfgDigest.toNat, bytesBE 64 x.fw.mgmtDigest.toNat,
   bytesBE 64 x.fw.laneDigest.toNat, bytesLE 4 x.fw.svn ++ bytesLE 8 x.fw.id, cfgDigest s,
   bytesLE 8 x.cfg.policy ++ ((x.owner.map (fun o => sliceB o.1 0 32)).getD (List.replicate 32 0)),
   bytesLE 4 x.fwSvn ++ bytesLE 4 x.cfgSvn ++ (List.range 4).flatMap (fun k => bytesLE 4 (nth x.flash k {}).seq)]

/-- The answer to a MEAS_REQ: the blocks its MASK names, and the Alias signature over them and the NONCE. -/
def measAnswer (s : State) (nonce : List Byte) (mask : Nat) : List Byte :=
  let asked := (bitsOf 16 mask).filter (fun i => decide (1 ≤ i ∧ i ≤ 8))
  let entries := asked.flatMap (fun i => bytesLE 1 i ++ sliceB (nth (measBlocks s) (i - 1) []) 0 64)
  let body := bytesLE 2 (67 + entries.length) ++ bytesLE 1 asked.length ++ entries
  body ++ aliasSign s (sha (body ++ nonce))

/-- MEAS_REQ: answered at once; a second one, while the answer to the first still waits on the link, is dropped (R535). -/
def measReqMsg (port : Nat) (m : List Byte) (s : State) : State :=
  if m.length ≠ 36 ∨ (getPort s port).link.tx.any (fun t => t.pkt.ctype == 0x26) then s
  else sendMsg port 0x26 (measAnswer s (sliceB m 2 32) (leAt m 34 2)) s

/-- After a cut the Q7 begins no packet (R456): the request waits for the resume. -/
def execMeasReq (port : Nat) (p : Packet) (s : State) : Host.Outcome State Fault Refusal :=
  .next (if s.stop.frozen then s else runMsg 0x25 port p (measReqMsg port) s)

/-- MEAS_RSP: the peer's measurements are kept. -/
def measRspMsg (port : Nat) (m : List Byte) : State → State := onPeer port (fun e => { e with measured := m })

def execMeasRsp (port : Nat) (p : Packet) (s : State) : Host.Outcome State Fault Refusal := .next (runMsg 0x26 port p (measRspMsg port) s)

end Sys2Proof.Machine
end

