-- ==== Sys2Proof/Machine/Lanes.lean ====
section
/-! DEFINITION. Lanes (R370 to R402): port modes, lane set-up, training, Neap and Low water, test patterns, error
injection and eye scans. -/

namespace Sys2Proof.Machine

/-! ## Lanes and their ports (R374, R379) -/

/-- The port a lane belongs to (R374). -/
def portOfLane (s : State) (l : Nat) : Nat :=
  let p := l - l % portWidth s l
  if ethUpper s p then p - 4 else p

/-- The state LN_STAT reads for a lane (R380). -/
def laneState (s : State) (l : Nat) : LState := (getPort s (portOfLane s l)).lstate

/-- At most 32 ports are in Ethernet mode, as a change of these lanes leaves them (R23, R365; log entry 110). -/
def ethFits (lanes : List Nat) (s : State) : Bool :=
  lanes.all (fun l => !bitAt (getLane s l).ctl 28) || decide (((List.range 768).filter (isEthPort s)).length ≤ 32)

/-! ## LN_GRP_CFG (R375, R376) -/

/-- Every lane of a group reads DOWN and every port of it has ENABLE clear (R375). -/
def groupIdle (s : State) (g : Nat) : Bool :=
  (List.range 16).all (fun k => laneState s (16 * g + k) == .down && !bitAt (getLane s (portOfLane s (16 * g + k))).ctl 31)

/-- LN_GRP_CFG_WRITE. -/
def doLnGrpCfg (g : Nat) (v : Word) (s : State) : State :=
  if 48 ≤ g then s
  else
    let old := mgetD s.net.groups g {}
    let m := fld v 1 0
    let clr := bitAt v 2
    let moved := onNet (fun n => { n with groups := mput n.groups g { old with mode := m } }) s
    let refused := decide (m = 3) || (decide (m ≠ old.mode) && (!groupIdle s g || !ethFits ((List.range 16).map (fun k => 16 * g + k)) moved))
    onNet (fun n => { n with groups := mput n.groups g {
      mode := if refused then old.mode else m, modeRej := w1c old.modeRej clr old.modeRejAt s.tide.now || refused,
      modeRejAt := if refused then some s.tide.now else old.modeRejAt } }) s

def execLnGrpCfgWrite (group : Nat) (v : Word) (s : State) : Host.Outcome State Fault Refusal := .next (byHost (doLnGrpCfg group v) s)

/-! ## LN_CTL (R377 to R379) -/

/-- Start an enabled port that is DOWN: test on a lane with TEST set, else training (R378, R379, R397). -/
def startPort (p : Nat) (s : State) : State :=
  if ¬ portEnabled s p ∨ ¬ portExists s p ∨ (getPort s p).lstate ≠ .down then s
  else if (portLanes s p).any (fun l => fld (getLane s l).ctl 21 20 != 0) then
    onPort p (fun x => { x with
      lstate := .test, squelched := (portLanes s p).all (fun l => fld (getLane s l).ctl 21 20 != 1), rate := fld (getLane s p).ctl 30 29 }) s
  else toDetect p s

/-- ENABLE takes effect on entry to TRAIN (R379). -/
def startPorts (s : State) : State := forAll (s.net.lanes.map (·.1)) startPort s

/-- PORT_ENABLE: no effect on a port already out of DOWN (R378). A port that aborts held DOWN is let go (R533). -/
def doPortEnable (p : Nat) (s : State) : State :=
  if ¬ portExists s p ∨ (getPort s p).lstate ≠ .down then s
  else
    let was := bitAt (getLane s p).ctl 31
    let s := onLane p (fun l => { l with ctl := setFld l.ctl 31 31 1 }) s
    let s := if was then s else onPeer p (fun e => { e with held := false, aborts := if e.held then [] else e.aborts }) s
    startPort p s

def execPortEnable (port : Nat) (s : State) : Host.Outcome State Fault Refusal := .next (byHost (doPortEnable port) s)

/-- PORT_DISABLE: LINK_DOWN with cause 3 where the link carries flits; the squelch and DOWN follow 1 µs later (R378). -/
def doPortDisable (p : Nat) (s : State) : State :=
  if ¬ portExists s p ∨ ¬ bitAt (getLane s p).ctl 31 then s
  else
    let s := onLane p (fun l => { l with ctl := setFld l.ctl 31 31 0 }) s
    if (getPort s p).lstate = .down then s
    else
      let s := if linkRuns s p then sendLinkMsg p (linkMsg 3 (bytesLE 8 3) []) s else s
      onPort p (fun x => { x with disableAt := some (s.tide.now + 1000) }) s

def execPortDisable (port : Nat) (s : State) : Host.Outcome State Fault Refusal := .next (byHost (doPortDisable port) s)

/-- DISABLE_SQUELCH: 1 µs after ENABLE 0 the transmitters are squelched and the port is DOWN (R378). -/
def doDisableSquelch (p : Nat) (s : State) : State :=
  match (getPort s p).disableAt with
  | none => s
  | some t =>
    if ¬ due s t then s
    else toDetect p (onPort p (fun x => { x with disableAt := none }) (stopLink p s))

def execDisableSquelch (port : Nat) (s : State) : Host.Outcome State Fault Refusal := .next (whenLive (doDisableSquelch port) s)

/-- The fields [30:20] of LN_CTL that a lane holds: those of a port stand in its lowest lane only (R377). -/
def laneFields (low : Bool) (old v : Word) : Nat :=
  let all := 0x7FF <<< 20
  let m := if low then all else 0x03B00000
  (v.toNat &&& m) ||| (old.toNat &&& (all - m))

/-- New fields that LN_CTL takes: no reserved code, an 8-lane port where one fits, at most 32 Ethernet-mode ports
(R23, R365, R377). -/
def laneFieldsOk (s : State) (l new : Nat) : Bool :=
  let b (i : Nat) : Bool := new.testBit i
  let eth := b 28
  (new >>> 29) % 4 != 3 && (new >>> 20) % 4 != 3
  && (!(eth && b 27) || (l % 8 == 0 && groupMode s l == 2))
  && ethFits ((List.range 8).map (fun k => l / 8 * 8 + k)) (onLane l (fun y => { y with ctl := BitVec.ofNat 32 new }) s)

/-- The lanes that must read DOWN before a lane's fields change: those of its port, before and after (R365, R378). -/
def lanesJudged (s : State) (l new : Nat) : List Nat :=
  let p := portOfLane s l
  (List.range (if new.testBit 28 && new.testBit 27 then max 8 (lanesWide s p) else lanesWide s p)).map (fun k => p + k)

/-- LN_CTL_WRITE: the fields change only while every lane of the port reads DOWN and ENABLE is clear; ENABLE acts as
PORT_ENABLE and PORT_DISABLE do (R378). -/
def doLnCtl (l : Nat) (v : Word) (s : State) : State :=
  if 768 ≤ l then s
  else
    let p := portOfLane s l
    let old := (getLane s l).ctl
    let new := laneFields (l == p) old v
    let change := decide (new ≠ old.toNat &&& (0x7FF <<< 20))
    let idle := (lanesJudged s l new).all (fun k => laneState s k == .down && !bitAt (getLane s (portOfLane s k)).ctl 31)
    let refused := change && !(idle && laneFieldsOk s l new)
    let s := if refused then onLane l (fun y => { y with cfgRej := true, cfgRejAt := some s.tide.now }) s
      else onLane l (fun y => { y with
        ctl := BitVec.ofNat 32 (new ||| (old.toNat &&& 0x80000000)), rxInvDet := if new.testBit 24 then y.rxInvDet else new.testBit 23 }) s
    if l ≠ p then s
    else if bitAt v 31 ∧ ¬ bitAt old 31 ∧ ¬ refused then doPortEnable p s
    else if ¬ bitAt v 31 ∧ bitAt old 31 then doPortDisable p s
    else s

def execLnCtlWrite (lane : Nat) (v : Word) (s : State) : Host.Outcome State Fault Refusal := .next (byHost (doLnCtl lane v) s)

/-! ## Taps (R384, R385, R398) -/

def tapLow : List Int := [-8, 0, -24, 24, -24]
def tapHigh : List Int := [0, 8, 0, 63, 0]

def tapPreset (k : Nat) : List Int :=
  if k = 1 then [0, 0, 0, 63, 0] else if k = 2 then [0, 0, -8, 51, -4] else [-2, 4, -14, 39, -4]

/-- A tap stands in its own range. -/
def tapInRange (i : Nat) (v : Int) : Bool := decide (nth tapLow i 0 ≤ v) && decide (v ≤ nth tapHigh i 0)

/-- The sum of the magnitudes is at most 63. -/
def tapSumOk (l : List Int) : Bool := decide ((l.map (·.natAbs)).foldl (· + ·) 0 ≤ 63)

def tapsOk (l : List Int) : Bool := (List.range 5).all (fun i => tapInRange i (nth l i 0)) && tapSumOk l

/-- The request code of a tap in a control field (R382). -/
def tapCode (c : Word) (i : Nat) : Nat := fld c (25 - 2 * i) (24 - 2 * i)

/-- The taps and the results TAP_ST after a request: taken whole or not at all (R385). -/
def tapRequest (c : Word) (taps : List Int) : List Int × List Nat :=
  let preset := fld c 27 26
  if preset ≠ 0 then (tapPreset preset, [1, 1, 1, 1, 1])
  else
    let new := (List.range 5).map (fun i =>
      nth taps i 0 + (if tapCode c i = 1 then (1 : Int) else if tapCode c i = 2 then -1 else 0))
    let st := (List.range 5).map (fun i => if tapCode c i = 3 then 3 else if tapInRange i (nth new i 0) then 0 else 2)
    let moved (r : Nat) : List Nat := (List.range 5).map (fun i => if tapCode c i = 0 then 0 else r)
    if st.any (· != 0) then (taps, st)
    else if ¬ tapSumOk new then (taps, moved 2)
    else (new, moved 1)

/-- The taps a word of LN_TAPS names (R398). -/
def tapsOfWord (v : Word) : List Int :=
  [toSigned 6 (fld v 29 24), toSigned 6 (fld v 23 18), toSigned 6 (fld v 17 12), (fld v 11 6 : Nat), toSigned 6 (fld v 5 0)]

/-- LN_TAPS_WRITE: read-only unless TEST is set; a write that breaks R384 is ignored and sets CFG_REJ (R398). -/
def doLnTaps (l : Nat) (v : Word) (s : State) : State :=
  if 768 ≤ l ∨ fld (getLane s l).ctl 21 20 = 0 then s
  else if tapsOk (tapsOfWord v) then onLane l (fun y => { y with testTaps := tapsOfWord v }) s
  else onLane l (fun y => { y with cfgRej := true, cfgRejAt := some s.tide.now }) s

def execLnTapsWrite (lane : Nat) (v : Word) (s : State) : Host.Outcome State Fault Refusal := .next (byHost (doLnTaps lane v) s)

/-! ## Test patterns, error injection, eye scan (R397 to R402) -/

/-- PRBS_CHECKER_ENABLE: CHK_EN from 0 to 1 clears both counters (R397). -/
def doPrbsEnable (l : Nat) (s : State) : State :=
  if 768 ≤ l ∨ bitAt (getLane s l).prbs 30 then s
  else onLane l (fun y => { y with prbs := setFld (setFld y.prbs 30 30 1) 21 21 0, prbsErr := 0, prbsBits := 0 }) s

def execPrbsCheckerEnable (lane : Nat) (s : State) : Host.Outcome State Fault Refusal := .next (byHost (doPrbsEnable lane) s)

/-- PRBS_CHECKER_LOCK: the checker of a lane in TEST synchronises itself (R397). -/
def doPrbsLock (l : Nat) (s : State) : State :=
  if bitAt (getLane s l).prbs 30 ∧ laneState s l = .test then onLane l (fun y => { y with prbs := setFld y.prbs 21 21 1 }) s else s

def execPrbsCheckerLock (lane : Nat) (s : State) : Host.Outcome State Fault Refusal := .next (whenLive (doPrbsLock lane) s)

/-- LN_INJ_WRITE: a nonzero TARGET starts the injection; a write replaces one of the same target that runs from the next interval
on (R399; log entry 101). -/
def doLnInj (l : Nat) (v : Word) (s : State) : State :=
  if 768 ≤ l then s
  else onLane l (fun y => { y with
    inj := BitVec.ofNat 32 (v.toNat &&& 0xFFFFFF1F), injDone := 0,
    injLeft := if fld y.inj 31 30 = fld v 31 30 then y.injLeft else 2 ^ fld v 4 0 }) s

def execLnInjWrite (lane : Nat) (v : Word) (s : State) : Host.Outcome State Fault Refusal := .next (byHost (doLnInj lane v) s)

/-- The injection's target is on the line: pattern bits in TEST, FEC symbols and CRC in service (R399). -/
def injLive (s : State) (l : Nat) : Bool :=
  let t := fld (getLane s l).inj 31 30
  if t = 1 then laneState s l == .test else t != 0 && laneState s l == .run

/-- A pattern bit in error, which the lane's own checker sees where its output loops back (R397). -/
def patternError (now : Nat) (y : Lane) : Lane :=
  if fld y.inj 31 30 = 1 ∧ fld y.ctl 21 20 = 2 ∧ bitAt y.prbs 31 ∧ bitAt y.prbs 30 ∧ bitAt y.prbs 21 then
    (if y.prbsErr < ctrMax then { y with prbsErr := y.prbsErr + 1 } else { y with prbs := setFld y.prbs 20 20 1, ovfAt := some now })
  else y

/-- ERROR_INJECTION_INTERVAL, once an interval of 2^GAP bits, pairs or flits has gone by: TARGET clears when COUNT injections are
done (R399, R400). -/
def doErrorInjection (l : Nat) (s : State) : State :=
  if ¬ injLive s l ∨ (getLane s l).injLeft ≠ 0 then s
  else onLane l (fun y =>
    let n := y.injDone + 1
    let cnt := fld y.inj 23 8
    let y := patternError s.tide.now y
    { y with
      injDone := n, injLeft := 2 ^ fld y.inj 4 0, injCrc := y.injCrc || fld y.inj 31 30 == 3, injBit := y.injBit || fld y.inj 31 30 == 1,
      injSym := if fld y.inj 31 30 = 2 then some (true, fld y.inj 29 24) else y.injSym,
      inj := if cnt ≠ 0 ∧ cnt ≤ n then setFld y.inj 31 30 0 else y.inj }) s

def execErrorInjectionInterval (lane : Nat) (s : State) : Host.Outcome State Fault Refusal := .next (whenLive (doErrorInjection lane) s)

/-- A lane in which an eye scan runs: RUN or TEST (R401). -/
def eyeRuns (s : State) (l : Nat) : Bool := laneState s l == .run || laneState s l == .test

/-- EYE_SCAN_START: both counts clear; a second START has no effect (R401, R402). -/
def doEyeStart (l : Nat) (s : State) : State :=
  if 768 ≤ l ∨ bitAt (getLane s l).eyeCtl 31 ∨ ¬ eyeRuns s l then s
  else onLane l (fun y => { y with eyeCtl := setFld (setFld y.eyeCtl 31 31 1) 7 7 0, eyeErr := 0, eyeCnt := 0 }) s

def execEyeScanStart (lane : Nat) (s : State) : Host.Outcome State Fault Refusal := .next (byHost (doEyeStart lane) s)

/-- EYE_SCAN_DONE: 2^DWELL symbols are compared, or the lane has left RUN or TEST; the counts stand as the scan made them, so the
command's own play no part (R402; log entry 55). -/
def doEyeDone (l : Nat) (aborted : Bool) (s : State) : State :=
  let y := getLane s l
  let ends := if aborted then !eyeRuns s l else decide (2 ^ fld y.eyeCtl 13 8 ≤ y.eyeCnt)
  if ¬ (bitAt y.eyeCtl 31 ∧ ends) then s
  else onLane l (fun y => { y with eyeCtl := setFld (setFld y.eyeCtl 31 31 0) 7 7 (b2n aborted) }) s

def execEyeScanDone (lane : Nat) (_err _cnt : Nat) (aborted : Bool) (s : State) : Host.Outcome State Fault Refusal :=
  .next (whenLive (doEyeDone lane aborted) s)

/-! ## What a lane counts each nanosecond (R397, R402) -/

/-- The symbols a lane carries in this nanosecond: 112, 56 or 28, and 106.25 in a running Ethernet-mode port (R364, R372). -/
def symbolsNow (s : State) (p : Nat) : Nat :=
  let x := getPort s p
  if isEthPort s p ∧ x.lstate = .run then (s.tide.now + 1) * 425 / 4 - s.tide.now * 425 / 4
  else 112 / 2 ^ (if x.lstate = .detect ∧ x.countdown = some 0 then x.agreed else x.rate)

/-- A checker that is synchronised compares the bits of `n` symbols; where the lane's own pattern loops back, an error is one
that was injected (R397). -/
def checkPattern (l now n : Nat) (y : Lane) : Lane :=
  if ¬ (bitAt y.prbs 30 ∧ bitAt y.prbs 21) then y
  else
    let own := fld y.ctl 21 20 = 2 ∧ bitAt y.prbs 31 ∧ fld y.prbs 29 27 = fld y.prbs 26 24
    let errs := if own then 0 else Config.bitErrors l now % (2 * n + 1)
    let full := decide (ctrMax < y.prbsErr + errs) || decide (ctrMax < y.prbsBits + 2 * n)
    { y with
      prbsErr := min ctrMax (y.prbsErr + errs), prbsBits := min ctrMax (y.prbsBits + 2 * n),
      prbs := if full then setFld y.prbs 20 20 1 else y.prbs, ovfAt := if full then some now else y.ovfAt }

/-- An eye scan compares up to its dwell (R402). -/
def scanEye (l now n : Nat) (y : Lane) : Lane :=
  if ¬ bitAt y.eyeCtl 31 then y
  else
    let cnt := min (y.eyeCnt + n) (max y.eyeCnt (2 ^ fld y.eyeCtl 13 8))
    { y with
      eyeCnt := cnt,
      eyeErr := y.eyeErr + Config.eyeMismatches l (fld y.eyeCtl 30 29) (fld y.eyeCtl 28 22) (fld y.eyeCtl 21 14) now % (cnt - y.eyeCnt + 1) }

/-- One nanosecond of a lane in TEST or RUN. -/
def laneNs (l : Nat) (s : State) : State :=
  let p := portOfLane s l
  let n := symbolsNow s p
  match laneState s l with
  | .test => onLane l (fun y => scanEye l s.tide.now n (checkPattern l s.tide.now n (drivePattern n y))) s
  | .run => onLane l (scanEye l s.tide.now n) s
  | _ => s

/-! ## Training (R381 to R391) -/

/-- The bit of a rate in FAILED and RATES (R380, R383). -/
def rateBit (r : Nat) : Nat := 2 ^ (2 - r)

/-- The rates an end offers: MAXRATE and every lower one, less FAILED (R387). -/
def ratesOffered (s : State) (p : Nat) : Nat :=
  ((List.range 3).filter (fun r => decide (fld (getLane s p).ctl 30 29 ≤ r) && !(getPort s p).failed.testBit (2 - r))).foldl (fun m r => m + rateBit r) 0

/-- The highest rate of a mask. -/
def bestRate (m : Nat) : Option Nat := (List.range 3).find? (fun r => m.testBit (2 - r))

/-- Back to DETECT at 56 Gb/s with what FAILED holds (R390). -/
def backToDetect (p failed : Nat) (s : State) : State := onPort p (fun x => { x with failed := failed }) (toDetect p s)

/-- A cycle that ended with every rate failed: TRAIN_FAIL, a port event, and a pause of 1 ms (R390). -/
def failCycle (p : Nat) (s : State) : State :=
  let failed := (getPort s p).failed
  let s := backToDetect p failed (count (kPort p iLN_TRAIN_FAIL) s)
  let s := onPort p (fun x => { x with trainFail := true, trainFailAt := some s.tide.now, retryAt := some (s.tide.now + 1000000) }) s
  postPort p 1 2 s

/-- SIGNAL_DETECT: signal on every lane (R386). The PHY of an Ethernet-mode port comes up as IEEE 802.3 has it. At a port held
DOWN by CLIFF_NOTICE the far end is not squelched, so its 1 ms begins again (R493). -/
def doSignalDetect (p : Nat) (s : State) : State :=
  let x := getPort s p
  if x.cliffHold.isSome && linksOn s then onPort p (fun x => { x with cliffHold := some s.tide.now }) s
  else if ¬ linksOn s ∨ x.lstate ≠ .detect ∨ x.retryAt.isSome then s
  else if isEthPort s p then
    postPort p 6 0 (onShoal (fun h => { h with everRun := true }) (onPort p (fun x => { x with lstate := .run, masked := false }) s))
  else if isDrezhPort s p then onPort p (fun x => { x with signal := true, phaseAt := s.tide.now }) s
  else s

def execSignalDetect (port : Nat) (s : State) : Host.Outcome State Fault Refusal := .next (doSignalDetect port s)

/-- The lane order received: none where the map, the width or the order is not allowed; some true if reversed (R388). -/
def laneOrder (s : State) (p : Nat) : Option Bool :=
  let w := portWidth s p
  let ks := List.range w
  let far (k : Nat) : Nat := (getLane s (p + k)).farLidx
  if ¬ ks.all (fun k => (getLane s (p + k)).farWidth == groupMode s p) then none
  else if ks.all (fun k => far k == k) then some false
  else if ks.all (fun k => far k == w - 1 - k) ∧ bitAt (getLane s p).ctl 22 then some true
  else none

/-- DETECT is complete on every lane: the order and the rate are resolved, and GO is sent with COUNT 16 (R387, R388). -/
def agree (p : Nat) (s : State) : State :=
  match laneOrder s p with
  | none => failCycle p (count (kPort p iLN_LANEMAP) s)
  | some rev =>
    let common := (portLanes s p).foldl (fun m l => m &&& (getLane s l).farRates) (ratesOffered s p)
    match bestRate common with
    | none => failCycle p s
    | some r => onPort p (fun x => { x with reversed := rev, agreed := r, countdown := some 16 }) s

/-- Every lane of the port holds frame lock: three consecutive markers (R386). -/
def allLocked (s : State) (p : Nat) : Bool := (portLanes s p).all (fun l => decide (3 ≤ (getLane s l).markers))

/-- What a lane takes from a frame: polarity, status, and a tap request new to it, not in a frame of a countdown
(R385, R388, R391). -/
def laneFrame (phase : LState) (inverted : Bool) (control status : Word) (ready : Bool) (y : Lane) : Lane :=
  let y := { y with
    markers := y.markers + 1, noMarker := 0, rxInvDet := if bitAt y.ctl 24 then inverted else bitAt y.ctl 23,
    farRates := fld status 15 13, farLidx := fld status 12 11, lidxIn := fld status 12 11, farWidth := fld status 10 9,
    farTrained := bitAt status 8, farCount := if bitAt status 7 then some (fld status 6 0) else none, rxReady := y.rxReady || (phase == .coeff && ready) }
  -- the own request has come back: a new one, while the lane is not ready (R385, R389)
  let y := if phase = .coeff ∧ fld status 31 28 = y.rid ∧ ¬ y.rxReady then { y with rid := (y.rid + 1) % 16 } else y
  if phase = .coeff ∧ ¬ bitAt status 7 ∧ fld control 31 28 ≠ y.echo then
    let r := tapRequest control y.taps
    { y with taps := r.1, tapSt := r.2, echo := fld control 31 28 }
  else y

/-- The control field of the frames a lane sends: its request, which only COEFF makes, and RX_READY (R382, R385). -/
def controlSent (phase : LState) (l : Nat) (y : Lane) : Word :=
  let w := if phase = .coeff ∧ y.rid ≠ 0 then Config.tapWish l y.rid else 0
  let code (i : Nat) : Nat := w / 4 ^ i % 4 % 3
  pack 32 [(4, y.rid), (2, w / 1024 % 4), (2, code 4), (2, code 3), (2, code 2), (2, code 1), (2, code 0), (1, b2n y.rxReady), (15, 0)]

/-- A countdown runs: GO is set in the frames of every lane until the sixteenth has left (R387, R389; log entry 55). -/
def counting (x : Port) : Bool := x.countdown.any (· != 0)

/-- The status field of the frames a lane of a port sends (R383). -/
def statusSent (s : State) (p l : Nat) : Word :=
  let x := getPort s p
  let y := getLane s l
  pack 32 ([(4, y.echo), (2, 0)] ++ y.tapSt.map (fun c => (2, c))
    ++ [(3, ratesOffered s p), (2, l - p), (2, groupMode s p), (1, b2n ((portLanes s p).all (fun k => (getLane s k).rxReady))),
        (1, b2n (counting x)), (7, x.countdown.getD 0)])

/-- A lane begins its next training frame (R381 to R383). -/
def sendFrame (p l : Nat) (s : State) : State :=
  let phase := (getPort s p).lstate
  let status := statusSent s p l
  onLane l (fun y =>
    let r := trainFrame (controlSent phase l y) status y.trainGen
    driveLine { y with trainGen := r.2, noMarker := y.noMarker + 1 } r.1) s

/-- A port whose lanes send training frames: in TRAIN, until ALIGN has counted down (R381, R386, R389). -/
def framesGo (x : Port) : Bool :=
  x.lstate == .detect || x.lstate == .switch || x.lstate == .coeff || (x.lstate == .align && x.countdown != some 0)

/-- One nanosecond of a port in TRAIN: frames back to back on all its lanes at once, each of a countdown with a COUNT one less
than the one before (R381, R383, R387). -/
def trainNs (p : Nat) (s : State) : State :=
  let x := getPort s p
  if ¬ isDrezhPort s p ∨ ¬ framesGo x then s
  else
    let pos := x.framePos + symbolsNow s p
    if pos < 4096 then onPort p (fun x => { x with framePos := pos }) s
    else
      let s := onPort p (fun x => { x with countdown := if x.countOn then x.countdown.map (· - 1) else x.countdown }) s
      if ¬ framesGo (getPort s p) then onPort p (fun x => { x with framePos := 4096, countOn := false }) s
      else
        forAll (portLanes s p) (sendFrame p) (onPort p (fun x => { x with
          framePos := if x.framePos = 4096 then 0 else pos - 4096, countOn := counting x }) s)

/-- One nanosecond of every lane. -/
def lanesNs (s : State) : State :=
  if regsLive s then forAll (s.net.ports.map (·.1)) trainNs (forAll (s.net.lanes.map (·.1)) laneNs s) else s

/-- The far end has counted down on every lane (R386, R389). -/
def farCounted (s : State) (p : Nat) : Bool := (portLanes s p).all (fun l => (getLane s l).farCount.any (fun n => decide (n ≤ 1)))

/-- A lane has been without frame lock for ten frames (R390). -/
def lockLost (s : State) (p : Nat) : Bool := (portLanes s p).any (fun l => decide (10 ≤ (getLane s l).noMarker))

/-- TRAINING_FRAME: a frame on a lane of the port, in one phase after the other (R385 to R389). -/
def doTrainingFrame (p l : Nat) (inverted : Bool) (control status : Word) (ready : Bool) (s : State) : State :=
  let x := getPort s p
  let phase := x.lstate
  let training := (phase == .detect && x.signal && x.retryAt.isNone) || phase == .switch || phase == .coeff || phase == .align
  let y := getLane s l
  if ¬ linksOn s ∨ ¬ isDrezhPort s p ∨ ¬ training ∨ ¬ (p ≤ l ∧ l < p + portWidth s p) then s
  -- a marker of the wrong polarity where detection is off is no marker
  else if ¬ bitAt y.ctl 24 ∧ inverted ≠ bitAt y.ctl 23 then onLane l (fun y => { y with markers := 0 }) s
  else
    let s := onLane l (laneFrame phase inverted control status ready) s
    match phase with
    | .detect => if allLocked s p ∧ x.countdown = none then agree p s else s
    | .switch => if allLocked s p then onPort p (fun x => { x with lstate := .coeff, phaseAt := s.tide.now }) s else s
    | .coeff =>
      if (portLanes s p).all (fun l => (getLane s l).rxReady && (getLane s l).farTrained) then
        onPort p (fun x => { x with lstate := .align, phaseAt := s.tide.now, countdown := some 16 }) s
      else s
    | _ => s

def execTrainingFrame (port lane : Nat) (inverted : Bool) (control status : Word) (ready : Bool) (s : State) : Host.Outcome State Fault Refusal :=
  .next (doTrainingFrame port lane inverted control status ready s)

/-- Pair 0 begins on every lane of a port with no flit in it (R336, R371). -/
def lanesAfresh (p : Nat) (s : State) : State :=
  precodersAfresh p (forAll (portLanes s p) (fun l => onLane l (fun y => { y with pairTx := [] })) s)

/-- Pair 0: the link layer starts afresh and the port enters KEYING (R358, R389). What the earlier link had not
acknowledged has gone back to its queues. -/
def enterKeying (p : Nat) (s : State) : State :=
  let s := backToQueues p (doPortDownCommit p s)
  let s := onPort p (fun x => { x with lstate := .keying, countdown := none, failed := 0, link := { rxPkts := x.link.rxPkts, goodAt := s.tide.now } }) s
  startExchange p (lanesAfresh p s)

/-- TRAINING_COUNTDOWN_END, once both ends have counted down: in DETECT the agreed rate takes over, in ALIGN pair 0 begins (R386,
R389). -/
def doCountdownEnd (p : Nat) (s : State) : State :=
  let x := getPort s p
  if ¬ linksOn s ∨ x.countdown ≠ some 0 ∨ ¬ farCounted s p then s
  else if x.lstate = .detect then
    let s := onPort p (fun x => { x with lstate := .switch, rate := x.agreed, phaseAt := s.tide.now, countdown := none }) s
    forAll (portLanes s p) (fun l => onLane l (fun y => { y with markers := 0, noMarker := 0, farCount := none })) s
  else if x.lstate = .align then enterKeying p s
  else s

def execTrainingCountdownEnd (port : Nat) (s : State) : Host.Outcome State Fault Refusal := .next (doCountdownEnd port s)

/-- The budget of COEFF at a rate, in ns (R386). -/
def coeffBudget (rate : Nat) : Nat := if rate = 0 then 1500000 else if rate = 1 then 1000000 else 600000

/-- TRAINING_PHASE_FAIL: a phase budget is overrun, or frame lock lost in COEFF or ALIGN; the rate is marked (R386, R390). -/
def doPhaseFail (p : Nat) (s : State) : State :=
  let x := getPort s p
  let late : Bool := match x.lstate with
    | .detect => x.signal && x.retryAt.isNone && due s (x.phaseAt + 100000)
    | .switch => due s (x.phaseAt + 20000)
    | .coeff => due s (x.phaseAt + coeffBudget x.rate) || lockLost s p
    | .align => due s (x.phaseAt + 10000) || lockLost s p
    | _ => false
  if ¬ linksOn s ∨ ¬ late then s
  else
    let failed := x.failed ||| rateBit x.rate
    if failed = 7 then failCycle p (onPort p (fun x => { x with failed := 7 }) s) else backToDetect p failed s

def execTrainingPhaseFail (port : Nat) (s : State) : Host.Outcome State Fault Refusal := .next (doPhaseFail port s)

/-- TRAINING_RETRY_PAUSE: after 1 ms FAILED is cleared and a new cycle starts (R390). -/
def doRetryPause (p : Nat) (s : State) : State :=
  match (getPort s p).retryAt with
  | none => s
  | some t => if linksOn s ∧ due s t then toDetect p s else s

def execTrainingRetryPause (port : Nat) (s : State) : Host.Outcome State Fault Refusal := .next (doRetryPause port s)

/-- LANE_LOCK_LOSS: loss of lock or signal on a lane. In training it ends training; in RUN, KEYING and Neap the link
layer declares the port down; in Low water it is no fault (R352, R373, R391, R395, R396). -/
def doLockLoss (l : Nat) (s : State) : State :=
  let p := portOfLane s l
  let st := (getPort s p).lstate
  if ¬ linksOn s ∨ 768 ≤ l then s
  else if isEthPort s p then (if st = .run then toDetect p (postPort p 1 1 s) else s)
  else if st = .switch ∨ st = .coeff ∨ st = .align ∨ st = .detect then toDetect p s
  else if st = .run ∨ st = .keying ∨ st = .neap then declareDown p 1 true s
  else s

def execLaneLockLoss (lane : Nat) (s : State) : Host.Outcome State Fault Refusal := .next (doLockLoss lane s)

/-! ## Neap and Low water (R392 to R396) -/

/-- The replay buffer is empty and nothing waits to be sent on the port (R394). -/
def portQuiet (s : State) (p : Nat) : Bool :=
  let x := getPort s p
  x.link.replay.isEmpty && x.link.tx.isEmpty && x.link.msgs.isEmpty && (List.range 64).all (fun q => (mgetD x.queues q []).isEmpty)

/-- NULL flits for the slots that the pair in progress still lacks on any lane (R345, R394). -/
def finishPair (p : Nat) : Nat → State → State
  | 0, s => s
  | n + 1, s =>
    let l := (getPort s p).link
    if (l.baseTx + l.slotTx) % (5 * portWidth s p) = 0 then s
    else
      let s := openSlot p s
      let x := getPort s p
      let l := x.link
      let h := mkFlitHdr 0 (if x.peer.runTx then l.keyTxNo % 2 else 0) l.nakvDue false ((l.nextFsn + 4095) % 4096) ((l.expect + 4095) % 4096) 0xFF l.issued
      let f := sealFlit l x.peer.runTx h (List.replicate 224 0)
      let lane := p + (l.baseTx + l.slotTx) % portWidth s p
      finishPair p n (onLink p (fun l => { l with slotTx := l.slotTx + 1, nakvDue := false }) (noteForced lane (laneSend p (l.baseTx + l.slotTx) f s)))

/-- The pair in progress is finished, then the line goes quiet (1 Neap, 3 3 0 0 repeated) or is squelched (2 Low water); an eye
scan ends (R392, R394, R402). -/
def goQuiet (p kind : Nat) (s : State) : State :=
  let s := endEyes p (finishPair p 20 s)
  let s := onPort p (fun x => { x with
    lstate := if kind = 1 then .neap else .lowWater, squelched := kind == 2, reqKind := 0,
    link := { x.link with msgs := [] } }) s
  forAll (portLanes s p) (fun l => onLane l (fun y => driveLine y (if kind = 1 then [3, 3, 0, 0] else []))) s

/-- A lane power message leaves in a LINKCTL flit (R361, R393). -/
def sendPower (p mtype tag code : Nat) (s : State) : State := sendLinkMsg p (linkMsg mtype (bytesLE 1 tag ++ bytesLE 1 code) []) s

/-- Ask the far end for Neap (1) or Low water (2), with a new tag (R393, R394). -/
def askPower (p kind tries : Nat) (s : State) : State :=
  let tag := ((getPort s p).reqTag + 1) % 256
  let s := onPort p (fun x => { x with reqKind := kind, reqTag := tag, reqTries := tries, reqAt := s.tide.now }) s
  sendPower p (if kind = 1 then 4 else 6) tag 0 s

/-- The port may take a quiet state: not the parent in use, and Low water not on a fabric port (R549). -/
def mayQuiet (s : State) (p kind : Nat) : Bool := parentPort s != some p && !(kind == 2 && isFabric s p)

/-- A request of the far end for Neap or Low water. One that crosses an own request is its acceptance; where the
two kinds cross, both ends enter Neap (R394). -/
def powerAsked (p tag kind : Nat) (s : State) : State :=
  let x := getPort s p
  if ¬ linkRuns s p ∨ x.lstate ≠ .run then s
  else if x.reqKind ≠ 0 then goQuiet p (min kind x.reqKind) s
  else if portQuiet s p && mayQuiet s p kind then goQuiet p kind (sendPower p (if kind = 1 then 5 else 7) tag 0 s)
  else sendPower p (if kind = 1 then 5 else 7) tag 1 s

/-- A reply that echoes the tag of the request waiting (R393, R394). -/
def powerReplied (p tag code kind : Nat) (s : State) : State :=
  let x := getPort s p
  if ¬ linkRuns s p ∨ x.reqKind ≠ kind ∨ x.reqTag ≠ tag ∨ 1 < code then s
  else if code = 0 then goQuiet p kind s
  else onPort p (fun x => { x with reqKind := 0 }) s

def execNeapEnter (port tag : Nat) (s : State) : Host.Outcome State Fault Refusal := .next (powerAsked port tag 1 (takeMsg port 4 s))
def execNeapReply (port tag code : Nat) (s : State) : Host.Outcome State Fault Refusal :=
  .next (powerReplied port tag code 1 (takeMsg port 5 s))
def execLowEnter (port tag : Nat) (s : State) : Host.Outcome State Fault Refusal := .next (powerAsked port tag 2 (takeMsg port 6 s))
def execLowReply (port tag code : Nat) (s : State) : Host.Outcome State Fault Refusal :=
  .next (powerReplied port tag code 2 (takeMsg port 7 s))

/-- LANE_POWER_REQUEST_RETRY: no reply for 2 µs; the request goes out again while nothing waits to be sent, and after three the
port stays in RUN (R394; log entry 54). -/
def doPowerRetry (p : Nat) (s : State) : State :=
  let x := getPort s p
  if ¬ linkRuns s p ∨ x.reqKind = 0 ∨ ¬ due s (x.reqAt + 2000) then s
  else if x.reqTries < 3 ∧ portQuiet s p then askPower p x.reqKind (x.reqTries + 1) s
  else onPort p (fun x => { x with reqKind := 0 }) s

def execLanePowerRequestRetry (port : Nat) (s : State) : Host.Outcome State Fault Refusal := .next (doPowerRetry port s)

/-- NEAP_WAKE: the port carries codeword pairs again, its numbers as before; a request that waits for its reply
counts as refused (R394, R395). -/
def doNeapWake (p : Nat) (s : State) : State :=
  let x := getPort s p
  if ¬ linksOn s then s
  else if x.lstate = .neap then
    precodersAfresh p (onPort p (fun x => { x with lstate := .run, link := { x.link with goodAt := s.tide.now } }) s)
  else if x.lstate = .run then onPort p (fun x => { x with reqKind := 0 }) s
  else s

def execNeapWake (port : Nat) (s : State) : Host.Outcome State Fault Refusal := .next (doNeapWake port s)

/-- LOW_WATER_WAKE: the port trains at 56 Gb/s and keys again (R396). -/
def doLowWake (p : Nat) (s : State) : State :=
  if linksOn s ∧ (getPort s p).lstate = .lowWater then toDetect p s else s

def execLowWaterWake (port : Nat) (s : State) : Host.Outcome State Fault Refusal := .next (doLowWake port s)

end Sys2Proof.Machine
end

