-- ==== Sys2Proof/Machine/Faults.lean ====
section
/-! DEFINITION. Faults and recovery (R24 to R31, R305, R474 to R502, R539, R604): what a detection does at its unit,
cell spares and retired arrays, forced detections, CLIFF_NOTICE, and the watchdogs of the management die. -/

namespace Sys2Proof.Machine

/-! ## Cells and arrays (R25 to R28) -/

/-- The spares of an array that hold a logical cell. -/
def sparesUsed (s : State) (d u : Nat) : List Nat :=
  (s.part.cellMap.filter (fun e => e.1 == d && e.2.1 == u)).map (fun e => e.2.2.2)

/-- The logical cell that a physical cell serves: its own number until a spare takes it over (R25). -/
def logicalOf (s : State) (d u phys : Nat) : Option Nat :=
  if s.part.badCells.contains (d, u, phys) then none
  else if phys < 512 then some phys
  else (s.part.cellMap.find? (fun e => e.1 == d && e.2.1 == u && e.2.2.2 == phys)).map (fun e => e.2.2.1)

/-- The lowest-numbered unused spare of an array (R25). -/
def nextSpare (s : State) (d u : Nat) : Option Nat :=
  (List.range 16).map (· + 512) |>.find? (fun k => !(sparesUsed s d u).contains k && !s.part.badCells.contains (d, u, k))

/-- An array of either kind is enabled. -/
def arrayEnabled (s : State) (d u : Nat) : Bool := if u < 8 then maEnabled s d u else paEnabled s d (u - 8)

/-- An array retires: the groups and tables assigned to it fail with NO_RESOURCE (R27, R76, R184). -/
def retireArray (d u : Nat) (s : State) : State :=
  if ¬ arrayEnabled s d u then s
  else
    let s := onPart (fun p => { p with retired := p.retired ++ [(d, u)] }) s
    if u < 8 then
      forAll ((s.groups.filter (fun e => e.2.frag.arrays.contains (d, u))).map (·.1)) (fun g => failGroup g 0x20) s
    else
      let dead (t : Table) : Bool := t.info.die == d && (bitsOf 4 t.info.paMask).contains (u - 8)
        && (bitsOf 4 t.info.paMask).all (fun r => !paEnabled s d r)
      forAll ((s.emb.tables.filter (fun e => dead e.2)).map (·.1)) (fun t => failTable t stNORES) s

/-- Write a repair to the MRAM log, which holds 1,240 entries; a full log keeps it until the power cycle (R25, R507). -/
def logRepair (d u phys : Nat) (s : State) : State :=
  if s.part.repairLog.length + s.part.repairBufs.length < 1240 then
    onPart (fun p => { p with repairLog := p.repairLog ++ [(d, u, phys)] }) s
  else postDev 0x3C (bytesLE 1 d) (onPart (fun p => { p with repairWaiting := p.repairWaiting ++ [(d, u, phys)] }) s)

/-- Work in progress on an array has been computed again from its retained inputs (R25, R485): its chunks seal, and its
tables answer, with RECOVERED. -/
def markWork (d u : Nat) (s : State) : State :=
  if u < 8 then
    { s with groups := s.groups.map (fun e => (e.1, { e.2 with chunks := e.2.chunks.map (fun k =>
        if arrayOf e.2 k.chunk = (d, u) ∧ ¬ k.combined ∧ ¬ k.inputs.isEmpty then { k with recovered := true } else k) })) }
  else onEmb (fun m => { m with tables := m.tables.map (fun e =>
    if e.2.info.die = d ∧ (bitsOf 4 e.2.info.paMask).contains (u - 8) then (e.1, { e.2 with touched := e.2.touched ++ [(u - 8, s.tide.now)] }) else e) }) s

/-- A cell fails: a spare takes over its logical cell, or the array retires (R25, R27). A forced detection writes no
repair log (R502). -/
def failCell (d u phys : Nat) (forced : Bool) (tide : Nat) (s : State) : State :=
  if ¬ arrayEnabled s d u ∨ 528 ≤ phys ∨ s.part.badCells.contains (d, u, phys) then s
  else
    let logical := logicalOf s d u phys
    let s := onPart (fun p => { p with
      badCells := p.badCells ++ [(d, u, phys)],
      cellMap := p.cellMap.filter (fun e => !(e.1 == d && e.2.1 == u && e.2.2.2 == phys)) }) s
    let s := onlyIf (!forced) (logRepair d u phys) s
    match logical with
    | none => s
    | some l => match nextSpare s d u with
      | some k =>
        let s := onPart (fun p => { p with cellMap := p.cellMap ++ [(d, u, l, k)] }) s
        markWork d u s
      | none => collect ⟨0x20, mkLoc d u 0, 12 * d + u, tide, forced, 0, true⟩ (retireArray d u s)

/-! ## Recovery at the unit, by source (R478, R484 to R490) -/

/-- Change the lowest chunk of a group, in its own order, that meets a condition. -/
def firstChunk (gid : Nat) (f : Chunk → Bool) (s : State) : Option (Group × Chunk) :=
  match getGroup s gid with
  | none => none
  | some g => (g.chunks.find? f).map (fun k => (g, k))

/-- Take a stored packet out of every place where it waits: ingress accounts, queues, the resequencer, the engines. What is
on a link already ends in a bad flit, and the far end discards it (R126, R283). -/
def pullStored (d b : Nat) (s : State) : State :=
  let e := (d, b)
  let s := onNet (fun n => { n with
    ports := n.ports.map (fun p => (p.1, { p.2 with
      ingress := p.2.ingress.map (fun q => (q.1, q.2.erase e)), queues := p.2.queues.map (fun q => (q.1, q.2.erase e)),
      link := { p.2.link with tx := p.2.link.tx.map (fun t => if (t.die, t.buf) = e ∧ t.lastFsn = none then { t with badp := true } else t) } })),
    ethOut := n.ethOut.filter (fun q => q.2 != e), ethWait := n.ethWait.filter (fun q => q.2 != e) }) s
  let s := onRoute (fun r => { r with reentry := r.reentry.erase e, toEngine := r.toEngine.filter (fun q => q.2.2 != e) }) s
  onShoal (fun h => { h with flows := h.flows.map (fun f => (f.1, { f.2 with held := f.2.held.filter (fun x => x.2.2.2 != e), late := f.2.late.filter (fun x => x.2.2.2 != e) })) }) s

/-- Hold back every packet of a RESULT piece that this Q7 has not sent whole (R126 step 1). -/
def holdPiece (gid : Nat) (k : Chunk) (j : Nat) (s : State) : State :=
  let hit (q : Packet) : Bool := q.ptype != 0 && q.ovc == vcCDN && q.src == selfEpid s && scGroup q.sub == gid && scEpoch q.sub == k.epoch
    && scCall q.sub == k.call && scChunk q.sub == k.chunk && scPiece q.sub == j
  let s := onRoute (fun r => { r with outbox := r.outbox.filter (fun q => !hit q) }) s
  forAll (s.shoal.stored.filter (fun x => hit x.pkt)) (fun x s =>
    let b := x.bufs.headD 0xFFFFF
    let linked := s.net.ports.any (fun p => p.2.link.tx.any (fun t => t.die == x.die && t.buf == b))
    if linked then pullStored x.die b s else releaseStored x.die b (pullStored x.die b s)) s

/-- RESULT piece parity: the holder sends none of the piece on, sends NAK for the delivery toward the root and no RACK; the
root revokes at once (R126, R127). -/
def badPiece (gid : Nat) (g : Group) (k : Chunk) (j : Nat) (s : State) : State :=
  let s := holdPiece gid k j s
  if g.frag.isRoot then regrant gid (rootNak g k s)
  else
    let s := onChunk gid k.epoch k.call k.chunk (fun k => { k with nakSent := true }) s
    sendChunk vcCTRL (farEpid s g.frag.parent) k.job noRank 0x4D gid k.epoch k.call k.chunk (lowWord 0 false false k.deliv true) s

/-- A record of RESULT piece parity names group and piece: the first held result that is not RACKed is meant (R126). -/
def badResult (gid j : Nat) (s : State) : State :=
  match firstChunk gid (fun k => !k.result.isEmpty && !k.sealed && !k.rackSent) s with
  | none => s
  | some (g, k) => badPiece gid g k j s

/-- A held member contribution is lost: the member's bit is cleared, the contribution freed, and the member asked for it
again (R487). -/
def loseInput (gid : Nat) (k : Chunk) (x : Input) (s : State) : State :=
  let s := onChunk gid k.epoch k.call k.chunk (fun k => { k with
    inputs := k.inputs.filter (fun y => !(y.src == x.src)), seen := k.seen.erase x.src, recovered := true }) s
  let s := letGo x.bufs s
  sendChunk vcCTRL (farEpid s x.port) k.job noRank 0x4D gid k.epoch k.call k.chunk (lowWord 0 false false 0 false) s

/-- Parity of a held member contribution (R487). -/
def badInput (gid : Nat) (s : State) : State :=
  match firstChunk gid (fun k => !k.combined && !k.sealed && k.inputs.any isMember) s with
  | none => s
  | some (_, k) => match k.inputs.find? isMember with
    | none => s
    | some x => loseInput gid k x s

/-- Retained collective data is lost with a stored packet: a member's contribution that is not yet combined is asked for
again, the pieces of a child's partial that has not all come are dropped and come again, a copy of a result is as RESULT
parity, and anything else is source 0x22, a Storm on the group (R129, R131, R283, R487). -/
def loseRetained (gid : Nat) (e : Nat × Nat) (s : State) : State :=
  match firstChunk gid (fun k => (chunkBufs k).contains e) s with
  | none => s
  | some (g, k) =>
    match k.inputs.find? (fun x => x.bufs.contains e && isMember x && !k.combined && k.deliv == 0), k.taking.find? (fun t => t.bufs.contains e) with
    | some x, _ => loseInput gid k x s
    | none, some t =>
      letGo t.bufs (onChunk gid k.epoch k.call k.chunk (fun k => { k with
        taking := k.taking.filterMap (fun x => if x.port = t.port then cutTaking x else some x) }) s)
    | none, none =>
      if k.resultBufs.contains e then badPiece gid g k (((storedAt s e.1 e.2).map (fun x => scPiece x.pkt.sub)).getD 0) s
      else
        let a := arrayOf g k.chunk
        detect 0x22 (mkLoc a.1 a.2 0) gid (failGroup gid 0x22 s)

/-- The pieces of an embedding stream, or of a bag that waits, that one packet's loss takes with it (R267, R283). -/
def loseStream (e : Nat × Nat) (s : State) : State :=
  let hit (x : Stream) : Bool := x.bufs.contains e
  let waits := s.emb.tables.flatMap (fun t => (t.2.waiting.filter (fun w => hit w.stream)).map (·.stream))
  let gone := (s.emb.streams.filter hit ++ waits).flatMap (·.bufs)
  freeAll (gone.filter (· != e)) (onEmb (fun m => { m with
    streams := m.streams.filter (fun x => !hit x),
    tables := m.tables.map (fun t => (t.1, { t.2 with waiting := t.2.waiting.filter (fun w => !hit w.stream) })) }) s)

/-- The groups whose chunks retain a stored packet. -/
def retainersOf (s : State) (e : Nat × Nat) : List Nat :=
  (s.groups.filter (fun x => x.2.chunks.any (fun k => (chunkBufs k).contains e))).map (·.1)

/-- Retained data that failed its parity as it was read in this instant has the recovery of R129, R283 and R487. -/
def settleBad (s : State) : State :=
  forAll s.shoal.badHeld (fun e s => loseStream e (forAll (retainersOf s e) (fun g => loseRetained g e) s))
    (onShoal (fun h => { h with badHeld := [] }) s)

/-- Discard a stored packet wherever it waits; with `keep` its buffers stay in use and unowned (R283, source 0x1A).
Retained collective data has the recovery of R129 and R487. -/
def discardStored (d b : Nat) (keep : Bool) (s : State) : State :=
  match storedAt s d b with
  | none => s
  | some _ =>
    let e := (d, b)
    let s := loseStream e (forAll (retainersOf s e) (fun g => loseRetained g e) (pullStored d b s))
    if keep then onShoal (fun h => { h with stored := h.stored.filter (fun y => !(y.die == d && y.bufs.headD 0xFFFFF == b)) }) s
    else freeStored d b s

/-- Owned buffers of a quarter that the bitmap holds as free are taken out of it (R307). -/
def clearConflicts (d q : Nat) (s : State) : State :=
  let conf := (conflicts s d).filter (fun b => decide (b / 163840 = q))
  onSlice d (fun sl => { sl with used := conf.foldl (fun m b => mput m b ⟨0xFFFFF, false, false⟩) sl.used }) s

/-- A flow entry is freed and what it holds discarded (source 0x19). -/
def dropFlow (d entry : Nat) (s : State) : State :=
  let mine (f : Nat × Flow) : Bool := f.1 == d && f.2.entry == entry
  let held := (s.shoal.flows.filter mine).flatMap (fun f => (f.2.held ++ f.2.late).map (fun x => x.2.2.2))
  forAll held (fun e => releaseStored e.1 e.2) (onShoal (fun h => { h with flows := h.flows.filter (fun f => !mine f) }) s)

/-- The enabled arrays of a region: its two merge arrays and its pool array (R24). -/
def regionArrays (s : State) (r : Nat) : List (Nat × Nat) :=
  let d := r / 4
  let k := r % 4
  [(d, 2 * k), (d, 2 * k + 1), (d, 8 + k)].filter (fun a => arrayEnabled s a.1 a.2)

/-- A region stall: the gate closes and opens and the work computes again; a second stall within 1 s is source 0x20 for
the region's arrays (R482, R484). -/
def stallRegion (r : Nat) (forced : Bool) (tide : Nat) (s : State) : State :=
  let again := match mget s.flt.stalls r with
    | some t => decide (s.tide.now < t + 1000000000)
    | none => false
  let s := onFlt (fun f => { f with stalls := mput f.stalls r s.tide.now }) s
  if again then
    forAll (regionArrays s r) (fun a t => collect ⟨0x20, mkLoc a.1 a.2 0, 12 * a.1 + a.2, tide, forced, 0, true⟩ (retireArray a.1 a.2 t)) s
  else
    let s := forAll (regionArrays s r) (fun a => markWork a.1 a.2) s
    onPwr (fun p => { p with rgns := modAt p.rgns r (fun x =>
      if x.gated then x else { x with gated := true, gatedAt := s.tide.now, opening := true }) }) s

/-- The data an uncorrectable HBM3 error strikes on the stack's core die: a table (kind 0), an exported region (1), or a
group whose accumulators or extent tables hold the address (2) (R24, R184, R194). -/
def hbmError (d kind obj : Nat) (s : State) : State :=
  match kind with
  | 0 => if ((getTable s obj).map (fun t => t.info.die == d)).getD false then failTable obj stPOISONED s else s
  | 1 => onMem (fun m => { m with regions := mmod m.regions obj (fun r => { r with poisoned := r.poisoned || r.die == d }) }) s
  | _ => failGroup obj 0x21 s

/-- Ports of a lane die are taken down and held DOWN (source 0x24). -/
def dieDown (k : Nat) (s : State) : State :=
  let s := onFlt (fun f => { f with deadDies := addNew f.deadDies k }) s
  let s := forAll ((List.range 64).map (fun i => 64 * k + i)) (fun p t =>
    if isDrezhPort t p = true ∧ (getPort t p).lstate ≠ .down then
      toDetect p (takeDown p 1 false (fun _ => id) t)
    else t) s
  onNet (fun n => { n with ports := n.ports.map (fun e =>
    if e.1 / 64 = k ∧ e.2.lstate = .run then (e.1, { e.2 with lstate := .down, squelched := true }) else e) }) s

/-- Take a port down without a record of its own (R134, R135). -/
def quietDown (p : Nat) (s : State) : State := takeDown p 1 true (fun _ => id) s

/-- The table of the embedding engine's work slot on a die: the one whose stream, waiting bag or sub-bag has a piece there
(R303, log entry 101). -/
def slotTable (s : State) (d slot : Nat) : Option Nat :=
  let hit (x : Stream) : Bool := x.bufs.any (fun e => e.1 == d && e.2 % 2 ^ 20 == slot)
  ((s.emb.streams ++ s.emb.tables.flatMap (fun t => t.2.waiting.map (·.stream)) ++ s.emb.shardBags.map (·.stream)).find? hit).map
    (fun x => emTable x.sub)

/-- The exported region of the memory engine's work slot on a die: the one that the request stored there is for (R303, log
entry 101). -/
def slotRegion (s : State) (d slot : Nat) : Option Nat :=
  ((s.shoal.stored.find? (fun x => x.die == d && x.bufs.headD 0xFFFFF % 2 ^ 20 == slot && x.pkt.ptype != 0 && x.pkt.ovc == vcREQ)).bind
    (fun x => s.mem.regions.find? (fun r => decide (r.2.offset ≤ fld x.pkt.sub 109 64 ∧ fld x.pkt.sub 109 64 < r.2.offset + r.2.size)))).map (·.1)

/-- The unit a bad release on a die falls on, by the KIND of the owner ID (R305). -/
def badRelease (d owner : Nat) (s : State) : State :=
  let kind := owner / 2 ^ 21
  let who := owner % 2 ^ 21
  if kind = 0 ∨ kind = 2 then quietDown (who % 1024) s
  else if kind = 1 then quietDown (who / 64 % 1024) s
  else if kind = 3 then
    (match (s.shoal.flows.find? (fun f => f.1 == who / 65536 % 4 && f.2.entry == who % 65536)).map (fun f => lookupDest s f.2.dst) with
     | some (.lport p) => quietDown p s
     | _ => s)
  else if kind = 4 then
    forAll ((s.groups.filter (fun e => e.2.entry == who / 64)).map (·.1)) (fun g => failGroup g 0x22) s
  else if kind = 5 then
    (match slotTable s d (who % 2 ^ 20) with
     | some t => failTable t stPOISONED s
     | none => s)
  else if kind = 6 then
    (match slotRegion s d (who % 2 ^ 20) with
     | some r => onMem (fun m => { m with regions := mmod m.regions r (fun x => { x with poisoned := true }) }) s
     | none => s)
  else s

/-- A bridge flit has failed its CRC and is sent again; eight failed retries of one flit are a bridge fault (R482, R484). -/
def bridgeFailed (f : FaultRec) (s : State) : State :=
  let same (e : Word × Nat × Nat) : Bool := e.1 == f.loc && e.2.1 == f.site
  let n := ((s.flt.bridges.find? same).map (·.2.2)).getD 0 + 1
  onFlt (fun t => { t with bridges := t.bridges.filter (fun e => e.1 != f.loc) ++ (if n < 9 then [(f.loc, f.site, n)] else []) }) s

/-- This failure is the eighth of a retry of the flit. -/
def bridgeDead (f : FaultRec) (s : State) : Bool := s.flt.bridges.any (fun e => e.1 == f.loc && e.2.1 == f.site && e.2.2 == 8)

/-- An error of a PCIe link is reported under AER (R404, R484, R490). -/
def reportAer (link : Nat) (uncorrectable : Bool) : State → State := onHost (fun h => { h with aer := h.aer ++ [(link, uncorrectable)] })

/-- The write of the repair log that failed three times: the change it was to record is kept until the power cycle (R484). -/
def keepRepair (s : State) : State :=
  match s.part.repairLog.getLast? with
  | some r => onPart (fun p => { p with repairLog := p.repairLog.dropLast, repairWaiting := p.repairWaiting ++ [r] }) s
  | none => s

/-- What a detection does at its unit. A Ripple is corrected and only counts, but for a Rockpool line (R166). -/
def unitAction (f : FaultRec) (s : State) : State :=
  let d := locDie f.loc
  let u := locUnit f.loc
  match f.source with
  | 0x04 => bridgeFailed f s
  | 0x06 => onEmb (fun e => { e with
      rockpool := e.rockpool.filter (fun x => !(x.1 == d && x.2.table == f.object && x.2.row == f.site)) }) s
  | 0x09 => reportAer (u % 2) false s
  | 0x10 => failCell d u (locSub f.loc) f.forced f.tide s
  | 0x11 => failCell d u (locSub f.loc) f.forced f.tide s
  | 0x12 => discardStored d f.object false s
  | 0x13 => badResult f.object f.site s
  | 0x14 => badInput f.object s
  | 0x15 => onGroup f.object (fun g => { g with chunks := g.chunks.map (fun k =>
      if arrayOf g k.chunk = (d, u) ∧ !k.inputs.isEmpty && !k.sealed then { k with recovered := true } else k) }) s
  | 0x16 => onTable f.object (fun t => { t with touched := t.touched ++ [(4, s.tide.now)] }) s
  | 0x17 => rebuildQuarter d u s
  | 0x18 => clearConflicts d u s
  | 0x19 => dropFlow d f.object s
  | 0x1A => discardStored d f.object true s
  | 0x1B => stallRegion (4 * d + u) f.forced f.tide s
  | 0x1C => quietDown f.object s
  | 0x20 => retireArray d u s
  | 0x21 => hbmError ((d - 17) / 2) f.site f.object s
  | 0x22 => failGroup f.object 0x22 s
  | 0x23 => quietDown f.object s
  | 0x24 => if 4 ≤ d ∧ d < 16 then dieDown (d - 4) s else s
  | 0x25 => badRelease d f.object s
  | 0x26 => if (getRing s f.object).state = .active then
        relines (forAll (boundActive f.object s) (fun b => ringError1 b 4) (stopRing f.object 2 s)) else s
  | 0x27 => doFlr (32 * (u % 2)) 0 (reportAer (u % 2) true s)
  | 0x29 => forAll (regionArrays s (4 * d + u)) (fun a => retireArray a.1 a.2) s
  | 0x2A => onlyIf (!f.forced) keepRepair s
  | _ => s

/-- A detection in the data path that a stop has frozen, a Swell or a Rockpool line, is recovered after the resume (R481). -/
def deferredSource (src : Nat) : Bool := src == 0x06 || (decide (0x10 ≤ src) && decide (src ≤ 0x1B))

/-- A detection: the unit acts first, then the collector takes the record (R478, R480); one whose bytes fail their parity on
the fault network is source 0x34 instead (R479). Nothing is processed in CLIFF or RESET. -/
def takeFault (f : FaultRec) (s : State) : State :=
  if ¬ regsLive s then s
  else
    let dead := f.source = 0x04 ∧ bridgeDead f s
    let s := if s.stop.frozen && deferredSource f.source then onFlt (fun t => { t with deferred := t.deferred ++ [f] }) s
      else unitAction f s
    if ¬ f.good then collect ⟨0x34, mkLoc 16 0 0, 0, f.tide, false, 0, true⟩ s
    else
      let s := collect f s
      if dead then collect ⟨0x31, f.loc, f.object, f.tide, f.forced, 0, true⟩ s else s

/-- Recoveries that waited for the resume run (R481). -/
def runDeferred (s : State) : State :=
  let l := s.flt.deferred
  forAll l unitAction (onFlt (fun t => { t with deferred := [] }) s)

/-- FAULT_RECORD. -/
def execFaultRecord (f : FaultRec) (s : State) : Host.Outcome State Fault Refusal := .next (takeFault f s)

/-- The record of a stored packet that an ID names: the packet's own, or that of a copy in its buffers (R304). -/
def namedBy (s : State) (d b owner : Nat) : Option Nat :=
  if ((storedAt s d b).map (fun x => x.owners.contains owner)).getD false then some b
  else ((copiesOf s d b).find? (fun x => x.owners.contains owner)).map (fun x => x.bufs.headD 0xFFFFF)

/-- OWNER_RELEASE: a release by an ID the list does not name is refused (R305). -/
def doOwnerRelease (d b owner : Nat) (s : State) : State :=
  if ¬ regsLive s then s
  else if let some c := namedBy s d b owner then dropOwner d c owner s
  else takeFault ⟨0x25, mkLoc d (b / 163840) 0, owner, s.tide.now, false, 0, true⟩ s

def execOwnerRelease (die buffer owner : Nat) (s : State) : Host.Outcome State Fault Refusal := .next (doOwnerRelease die buffer owner s)

/-- REGION_STALL. -/
def execRegionStall (region : Nat) (s : State) : Host.Outcome State Fault Refusal :=
  .next (takeFault ⟨0x1B, mkLoc (region / 4) (region % 4) 0, region, s.tide.now, false, 0, true⟩ s)

/-! ## Forced detections (R500 to R502) -/

/-- Sources that are conditions: forced, they are reported at once (R501). -/
def isCondition (src : Nat) : Bool :=
  [0x1B, 0x1C, 0x20, 0x23, 0x24, 0x27, 0x29, 0x2A].contains src || (decide (0x31 ≤ src) && decide (src ≤ 0x37))

/-- A location names a unit of the source (R499, R501). -/
def namesUnit (s : State) (src : Nat) (w : Word) : Bool :=
  let d := locDie w
  let u := locUnit w
  let sub := locSub w
  let onDie := decide (4 ≤ d) && decide (d ≤ 15) && decide (u / 64 = d - 4)
  if src = 0x26 then decide (d = 16) && decide (u * 1024 + sub < 8192)
  else if src = 0x10 then decide (d < 4) && decide (u < 8) && arrayEnabled s d u && decide (sub < 528)
  else if src = 0x11 then decide (d < 4) && decide (8 ≤ u) && decide (u < 12) && arrayEnabled s d u && decide (sub < 528)
  else if sub ≠ 0 then false
  else if src = 0x01 ∨ src = 0x02 ∨ src = 0x03 ∨ src = 0x24 then onDie
  else if src = 0x1C then onDie && isFabric s u
  else if src = 0x23 then onDie && isDrezhPort s u && (isAttach s u || isFabric s u)
  else if src = 0x05 ∨ src = 0x21 then decide (17 ≤ d) && decide (d ≤ 24)
  else if src = 0x27 then decide (d = 16) && decide (u < if s.dev.bifur then 2 else 1)
  else if src = 0x09 ∨ src = 0x28 ∨ (0x32 ≤ src ∧ src ≤ 0x35) then decide (d = 16)
  else if src = 0x2A ∨ src = 0x36 ∨ src = 0x37 ∨ src = 0x25 then decide (d ≤ 24)
  else if 4 ≤ d then false
  else if src = 0x04 ∨ src = 0x31 then decide (u < 4) && decide (u ≠ d)
  else if src = 0x20 then decide (u < 12) && arrayEnabled s d u
  else if src = 0x15 then decide (u < 8) && arrayEnabled s d u
  else if src = 0x16 then decide (8 ≤ u) && decide (u < 12) && arrayEnabled s d u
  else if src = 0x12 ∨ src = 0x17 ∨ src = 0x18 ∨ src = 0x1A ∨ src = 0x1B ∨ src = 0x29 then decide (u < 4)
  else true

/-- The object of a condition's record: the port, the array's or the region's number. -/
def conditionObject (src : Nat) (w : Word) : Nat :=
  if src = 0x1C ∨ src = 0x23 then locUnit w
  else if src = 0x20 then 12 * locDie w + locUnit w
  else if src = 0x1B ∨ src = 0x29 then 4 * locDie w + locUnit w
  else 0

/-- Arm one source, or make its detection at once where it is a condition. -/
def armForce (src : Nat) (s : State) : State :=
  let w := s.flt.forceLoc
  if (classOf src).isNone ∨ ¬ s.flt.injEn ∨ (0x30 ≤ src ∧ ¬ s.flt.cliffEn) ∨ ¬ namesUnit s src w then s
  else if isCondition src then takeFault ⟨src, w, conditionObject src w, s.tide.now, true, 0, true⟩ s
  else onFlt (fun f => { f with armed := mput f.armed src w }) s

/-- The order in which the collector takes records of one instant: Cliff, Storm, Swell, Ripple (R481). -/
def classRank (src : Nat) : Nat := if 0x30 ≤ src then 0 else if 0x20 ≤ src then 1 else if 0x10 ≤ src then 2 else 3

/-- FLT_FORCE_SET: of the detections made at once, in the order of R481. -/
def doForceSet (k : Nat) (v : Word) (s : State) : State :=
  forAll (sortBy classRank ((bitsOf 32 v.toNat).map (32 * k + ·))) armForce s

def execFltForceSet (k : Nat) (v : Word) (s : State) : Host.Outcome State Fault Refusal := .next (byHost (doForceSet k v) s)

/-- A lane source that is cancelled corrupts nothing any more (R501). -/
def cancelForced (e : Nat × Word) (s : State) : State :=
  if (getLane s (locUnit e.2)).injForce = some e then
    onLane (locUnit e.2) (fun y => { y with injForce := none, injFlit := false, injSym := none }) s
  else s

/-- FLT_FORCE_CLR. -/
def doForceClr (k : Nat) (v : Word) (s : State) : State :=
  let hit (e : Nat × Word) : Bool := e.1 / 32 == k && bitAt v (e.1 % 32)
  let s := forAll (s.flt.armed.filter hit) cancelForced s
  onFlt (fun f => { f with
    armed := f.armed.filter (fun e => !hit e), cleared := f.cleared.filter (fun e => e.2.2 == s.tide.now) ++ (f.armed.filter hit).map (fun e => (e.1, e.2, s.tide.now)) }) s

def execFltForceClr (k : Nat) (v : Word) (s : State) : Host.Outcome State Fault Refusal := .next (byHost (doForceClr k v) s)

/-- FORCED_DETECTION: the access that an armed source waits for takes place on an object; a clear of the same instant does
not stop it (R501). A lane source goes out on a lane whose port is in RUN, with its next codeword or flit, and makes no record
here. -/
def doForced (src : Nat) (x : Struck) (s : State) : State :=
  let justCleared := (s.flt.cleared.find? (fun e => e.1 == src && e.2.2 == s.tide.now)).map (·.2.1)
  match (mget s.flt.armed src).orElse (fun _ => justCleared) with
  | none => s
  | some w =>
    if ¬ regsLive s then s
    else if src ≤ 0x03 then
      if laneState s (locUnit w) ≠ .run then s
      else
        let s := onFlt (fun f => { f with cleared := f.cleared.filter (fun e => e.1 != src) }) s
        onLane (locUnit w) (fun l => { l with
          injForce := some (src, w), injFlit := l.injFlit || src == 3,
          injSym := if src = 3 then l.injSym else some (false, if src = 1 then 1 else 16) }) s
    else
      takeFault ⟨src, w, if src = 0x26 then fld w 19 7 else x.object, s.tide.now, true, x.site, true⟩
        (onFlt (fun f => { f with armed := mdel f.armed src, cleared := f.cleared.filter (fun e => e.1 != src) }) s)

def execForcedDetection (source : Nat) (object : Struck) (s : State) : Host.Outcome State Fault Refusal := .next (doForced source object s)

/-! ## CLIFF_NOTICE (R493, R498) -/

/-- CLIFF_NOTICE on a fabric port: the port goes down at once and stays DOWN. -/
def doCliffNotice (port : Nat) (p : Packet) (s : State) : State :=
  let s := takeDelivered port p s
  if p.ptype ≠ 0 ∨ p.ctype ≠ 0x30 ∨ ¬ isFabric s port ∨ ¬ linkUp s port then s
  else declareDown port 1 false (onPort port (fun x => { x with cliffHold := some s.tide.now }) s)

def execCliffNotice (port : Nat) (p : Packet) (s : State) : Host.Outcome State Fault Refusal := .next (whenLive (doCliffNotice port p) s)

/-- CLIFF_NOTICE_HOLD_END: the far end's transmitters have been squelched for 1 ms. -/
def doHoldEnd (port : Nat) (s : State) : State :=
  match (getPort s port).cliffHold with
  | none => s
  | some t => if due s (t + 1000000) then startPort port (onPort port (fun x => { x with cliffHold := none }) s) else s

def execCliffNoticeHoldEnd (port : Nat) (s : State) : Host.Outcome State Fault Refusal := .next (whenLive (doHoldEnd port) s)

/-! ## The management die -/

/-- LAST_CLIFF_CLEAR: the Cliff registers clear and the MRAM record is erased (R492). -/
def doLastCliffClear (s : State) : State :=
  if s.flt.lastCliff ∧ s.flt.lastCliffAt ≠ some s.tide.now then
    onFlt (fun f => { f with lastCliff := false, cliffSrc := 0, cliffLoc := 0, cliffTide := 0, mramCliff := none }) s
  else s

def execLastCliffClear (s : State) : Host.Outcome State Fault Refusal := .next (byHost doLastCliffClear s)

/-- CHECKER_SELF_TEST: a wrong answer is source 0x32 (R497). -/
def execCheckerSelfTest (ok : Bool) (s : State) : Host.Outcome State Fault Refusal :=
  .next (if ok then s else takeFault ⟨0x32, mkLoc 16 0 0, 0, s.tide.now, false, 0, true⟩ s)

/-- WATCHDOG_EXPIRY: armed at the end of BOOT, not refreshed for 10 ms (R484). -/
def execWatchdogExpiry (s : State) : Host.Outcome State Fault Refusal :=
  .next (if s.flt.wdArmed && due s (s.flt.wdAt + 10000000) then takeFault ⟨0x33, mkLoc 16 0 0, 0, s.tide.now, false, 0, true⟩ s else s)

/-- WATCHDOG_REFRESH. -/
def execWatchdogRefresh (s : State) : Host.Outcome State Fault Refusal :=
  .next (if regsLive s then onFlt (fun f => { f with wdAt := s.tide.now }) s else s)

/-! ## Rails, clocks and the host link (R484, R539, R602, R604) -/

/-- The die a rail number feeds: 0-3 VDD_CD, 4-15 VDD_LD, 16-27 VDDA_LD, 28-39 VDDH_LD, 42-44 the HBM3 rails, else
the MD (R539). -/
def railDie (r : Nat) : Nat :=
  if r < 4 then r else if r < 40 then 4 + (r - 4) % 12 else if 42 ≤ r ∧ r ≤ 44 then 17 else 16

/-- RAIL_FAULT: a rail has been outside its range for 1 µs; no fault in RESET (R539, R602). -/
def doRailFault (r : Nat) (s : State) : State :=
  let s := onDev (fun d => { d with railsOut := addNew d.railsOut r }) s
  takeFault ⟨0x36, mkLoc (railDie r) 0 0, 0, s.tide.now, false, 0, true⟩ s

def execRailFault (rail : Nat) (s : State) : Host.Outcome State Fault Refusal := .next (doRailFault rail s)

/-- What the loss of the clock of a core die's HBM3 PHYs strikes: the tables and the groups with data there (log entry
29). Exported regions answer POISONED at their next access. -/
def stacksLost (d : Nat) (s : State) : State :=
  let rec1 (obj : Nat) : FaultRec := ⟨0x21, mkLoc (17 + 2 * d) 0 0, obj, s.tide.now, false, 0, true⟩
  let tabs := (s.emb.tables.filter (fun e => e.2.info.die == d)).map (·.1)
  let grps := (s.groups.filter (fun e => (e.2.frag.accHome == 1 && (dieSum e.2.stagingRes d + dieSum e.2.accRes d != 0))
    || (extentDie e.2 == d && !e.2.extents.isEmpty))).map (·.1)
  let s := forAll tabs (fun t s => collect (rec1 t) (failTable t stPOISONED s)) s
  forAll grps (fun g s => collect (rec1 g) (failGroup g 0x21 s)) s

/-- CLOCK_LOSS by the clock's number (R604). -/
def doClockLoss (c : Nat) (s : State) : State :=
  let s := onDev (fun d => { d with clocksAbsent := addNew d.clocksAbsent c }) s
  if ¬ regsLive s then s
  else if c < 12 then takeFault ⟨0x24, mkLoc (4 + c) (64 * c) 0, 0, s.tide.now, false, 0, true⟩ s
  else if c < 14 then takeFault ⟨0x27, mkLoc 16 (c - 12) 0, 0, s.tide.now, false, 0, true⟩ s
  else if c < 18 then stacksLost (c - 14) s
  else if c < 20 then takeFault ⟨0x35, mkLoc 16 0 0, 0, s.tide.now, false, 0, true⟩ s
  else s

def execClockLoss (clock : Nat) (s : State) : Host.Outcome State Fault Refusal := .next (doClockLoss clock s)

/-- PCIE_UNCORRECTABLE: the functions of the link are reset (R484, R438). -/
def execPcieUncorrectable (link : Nat) (s : State) : Host.Outcome State Fault Refusal :=
  .next (takeFault ⟨0x27, mkLoc 16 link 0, 0, s.tide.now, false, 0, true⟩ s)

end Sys2Proof.Machine
end

