-- ==== Sys2Proof/Machine/Power.lean ====
section
/-! DEFINITION. Power, droop and ageing (R29, R30, R543 to R560): Ebb, idle states, region gates, Erosion and
temperature. -/

namespace Sys2Proof.Machine

def getRgn (s : State) (r : Nat) : Rgn := nth s.pwr.rgns r {}
def onRgn (r : Nat) (f : Rgn → Rgn) : State → State := onPwr (fun p => { p with rgns := modAt p.rgns r f })

/-- The regions of a core die. -/
def dieRgns (d : Nat) : List Nat := (List.range 4).map (fun k => 4 * d + k)

/-! ## Ebb (R543 to R546, R560) -/

/-- DROOP_CROSSING: the region is throttled; a crossing under Ebb starts the 1 µs of the release again (R543, R546).
The divided clocks of the die hold while any of its regions is throttled. -/
def doDroop (r : Nat) (s : State) : State :=
  if ¬ regsLive s then s
  else onRgn r (fun x => { x with ebb := true, ebbAt := if x.ebb then x.ebbAt else s.tide.now, ebbLast := s.tide.now }) s

def execDroopCrossing (region : Nat) (s : State) : Host.Outcome State Fault Refusal := .next (doDroop region s)

/-- The pacing of a die's regions, four bits each, for an event (R560). -/
def paceBytes (s : State) (d : Nat) : List Byte :=
  bytesLE 2 (sumOf (List.range 4) (fun k => min 15 (getRgn s (4 * d + k)).pace * 16 ^ k))

/-- Pacing steps that a re-plan takes off are removed, once no region of the die is throttled (R553, R554). -/
def applyPace (d : Nat) (s : State) : State :=
  if (dieRgns d).any (fun r => (getRgn s r).ebb) then s
  else forAll (dieRgns d) (fun r => onRgn r (fun x => { x with pace := min x.pace (x.paceDue.getD x.pace), paceDue := none })) s

/-- Post ERO_REPLANNED where a die's offset or pacing has changed. -/
def postReplan (d before : Nat) (old : List Nat) (s : State) : State :=
  let after := nth s.pwr.vofs d 0
  let new := (dieRgns d).map (fun r => (getRgn s r).pace)
  if before = after ∧ old = new then s
  else postDev 0x61 (bytesLE 1 d ++ bytesLE 1 before ++ bytesLE 1 after ++ paceBytes s d) s

/-- EBB_RELEASE: the supply has stayed above the release level for 1 µs; the throttle is counted (R544, R546). -/
def doEbbRelease (r : Nat) (s : State) : State :=
  let x := getRgn s r
  if ¬ regsLive s ∨ ¬ x.ebb ∨ ¬ due s (x.ebbLast + 1000) then s
  else
    let w := s.tide.now / 1000000
    let part := s.tide.now - max x.ebbAt (w * 1000000)
    let s := count (kRegion r iEBB_COUNT) s
    let s := onRgn r (fun x => { x with ebb := false, ebbMs := (if x.ebbWin = w then x.ebbMs else 0) + part, ebbWin := w }) s
    let d := r / 4
    let old := (dieRgns d).map (fun k => (getRgn s k).pace)
    postReplan d (nth s.pwr.vofs d 0) old (applyPace d s)

def execEbbRelease (region : Nat) (s : State) : Host.Outcome State Fault Refusal := .next (doEbbRelease region s)

/-- The throttled time of a region in the present 1 ms window. -/
def ebbInWindow (s : State) (r : Nat) : Nat :=
  let x := getRgn s r
  let w := s.tide.now / 1000000
  (if x.ebbWin = w then x.ebbMs else 0) + (if x.ebb then s.tide.now - max x.ebbAt (w * 1000000) else 0)

/-- EBB_HEAVY_WINDOW: more than 100 µs of the window are throttled; posted once for the window (R560). -/
def doEbbHeavy (r : Nat) (s : State) : State :=
  let w := s.tide.now / 1000000
  if ¬ regsLive s ∨ ebbInWindow s r ≤ 100000 ∨ (getRgn s r).heavyAt = some w then s
  else postDev 0x60 (bytesLE 1 r ++ bytesLE 4 (ebbInWindow s r)) (onRgn r (fun x => { x with heavyAt := some w }) s)

def execEbbHeavyWindow (region : Nat) (s : State) : Host.Outcome State Fault Refusal := .next (doEbbHeavy region s)

/-! ## Idle states (R547 to R550) -/

/-- Neap exit time at a rate, in ns (R392). -/
def neapExit (rate : Nat) : Nat := 100 * 2 ^ rate

/-- A port in RUN asks for Low water if it meets its conditions, otherwise for Neap if it meets those (R548, R549). -/
def portIdle (p : Nat) (s : State) : State :=
  let x := getPort s p
  if ¬ linkRuns s p ∨ x.lstate ≠ .run ∨ x.reqKind ≠ 0 ∨ ¬ portQuiet s p then s
  else if isAttach s p && mayQuiet s p 2 && decide (10000000 ≤ s.pwr.lmin) && due s (x.link.dataAt + 100000000) then askPower p 2 1 s
  else if mayQuiet s p 1 && decide (neapExit x.rate ≤ s.pwr.lmin) && due s (x.link.dataAt + max 1000 (10 * neapExit x.rate)) then
    askPower p 1 1 s
  else s

/-- A region with no assigned group or table for 1 ms closes its gate where L_MIN allows it (R29, R548). -/
def regionIdle (r : Nat) (s : State) : State :=
  let x := getRgn s r
  if ¬ regsLive s ∨ x.gated ∨ (usedRegions s).contains r ∨ s.pwr.lmin < 2000 ∨ ¬ due s (x.idleAt + 1000000) then s
  else onRgn r (fun x => { x with gated := true, gatedAt := s.tide.now, opening := false }) s

/-- IDLE_STATE_DECISION on a region or a port. -/
def execIdleStateDecision (region : Bool) (unit : Nat) (s : State) : Host.Outcome State Fault Refusal :=
  .next (if region then regionIdle unit s else portIdle unit s)

/-- REGION_GATE_OPEN: work is assigned to the region, or L_MIN has fallen below its condition (R30, R550). A disabled region
stays gated (R4). -/
def doGateOpen (r : Nat) (s : State) : State :=
  let x := getRgn s r
  if ¬ regsLive s ∨ ¬ x.gated ∨ s.part.disabled.contains (r / 4, r % 4) ∨ ¬ (x.opening = true ∨ s.pwr.lmin < 2000) then s
  else onRgn r (fun x => { x with gated := false, opening := false, idleAt := s.tide.now }) s

def execRegionGateOpen (region : Nat) (s : State) : Host.Outcome State Fault Refusal := .next (doGateOpen region s)

/-! ## Erosion (R551 to R555) -/

/-- A region's next measurement is due: 100 ms of Tide after the last (R551). -/
def measureDue (s : State) (r : Nat) : Bool := (getRgn s r).measuredAt.all (fun t => due s (t + 100000000))

/-- EROSION_MEASURE: MARGIN in 0.1 % and LIFE in units of 10 h. A low margin adds a pacing step; at the highest supply with
every step held, a negative one retires the region's arrays (R552, R555). -/
def doMeasure (r : Nat) (margin : Int) (life : Nat) (s : State) : State :=
  if ¬ regsLive s ∨ ¬ measureDue s r then s
  else
    let x := getRgn s r
    let worn := decide (margin < 0) && decide (nth s.pwr.vofs (r / 4) 0 = 40) && decide (x.pace = 16)
    let low := decide (life * 10 < 8760) && !x.lowPosted
    let s := onRgn r (fun x => { x with
      measuredAt := some s.tide.now, margin := margin, life := life, lowPosted := x.lowPosted || low, pace := if margin < 80 ∧ x.pace < 16 then x.pace + 1 else x.pace }) s
    let s := onlyIf low (postDev 0x62 (bytesLE 1 r ++ bytesLE 2 life)) s
    onlyIf worn (takeFault ⟨0x29, mkLoc (r / 4) (r % 4) 0, r, s.tide.now, false, 0, true⟩) s

def execErosionMeasure (region : Nat) (margin : Int) (life : Nat) (s : State) : Host.Outcome State Fault Refusal :=
  .next (doMeasure region margin life s)

/-- The pacing left to a region: steps come off for as long as MARGIN stays at or above 8.0 % without them. `m` is the
MARGIN without pacing at the new set point, `g` what a step adds to it (R553). -/
def paceLeft (m g : Int) : Nat → Nat
  | 0 => 0
  | n + 1 => if 80 ≤ m + n * g then paceLeft m g n else n + 1

/-- Raise a die's offset by 5 mV for each pacing step held on any of its regions, up to 40 mV (R553). -/
def raiseVofs (d : Nat) (s : State) : State :=
  let steps := (dieRgns d).foldl (fun n r => max n (getRgn s r).pace) 0
  onPwr (fun p => { p with vofs := modAt p.vofs d (fun v => min 40 (v + 5 * steps)) }) s

/-- Lower a die's offset by 5 mV: only at BOOT, and only where every region's MARGIN stays above 12.0 % after the step
(R553). No pacing is held then, and the margins given are those after the step. -/
def lowerVofs (d : Nat) (margins : List (Nat × Int × Int)) (s : State) : State :=
  if (dieRgns d).all (fun r => decide ((getRgn s r).pace = 0) && margins.any (fun m => m.1 == r && decide (120 < m.2.1))) then
    onPwr (fun p => { p with vofs := modAt p.vofs d (fun v => v - 5) }) s
  else s

/-- A re-plan of a die: voltage takes the place of pacing (R553, R554). -/
def replan (boot : Bool) (d : Nat) (margins : List (Nat × Int × Int)) (s : State) : State :=
  let before := nth s.pwr.vofs d 0
  let old := (dieRgns d).map (fun r => (getRgn s r).pace)
  let s := raiseVofs d (onlyIf boot (lowerVofs d margins) s)
  let s := forAll (margins.filter (fun m => m.1 / 4 == d)) (fun m s =>
    let n := paceLeft m.2.1 m.2.2 (getRgn s m.1).pace
    onRgn m.1 (fun x => { x with margin := m.2.1 + n * m.2.2, paceDue := some n }) s) s
  postReplan d before old (applyPace d s)

/-- A die's last re-plan is over: it waited 50 µs for the regulator, and one of the same instant is the same (R553, R554). -/
def replanOver (s : State) (d : Nat) : Bool := (nth s.pwr.replanAt d none).all (fun t => due s (t + 50000))

/-- EROSION_REPLAN: at an idle window of the die or at the Tidemark of PWR_REPLAN, which its start clears (R553, R559); one
at a time on a die (R554). -/
def doReplan (d : Nat) (margins : List (Nat × Int × Int)) (s : State) : State :=
  if ¬ regsLive s ∨ ¬ replanOver s d then s
  else
    let mark := s.pwr.replanHi.toNat * 2 ^ 32 + s.pwr.replanLo.toNat
    let s := onlyIf (s.pwr.replanArmed && due s mark) (onPwr (fun p => { p with replanArmed := false, replanLo := 0, replanHi := 0 })) s
    replan false d margins (onPwr (fun p => { p with replanAt := modAt p.replanAt d (fun _ => some s.tide.now) }) s)

def execErosionReplan (die : Nat) (margins : List (Nat × Int × Int)) (s : State) : Host.Outcome State Fault Refusal :=
  .next (doReplan die margins s)

/-- PWR_REPLAN_WRITE: a write of the upper half arms the Tidemark; 0 in both halves disarms it (R559). -/
def doPwrReplanWrite (hi : Word) (s : State) : State :=
  onPwr (fun p => { p with replanHi := hi, replanArmed := hi != 0 || p.replanLo != 0 }) s

def execPwrReplanWrite (hi : Word) (s : State) : Host.Outcome State Fault Refusal := .next (byHost (doPwrReplanWrite hi) s)

/-! ## Temperature (R556) -/

/-- The temperatures of every sensor: 0-15 region, 16-27 lane die, 28 the MD, in 1/4 °C. -/
def sensorTemps (s : State) : List Int := s.pwr.rgns.map (·.temp) ++ s.pwr.thermTemps.map (·.2)

/-- The location of a sensor. -/
def sensorLoc (n : Nat) : Word :=
  if n < 16 then mkLoc (n / 4) (n % 4) 0 else if n < 28 then mkLoc (n - 12) (64 * (n - 16)) 0 else mkLoc 16 0 0

/-- THERMAL_SAMPLE: THERM_WARN at 100 °C, rearmed with every sensor below 95 °C; source 0x37 at 115 °C. -/
def doThermal (n : Nat) (temp : Int) (s : State) : State :=
  if ¬ regsLive s then s
  else
    let s := if n < 16 then onRgn n (fun x => { x with temp := temp }) s
      else onPwr (fun p => { p with thermTemps := mput p.thermTemps n temp }) s
    let fire := decide (400 ≤ temp) && !s.pwr.thermWarn
    let s := onPwr (fun p => { p with thermWarn := (p.thermWarn || decide (400 ≤ temp)) && !(sensorTemps s).all (fun t => decide (t < 380)) }) s
    let s := onlyIf fire (postDev 0x63 (bytesLE 1 n ++ bytesLE 2 (ofSigned 16 temp))) s
    onlyIf (decide (460 ≤ temp)) (takeFault ⟨0x37, sensorLoc n, 0, s.tide.now, false, 0, true⟩) s

def execThermalSample (sensor : Nat) (temp : Int) (s : State) : Host.Outcome State Fault Refusal := .next (doThermal sensor temp s)

end Sys2Proof.Machine
end

