-- ==== Sys2Proof/Machine/Clock.lean ====
section
/-! DEFINITION. The passing of Tide time, one nanosecond at a step with no command waiting (R440, R562). -/

namespace Sys2Proof.Machine

/-- What the head of a queue waits for: CREDIT_NS with no link credit for it, SHAPE_NS with credit and the shaper short of
tokens (R320, R564). While it has a credit, or waits for tokens, its wait for a credit has not begun (R312, R326). -/
def queueWait (p q : Nat) (s : State) : State :=
  match headOf s p q with
  | none => s
  | some (d, b, k) =>
    let tokens := ((shaperOf s p q).map (fun x => holds s.tide.now x k.size)).getD true
    let s := if hasCredit s p k || !tokens then onStored d b (fun x => { x with since := max x.since (s.tide.now + 1) }) s else s
    if ¬ hasCredit s p k then count (kQueue p q 4) s
    else if tokens then s
    else count (kQueue p q 5) s

/-- One nanosecond of the queues' waits, which stand still while the data path is frozen (R562) and in CLIFF, where nothing
waits to be sent (R486). -/
def queuesNs (s : State) : State :=
  if s.stop.frozen || !regsLive s then s
  else forAll (s.net.ports.filter (fun e => decide (e.1 < 768))) (fun e => forAll e.2.queues (fun x => queueWait e.1 x.1)) s

/-- One nanosecond of a region under Ebb or with its gate closed: EBB_TIME and GATED_NS, which a stop does not halt (R546,
R562). -/
def regionNs (r : Nat) (s : State) : State :=
  let x := getRgn s r
  onlyIf x.gated (count (kRegion r iGATED_NS)) (onlyIf x.ebb (count (kRegion r iEBB_TIME)) s)

def regionsNs (s : State) : State := onlyIf (regsLive s) (forAll (List.range 16) regionNs) s

/-- One nanosecond of the data path's waits (R326, R562), of the regions, and of the lanes (R397, R402). -/
def waitNs (s : State) : State := lanesNs (regionsNs (queuesNs s))

/-- What an instant leaves to settle as it ends: quarters whose rebuild is over (R300), flows whose wait no arrival of the
instant has ended and packets that waited for the order of their flow (R265), requests whose response has not come (R219), retained data
read bad (R283), the soundings (R275), the LOCAL queues, and SEALs that no NAK of the instant has stopped (R127). -/
def endInstant (s : State) : State :=
  let s := onlyIf (regsLive s) settleQuarters s
  let s := onlyIf (engineOn s) settleOuts (onlyIf (engineOn s) settleFlows s)
  let s := onlyIf (regsLive s) settleBad s
  let s := onlyIf (!s.obs.heard.isEmpty) settleSounds s
  let s := forAll (List.range 4) settleLocal s
  onRoute (fun r => { r with looks := [], wrote := [] }) (onlyIf (engineOn s) settleSeals s)

/-- One nanosecond of Tide passes: the counter advances, never wrapping (R440, R441). -/
def tickNs (s : State) : State :=
  if s.dev.state = .reset then s
  else onTide (fun t => { t with now := min (t.now + 1) (2 ^ 64 - 1) }) (waitNs (endInstant s))

end Sys2Proof.Machine
end

