-- ==== Sys2Proof/Machine/Image.lean ====
section
/-! DEFINITION. What the sections of a state image hold (R468), and their bytes: the layout is free, but each section reads
back as what was written. -/

namespace Sys2Proof.Machine

/-! ## Writing values as numbers -/

/-- A way to write the values of a type as numbers, which reads back what it wrote. -/
structure Ser (α : Type) where
  put : α → List Nat
  get : List Nat → Option (α × List Nat)
  back : ∀ x r, get (put x ++ r) = some (x, r)

def serNat : Ser Nat where
  put n := [n]
  get l := match l with
    | [] => none
    | n :: r => some (n, r)
  back := fun _ _ => rfl

def serPair {α β : Type} (a : Ser α) (b : Ser β) : Ser (α × β) where
  put p := a.put p.1 ++ b.put p.2
  get l := match a.get l with
    | none => none
    | some (x, l) => match b.get l with
      | none => none
      | some (y, l) => some ((x, y), l)
  back := fun p r => by simp [List.append_assoc, a.back, b.back]

/-- Read `n` values in a row. -/
def getMany {α : Type} (a : Ser α) : Nat → List Nat → Option (List α × List Nat)
  | 0, l => some ([], l)
  | n + 1, l => match a.get l with
    | none => none
    | some (x, l) => match getMany a n l with
      | none => none
      | some (y, l) => some (x :: y, l)

theorem getMany_put {α : Type} (a : Ser α) (l : List α) (r : List Nat) :
    getMany a l.length (l.flatMap a.put ++ r) = some (l, r) := by
  induction l with
  | nil => rfl
  | cons x l ih => simp [getMany, List.flatMap_cons, List.append_assoc, a.back, ih]

def serList {α : Type} (a : Ser α) : Ser (List α) where
  put l := l.length :: l.flatMap a.put
  get l := match l with
    | [] => none
    | n :: r => getMany a n r
  back := fun l r => getMany_put a l r

/-- Values written as those of another type that stand for them. -/
def serIso {α β : Type} (b : Ser β) (f : α → β) (g : β → α) (h : ∀ x, g (f x) = x) : Ser α where
  put x := b.put (f x)
  get l := match b.get l with
    | none => none
    | some (y, l) => some (g y, l)
  back := fun x r => by simp [b.back, h]

def serOpt {α : Type} (a : Ser α) : Ser (Option α) := serIso (serList a) Option.toList List.head? (fun x => by cases x <;> rfl)
def serBits (w : Nat) : Ser (BitVec w) := serIso serNat BitVec.toNat (BitVec.ofNat w) (fun x => by simp)
def serBool : Ser Bool := serIso serNat b2n (fun n => n == 1) (fun x => by cases x <;> rfl)
def serInt : Ser Int := serIso (serPair serNat serNat) (fun i => (i.toNat, (-i).toNat)) (fun p => (p.1 : Int) - p.2)
  (fun i => by show (i.toNat : Int) - ((-i).toNat : Int) = i; omega)

/-! ## The parts of State that an image holds -/

def serSState : Ser SState := serIso serNat (fun x => match x with
  | .idle => 0 | .armed => 1 | .cut => 2 | .settled => 3 | .failed => 4) (fun t => match t with
  | 0 => .idle | 1 => .armed | 2 => .cut | 3 => .settled | _ => .failed) (fun x => by cases x <;> rfl)

def serDevState : Ser DevState := serIso serNat (fun x => match x with
  | .reset => 0 | .boot => 1 | .hold => 2 | .train => 3 | .run => 4 | .stopped => 5 | .cliff => 6) (fun t => match t with
  | 0 => .reset | 1 => .boot | 2 => .hold | 3 => .train | 4 => .run | 5 => .stopped | _ => .cliff) (fun x => by cases x <;> rfl)

def serStopPort : Ser StopPort := serIso (serPair serNat (serPair serBool (serPair serNat (serPair serNat serBool))))
  (fun x => (x.port, x.gotMark, x.pktsField, x.rxAtMark, x.down))
  (fun (a0, a1, a2, a3, a4) => ⟨a0, a1, a2, a3, a4⟩) (fun _ => rfl)

def serStop : Ser Stop := serIso (serPair serSState (serPair serNat (serPair serNat (serPair serNat (serPair (serOpt (serPair serNat
    serNat)) (serPair serNat (serPair serBool (serPair serNat (serPair serDevState (serPair (serList serStopPort) (serPair (serOpt serNat)
    (serPair serNat (serPair (serList serNat) (serPair (serList (serPair serNat (serPair serNat serNat))) (serPair (serOpt (serPair serNat
    serNat)) serBool)))))))))))))))
  (fun x => (x.sstate, x.openPorts, x.stopId, x.mark, x.armedBy, x.cutAt, x.byMark, x.settledAt, x.before, x.ports, x.resumeAt,
    x.resumeTaken, x.resumed, x.resumers, x.lastDone, x.frozen))
  (fun (a0, a1, a2, a3, a4, a5, a6, a7, a8, a9, a10, a11, a12, a13, a14, a15) => ⟨a0, a1, a2, a3, a4, a5, a6, a7, a8, a9, a10, a11, a12,
    a13, a14, a15⟩) (fun _ => rfl)

def serLaunch : Ser Launch := serIso (serPair serNat (serPair serNat (serPair (serList serNat) (serPair (serList serNat) (serPair (serList
    serNat) (serPair (serPair serNat serNat) serBool))))))
  (fun x => (x.id, x.mark, x.ports, x.answered, x.late, x.desc, x.fixed))
  (fun (a0, a1, a2, a3, a4, a5, a6) => ⟨a0, a1, a2, a3, a4, a5, a6⟩) (fun _ => rfl)

def serSnap : Ser Snap := serIso (serPair serNat (serPair serNat (serPair serNat (serPair serNat (serPair serNat (serPair (serPair serNat
    serNat) serBool))))))
  (fun x => (x.window, x.scope, x.first, x.count, x.mark, x.desc, x.fixed))
  (fun (a0, a1, a2, a3, a4, a5, a6) => ⟨a0, a1, a2, a3, a4, a5, a6⟩) (fun _ => rfl)

def serBuf : Ser Buf := serIso (serPair serNat (serPair serBool serBool))
  (fun x => (x.next, x.touched, x.noted))
  (fun (a0, a1, a2) => ⟨a0, a1, a2⟩) (fun _ => rfl)

def serQuarter : Ser Quarter := serIso (serPair serBool (serPair (serList serNat) (serPair serNat (serPair (serList serNat) (serPair (serOpt
    (serPair serNat serNat)) (serPair (serOpt serNat) serNat))))))
  (fun x => (x.bitmap, x.stack, x.run, x.skip, x.closed, x.doneAt, x.failures))
  (fun (a0, a1, a2, a3, a4, a5, a6) => ⟨a0, a1, a2, a3, a4, a5, a6⟩) (fun _ => rfl)

def serSlice : Ser Slice := serIso (serPair (serList (serPair serNat serBuf)) (serPair (serList serNat) (serPair (serList serQuarter)
    (serList (serPair serNat serNat)))))
  (fun x => (x.used, x.withheld, x.quarters, x.lastQ))
  (fun (a0, a1, a2, a3) => ⟨a0, a1, a2, a3⟩) (fun _ => rfl)

def serAcct : Ser Acct := serIso (serPair serNat (serPair serNat serNat)) (fun x => match x with
  | .ingress p v => (0, p, v) | .egress p v => (1, p, v) | .group e => (2, e, 0) | .emb d => (3, d, 0) | .ethIn p => (4, p, 0) | .ethOut p => (5, p, 0)) (fun t => match t with
  | (0, p, v) => .ingress p v | (1, p, v) => .egress p v | (2, e, _) => .group e | (3, d, _) => .emb d | (4, p, _) => .ethIn p | (_, p, _) => .ethOut p) (fun x => by cases x <;> rfl)

def serPacket : Ser Packet := serIso (serPair (serBits 128) (serList (serBits 8)))
  (fun x => (x.hdr, x.body))
  (fun (a0, a1) => ⟨a0, a1⟩) (fun _ => rfl)

def serDest : Ser Dest := serIso (serPair serNat (serPair serNat (serBits 512))) (fun x => match x with
  | .here => (0, 0, 0) | .lport p => (1, p, 0) | .via n e => (2, n, e) | .noRoute => (3, 0, 0)) (fun t => match t with
  | (0, _, _) => .here | (1, p, _) => .lport p | (2, n, e) => .via n e | (_, _, _) => .noRoute) (fun x => by cases x <;> rfl)

def serRouteCap : Ser RouteCap := serIso (serPair (serList (serPair serNat (serBits 768))) (serPair serNat (serPair serNat serNat)))
  (fun x => (x.trunks, x.hopLimit, x.sprayVcs, x.spraySkew))
  (fun (a0, a1, a2, a3) => ⟨a0, a1, a2, a3⟩) (fun _ => rfl)

def serBinding : Ser Binding := serIso (serPair serNat (serPair serNat serNat))
  (fun x => (x.epid, x.cove, x.maxOut))
  (fun (a0, a1, a2) => ⟨a0, a1, a2⟩) (fun _ => rfl)

def serStored : Ser Stored := serIso (serPair serNat (serPair (serList serNat) (serPair serAcct (serPair serNat (serPair serPacket (serPair
    (serList serNat) (serPair (serOpt serNat) (serPair (serOpt serNat) (serPair (serOpt serNat) (serPair serDest (serPair serRouteCap
    (serPair (serOpt serBinding) (serPair serBool (serPair serBool (serPair serNat (serPair serNat (serPair serBool (serPair serBool
    (serPair serNat (serPair (serList serBool) (serPair serBool (serPair serBool (serPair serBool (serPair serNat (serOpt
    serNat)))))))))))))))))))))))))
  (fun x => (x.die, x.bufs, x.acct, x.port, x.pkt, x.owners, x.rtag, x.ptag, x.ctag, x.dest, x.cap, x.bound, x.jobOk, x.again, x.at_,
    x.ahead, x.cut, x.classless, x.came, x.par, x.held, x.inOrder, x.slotWait, x.since, x.base))
  (fun (a0, a1, a2, a3, a4, a5, a6, a7, a8, a9, a10, a11, a12, a13, a14, a15, a16, a17, a18, a19, a20, a21, a22, a23, a24) => ⟨a0, a1, a2,
    a3, a4, a5, a6, a7, a8, a9, a10, a11, a12, a13, a14, a15, a16, a17, a18, a19, a20, a21, a22, a23, a24⟩) (fun _ => rfl)

def serGState : Ser GState := serIso serNat (fun x => match x with
  | .free => 0 | .installing => 1 | .active => 2 | .quiescing => 3 | .quiesced => 4 | .failed => 5 | .destroying => 6) (fun t => match t with
  | 0 => .free | 1 => .installing | 2 => .active | 3 => .quiescing | 4 => .quiesced | 5 => .failed | _ => .destroying) (fun x => by cases x <;> rfl)

def serFragment : Ser Fragment := serIso (serPair serBool (serPair serBool (serPair serNat (serPair serNat (serPair serNat (serPair serNat
    (serPair serNat (serPair serNat (serPair serNat (serPair serBool (serPair serBool (serPair serNat (serPair serNat (serPair (serList
    (serPair serNat serNat)) (serPair (serList serNat) (serPair (serList (serPair serNat (serPair serNat serNat))) (serList (serPair serNat
    serNat))))))))))))))))))
  (fun x => (x.hasMembers, x.isRoot, x.modes, x.group, x.chunkSegs, x.cove, x.chunkWindow, x.accHome, x.fmtMask, x.w96, x.keys,
    x.waitTimeout, x.parent, x.arrays, x.children, x.members, x.roster))
  (fun (a0, a1, a2, a3, a4, a5, a6, a7, a8, a9, a10, a11, a12, a13, a14, a15, a16) => ⟨a0, a1, a2, a3, a4, a5, a6, a7, a8, a9, a10, a11,
    a12, a13, a14, a15, a16⟩) (fun _ => rfl)

def serRoster : Ser Roster := serIso (serPair serNat (serPair serNat (serPair (serList (serPair serNat (serPair serNat serNat))) (serList
    (serPair serNat serNat)))))
  (fun x => (x.epoch, x.count, x.admitted, x.roster))
  (fun (a0, a1, a2, a3) => ⟨a0, a1, a2, a3⟩) (fun _ => rfl)

def serSentCmd : Ser SentCmd := serIso (serPair serNat (serPair serNat (serPair serNat serPacket)))
  (fun x => (x.port, x.seq, x.sentAt, x.pkt))
  (fun (a0, a1, a2, a3) => ⟨a0, a1, a2, a3⟩) (fun _ => rfl)

def serCallPar : Ser CallPar := serIso (serPair serNat (serPair serNat (serPair serNat (serPair serNat (serPair serNat (serPair serNat
    (serPair serNat (serPair serInt serNat))))))))
  (fun x => (x.kind, x.op, x.mode, x.wfmt, x.estatic, x.infmt, x.outfmt, x.staticE, x.extSlot))
  (fun (a0, a1, a2, a3, a4, a5, a6, a7, a8) => ⟨a0, a1, a2, a3, a4, a5, a6, a7, a8⟩) (fun _ => rfl)

def serCall : Ser Call := serIso (serPair serNat (serPair serNat (serPair (serOpt serCallPar) (serPair (serOpt serNat) (serPair serBool
    (serPair serNat (serPair serNat (serPair (serOpt serNat) (serPair (serList (serPair serNat (serList (serPair serNat serNat)))) (serPair
    (serList serNat) (serPair serBool (serPair serBool serBool))))))))))))
  (fun x => (x.epoch, x.call, x.par, x.hash, x.agreed, x.rootRank, x.job, x.lastChunk, x.exts, x.sealedChunks, x.failed, x.stale, x.done))
  (fun (a0, a1, a2, a3, a4, a5, a6, a7, a8, a9, a10, a11, a12) => ⟨a0, a1, a2, a3, a4, a5, a6, a7, a8, a9, a10, a11, a12⟩) (fun _ => rfl)

def serSrc : Ser Src := serIso (serPair serNat (serPair serNat serNat)) (fun x => match x with
  | .member r => (0, r, 0) | .child p => (1, p, 0) | .forwarded r p => (2, r, p)) (fun t => match t with
  | (0, r, _) => .member r | (1, p, _) => .child p | (_, r, p) => .forwarded r p) (fun x => by cases x <;> rfl)

def serInput : Ser Input := serIso (serPair serSrc (serPair serNat (serPair serNat (serPair serNat (serPair serNat (serPair serBool (serPair
    serBool (serPair serNat (serPair serNat (serPair serNat (serPair (serList (serBits 8)) (serList (serPair serNat serNat)))))))))))))
  (fun x => (x.src, x.rank, x.mism, x.hash, x.job, x.last, x.zero, x.root, x.port, x.at_, x.data, x.bufs))
  (fun (a0, a1, a2, a3, a4, a5, a6, a7, a8, a9, a10, a11) => ⟨a0, a1, a2, a3, a4, a5, a6, a7, a8, a9, a10, a11⟩) (fun _ => rfl)

def serTaking : Ser Taking := serIso (serPair serNat (serPair serNat (serPair serNat (serPair serBool (serPair (serList (serBits 8))
    (serList (serPair serNat serNat)))))))
  (fun x => (x.port, x.via, x.next, x.resend, x.bytes, x.bufs))
  (fun (a0, a1, a2, a3, a4, a5) => ⟨a0, a1, a2, a3, a4, a5⟩) (fun _ => rfl)

def serUnacked : Ser Unacked := serIso (serPair serNat (serPair serPacket (serPair serNat (serPair (serList serNat) (serList (serPair serNat
    serNat))))))
  (fun x => (x.rank, x.pkt, x.at_, x.on_, x.bufs))
  (fun (a0, a1, a2, a3, a4) => ⟨a0, a1, a2, a3, a4⟩) (fun _ => rfl)

def serChunk : Ser Chunk := serIso (serPair serNat (serPair serNat (serPair serNat (serPair (serOpt serCallPar) (serPair serBool (serPair
    (serOpt serNat) (serPair (serList serNat) (serPair serBool (serPair serNat (serPair (serList serInput) (serPair (serList serSrc)
    (serPair (serList (serPair serNat (serOpt serInt))) (serPair serBool (serPair (serOpt serInt) (serPair (serList serTaking) (serPair
    serBool (serPair serBool (serPair serNat (serPair serNat (serPair serNat (serPair (serList serUnacked) (serPair (serList (serPair serNat
    serNat)) (serPair (serList (serPair serNat serNat)) (serPair (serList (serPair serNat serNat)) (serPair (serOpt serNat) (serPair (serOpt
    serNat) (serPair (serList (serPair serNat (serList (serBits 8)))) (serPair (serList (serPair serNat serNat)) (serPair serNat (serPair
    serBool (serPair serBool (serPair serBool (serPair (serOpt serNat) (serPair serNat (serPair (serList serSrc) (serPair serBool (serPair
    serBool (serPair serBool (serPair serBool (serPair serBool (serPair serBool serNat)))))))))))))))))))))))))))))))))))))))))
  (fun x => (x.epoch, x.call, x.chunk, x.par, x.slot, x.firstAt, x.firsts, x.waited, x.job, x.inputs, x.seen, x.exps, x.expSent, x.exp,
    x.taking, x.combined, x.last, x.lowRank, x.hash, x.mism, x.unacked, x.leftOn, x.missingIn, x.missingRack, x.inDeadline, x.rackDeadline,
    x.result, x.resultBufs, x.pieces, x.resultLast, x.resultResend, x.resultWhole, x.resultAt, x.deliv, x.racked, x.rackSent, x.nakSent,
    x.recovered, x.overflow, x.sealDue, x.sealed, x.sealedAt))
  (fun (a0, a1, a2, a3, a4, a5, a6, a7, a8, a9, a10, a11, a12, a13, a14, a15, a16, a17, a18, a19, a20, a21, a22, a23, a24, a25, a26, a27,
    a28, a29, a30, a31, a32, a33, a34, a35, a36, a37, a38, a39, a40, a41) => ⟨a0, a1, a2, a3, a4, a5, a6, a7, a8, a9, a10, a11, a12, a13,
    a14, a15, a16, a17, a18, a19, a20, a21, a22, a23, a24, a25, a26, a27, a28, a29, a30, a31, a32, a33, a34, a35, a36, a37, a38, a39, a40,
    a41⟩) (fun _ => rfl)

def serWin : Ser Win := serIso (serPair serNat serInt) (fun x => match x with
  | .nan => (0, 0) | .posInf => (1, 0) | .negInf => (2, 0) | .posSat => (3, 0) | .negSat => (4, 0) | .bothSat => (5, 0) | .fin v => (6, v)) (fun t => match t with
  | (0, _) => .nan | (1, _) => .posInf | (2, _) => .negInf | (3, _) => .posSat | (4, _) => .negSat | (5, _) => .bothSat | (_, v) => .fin v) (fun x => by cases x <;> rfl)

def serGroup : Ser Group := serIso (serPair serNat (serPair serGState (serPair serFragment (serPair serRoster (serPair (serList serRoster)
    (serPair serBool (serPair serNat (serPair (serList serNat) (serPair (serOpt serNat) (serPair (serList (serPair serNat (serList (serPair
    serNat serNat)))) (serPair (serList (serPair serNat serNat)) (serPair (serList serSentCmd) (serPair serNat (serPair (serList (serPair
    serNat serPacket)) (serPair (serList serCall) (serPair (serList serChunk) (serPair serNat (serPair (serOpt serNat) (serPair (serOpt
    (serPair serNat serNat)) (serPair (serList (serPair serNat serNat)) (serPair serBool (serPair (serList (serPair serNat serNat)) (serPair
    (serList (serPair serNat serNat)) (serPair (serList (serPair serNat serNat)) (serPair serNat (serPair serNat (serPair (serOpt (serPair
    serNat (serPair serNat (serList (serPair serNat serNat))))) (serPair (serList (serPair serNat (serList serWin))) (serPair (serList
    (serPair serNat (serList serNat))) (serPair (serList (serPair serNat serInt)) (serPair (serList (serPair serNat serNat)) (serOpt
    serNat))))))))))))))))))))))))))))))))
  (fun x => (x.entry, x.state, x.frag, x.now, x.olds, x.fromQuiesced, x.commitAt, x.ready, x.readyAt, x.extents, x.nextSeq, x.sent,
    x.expectSeq, x.heldCmds, x.calls, x.chunks, x.nextCall, x.highSealed, x.quiescer, x.destroyers, x.destroyTaken, x.stagingRes,
    x.shoalRes, x.accRes, x.passes, x.accChunks, x.pendingAccum, x.accWin, x.accF32, x.accExp, x.accDone, x.accFailed))
  (fun (a0, a1, a2, a3, a4, a5, a6, a7, a8, a9, a10, a11, a12, a13, a14, a15, a16, a17, a18, a19, a20, a21, a22, a23, a24, a25, a26, a27,
    a28, a29, a30, a31) => ⟨a0, a1, a2, a3, a4, a5, a6, a7, a8, a9, a10, a11, a12, a13, a14, a15, a16, a17, a18, a19, a20, a21, a22, a23,
    a24, a25, a26, a27, a28, a29, a30, a31⟩) (fun _ => rfl)

def serTableRec : Ser TableRec := serIso (serPair serNat (serPair serNat (serPair serNat (serPair serNat (serPair serNat (serPair serNat
    (serPair serNat (serPair serNat (serPair serNat (serPair serNat (serPair serBool (serPair serBool (serPair serNat (serPair serNat
    (serPair serInt (serPair (serOpt serNat) (serPair serNat (serPair serNat (serPair serNat (serPair serNat (serPair serNat (serPair serNat
    (serPair serNat (serPair serNat serNat))))))))))))))))))))))))
  (fun x => (x.table, x.cove, x.rfmt, x.imode, x.dim, x.die, x.paMask, x.rows, x.seed, x.shadowRows, x.gw96, x.master, x.opt, x.rpShare,
    x.gradE, x.owner, x.firstStep, x.lr, x.mu, x.beta1, x.beta2, x.eps, x.wd, x.p1, x.p2))
  (fun (a0, a1, a2, a3, a4, a5, a6, a7, a8, a9, a10, a11, a12, a13, a14, a15, a16, a17, a18, a19, a20, a21, a22, a23, a24) => ⟨a0, a1, a2,
    a3, a4, a5, a6, a7, a8, a9, a10, a11, a12, a13, a14, a15, a16, a17, a18, a19, a20, a21, a22, a23, a24⟩) (fun _ => rfl)

def serEState : Ser EState := serIso serNat (fun x => match x with
  | .free => 0 | .loading => 1 | .active => 2 | .quiescing => 3 | .quiesced => 4 | .failed => 5 | .destroying => 6) (fun t => match t with
  | 0 => .free | 1 => .loading | 2 => .active | 3 => .quiescing | 4 => .quiesced | 5 => .failed | _ => .destroying) (fun x => by cases x <;> rfl)

def serBagWin : Ser BagWin := serIso (serPair serNat (serPair serNat (serList (serPair serNat serNat))))
  (fun x => (x.src, x.base, x.marks))
  (fun (a0, a1, a2) => ⟨a0, a1, a2⟩) (fun _ => rfl)

def serSched : Ser Sched := serIso (serPair serNat (serPair serNat (serPair (serOpt (serPair serNat serNat)) (serPair serNat (serPair
    serBool (serPair (serOpt serTableRec) serBool))))))
  (fun x => (x.step, x.mark, x.desc, x.job, x.begun, x.hyper, x.fixed))
  (fun (a0, a1, a2, a3, a4, a5, a6) => ⟨a0, a1, a2, a3, a4, a5, a6⟩) (fun _ => rfl)

def serStream : Ser Stream := serIso (serPair serNat (serPair (serBits 256) (serPair serNat (serPair serNat (serPair (serList (serBits 8))
    (serPair serNat (serPair serNat (serList (serPair serNat serNat)))))))))
  (fun x => (x.src, x.sub, x.job, x.next, x.bytes, x.port, x.tag, x.bufs))
  (fun (a0, a1, a2, a3, a4, a5, a6, a7) => ⟨a0, a1, a2, a3, a4, a5, a6, a7⟩) (fun _ => rfl)

def serWaitBag : Ser WaitBag := serIso (serPair serStream serBool)
  (fun x => (x.stream, x.isGrad))
  (fun (a0, a1) => ⟨a0, a1⟩) (fun _ => rfl)

def serTable : Ser Table := serIso (serPair serTableRec (serPair serEState (serPair serNat (serPair (serList (serPair serNat (serBits 8)))
    (serPair (serList (serPair serNat (serBits 8))) (serPair (serList (serPair serNat (serBits 8))) (serPair (serList (serPair serNat
    (serBits 8))) (serPair (serList (serPair serNat (serList serWin))) (serPair serBool (serPair (serList serBagWin) (serPair (serOpt
    serSched) (serPair (serList serWaitBag) (serPair (serOpt (serPair serNat serNat)) (serPair (serList (serPair serNat serNat)) (serPair
    serNat (serPair (serList (serPair serNat serNat)) serNat))))))))))))))))
  (fun x => (x.info, x.state, x.applied, x.space0, x.space1, x.space2, x.space3, x.shadow, x.overflowed, x.windows, x.sched, x.waiting,
    x.quiescer, x.destroyers, x.bytes, x.touched, x.served))
  (fun (a0, a1, a2, a3, a4, a5, a6, a7, a8, a9, a10, a11, a12, a13, a14, a15, a16) => ⟨a0, a1, a2, a3, a4, a5, a6, a7, a8, a9, a10, a11,
    a12, a13, a14, a15, a16⟩) (fun _ => rfl)

def serShardMap : Ser ShardMap := serIso (serPair serNat (serPair serNat (serPair serNat (serPair serNat (serPair serNat (serPair serNat
    (serList (serPair serNat (serPair serNat serNat)))))))))
  (fun x => (x.ltid, x.imode, x.dim, x.cove, x.lrows, x.seed, x.shards))
  (fun (a0, a1, a2, a3, a4, a5, a6) => ⟨a0, a1, a2, a3, a4, a5, a6⟩) (fun _ => rfl)

def serSubWork : Ser SubWork := serIso (serPair serNat (serPair (serList serNat) (serPair serNat (serPair (serList serPacket) (serPair
    serNat (serPair serNat (serPair (serOpt (serOpt serInt)) (serPair (serOpt (serList serWin)) serBool))))))))
  (fun x => (x.shard, x.positions, x.subId, x.pkts, x.sentAt, x.tries, x.exp, x.sums, x.acked))
  (fun (a0, a1, a2, a3, a4, a5, a6, a7, a8) => ⟨a0, a1, a2, a3, a4, a5, a6, a7, a8⟩) (fun _ => rfl)

def serHomeBag : Ser HomeBag := serIso (serPair serNat (serPair serNat (serPair serNat (serPair serNat (serPair serBool (serPair (serBits
    256) (serPair serNat (serPair serNat (serPair (serList (serPair serNat (serPair serNat serNat))) (serPair (serList serSubWork) (serPair
    serBool (serPair serBool (serPair serNat (serPair (serList (serPair serNat serNat)) serNat))))))))))))))
  (fun x => (x.src, x.ltid, x.step, x.bag, x.isGrad, x.sub, x.job, x.n, x.shards, x.works, x.expSent, x.recovered, x.die, x.bufs, x.tag))
  (fun (a0, a1, a2, a3, a4, a5, a6, a7, a8, a9, a10, a11, a12, a13, a14) => ⟨a0, a1, a2, a3, a4, a5, a6, a7, a8, a9, a10, a11, a12, a13,
    a14⟩) (fun _ => rfl)

def serShardBag : Ser ShardBag := serIso (serPair serNat (serPair serStream (serList (serList (serBits 8)))))
  (fun x => (x.src, x.stream, x.rows))
  (fun (a0, a1, a2) => ⟨a0, a1, a2⟩) (fun _ => rfl)

def serOrphan : Ser Orphan := serIso (serPair serNat (serPair serNat (serPair serNat (serPair serNat (serPair serNat (serPair serNat
    (serPair serNat (serPair serNat (serPair (serList serPacket) (serPair serNat serNat))))))))))
  (fun x => (x.src, x.ltid, x.bag, x.shard, x.epid, x.table, x.step, x.subId, x.pkts, x.sentAt, x.die))
  (fun (a0, a1, a2, a3, a4, a5, a6, a7, a8, a9, a10) => ⟨a0, a1, a2, a3, a4, a5, a6, a7, a8, a9, a10⟩) (fun _ => rfl)

def serRpLine : Ser RpLine := serIso (serPair serNat (serPair serNat (serPair serNat (serPair serNat serNat))))
  (fun x => (x.set, x.way, x.table, x.row, x.hits))
  (fun (a0, a1, a2, a3, a4) => ⟨a0, a1, a2, a3, a4⟩) (fun _ => rfl)

def serEmb : Ser Emb := serIso (serPair (serList (serPair serNat serTable)) (serPair (serList (serPair serNat serShardMap)) (serPair
    (serList serStream) (serPair (serList serHomeBag) (serPair (serList serShardBag) (serPair (serList (serPair serNat (serPair serNat
    (serPair serNat serNat)))) (serPair serNat (serPair (serList (serPair serNat (serPair serNat serBagWin))) (serPair (serList (serPair
    serNat serNat)) (serPair (serList (serPair serNat serNat)) (serPair (serList serOrphan) (serPair (serList (serPair serNat (serPair
    serNat (serPair serNat serNat)))) (serPair (serList (serPair serNat serRpLine)) (serPair serNat (serList (serPair serNat (serPair serNat
    (serPair serNat serNat))))))))))))))))))
  (fun x => (x.tables, x.maps, x.streams, x.homes, x.shardBags, x.subNo, x.subBagNo, x.homeWins, x.tags, x.mapTags, x.orphans, x.subFree,
    x.rockpool, x.rpDecayAt, x.missed))
  (fun (a0, a1, a2, a3, a4, a5, a6, a7, a8, a9, a10, a11, a12, a13, a14) => ⟨a0, a1, a2, a3, a4, a5, a6, a7, a8, a9, a10, a11, a12, a13,
    a14⟩) (fun _ => rfl)

def serWindow : Ser Window := serIso (serPair serNat (serPair serNat (serPair serNat (serPair serNat (serPair serNat (serPair serBool
    (serPair serBool (serPair serBool serBool))))))))
  (fun x => (x.cove, x.lo, x.hi, x.base, x.limit, x.pr, x.pw, x.pa, x.px))
  (fun (a0, a1, a2, a3, a4, a5, a6, a7, a8) => ⟨a0, a1, a2, a3, a4, a5, a6, a7, a8⟩) (fun _ => rfl)

def serRegion : Ser Region := serIso (serPair serNat (serPair serNat (serPair serNat (serPair (serOpt (serPair serNat serNat)) (serPair
    serBool (serList (serPair serNat (serBits 8))))))))
  (fun x => (x.offset, x.size, x.die, x.releasing, x.poisoned, x.mem))
  (fun (a0, a1, a2, a3, a4, a5) => ⟨a0, a1, a2, a3, a4, a5⟩) (fun _ => rfl)

def serOutst : Ser Outst := serIso (serPair serNat (serPair serNat (serPair serNat (serPair serNat (serPair serNat (serPair serNat (serPair
    serNat (serPair serPacket serBool))))))))
  (fun x => (x.port, x.tag, x.dst, x.wtag, x.ptag, x.ctag, x.at_, x.pkt, x.expire))
  (fun (a0, a1, a2, a3, a4, a5, a6, a7, a8) => ⟨a0, a1, a2, a3, a4, a5, a6, a7, a8⟩) (fun _ => rfl)

def serMemSp : Ser MemSp := serIso (serPair (serList serNat) (serPair (serList (serPair serNat serBinding)) (serPair (serList (serPair
    serNat serWindow)) (serPair (serList (serPair serNat (serPair serNat (serPair serNat serNat)))) (serPair (serList (serPair serNat
    (serPair serNat serNat))) (serPair (serList (serPair serNat (serList (serPair serNat serNat)))) (serPair (serList (serPair serNat
    serRegion)) (serPair (serList serOutst) (serPair (serList (serPair serNat serNat)) (serPair (serList (serPair serNat (serPair serBool
    serNat))) (serPair (serList (serPair serNat serNat)) (serPair (serList (serPair serNat serNat)) (serPair serNat (serPair serNat (serPair
    serNat serNat)))))))))))))))
  (fun x => (x.coves, x.binds, x.windows, x.removing, x.unbinding, x.unbindWait, x.regions, x.outst, x.denied, x.jobs, x.jobPorts, x.capped,
    x.wtag, x.ptag, x.jtag, x.ctag))
  (fun (a0, a1, a2, a3, a4, a5, a6, a7, a8, a9, a10, a11, a12, a13, a14, a15) => ⟨a0, a1, a2, a3, a4, a5, a6, a7, a8, a9, a10, a11, a12,
    a13, a14, a15⟩) (fun _ => rfl)

def serFlow : Ser Flow := serIso (serPair serNat (serPair serNat (serPair serNat (serPair serNat (serPair serBool (serPair serNat (serPair
    (serList (serPair serNat (serPair serNat (serPair serPacket (serPair serNat serNat))))) (serPair (serOpt serNat) (serPair serNat
    (serPair serBool (serList (serPair serNat (serPair serNat (serPair serPacket (serPair serNat serNat)))))))))))))))
  (fun x => (x.entry, x.src, x.dst, x.ovc, x.run, x.exp, x.held, x.timer, x.lastAt, x.expire, x.late))
  (fun (a0, a1, a2, a3, a4, a5, a6, a7, a8, a9, a10) => ⟨a0, a1, a2, a3, a4, a5, a6, a7, a8, a9, a10⟩) (fun _ => rfl)

def serSchedCfg : Ser SchedCfg := serIso (serPair serNat (serPair serNat (serPair serNat (serPair serNat (serPair serNat (serPair serNat
    (serPair serNat (serPair serNat serNat))))))))
  (fun x => (x.floor, x.qCtrl, x.qRsp, x.qCdn, x.qEsc, x.bReq, x.bXfer, x.bCup, x.bEmb))
  (fun (a0, a1, a2, a3, a4, a5, a6, a7, a8) => ⟨a0, a1, a2, a3, a4, a5, a6, a7, a8⟩) (fun _ => rfl)

def serRouteOp : Ser RouteOp := serIso (serPair serNat (serPair serNat (serPair serNat (serPair (serBits 384) (serPair (serList (serBits 8))
    serNat)))))
  (fun x => (x.ring, x.idx, x.opcode, x.op, x.data, x.at_))
  (fun (a0, a1, a2, a3, a4, a5) => ⟨a0, a1, a2, a3, a4, a5⟩) (fun _ => rfl)

def serNoted : Ser Noted := serIso (serPair serNat (serPair serNat (serPair serNat (serPair serNat (serPair serNat serBool)))))
  (fun x => (x.src, x.dst, x.ovc, x.fseq, x.at_, x.inOrder))
  (fun (a0, a1, a2, a3, a4, a5) => ⟨a0, a1, a2, a3, a4, a5⟩) (fun _ => rfl)

def serRoute : Ser Route := serIso (serPair (serList (serPair serNat (serBits 32))) (serPair (serList (serPair serNat (serBits 512)))
    (serPair (serList (serPair serNat (serBits 768))) (serPair (serOpt serNat) (serPair serNat (serPair serNat (serPair serNat (serPair
    (serList (serPair serNat serNat)) (serPair (serList serRouteOp) (serPair (serList (serList serRouteOp)) (serPair (serList (serPair
    serNat serNat)) (serPair (serList (serPair serNat serNat)) (serPair (serList (serPair (serPair serNat serNat) serNat)) (serPair (serList
    (serPair serNoted serNat)) (serPair (serList serNoted) (serPair serNat (serPair (serList (serPair serNat (serPair serNat (serPair serNat
    (serPair serNat serNat))))) (serPair (serList serPacket) (serPair (serList serNoted) (serPair (serList serNoted) (serList (serPair
    serNat (serPair serPacket (serPair serNat serNat))))))))))))))))))))))))
  (fun x => (x.eps, x.nodes, x.trunks, x.selfNode, x.hopLimit, x.sprayVcs, x.spraySkew, x.rr, x.batch, x.commits, x.reentry, x.looks,
    x.wrote, x.came, x.slotWaits, x.tag, x.flows, x.outbox, x.direct, x.built, x.toEngine))
  (fun (a0, a1, a2, a3, a4, a5, a6, a7, a8, a9, a10, a11, a12, a13, a14, a15, a16, a17, a18, a19, a20) => ⟨a0, a1, a2, a3, a4, a5, a6, a7,
    a8, a9, a10, a11, a12, a13, a14, a15, a16, a17, a18, a19, a20⟩) (fun _ => rfl)

def serBucket : Ser Bucket := serIso (serPair serNat (serPair serNat (serPair serNat serNat)))
  (fun x => (x.rate, x.burst, x.tokens, x.at_))
  (fun (a0, a1, a2, a3) => ⟨a0, a1, a2, a3⟩) (fun _ => rfl)

def serQEntry : Ser QEntry := serIso (serPair serNat (serPair serNat (serPair serNat (serPair serNat (serOpt serBucket)))))
  (fun x => (x.port, x.job, x.qvc, x.weight, x.bucket))
  (fun (a0, a1, a2, a3, a4) => ⟨a0, a1, a2, a3, a4⟩) (fun _ => rfl)

def serPolicer : Ser Policer := serIso (serPair serBool (serPair serNat (serPair serNat (serPair serNat serBucket))))
  (fun x => (x.isJob, x.key, x.die, x.vcs, x.bucket))
  (fun (a0, a1, a2, a3, a4) => ⟨a0, a1, a2, a3, a4⟩) (fun _ => rfl)

def serShoalCfg : Ser ShoalCfg := serIso (serPair (serList serNat) (serPair (serList serNat) (serPair serNat (serPair serNat (serPair serNat
    (serPair serNat serNat))))))
  (fun x => (x.gIn, x.gOut, x.shareCap, x.credAhead, x.embRes, x.poolFloor, x.escWait))
  (fun (a0, a1, a2, a3, a4, a5, a6) => ⟨a0, a1, a2, a3, a4, a5, a6⟩) (fun _ => rfl)

/-! ## The sections (R468) -/

/-- 0x01, the stop record: PKTS by port (transmit, receive) and the pending schedules; frozen timers stand in their own
records. -/
structure SecStop where
  stop : Stop
  pkts : Map (Nat × Nat)
  launches : List Launch
  snaps : List Snap
  resets : List Snap
deriving DecidableEq, Repr

/-- 0x02, Shoal: every stored packet, the free stores, and the ingress accounts and egress queues in order. -/
structure SecShoal where
  slices : List Slice
  stored : List Stored
  ingress : Map (Map (List (Nat × Nat)))
  queues : Map (Map (List (Nat × Nat)))
  reenter : List Nat
deriving DecidableEq, Repr

/-- 0x03: the groups, but for accumulators in HBM. -/
structure SecGroups where
  groups : Map Group
deriving DecidableEq, Repr

/-- 0x04: the embedding engine, but for rows and Rockpool. -/
structure SecEmb where
  emb : Emb
deriving DecidableEq, Repr

/-- 0x05: the memory space, but for the bytes of regions. -/
structure SecMem where
  mem : MemSp
deriving DecidableEq, Repr

/-- 0x06: the resequencer's flows, and the flows sourced here. -/
structure SecFlows where
  flows : List (Nat × Flow)
  sourced : List (Nat × Nat × Nat × Nat × Nat)
deriving DecidableEq, Repr

/-- A port's part of section 0x07. -/
structure SecPort where
  dim : Nat
  dl : Bool
  sched : SchedCfg
  deficit : Map Nat
  round : Nat
  fillRound : Nat
  fillC : Nat
  slots : Map (Nat × Nat)
deriving DecidableEq, Repr

/-- 0x07, routing and scheduling, with the port modes. -/
structure SecRoute where
  route : Route
  modes : List Nat
  jobs : Map (Bool × Nat)
  jobPorts : List (Nat × Nat)
  capped : List (Nat × Nat)
  jtag : Nat
  qents : List QEntry
  policers : List Policer
  shoal : ShoalCfg
  ports : Map SecPort
deriving DecidableEq, Repr

/-- The four row spaces of a table. -/
structure SecRows where
  space0 : Memory
  space1 : Memory
  space2 : Memory
  space3 : Memory
deriving DecidableEq, Repr

/-- 0x08, HBM spaces: the four row spaces of each table, the exported regions, and by group the accumulators. -/
structure SecHbm where
  spaces : Map SecRows
  regions : Map Memory
  accWin : Map (Map (List Win))
  accF32 : Map (Map (List Nat))
deriving DecidableEq, Repr

def serSecStop : Ser SecStop := serIso (serPair serStop (serPair (serList (serPair serNat (serPair serNat serNat))) (serPair (serList
    serLaunch) (serPair (serList serSnap) (serList serSnap)))))
  (fun x => (x.stop, x.pkts, x.launches, x.snaps, x.resets))
  (fun (a0, a1, a2, a3, a4) => ⟨a0, a1, a2, a3, a4⟩) (fun _ => rfl)

def serSecShoal : Ser SecShoal := serIso (serPair (serList serSlice) (serPair (serList serStored) (serPair (serList (serPair serNat (serList
    (serPair serNat (serList (serPair serNat serNat)))))) (serPair (serList (serPair serNat (serList (serPair serNat (serList (serPair
    serNat serNat)))))) (serList serNat)))))
  (fun x => (x.slices, x.stored, x.ingress, x.queues, x.reenter))
  (fun (a0, a1, a2, a3, a4) => ⟨a0, a1, a2, a3, a4⟩) (fun _ => rfl)

def serSecGroups : Ser SecGroups := serIso ((serList (serPair serNat serGroup)))
  (fun x => x.groups)
  (fun (a0) => ⟨a0⟩) (fun _ => rfl)

def serSecEmb : Ser SecEmb := serIso (serEmb)
  (fun x => x.emb)
  (fun (a0) => ⟨a0⟩) (fun _ => rfl)

def serSecMem : Ser SecMem := serIso (serMemSp)
  (fun x => x.mem)
  (fun (a0) => ⟨a0⟩) (fun _ => rfl)

def serSecFlows : Ser SecFlows := serIso (serPair (serList (serPair serNat serFlow)) (serList (serPair serNat (serPair serNat (serPair
    serNat (serPair serNat serNat))))))
  (fun x => (x.flows, x.sourced))
  (fun (a0, a1) => ⟨a0, a1⟩) (fun _ => rfl)

def serSecPort : Ser SecPort := serIso (serPair serNat (serPair serBool (serPair serSchedCfg (serPair (serList (serPair serNat serNat))
    (serPair serNat (serPair serNat (serPair serNat (serList (serPair serNat (serPair serNat serNat))))))))))
  (fun x => (x.dim, x.dl, x.sched, x.deficit, x.round, x.fillRound, x.fillC, x.slots))
  (fun (a0, a1, a2, a3, a4, a5, a6, a7) => ⟨a0, a1, a2, a3, a4, a5, a6, a7⟩) (fun _ => rfl)

def serSecRoute : Ser SecRoute := serIso (serPair serRoute (serPair (serList serNat) (serPair (serList (serPair serNat (serPair serBool
    serNat))) (serPair (serList (serPair serNat serNat)) (serPair (serList (serPair serNat serNat)) (serPair serNat (serPair (serList
    serQEntry) (serPair (serList serPolicer) (serPair serShoalCfg (serList (serPair serNat serSecPort)))))))))))
  (fun x => (x.route, x.modes, x.jobs, x.jobPorts, x.capped, x.jtag, x.qents, x.policers, x.shoal, x.ports))
  (fun (a0, a1, a2, a3, a4, a5, a6, a7, a8, a9) => ⟨a0, a1, a2, a3, a4, a5, a6, a7, a8, a9⟩) (fun _ => rfl)

def serSecRows : Ser SecRows := serIso (serPair (serList (serPair serNat (serBits 8))) (serPair (serList (serPair serNat (serBits 8)))
    (serPair (serList (serPair serNat (serBits 8))) (serList (serPair serNat (serBits 8))))))
  (fun x => (x.space0, x.space1, x.space2, x.space3))
  (fun (a0, a1, a2, a3) => ⟨a0, a1, a2, a3⟩) (fun _ => rfl)

def serSecHbm : Ser SecHbm := serIso (serPair (serList (serPair serNat serSecRows)) (serPair (serList (serPair serNat (serList (serPair
    serNat (serBits 8))))) (serPair (serList (serPair serNat (serList (serPair serNat (serList serWin))))) (serList (serPair serNat (serList
    (serPair serNat (serList serNat))))))))
  (fun x => (x.spaces, x.regions, x.accWin, x.accF32))
  (fun (a0, a1, a2, a3) => ⟨a0, a1, a2, a3⟩) (fun _ => rfl)

/-! ## Bytes -/

/-- Bytes for the values of a type, which read back as what was written. -/
structure Codec (α : Type) where
  enc : α → List Byte
  dec : List Byte → Option α
  back : ∀ x, dec (enc x) = some x

/-- Numbers as bytes, one after the other. -/
def unaryBytes (l : List Nat) : List Byte := l.flatMap (fun n => List.replicate n 1 ++ [0])

/-- The numbers that bytes hold, with `n` counted of the first. -/
def unaryRead : List Byte → Nat → List Nat
  | [], _ => []
  | b :: r, n => if b = 0 then n :: unaryRead r 0 else unaryRead r (n + 1)

theorem unaryRead_replicate (k n : Nat) (r : List Byte) : unaryRead (List.replicate k 1 ++ 0 :: r) n = (n + k) :: unaryRead r 0 := by
  induction k generalizing n with
  | zero => simp [unaryRead]
  | succ k ih =>
    have h : unaryRead (List.replicate (k + 1) 1 ++ 0 :: r) n = unaryRead (List.replicate k 1 ++ 0 :: r) (n + 1) := by
      simp [List.replicate_succ, unaryRead]
    rw [h, ih]
    simp
    omega

theorem unaryRead_bytes (l : List Nat) : unaryRead (unaryBytes l) 0 = l := by
  induction l with
  | nil => rfl
  | cons n l ih =>
    have h : unaryBytes (n :: l) = List.replicate n 1 ++ 0 :: unaryBytes l := by simp [unaryBytes, List.flatMap_cons]
    rw [h, unaryRead_replicate, ih]
    simp

/-- Bytes for whatever can be written as numbers. -/
def codecOf {α : Type} (a : Ser α) : Codec α where
  enc x := unaryBytes (a.put x)
  dec b := (a.get (unaryRead b 0)).map (·.1)
  back := fun x => by
    have := a.back x []
    simp only [List.append_nil] at this
    simp [unaryRead_bytes, this]

end Sys2Proof.Machine

namespace Sys2Proof.Config

/-- The layout of the contents of the section of TYPE `k`, which the spec leaves open: any that reads back what was written
(R468, R470; log entry 28). -/
opaque sectionCodec {α : Type} [Inhabited (Machine.Codec α)] (k : Nat) : Machine.Codec α

end Sys2Proof.Config

namespace Sys2Proof.Machine

/-- The codec of a section. -/
def sectionOf {α : Type} (a : Ser α) (k : Nat) : Codec α := @Config.sectionCodec α ⟨codecOf a⟩ k

/-- What an image holds, by section (R468). -/
structure Saved where
  stop : SecStop
  shoal : SecShoal
  groups : SecGroups
  emb : SecEmb
  mem : SecMem
  flows : SecFlows
  route : SecRoute
  hbm : SecHbm
deriving DecidableEq, Repr

/-- The bytes of the eight sections before they are sealed (R468). -/
def sectionsOf (v : Saved) : List (List Byte) :=
  [(sectionOf serSecStop 1).enc v.stop, (sectionOf serSecShoal 2).enc v.shoal, (sectionOf serSecGroups 3).enc v.groups,
   (sectionOf serSecEmb 4).enc v.emb, (sectionOf serSecMem 5).enc v.mem, (sectionOf serSecFlows 6).enc v.flows,
   (sectionOf serSecRoute 7).enc v.route, (sectionOf serSecHbm 8).enc v.hbm]

/-- What eight sections hold; none where one of them is no section's bytes (R470). -/
def savedRead (l : List (List Byte)) : Option Saved :=
  match l with
  | [b1, b2, b3, b4, b5, b6, b7, b8] =>
    match (sectionOf serSecStop 1).dec b1, (sectionOf serSecShoal 2).dec b2, (sectionOf serSecGroups 3).dec b3,
        (sectionOf serSecEmb 4).dec b4, (sectionOf serSecMem 5).dec b5, (sectionOf serSecFlows 6).dec b6,
        (sectionOf serSecRoute 7).dec b7, (sectionOf serSecHbm 8).dec b8 with
    | some a1, some a2, some a3, some a4, some a5, some a6, some a7, some a8 => some ⟨a1, a2, a3, a4, a5, a6, a7, a8⟩
    | _, _, _, _, _, _, _, _ => none
  | _ => none

end Sys2Proof.Machine
end

