-- ==== Sys2Proof/Machine/Tide.lean ====
section
/-! DEFINITION. Tide time (R440 to R451), launches (R452 to R454), the slack-water stop and resume (R455 to R467),
state images (R468 to R470). -/

namespace Sys2Proof.Machine

/-! ## Instants of timers (R441, R467) -/

/-- An instant moved by a number of nanoseconds. -/
def moved (d : Int) (t : Nat) : Nat := ((t : Int) + d).toNat

def movedO (d : Int) (t : Option Nat) : Option Nat := t.map (moved d)

/-- The instants a chunk's timers and ages are measured from, by `f`, and those at which its waits end, by `g`. -/
def movedChunk (f g : Nat → Nat) (c : Chunk) : Chunk :=
  { c with
    firstAt := c.firstAt.map f, inputs := c.inputs.map (fun x => { x with at_ := f x.at_ }),
    unacked := c.unacked.map (fun u => { u with at_ := f u.at_ }),
    inDeadline := c.inDeadline.map g, rackDeadline := c.rackDeadline.map g, resultAt := c.resultAt.map f,
    sealedAt := f c.sealedAt }

def movedGroup (f g : Nat → Nat) (x : Group) : Group :=
  { x with
    readyAt := x.readyAt.map f, sent := x.sent.map (fun c => { c with sentAt := f c.sentAt }),
    chunks := x.chunks.map (movedChunk f g) }

/-- Move the instants from which protocol timers, ages and refills are measured, by `f`, and those at which a wait ends, by
`g`: those that a cut stops (R456, R467). -/
def moveProtocol (f g : Nat → Nat) (s : State) : State :=
  let s := { s with groups := s.groups.map (fun e => (e.1, movedGroup f g e.2)) }
  let s := onEmb (fun m => { m with
    homes := m.homes.map (fun h => { h with works := h.works.map (fun w => { w with sentAt := f w.sentAt }) }),
    orphans := m.orphans.map (fun o => { o with sentAt := f o.sentAt }),
    rpDecayAt := f m.rpDecayAt, missed := m.missed.map (fun x => (x.1, x.2.1, x.2.2.1, f x.2.2.2)) }) s
  let s := onMem (fun m => { m with outst := m.outst.map (fun o => { o with at_ := f o.at_ }) }) s
  let s := onRoute (fun r => { r with flows := r.flows.map (fun e => (e.1, e.2.1, e.2.2.1, e.2.2.2.1, f e.2.2.2.2)) }) s
  let s := onShoal (fun h => { h with
    stored := h.stored.map (fun x => { x with since := f x.since }),
    flows := h.flows.map (fun e => (e.1, { e.2 with timer := e.2.timer.map f, lastAt := f e.2.lastAt })),
    auditAt := h.auditAt.map (fun t => t.map f) }) s
  let bucket (b : Bucket) : Bucket := { b with at_ := f b.at_ }
  let s := { s with
    qents := s.qents.map (fun q => { q with bucket := q.bucket.map bucket }),
    policers := s.policers.map (fun q => { q with bucket := bucket q.bucket }) }
  onNet (fun n => { n with ports := n.ports.map (fun e => (e.1, { e.2 with slots := e.2.slots.map (fun x => (x.1, (x.2.1, f x.2.2))) })) }) s

def movedPort (d : Int) (x : Port) : Port :=
  { x with
    disableAt := movedO d x.disableAt, phaseAt := moved d x.phaseAt, retryAt := movedO d x.retryAt, declared := movedO d x.declared,
    cliffHold := movedO d x.cliffHold, reqAt := moved d x.reqAt,
    peer := { x.peer with startAt := moved d x.peer.startAt, aborts := x.peer.aborts.map (moved d) },
    link := { x.link with
      replay := x.link.replay.map (fun h => { h with at_ := moved d h.at_ }), nakvAt := moved d x.link.nakvAt,
      rewound := x.link.rewound.map (fun r => (r.1, moved d r.2)), authFails := x.link.authFails.map (moved d),
      goodAt := moved d x.link.goodAt, dataAt := moved d x.link.dataAt, syncAt := moved d x.link.syncAt } }

/-- Move the instants of the timers that run through a stop (R457). -/
def moveRunning (d : Int) (s : State) : State :=
  let s := onHost (fun h => { h with rings := h.rings.map (fun e => (e.1, { e.2 with oldest := moved d e.2.oldest })) }) s
  let s := onTide (fun t => { t with
    up := t.up.map (fun u => (moved d u.1, u.2.1, moved d u.2.2)), down := t.down.map (fun u => (u.1, moved d u.2.1, moved d u.2.2)),
    edge := moved d t.edge, pulse := movedO d t.pulse }) s
  let s := onStop (fun t => { t with cutAt := moved d t.cutAt }) s
  let s := onDev (fun x => { x with bcnAt := moved d x.bcnAt }) s
  let s := onNet (fun n => { n with
    ports := n.ports.map (fun e => (e.1, movedPort d e.2)), macs := n.macs.map (fun e => (e.1, (e.2.1, moved d e.2.2))) }) s
  let s := onFlt (fun f => { f with wdAt := moved d f.wdAt, stalls := f.stalls.map (fun x => (x.1, moved d x.2)) }) s
  let s := onPwr (fun p => { p with rgns := p.rgns.map (fun r => { r with
    gatedAt := moved d r.gatedAt, ebbAt := moved d r.ebbAt, ebbLast := moved d r.ebbLast, idleAt := moved d r.idleAt,
    measuredAt := movedO d r.measuredAt }), replanAt := p.replanAt.map (movedO d) }) s
  let s := onShoal (fun h => { h with slices := h.slices.map (fun x => { x with
    quarters := x.quarters.map (fun q => { q with doneAt := movedO d q.doneAt }) }) }) s
  onObs (fun o => { o with traces := o.traces.map (fun t => { t with tokensAt := moved d t.tokensAt }) }) s

/-- The level of TIDE_SYNC_OUT (R449): with OUT_EN set it is high for 100 ns from each Tide count that is a multiple of
1,000,000 and that the counter has passed with OUT_EN set and without a step; a step inside the 100 ns leaves them their
length (R441). With OUT_EN clear it is low. -/
def tideSyncOut (s : State) : Bool :=
  let t := s.tide
  let edge := t.now / 1000000 * 1000000
  t.outEn && ((decide (t.now < edge + 100) && decide (t.outAt ≤ edge) && decide (t.steppedAt.getD 0 ≤ edge))
    || t.pulse.any (fun p => decide (t.now < p + 100)))

/-- The counter steps forward: it alone moves, and every timer keeps what it has measured (R441). -/
def stepTide (v : Nat) (s : State) : State :=
  let d : Int := (v : Int) - s.tide.now
  let edge := s.tide.now / 1000000 * 1000000
  let s := if tideSyncOut s && s.tide.pulse.all (fun p => decide (p + 100 ≤ s.tide.now)) then onTide (fun t => { t with pulse := some edge }) s else s
  let s := moveRunning d (moveProtocol (moved d) (moved d) s)
  onTide (fun t => { t with now := v, stepped := true, steppedAt := some v }) s

/-! ## Registers (R441, R442, R447, R448) -/

/-- TIDE_NOW_READ: a read of TIDE_NOW_LO latches the upper half. -/
def doNowRead (s : State) : State := if regsLive s then onTide (fun t => { t with nowHi := t.now / 2 ^ 32 }) s else s

def execTideNowRead (s : State) : Host.Outcome State Fault Refusal := .next (doNowRead s)

/-- TIDE_SET_WRITE: a load is refused to a SLAVE, backward, or off the edges of the pin; a MASTER with PINSRC loads at
the next edge, any other Q7 at once (R441, R447, R448). -/
def doTideSet (hi : Word) (s : State) : State :=
    let s := onTide (fun t => { t with setHi := hi }) s
    let t := s.tide
    let v := hi.toNat * 2 ^ 32 + t.setLo.toNat
    let pin := t.role == 1 && t.pinSrc
    if t.role = 2 ∨ v < t.now ∨ (pin = true ∧ v % 1000000 ≠ 0) then onTide (fun t => { t with setRej := true, setRejAt := some t.now }) s
    else if pin then onTide (fun t => { t with pendingSet := some v }) s
    else if v = t.now then s
    else stepTide v s

def execTideSetWrite (hi : Word) (s : State) : Host.Outcome State Fault Refusal := .next (byHost (doTideSet hi) s)

/-- TIDE_ROLE_WRITE: TIDE_CFG; a write to ROLE returns TSTATE to FREE or ACQUIRE (R442). The reserved ROLE 3 leaves
ROLE as it stands. -/
def doTideRole (v : Word) (s : State) : State :=
    let s := onTide (fun t => { t with
      role := if fld v 31 30 = 3 then t.role else fld v 31 30, pinSrc := bitAt v 29, outEn := bitAt v 28,
      outAt := if t.outEn then t.outAt else t.now, pulse := if bitAt v 28 then t.pulse else none,
      src := 3, samples := [], up := none, down := none, good := 0, bad := 0, missing := 0, edge := t.now, pendingSet := none }) s
    retide (setTState (if s.tide.role = 0 then .free else .acquire) s)

def execTideRoleWrite (v : Word) (s : State) : Host.Outcome State Fault Refusal := .next (byHost (doTideRole v) s)

/-! ## Alignment (R443 to R445, R448) -/

/-- The mean of the last eight values, rounded down. -/
def mean (l : List Int) : Int := if l.isEmpty then 0 else l.foldl (· + ·) 0 / l.length

/-- A value of θ and of the delay, in 1/16 ns, and what it does to the alignment state (R443, R444). -/
def takeSample (theta delay : Int) (s : State) : State :=
  let l := ((theta, delay) :: s.tide.samples).take 8
  let f := mean (l.map (·.1))
  let s := onTide (fun t => { t with
    samples := l, theta := f, delay := mean (l.map (·.2)),
    good := if theta.natAbs ≤ 2 * 16 then t.good + 1 else 0, bad := if 20 * 16 < theta.natAbs then t.bad + 1 else 0,
    slow := if f < -16000 then t.tstate == .acquire else false }) s
  if s.tide.tstate = .acquire then
    (if 16000 < f then onTide (fun t => { t with samples := [] }) (stepTide (moved (f / 16) s.tide.now) s)
     else if 16 ≤ s.tide.good then setTState .locked s
     else s)
  else if s.tide.tstate = .locked ∧ 4 ≤ s.tide.bad then setTState .acquire s
  else s

/-- An exchange is complete when a TIDE_ECHO and a TIDE_SYNC of the parent lie within 20 µs of each other (R443). -/
def completeExchange (s : State) : State :=
  match s.tide.up, s.tide.down with
  | some u, some w =>
    let gap := if u.2.2 ≤ w.2.2 then w.2.2 - u.2.2 else u.2.2 - w.2.2
    if 20000 < gap then s
    else
      let up : Int := (u.2.1 : Int) - u.1
      let dn : Int := (w.2.1 : Int) - w.1
      takeSample (8 * (up - dn)) (8 * (up + dn)) (onTide (fun t => { t with up := none, down := none }) s)
  | _, _ => s

/-- TIDE_SYNC: answered with TIDE_ECHO; from the parent, it is half of an exchange (R362, R443). -/
def doTideSync (p sent arrived : Nat) (s : State) : State :=
  if ¬ linkRuns s p ∨ ¬ portRun s p then s
  else
    let s := onLink p (fun l => { l with
      msgs := l.msgs.filter (fun m => byteAt m 0 != 2) ++ [linkMsg 2 (bytesLE 8 sent) (bytesLE 8 arrived)] }) s
    let s := retide s
    if s.tide.role = 2 ∧ parentPort s = some p then completeExchange (onTide (fun t => { t with down := some (sent, arrived, t.now) }) s) else s

def execTideSync (port sent arrived : Nat) (s : State) : Host.Outcome State Fault Refusal :=
  .next (doTideSync port sent arrived (takeMsg port 1 s))

/-- TIDE_ECHO: own pin time as sent, and its arrival at the parent (R443). -/
def doTideEcho (p sent arrived : Nat) (s : State) : State :=
  if ¬ linkRuns s p ∨ ¬ portRun s p then s
  else
    let s := retide s
    if s.tide.role = 2 ∧ parentPort s = some p then completeExchange (onTide (fun t => { t with up := some (sent, arrived, t.now) }) s) else s

def execTideEcho (port sent arrived : Nat) (s : State) : Host.Outcome State Fault Refusal :=
  .next (doTideEcho port sent arrived (takeMsg port 2 s))

/-- TIDE_PARENT_LOSS: a SLAVE takes the next parent, or goes to HOLDOVER (R444, R445). -/
def execTideParentLoss (s : State) : Host.Outcome State Fault Refusal := .next (if linksOn s then retide s else s)

/-- The multiple of a millisecond nearest to a count. -/
def nearestMs (t : Nat) : Nat := (t + 500000) / 1000000 * 1000000

/-- TIDE_SYNC_IN_EDGE: at a MASTER with PINSRC, a pending TIDE_SET loads, else the edge disciplines the counter (R448). -/
def doEdge (s : State) : State :=
  if s.tide.role ≠ 1 ∨ ¬ s.tide.pinSrc ∨ s.dev.state = .reset then s
  else
    let s := onTide (fun t => { t with edge := t.now, missing := 0 }) s
    let s := if s.tide.tstate = .holdover then setTState .acquire s else s
    match s.tide.pendingSet with
    | some v =>
      let s := onTide (fun t => { t with pendingSet := none, samples := [] }) s
      if v < s.tide.now then onTide (fun t => { t with setRej := true, setRejAt := some t.now }) s else if v = s.tide.now then s else stepTide v s
    | none => takeSample (16 * ((nearestMs s.tide.now : Int) - s.tide.now)) 0 s

def execTideSyncInEdge (s : State) : Host.Outcome State Fault Refusal := .next (whenLive doEdge s)

/-- TIDE_SYNC_IN_MISSING: three missing edges in a row take the Q7 to HOLDOVER (R448). -/
def doEdgeMissing (s : State) : State :=
  if s.tide.role ≠ 1 ∨ ¬ s.tide.pinSrc ∨ s.dev.state = .reset then s
  else
    let s := onTide (fun t => { t with missing := t.missing + 1 }) s
    if 3 ≤ s.tide.missing ∧ (s.tide.tstate = .acquire ∨ s.tide.tstate = .locked) then setTState .holdover s else s

def execTideSyncInMissing (s : State) : Host.Outcome State Fault Refusal := .next (whenLive doEdgeMissing s)

/-! ## Launches (R452 to R454) -/

/-- The attachment ports bound to a job, ascending (R230, R452). -/
def launchPorts (s : State) (job : Nat) : List Nat :=
  sortBy id (((s.mem.jobPorts.filter (fun x => x.2 == job)).map (·.1)).filter (fun p => (bindOf s p).isSome))

/-- LAUNCH for the endpoint of a port. -/
def sendLaunch (id mark arg : Nat) (p : Nat) (s : State) : State :=
  match bindOf s p with
  | none => s
  | some b =>
    let body : BitVec 128 := pack 128 [(8, 0x01), (24, id), (64, mark), (32, arg)]
    if linkUp s p then directOn p (originate (ctlPkt vcCTRL b.epid 0 0 body)) s else s

def workTideLaunch : Work := fun cx op _ s =>
  let job := fld op 295 288
  let id := fld op 319 296
  let mark := fld op 383 320
  let ports := launchPorts s job
  if ¬ onlyBits op [(383, 320), (319, 296), (295, 288), (287, 256)] ∨ job = 0 ∨ ports.isEmpty then (s, fail stBAD)
  else
    let s := forAll ports (sendLaunch id mark (fld op 287 256)) s
    ({ s with launches := s.launches ++ [{ id := id, mark := mark, ports := ports, desc := (cx.ring, cx.idx), fixed := s.stop.frozen }] },
      .wait .scheduled)

def execTideLaunch (r i : Nat) (s : State) : Host.Outcome State Fault Refusal := .next (runDesc 0x08 workTideLaunch r i [] s)

/-- A launch completes: DONE where every port answered DONE, else TIMEOUT with LAUNCH_LATE for each that did not (R452). -/
def endLaunch (l : Launch) (s : State) : State :=
  let lateOf := l.ports.filter (fun p => !l.answered.contains p)
  let s := { s with launches := s.launches.filter (fun x => !(x.desc == l.desc)) }
  let s := forAll lateOf (fun p => postDev 0x51 (bytesLE 3 l.id ++ bytesLE 2 p)) s
  finishDesc l.desc (if lateOf.isEmpty then stDONE else stTIMEOUT) (l.ports.length + lateOf.length * 2 ^ 32) s

/-- LAUNCH_ACK: counted toward its launch, or dropped in LAUNCH_STRAY (R454). -/
def doLaunchAck (port : Nat) (p : Packet) (s : State) : State :=
  if ¬ engineFor s port p ∨ p.ptype ≠ 0 ∨ p.ctype ≠ 0x02 then s
  else
    let bufs := deliveredAt s port p
    let s := freeAll (bufs.filter (fun b => b.1 < 4)) (takeDelivered port p s)
    let id := fld p.ctl 119 96
    match s.launches.find? (fun l => l.id == id && l.ports.contains port && !l.answered.contains port && !l.late.contains port) with
    | none => count kLAUNCH_STRAY s
    | some l =>
      let l := if fld p.ctl 31 24 = stDONE then { l with answered := l.answered ++ [port] } else { l with late := l.late ++ [port] }
      let s := { s with launches := s.launches.map (fun x => if x.desc = l.desc then l else x) }
      if l.answered.length + l.late.length = l.ports.length then endLaunch l s else s

def execLaunchAck (port : Nat) (p : Packet) (s : State) : Host.Outcome State Fault Refusal := .next (doLaunchAck port p s)

/-! ## The cut (R455 to R459, R463) -/

def workStopAt : Work := fun cx op _ s =>
  let id := fld op 319 304
  if ¬ onlyBits op [(383, 320), (319, 304)] ∨ id = 0 then (s, fail stBAD)
  else if s.dev.state ≠ .run ∨ s.stop.sstate ≠ .idle then (s, fail stHELD)
  else (onStop (fun t => { t with sstate := .armed, stopId := id, mark := fld op 383 320, armedBy := some (cx.ring, cx.idx) }) s, .wait .scheduled)

def execStopAt (r i : Nat) (s : State) : Host.Outcome State Fault Refusal := .next (runDesc 0x09 workStopAt r i [] s)

/-- Set the stage of an accepted descriptor. -/
def stageDesc (ri : Nat × Nat) (st : Stage) : State → State :=
  onHost (fun h => { h with accepted := h.accepted.map (fun d => if d.ring = ri.1 ∧ d.idx = ri.2 then { d with stage := st } else d) })

/-- The Drezh ports in RUN, ascending: Neap and Low water are sub-states of RUN (R392). -/
def runPorts (s : State) : List Nat := (s.net.ports.map (·.1)).filter (fun p => isDrezhPort s p && linkUp s p)

/-- Send markers of the cut on its ports: one in Low water sends its own once it carries packets again. -/
def sendMarks (s : State) : State :=
  forAll (s.stop.ports.map (·.port)) (fun p t => if (getPort t p).lstate = .lowWater then t else sendMark p t) s

/-- The tables whose apply is due no later than a Tidemark and has not begun (R178). -/
def appliesDue (s : State) (mark : Nat) : List Nat :=
  (s.emb.tables.filter (fun e => (e.2.sched.map (fun c => decide (c.mark ≤ mark) && !c.begun)).getD false)).map (·.1)

/-- The applies that are due no later than a Tidemark begin (R178, R451). -/
def appliesFirst (mark : Nat) (s : State) : State := forAll (appliesDue s mark) beginApply s

/-- The tables whose apply of a Tidemark has begun and not ended: the cut of that Tidemark waits for it (R178, R463; log
entry 106). -/
def appliesOpen (s : State) (mark : Nat) : List Nat :=
  (s.emb.tables.filter (fun e => (e.2.sched.map (fun c => decide (c.mark = mark) && c.begun)).getD false)).map (·.1)

/-- The data path freezes at the cut, and STOP_MARK goes out on every port in RUN (R456, R458, R459). What had been done
before the stop is no longer known to a STOP_RESUME (R465). -/
def cut (id mark : Nat) (byMark : Bool) (s : State) : State :=
  let armed := s.stop.armedBy
  let mine := armed.isSome && s.stop.stopId == id
  let s := onStop (fun t => { t with
    sstate := .cut, stopId := id, mark := mark, cutAt := s.tide.now, byMark := byMark, before := s.dev.state, frozen := true,
    openPorts := 0, armedBy := if mine then t.armedBy else none, ports := (runPorts s).map (fun p => { port := p }),
    resumeAt := none, resumers := [], resumed := [], lastDone := none }) s
  let s := match armed with
    | some ri => if mine then stageDesc ri .running s else finishDesc ri stHELD 0 s
    | none => s
  sendMarks (postDev 0x52 (bytesLE 2 id ++ bytesLE 1 (b2n (!mine))) s)

/-- The cut of the armed stop is due (R459). -/
def cutDue (s : State) : Bool := s.stop.sstate == .armed && s.dev.state == .run && due s s.stop.mark

/-- STOP_CUT_TIDEMARK: local Tide reaches the T of the armed stop (R459). An apply whose Tidemark is T completes first, and
until then the cut stays due (R178, R463). -/
def doCutTidemark (s : State) : State :=
  if ¬ cutDue s then s
  else
    let s := appliesFirst s.stop.mark s
    if appliesOpen s s.stop.mark = [] then cut s.stop.stopId s.stop.mark false s else s

def execStopCutTidemark (s : State) : Host.Outcome State Fault Refusal := .next (doCutTidemark s)

/-- Packets of a control type that the link of a port has not begun are withdrawn. -/
def withdrawCtl (ctype : Nat) (p : Nat) : State → State :=
  onLink p (fun l => { l with tx := l.tx.filter (fun t => !(t.die == 4 && t.pkt.ctype == ctype && t.lastFsn.isNone)) })

/-- Of two markers of one instant the lower STOP_ID is adopted (R463). -/
def adoptLower (id mark : Nat) (s : State) : State :=
  if s.stop.sstate = .cut ∧ s.stop.byMark ∧ s.stop.cutAt = s.tide.now ∧ id < s.stop.stopId then
    let old := s.stop.armedBy
    let s := onStop (fun t => { t with stopId := id, mark := mark, armedBy := none }) s
    let s := match old with
      | some ri => finishDesc ri stHELD 0 s
      | none => s
    forAll (s.stop.ports.map (·.port)) (fun p t =>
      if (getPort t p).link.tx.any (fun k => k.pkt.ctype == 0x08 && k.lastFsn.isNone) then sendMark p (withdrawCtl 0x08 p t) else t) s
  else s

/-- A STOP_MARK makes the Q7's cut (R459). -/
def cutsOnMark (s : State) : Bool := (s.stop.sstate == .idle || s.stop.sstate == .armed) && engineOn s

/-- STOP_MARK: it cuts a Q7 not yet cut, once the applies of its Tidemark that have begun are complete, and closes its
link's count (R459, R460, R463). -/
def doStopMark (port : Nat) (p : Packet) (s : State) : State :=
  let id := fld p.ctl 119 104
  let mark := fld p.ctl 103 40
  if p.ptype ≠ 0 ∨ p.ctype ≠ 0x08 ∨ ¬ linkTook s port then takeDelivered port p s
  else
    let s := onlyIf (cutsOnMark s) (appliesFirst mark) s
    if cutsOnMark s ∧ appliesOpen s mark ≠ [] then s
    else
    let s := takeDelivered port p s
    let s := if cutsOnMark s then cut id mark true s else adoptLower id mark s
    if s.stop.sstate = .cut then
      onStop (fun t => { t with ports := t.ports.map (fun e =>
        if e.port = port ∧ ¬ e.gotMark then
          { e with gotMark := true, pktsField := fld p.ctl 39 8, rxAtMark := (getPort s port).pktsRx }
        else e) }) s
    else s

def execStopMark (port : Nat) (p : Packet) (s : State) : Host.Outcome State Fault Refusal := .next (whenLive (doStopMark port p) s)

/-- A port is drained: its markers have crossed and every flit it sent is acknowledged, or it has gone down (R460, R461). -/
def portDrained (s : State) (e : StopPort) : Bool :=
  let x := getPort s e.port
  e.down || (e.gotMark && x.link.tx.isEmpty && x.link.replay.isEmpty && x.lstate != .lowWater)

/-- STOP_SETTLE: every port is drained, or 100 µs have gone by since the cut (R460). -/
def doSettle (s : State) : State :=
  let left := (s.stop.ports.filter (fun e => !portDrained s e)).length
  if s.stop.sstate ≠ .cut ∨ (s.dev.state ≠ .run ∧ s.dev.state ≠ .train) ∨ (left ≠ 0 ∧ ¬ due s (s.stop.cutAt + 100000)) then s
  else
    let diff := s.stop.ports.any (fun e => e.gotMark && e.pktsField != e.rxAtMark)
    let failed := diff || left != 0
    let by_ := s.stop.armedBy
    let s := onStop (fun t => { t with
      sstate := if failed then .failed else .settled, openPorts := left, settledAt := s.tide.now, armedBy := none }) s
    let s := enterState .stopped s
    let s := postDev 0x53 (bytesLE 2 s.stop.stopId ++ bytesLE 2 left ++ bytesLE 1 (b2n diff)) s
    match by_ with
    | some ri => finishDesc ri (if failed then stPOISONED else stDONE) s.tide.now s
    | none => s

def execStopSettle (s : State) : Host.Outcome State Fault Refusal := .next (doSettle s)

/-! ## The resume (R465 to R467) -/

/-- A stop is in force: settled, and the device STOPPED. -/
def stopHolds (s : State) (id : Nat) : Bool :=
  s.dev.state == .stopped && (s.stop.sstate == .settled || s.stop.sstate == .failed) && s.stop.stopId == id

/-- Send RESUME on a port, from which both counts begin anew (R458, R465). -/
def sendResume (r p : Nat) (s : State) : State :=
  let s := soundCtl p (resumePkt s p r) (linkMark p (resumePkt s p r) (withdrawCtl 0x09 p s))
  onStop (fun t => { t with resumed := addNew t.resumed p }) (onPort p (fun x => { x with pktsTx := 0, pktsRx := 0 }) s)

/-- The first R to come stands, and of one instant the earlier; RESUME goes out on every port in RUN that has neither
sent nor received one (R465, R466). -/
def takeResume (r : Nat) (s : State) : State :=
  match s.stop.resumeAt with
  | none =>
    let s := onStop (fun t => { t with resumeAt := some r, resumeTaken := s.tide.now }) s
    forAll ((runPorts s).filter (fun p => !s.stop.resumed.contains p)) (sendResume r) s
  | some r0 =>
    if s.stop.resumeTaken = s.tide.now ∧ r < r0 then
      let s := onStop (fun t => { t with resumeAt := some r }) s
      forAll ((runPorts s).filter (fun p => (getPort s p).link.tx.any (fun k => k.pkt.ctype == 0x09 && k.lastFsn.isNone))) (sendResume r) s
    else s

def workStopResume : Work := fun cx op _ s =>
  let id := fld op 319 304
  let r := fld op 383 320
  if ¬ onlyBits op [(383, 320), (319, 304)] then (s, fail stBAD)
  else if stopHolds s id then
    let result := match s.stop.resumeAt with
      | some r0 => if s.stop.resumeTaken < s.tide.now then r0 else 0
      | none => 0
    (onStop (fun t => { t with resumers := t.resumers ++ [(cx.ring, cx.idx, result)] }) (takeResume r s), .wait .running)
  else match s.stop.lastDone with
    | some l => if l.1 = id then (s, okR l.2) else (s, fail stHELD)
    | none => (s, fail stHELD)

def execStopResume (r i : Nat) (s : State) : Host.Outcome State Fault Refusal := .next (runDesc 0x0A workStopResume r i [] s)

/-- RESUME: its counts begin anew, and one for the stop in force schedules the resume; any other is dropped (R458, R466). -/
def doResume (port : Nat) (p : Packet) (s : State) : State :=
  let s := takeDelivered port p s
  if p.ptype ≠ 0 ∨ p.ctype ≠ 0x09 ∨ ¬ linkUp s port then s
  else
    let s := onPort port (fun x => { x with pktsTx := 0, pktsRx := 0 }) s
    if ¬ stopHolds s (fld p.ctl 119 104) then s
    else takeResume (fld p.ctl 103 40) (onStop (fun t => { t with resumed := addNew t.resumed port }) s)

def execResume (port : Nat) (p : Packet) (s : State) : Host.Outcome State Fault Refusal := .next (whenLive (doResume port p) s)

/-- A mark that was pending at the cut and was taken before it: it waits for the resume and moves with it. What falls at
the Tidemark of the cut itself takes effect behind it, in the order of R451, and is not pending (R465; log entry 106). -/
def pendingAtCut (s : State) (mark : Nat) (fixed : Bool) : Bool := !fixed && decide (max s.stop.cutAt s.stop.mark < mark)

/-- Tidemarks pending at the cut move by D: applies, launch deadlines, snapshots, counter resets (R465). -/
def moveMarks (d : Int) (s : State) : State :=
  let mv (mark at_ : Nat) (fixed : Bool) : Nat := if pendingAtCut s at_ fixed then moved d mark else mark
  let snap (x : Snap) : Snap := { x with mark := mv x.mark x.mark x.fixed, fixed := false }
  let s := onEmb (fun e => { e with tables := e.tables.map (fun t => (t.1, { t.2 with
    sched := t.2.sched.map (fun c => { c with mark := mv c.mark c.mark c.fixed, fixed := false }) })) }) s
  let s := { s with launches := s.launches.map (fun l => { l with mark := mv l.mark (l.mark + 10000) l.fixed, fixed := false }) }
  onObs (fun o => { o with
    snaps := o.snaps.map snap, resets := o.resets.map snap }) s

/-- TADM of a request advanced by D, modulo 2^32 (R218, R467). -/
def moveTadm (d : Int) (p : Packet) : Packet :=
  if p.ptype ≠ 0 ∧ p.ovc = vcREQ ∧ ¬ mmResp p.sub then
    { p with body := bytesBE 32 (setFld p.sub 185 154 (ofSigned 32 ((mmTadm p.sub : Int) + d))).toNat ++ p.data }
  else p

/-- A stored request whose TADM has been advanced, under the parity of its new bytes; one stored with a byte under bad
parity keeps it (R283, R467). -/
def moveStored (d : Int) (x : Stored) : Stored :=
  let k := moveTadm d x.pkt
  let old := packetParity x.pkt
  { x with pkt := k, par := (List.range x.par.length).map (fun i => (nth x.par i false != nth old i false) != nth (packetParity k) i false) }

/-- Advance TADM in every request the Q7 holds. -/
def moveHeld (d : Int) (s : State) : State :=
  let s := onShoal (fun h => { h with
    stored := h.stored.map (moveStored d),
    flows := h.flows.map (fun f => (f.1, { f.2 with
      held := f.2.held.map (fun x => (x.1, x.2.1, moveTadm d x.2.2.1, x.2.2.2)), late := f.2.late.map (fun x => (x.1, x.2.1, moveTadm d x.2.2.1, x.2.2.2)) })) }) s
  let s := onRoute (fun r => { r with
    outbox := r.outbox.map (moveTadm d), toEngine := r.toEngine.map (fun e => (e.1, moveTadm d e.2.1, e.2.2)) }) s
  onMem (fun m => { m with outst := m.outst.map (fun o => { o with pkt := moveTadm d o.pkt }) }) s

/-- An instant as the interval from the cut to now leaves it: one before the cut moves by the whole interval, one within it
to now (R467). -/
def thawed (s : State) (t : Nat) : Nat :=
  if t ≤ s.stop.cutAt then moved ((s.tide.now : Int) - s.stop.cutAt) t else s.tide.now

/-- Everything leaves the frozen state: timers keep what they had left, Tidemarks and TADM move by D, packets of ports
that went down re-enter path choice (R461, R465, R467). -/
def unfreeze (d : Int) (s : State) : State :=
  let s := moveProtocol (thawed s) (moved ((s.tide.now : Int) - s.stop.cutAt)) s
  let s := moveHeld d (moveMarks d s)
  let s := onStop (fun t => { t with frozen := false }) s
  forAll ((s.net.ports.filter (fun e => e.2.reenter)).map (·.1)) reenterQueues s

/-- FW_SVN and CFG_SVN advance to the SVNs of the bundles in force as the Q7 first enters RUN under them; a counter is
never lowered (R507, R520, R583). -/
def advanceSvn (s : State) : State :=
  if s.sec.advanced then s
  else onSec (fun x => { x with advanced := true, fwSvn := max x.fwSvn x.fw.svn, cfgSvn := max x.cfgSvn x.cfg.svn }) s

/-- The resume of the stop in force is due (R465). -/
def resumeDue (s : State) : Bool := stopHolds s s.stop.stopId && s.stop.resumeAt.any (fun r => due s r)

/-- RESUME_TIDEMARK: at R, or at once if R had passed when it was taken (R465). -/
def doResumeTidemark (s : State) : State :=
  match s.stop.resumeAt with
  | none => s
  | some r =>
    if ¬ stopHolds s s.stop.stopId ∨ ¬ due s r then s
    else
      let id := s.stop.stopId
      let d : Int := (max r s.stop.resumeTaken : Nat) - (s.stop.mark : Int)
      let waiting := s.stop.resumers
      let back := s.stop.before
      let s := runDeferred (unfreeze d s)
      let s := onStop (fun t => { t with
        sstate := .idle, openPorts := 0, stopId := 0, resumeAt := none, resumers := [], resumed := [], ports := [], lastDone := some (id, r) }) s
      let s := enterState back (onlyIf (back == .run) advanceSvn s)
      let s := postDev 0x54 (bytesLE 2 id ++ bytesLE 8 (ofSigned 64 d)) s
      forAll waiting (fun w => finishDesc (w.1, w.2.1) stDONE w.2.2) s

def execResumeTidemark (s : State) : Host.Outcome State Fault Refusal := .next (whenLive doResumeTidemark s)

/-! ## State images (R468 to R470) -/

/-- The merge arrays that hold state: those of a group's fragment (R468). -/
def maUsed (s : State) : Nat :=
  maskOf ((s.groups.flatMap (fun e => e.2.frag.arrays)).map (fun a => 8 * a.1 + a.2) |>.foldl (fun l x => addNew l x) [])

/-- The pool arrays that hold state: those of a table (R468). -/
def paUsed (s : State) : Nat :=
  maskOf ((s.emb.tables.flatMap (fun e => (bitsOf 4 e.2.info.paMask).map (fun k => 4 * e.2.info.die + k))).foldl (fun l x => addNew l x) [])

/-- The header of an image whose sections have the given lengths (R468). -/
def imageHeader (s : State) (lens : List Nat) : List Byte :=
  let offs := lens.foldl (fun a n => a ++ [a.getLastD 256 + n]) [256]
  bytesLE 4 0x4B515353 ++ bytesLE 2 1 ++ bytesLE 2 s.stop.stopId ++ bytesLE 8 s.stop.mark ++ bytesLE 8 (offs.getLastD 256)
    ++ bytesLE 4 (selfEpid s) ++ bytesLE 2 8 ++ bytesLE 2 0 ++ bytesLE 4 (maUsed s) ++ bytesLE 2 (paUsed s) ++ bytesLE 2 0
    ++ bytesLE 8 s.sec.fw.id ++ List.replicate 16 0
    ++ (List.range 8).flatMap (fun k => bytesLE 1 (k + 1) ++ List.replicate 7 0 ++ bytesLE 8 (nth offs k 0) ++ bytesLE 8 (nth lens k 0))

/-- A section sealed under the save key with the header as additional data: IV, ciphertext, tag (R468). -/
def sealSection (key hdr : List Byte) (id k : Nat) (pt : List Byte) : List Byte :=
  let iv := (List.range 12).map (fun i => Config.imageIv id k i)
  let ct := gcmCrypt key iv pt
  iv ++ ct ++ gcmTag key iv hdr ct

/-- A descriptor of the Q7 that made an image is none of the Q7 that restores it. -/
def noDesc : Nat × Nat := (8192, 0)

/-- A group as an image holds it: a waiting descriptor as no one's, accumulators in HBM left to section 0x08. -/
def savedGroup (g : Group) : Group :=
  { g with
    quiescer := g.quiescer.map (fun _ => noDesc), destroyers := g.destroyers.map (fun _ => noDesc),
    accWin := if g.frag.accHome = 1 then [] else g.accWin, accF32 := if g.frag.accHome = 1 then [] else g.accF32 }

/-- A table as an image holds it, its rows left to section 0x08. -/
def savedTable (t : Table) : Table :=
  { t with
    space0 := [], space1 := [], space2 := [], space3 := [], sched := t.sched.map (fun c => { c with desc := c.desc.map (fun _ => noDesc) }),
    quiescer := t.quiescer.map (fun _ => noDesc), destroyers := t.destroyers.map (fun _ => noDesc) }

/-- What R468 lists of a stopped Q7, by section. Ethernet frames, soundings, the trace, Rockpool, counters, link keys, the
repair log and the Tide counter are not saved. -/
def savedOf (s : State) : Saved :=
  let kept (x : Stored) : Bool := match x.acct with
    | .ethIn _ => false
    | .ethOut _ => false
    | _ => true
  let hbm := s.groups.filter (fun e => e.2.frag.accHome == 1)
  let snap (x : Snap) : Snap := { x with desc := noDesc }
  { stop := {
      stop := { s.stop with armedBy := none, resumers := [], resumed := [], resumeAt := none, lastDone := none },
      pkts := s.net.ports.map (fun e => (e.1, (e.2.pktsTx, e.2.pktsRx))), launches := s.launches.map (fun l => { l with desc := noDesc }),
      snaps := s.obs.snaps.map snap, resets := s.obs.resets.map snap },
    shoal := {
      slices := s.shoal.slices, stored := s.shoal.stored.filter kept, ingress := s.net.ports.map (fun e => (e.1, e.2.ingress)),
      queues := s.net.ports.map (fun e => (e.1, e.2.queues)), reenter := (s.net.ports.filter (fun e => e.2.reenter)).map (·.1) },
    groups := { groups := s.groups.map (fun e => (e.1, savedGroup e.2)) },
    emb := { emb := { s.emb with tables := s.emb.tables.map (fun e => (e.1, savedTable e.2)), rockpool := [], missed := [] } },
    mem := { mem := { s.mem with
      jobs := [], jobPorts := [], capped := [], denied := [], removing := [], unbinding := [], unbindWait := s.mem.unbindWait.map (fun e => (e.1, [])),
      regions := s.mem.regions.map (fun e => (e.1, { e.2 with mem := [], releasing := e.2.releasing.map (fun _ => noDesc) })) } },
    flows := { flows := s.shoal.flows, sourced := s.route.flows },
    route := {
      route := { s.route with flows := [], batch := [], commits := [] }, modes := (List.range 48).map (fun g => (mgetD s.net.groups g {}).mode),
      jobs := s.mem.jobs, jobPorts := s.mem.jobPorts, capped := s.mem.capped, jtag := s.mem.jtag, qents := s.qents, policers := s.policers,
      shoal := s.shoal.cfg,
      ports := s.net.ports.map (fun e => (e.1, {
        dim := e.2.dim, dl := e.2.dl, sched := e.2.sched, deficit := e.2.deficit, round := e.2.round, fillRound := e.2.fillRound,
        fillC := e.2.fillC, slots := e.2.slots })) },
    hbm := {
      spaces := s.emb.tables.map (fun e => (e.1, ⟨e.2.space0, e.2.space1, e.2.space2, e.2.space3⟩)),
      regions := s.mem.regions.map (fun e => (e.1, e.2.mem)),
      accWin := hbm.map (fun e => (e.1, e.2.accWin)), accF32 := hbm.map (fun e => (e.1, e.2.accF32)) } }

/-- The image of the stop in force (R468). -/
def imageOf (key : List Byte) (s : State) : List Byte :=
  let pts := sectionsOf (savedOf s)
  let hdr := imageHeader s (pts.map (fun p => p.length + 28))
  hdr ++ ((List.range 8).zip pts).flatMap (fun e => sealSection key hdr s.stop.stopId (e.1 + 1) e.2)

def imageFields : List (Nat × Nat) := [(383, 320), (319, 288), (287, 224), (223, 208)]

def workStateSave : Work := fun cx op _ s =>
  let off := fld op 287 224
  let len := fld op 319 288
  if ¬ onlyBits op imageFields ∨ fld op 325 320 ≠ 0 then (s, fail stBAD)
  else match s.sec.cfg.saveKey with
    | none => (s, fail stNORES)
    | some key =>
      if s.stop.sstate = .failed then (s, fail stPOISONED)
      else if s.stop.sstate ≠ .settled ∨ s.stop.stopId ≠ fld op 223 208 then (s, fail stHELD)
      else
        let img := imageOf key s
        if img.length < off + len then (s, .done stNORES img.length false)
        else (hostWrite cx.func (fld op 383 320) (sliceB img off len) s, okR img.length)

def execStateSave (r i : Nat) (s : State) : Host.Outcome State Fault Refusal := .next (runDesc 0x0B workStateSave r i [] s)

/-- The preconditions of a restore (R470). -/
def restoreOk (s : State) : Bool :=
  s.dev.state == .train && s.net.ports.all (fun e => !isDrezhPort s e.1 || e.2.lstate == .down)
  && s.groups.isEmpty && s.emb.tables.isEmpty && s.mem.coves.isEmpty && s.mem.windows.isEmpty && s.mem.regions.isEmpty
  && s.mem.jobs.isEmpty && s.mem.jobPorts.isEmpty

/-- A section of an image opened under the save key; none where its tag fails (R468). -/
def openSection (key img : List Byte) (k : Nat) : Option (List Byte) :=
  let e := sliceB img (64 + 24 * k) 24
  let off := leAt e 8 8
  let len := leAt e 16 8
  if byteAt e 0 ≠ k + 1 ∨ len < 28 ∨ img.length < off + len then none
  else
    let b := sliceB img off len
    let iv := b.take 12
    let ct := (b.drop 12).take (len - 28)
    if b.drop (len - 16) = gcmTag key iv (img.take 256) ct then some (gcmCrypt key iv ct) else none

/-- A port under what an image holds of it: its PKTS, its accounts and queues, its settings and turns (sections 0x01, 0x02 and
0x07). -/
def portRestored (v : Saved) (p : Nat) (x : Port) : Port :=
  let c := mgetD v.stop.pkts p (0, 0)
  let x := { x with
    pktsTx := c.1, pktsRx := c.2, ingress := mgetD v.shoal.ingress p [], queues := mgetD v.shoal.queues p [],
    reenter := v.shoal.reenter.contains p }
  match mget v.route.ports p with
  | none => x
  | some y => { x with
      dim := y.dim, dl := y.dl, sched := y.sched, deficit := y.deficit, round := y.round, fillRound := y.fillRound, fillC := y.fillC,
      slots := y.slots }

/-- A group with the accumulators of section 0x08. -/
def groupRestored (v : Saved) (gid : Nat) (g : Group) : Group :=
  if g.frag.accHome = 1 then { g with accWin := mgetD v.hbm.accWin gid [], accF32 := mgetD v.hbm.accF32 gid [] } else g

/-- A table with the rows of section 0x08. -/
def tableRestored (v : Saved) (tid : Nat) (t : Table) : Table :=
  match mget v.hbm.spaces tid with
  | some r => { t with space0 := r.space0, space1 := r.space1, space2 := r.space2, space3 := r.space3 }
  | none => t

/-- The state after an image is committed: what its sections hold, and nothing else, is the image's (R468, R470). -/
def restoreFrom (v : Saved) (s : State) : State :=
  let ports := v.stop.pkts.foldl (fun m e => mput m e.1 (portRestored v e.1 (mgetD m e.1 {}))) s.net.ports
  { s with
    groups := v.groups.groups.map (fun e => (e.1, groupRestored v e.1 e.2)), launches := v.stop.launches,
    qents := v.route.qents, policers := v.route.policers,
    emb := { v.emb.emb with tables := v.emb.emb.tables.map (fun e => (e.1, tableRestored v e.1 e.2)) },
    mem := { v.mem.mem with
      jobs := v.route.jobs, jobPorts := v.route.jobPorts, capped := v.route.capped, jtag := v.route.jtag,
      regions := v.mem.mem.regions.map (fun e => (e.1, { e.2 with mem := mgetD v.hbm.regions e.1 [] })) },
    route := { v.route.route with flows := v.flows.sourced },
    shoal := { s.shoal with cfg := v.route.shoal, slices := v.shoal.slices, stored := v.shoal.stored, flows := v.flows.flows },
    net := { s.net with ports := ports },
    obs := { s.obs with
      snaps := v.stop.snaps, resets := v.stop.resets,
      windows := v.stop.snaps.foldl (fun m x => mput m x.window { (mgetD m x.window {}) with pend := true }) s.obs.windows },
    stop := { v.stop.stop with sstate := .settled, frozen := true, ports := [] } }

/-- Every merge and pool array an image uses is enabled here (R5, R470). -/
def arraysEnabled (s : State) (img : List Byte) : Bool :=
  (bitsOf 32 (leAt img 32 4)).all (fun k => maEnabled s (k / 8) (k % 8)) && (bitsOf 16 (leAt img 36 2)).all (fun k => paEnabled s (k / 4) (k % 4))

/-- The whole image is checked and committed, and the Q7 enters STOPPED (R470). -/
def commitImage (key : List Byte) (s : State) : State × Nat :=
  let img := s.restoring
  let s0 := { s with restoring := [] }
  let secs := (List.range 8).map (openSection key img)
  let plain := secs.map (fun x => x.getD [])
  if leAt img 0 4 ≠ 0x4B515353 ∨ leAt img 4 2 ≠ 1 ∨ leAt img 24 4 ≠ selfEpid s ∨ leAt img 28 2 ≠ 8 ∨ leAt img 40 8 ≠ s.sec.fw.id
      ∨ secs.any (fun x => x.isNone) then (s0, stBAD)
  else match savedRead plain with
    | none => (s0, stBAD)
    | some v =>
      if v.route.modes ≠ (List.range 48).map (fun g => (mgetD s.net.groups g {}).mode) then (s0, stBAD)
      else
        let t := restoreFrom v s0
        if ¬ arraysEnabled s img ∨ ¬ hbmFits t ∨ ¬ stagingFits t then (s0, stNORES)
        else
          let t := onStop (fun x => { x with stopId := leAt img 6 2, mark := leAt img 8 8 }) t
          (enterState .stopped (openGates (usedRegions t) t), stDONE)

def workStateRestore : Work := fun _ op d s =>
  let off := fld op 287 224
  let piece := sliceB d 0 (fld op 319 288)
  let lost := { s with restoring := [] }
  if ¬ restoreOk s then (lost, fail stHELD)
  else if ¬ onlyBits op imageFields ∨ fld op 325 320 ≠ 0 ∨ fld op 223 208 ≠ 0 ∨ off ≠ s.restoring.length then (lost, fail stBAD)
  else match s.sec.cfg.saveKey with
    | none => (lost, fail stNORES)
    | some key =>
      let s := { s with restoring := s.restoring ++ piece }
      let total := leAt s.restoring 16 8
      if s.restoring.length < 24 then (s, ok)
      else if total < 256 ∨ total < s.restoring.length then (lost, fail stBAD)
      else if s.restoring.length < total then (s, ok)
      else
        let r := commitImage key s
        (r.1, fail r.2)

def execStateRestore (r i : Nat) (d : List Byte) (s : State) : Host.Outcome State Fault Refusal := .next (runDesc 0x0C workStateRestore r i d s)

end Sys2Proof.Machine
end

