-- ==== Sys2Proof/Machine/Observe.lean ====
section
/-! DEFINITION. Counters and gauges as snapshots show them, snapshots, counter resets and telemetry drains (R561 to
R574, R581). -/

namespace Sys2Proof.Machine

/-! ## The catalogue (R564, R565) -/

/-- Counters of a record of a scope; 0 for a reserved scope. -/
def scopeCtrs (scope : Nat) : Nat := nth [8, 29, 6, 5, 3, 14, 11, 9, 3, 3, 3, 56] scope 0

/-- Instance numbers of a scope. FAULT takes the DIE codes 0 to 24. -/
def scopeSize (scope : Nat) : Nat := nth [1, 768, 49408, 48, 16, 4, 16384, 65536, 65536, 256, 8192, 25600] scope 0

/-- The group at a group table entry. -/
def groupAt (s : State) (e : Nat) : Option Group := ((s.groups.find? (fun g => g.2.entry == e)).map (·.2))

/-- An instance exists (R565). -/
def instanceExists (s : State) (scope n : Nat) : Bool :=
  if scope = 1 then portExists s n
  else if scope = 2 then decide (768 ≤ n / 64) || portExists s (n / 64)
  else if scope = 3 then arrayEnabled s (n / 12) (n % 12)
  else if scope = 6 then (groupAt s n).isSome
  else if scope = 7 then (getTable s n).isSome
  else if scope = 8 then s.mem.coves.contains n
  else true

/-- KEY of an instance. -/
def instanceKey (s : State) (scope n : Nat) : Nat :=
  if scope = 2 then (if n % 64 < 8 then 0 else queueJob s (n / 64) (n % 64))
  else if scope = 6 then ((groupAt s n).map (·.frag.group)).getD 0
  else if scope = 7 then ((getTable s n).map (·.info.cove)).getD 0
  else if scope = 10 then ringFunc (getRing s n)
  else 0

/-- The value of a gauge that is a present value, computed where it is asked for; none for a counter. -/
def presentGauge (s : State) (scope n i : Nat) : Option Nat :=
  if scope = 1 ∧ i = 24 then some (sumOf (List.range 9) (fun c => charge s (.ingress n c)))
  else if scope = 2 ∧ i = 2 then some (queueBytes s (n / 64) (n % 64))
  else if scope = 3 ∧ i = 4 then some (sparesUsed s (n / 12) (n % 12)).length
  else if scope = 5 ∧ i = 0 then some (shoalFree s n)
  else if scope = 5 ∧ i = 2 then some (s.shoal.flows.filter (fun f => f.1 == n)).length
  else if scope = 7 ∧ i = 7 then some (((getTable s n).map (·.shadow.length)).getD 0)
  else none

/-- Counter or gauge i of an instance. SHOAL_FREE_MIN is at most what is free now. -/
def valueOf (s : State) (scope n i : Nat) : Ctr :=
  match presentGauge s scope n i with
  | some v => ⟨v, false⟩
  | none =>
    let c := ctrOf s.obs (scope, n, i)
    if scope = 5 ∧ i = 1 then
      ⟨if s.obs.ctrs.any (fun e => e.1 == (scope, n, i)) then min c.val (shoalFree s n) else shoalFree s n, false⟩
    else c

/-- The record of an instance (R565). -/
def instanceRecord (s : State) (scope n : Nat) : List Byte :=
  let cs := (List.range (scopeCtrs scope)).map (valueOf s scope n)
  let ovf := maskOf (((List.range cs.length).zip cs).filterMap (fun e => if e.2.ovf then some e.1 else none))
  bytesLE 1 scope ++ bytesLE 1 cs.length ++ bytesLE 2 (genOf s.obs (scope, n)) ++ bytesLE 4 n ++ bytesLE 4 (instanceKey s scope n)
    ++ bytesLE 4 0 ++ bytesLE 8 ovf ++ cs.flatMap (fun c => bytesLE 8 c.val)

/-! ## Snapshots (R566 to R569) -/

def getWindow (s : State) (w : Nat) : Win2 := mgetD s.obs.windows w {}
def onWindow (w : Nat) (f : Win2 → Win2) (s : State) : State := onObs (fun o => { o with windows := mput o.windows w (f (getWindow s w)) }) s

/-- The bytes of a window from its first: the 64-byte header, then the records (R568). -/
def windowBytes (s : State) (w : Nat) : List Byte :=
  let x := getWindow s w
  bytesLE 4 0x4B51534E ++ bytesLE 1 x.state ++ bytesLE 1 w ++ bytesLE 1 x.scope ++ bytesLE 1 (b2n x.pend) ++ bytesLE 8 x.seq
    ++ bytesLE 8 x.mark ++ bytesLE 8 x.taken ++ bytesLE 4 x.first ++ bytesLE 4 x.count ++ bytesLE 4 x.nrec
    ++ bytesLE 4 (64 + x.records.length) ++ List.replicate 16 0 ++ x.records

/-- A range of instances that a scope has (R566, R570). -/
def rangeOk (scope first cnt : Nat) : Bool := decide (scope < 12) && decide (0 < cnt) && decide (first + cnt ≤ scopeSize scope)

/-- SNAPSHOT_AT (R566, R569). -/
def workSnapshotAt : Work := fun cx op _ s =>
  let w := fld op 319 316
  let scope := fld op 315 312
  let first := fld op 311 280
  let cnt := fld op 279 248
  if ¬ zeroBits op 247 0 ∨ ¬ rangeOk scope first cnt then (s, fail stBAD)
  else if 2 ^ 21 < 64 + cnt * (24 + 8 * scopeCtrs scope) ∨ 16 ≤ s.obs.snaps.length then (s, fail stNORES)
  else if (getWindow s w).pend then (s, fail stHELD)
  else
    let s := onObs (fun o => { o with snaps := o.snaps ++ [{
      window := w, scope := scope, first := first, count := cnt, mark := fld op 383 320, desc := (cx.ring, cx.idx),
      fixed := s.stop.frozen }] }) s
    (onWindow w (fun x => { x with pend := true, state := if x.state = 0 then 1 else x.state }) s, .wait .scheduled)

def execSnapshotAt (r i : Nat) (s : State) : Host.Outcome State Fault Refusal := .next (runDesc 0x10 workSnapshotAt r i [] s)

/-- The Tidemark of a snapshot or reset has come; one pending at a cut waits for the resume (R465, R567). -/
def markDue (s : State) (x : Snap) : Bool := due s x.mark && !(s.stop.frozen && pendingAtCut s x.mark x.fixed)

/-- Capture one armed snapshot: every selected counter and gauge in one instant, in ascending order (R567, R569). -/
def capture (x : Snap) (s : State) : State :=
  let insts := ((List.range x.count).map (· + x.first)).filter (instanceExists s x.scope)
  let recs := insts.flatMap (instanceRecord s x.scope)
  let s := onObs (fun o => { o with snaps := o.snaps.filter (fun y => y.window != x.window) }) s
  let s := onWindow x.window (fun w => {
    state := 3, scope := x.scope, pend := false, seq := w.seq + 1, mark := x.mark, taken := s.tide.now, first := x.first, count := x.count,
    nrec := insts.length, records := recs }) s
  let n := (getWindow s x.window).seq
  finishDesc x.desc stDONE n (postDev 0x41 (bytesLE 1 x.window ++ bytesLE 8 n) s)

/-- What R451 puts before the snapshots of a Tidemark and is due: its applies, a cut, a resume. -/
def beforeSnaps (mark : Nat) (s : State) : State :=
  let s := onlyIf (engineOn s) (appliesFirst mark) s
  let s := onlyIf (cutDue s && decide (s.stop.mark ≤ mark)) doCutTidemark s
  onlyIf (resumeDue s && (s.stop.resumeAt.any (fun r => decide (r ≤ mark)))) doResumeTidemark s

/-- SNAPSHOT_CAPTURE: behind what R451 puts before it; where an apply still holds up the cut it stays due. -/
def doCapture (w : Nat) (s : State) : State :=
  match s.obs.snaps.find? (fun x => x.window == w) with
  | none => s
  | some x =>
    if ¬ regsLive s ∨ ¬ due s x.mark then s
    else
      let s := beforeSnaps x.mark s
      match s.obs.snaps.find? (fun x => x.window == w) with
      | none => s
      | some x => if markDue s x ∧ ¬ (cutDue s ∧ s.stop.mark ≤ x.mark) then capture x s else s

def execSnapshotCapture (window : Nat) (s : State) : Host.Outcome State Fault Refusal := .next (doCapture window s)

/-- LAUNCH_DEADLINE: T + 10 µs (R452), behind what R451 puts before it at that Tidemark. -/
def doLaunchDeadline (id : Nat) (s : State) : State :=
  match s.launches.find? (fun l => l.id == id && due s (l.mark + 10000)) with
  | none => s
  | some l =>
    if ¬ regsLive s then s
    else
      let t := l.mark + 10000
      let s := beforeSnaps t s
      let s := forAll (s.obs.snaps.filter (fun y => markDue s y && decide (y.mark ≤ t))) capture s
      match s.launches.find? (fun x => x.desc == l.desc) with
      | none => s
      | some l =>
        if due s (l.mark + 10000) ∧ ¬ (s.stop.frozen ∧ pendingAtCut s (l.mark + 10000) l.fixed) ∧ ¬ (cutDue s ∧ s.stop.mark ≤ t) then endLaunch l s else s

def execLaunchDeadline (launch : Nat) (s : State) : Host.Outcome State Fault Refusal := .next (doLaunchDeadline launch s)

/-! ## Counter resets (R570 to R572) -/

/-- Reset every selected instance. -/
def resetRange (x : Snap) (s : State) : State :=
  forAll ((List.range x.count).map (· + x.first)) (resetInstance x.scope) s

/-- COUNTER_RESET: a Tidemark already passed takes effect at once. -/
def workCounterReset : Work := fun cx op _ s =>
  let scope := fld op 315 312
  let x : Snap := {
    window := 0, scope := scope, first := fld op 311 280, count := fld op 279 248, mark := fld op 383 320, desc := (cx.ring, cx.idx),
    fixed := s.stop.frozen }
  if ¬ zeroBits op 247 0 ∨ ¬ zeroBits op 319 316 ∨ ¬ rangeOk scope x.first x.count then (s, fail stBAD)
  else if due s x.mark then (resetRange x s, ok)
  else (onObs (fun o => { o with resets := o.resets ++ [x] }) s, .wait .running)

def execCounterReset (r i : Nat) (s : State) : Host.Outcome State Fault Refusal := .next (runDesc 0x11 workCounterReset r i [] s)

/-- COUNTER_RESET_TIDEMARK: the resets that are due, in the order taken, each behind the snapshots of its Tidemark (R572). -/
def doResetMark (s : State) : State :=
  if ¬ regsLive s then s
  else
    let l := s.obs.resets.filter (markDue s)
    forAll l (fun x s =>
      let s := forAll (s.obs.snaps.filter (fun y => markDue s y && decide (y.mark ≤ x.mark))) capture s
      let s := onObs (fun o => { o with resets := o.resets.erase x }) s
      finishDesc x.desc stDONE 0 (resetRange x s)) s

def execCounterResetTidemark (s : State) : Host.Outcome State Fault Refusal := .next (doResetMark s)

/-! ## TELEMETRY_DRAIN (R574) -/

def workTelemetryDrain : Work := fun cx op _ s =>
  let addr := fld op 383 320
  let len := fld op 319 288
  let off := fld op 287 256
  let w := fld op 255 252
  let seq := fld op 251 188
  let x := getWindow s w
  let bytes := 64 + x.records.length
  if ¬ zeroBits op 187 0 ∨ addr % 64 ≠ 0 then (s, fail stBAD)
  else if x.state ≠ 3 ∨ (seq ≠ 0 ∧ seq ≠ x.seq) then (s, fail stHELD)
  else if bytes < off + len then (s, fail stNORES)
  else (hostWrite cx.func addr (sliceB (windowBytes s w) off len) s, okR bytes)

def execTelemetryDrain (r i : Nat) (s : State) : Host.Outcome State Fault Refusal := .next (runDesc 0x12 workTelemetryDrain r i [] s)

end Sys2Proof.Machine
end

