-- ==== Sys2Proof/Machine/Registers.lean ====
section
/-! DEFINITION. The register map (R14 to R16, R406 to R415, R442, R499, R559, R590 to R592): writes by BAR and offset, and
what each of them reads (R14, R15), by a function or the sideband (R609). -/

namespace Sys2Proof.Machine

/-! ## Rings and functions (R411 to R415) -/

/-- A write to a ring's register; FUNC takes PF0's writes only, and the set-up registers only while the ring is DISABLED
(R412). -/
def writeRing (writer r o : Nat) (v : Word) (s : State) : State :=
  let g := getRing s r
  let set (f : Ring → Ring) : State := if g.state = .disabled then onRing r f s else onRing r (fun g => { g with cfgRej := true, cfgRejAt := some s.tide.now }) s
  let m (k : Nat) : Word := BitVec.ofNat 32 (v.toNat / 2 ^ k * 2 ^ k)
  if ¬ ownsRing s writer r then s
  else match o with
    | 0x00 => set (fun g => { g with baseLo := m 12 })
    | 0x04 => set (fun g => { g with baseHi := v })
    | 0x08 => set (fun g => { g with cfg := if writer = 0 then m 6 else setFld (m 6) 24 19 (ringFunc g) })
    | 0x0C => if bitAt v 0 then doRingEnable writer r s else doRingDisable writer r s
    | 0x10 => set (fun g => { g with dbLo := m 3 })
    | 0x14 => set (fun g => { g with dbHi := v })
    | 0x18 => onRing r (fun g => { g with cfgRej := w1c g.cfgRej (bitAt v 26) g.cfgRejAt s.tide.now }) s
    | _ => s

/-- A write to a function's register (R414). -/
def writeFunc (writer fn o : Nat) (v : Word) (s : State) : State :=
  match o with
  | 0x00 =>
    let s := onFunc fn (fun f => { f with eqEn := bitAt v 30, eq := fld v 12 0 }) s
    if bitAt v 31 then doFunctionDisable writer fn s else doFunctionEnable writer fn s
  | 0x08 => if writer = 0 then onFunc fn (fun f => { f with coveHi := fld v 31 16, coveLo := fld v 15 0 }) s else s
  | _ => s

/-- A write to a word of a function's MSI-X table: four words a vector, the mask in bit 0 of the last (R406, R430). -/
def writeMsix (fn off : Nat) (v : Word) (s : State) : State :=
  let k := 65536 * fn + off
  let n := off / 16
  if off % 4 ≠ 0 then doBarBadAccess true s
  else if ¬ regsLive s ∨ vectorsOf fn ≤ n then s
  else
    let s := onHost (fun h => { h with msixWords := h.msixWords.filter (fun e => e.1 != k) ++ [(k, v)] }) s
    if off % 16 ≠ 12 then s
    else if bitAt v 0 then onHost (fun h => { h with unmasked := h.unmasked.filter (· != (fn, n)) }) s
    else doMsixUnmask fn n s

/-! ## Lanes (R377 to R402) -/

/-- A write to LN_PRBS: CHK_EN from 0 to 1 clears both counters, CHK_LOCK is read only, ERR_OVF clears by 1; a
generator that is switched, or takes another pattern, starts afresh (R397). -/
def writePrbs (l : Nat) (v : Word) (s : State) : State :=
  let old := (getLane s l).prbs
  let start := bitAt v 30 && !bitAt old 30
  let keep := pack 32 [(11, fld v 31 21), (21, 0)]
  let new : Word := setFld (setFld (keep : Word) 21 21 (if bitAt v 30 then fld old 21 21 else 0)) 20 20 (b2n (w1c (bitAt old 20) (bitAt v 20) (getLane s l).ovfAt s.tide.now))
  let go := decide (fld old 31 31 = fld v 31 31) && decide (fld old 29 27 = fld v 29 27)
  onLane l (fun y =>
    let y := { y with genPos := if go then y.genPos else none }
    if start then { y with prbs := setFld new 21 21 0, prbsErr := 0, prbsBits := 0 } else { y with prbs := new }) s

/-- A write to LN_EYE_CTL: fields [30:8] while no measurement runs, and START (R402). -/
def writeEye (l : Nat) (v : Word) (s : State) : State :=
  if bitAt (getLane s l).eyeCtl 31 then s
  else
    let s := onLane l (fun y => { y with eyeCtl := setFld y.eyeCtl 30 8 (fld v 30 8) }) s
    if bitAt v 31 then doEyeStart l s else s

/-- A write to a register of a lane. -/
def writeLane (l o : Nat) (v : Word) (s : State) : State :=
  match o with
  | 0x00 => doLnCtl l v s
  | 0x04 =>
    let s := onLane l (fun y => { y with cfgRej := w1c y.cfgRej (bitAt v 21) y.cfgRejAt s.tide.now }) s
    if portOfLane s l = l then onPort l (fun x => { x with trainFail := w1c x.trainFail (bitAt v 20) x.trainFailAt s.tide.now }) s else s
  | 0x08 => doLnTaps l v s
  | 0x10 => writePrbs l v s
  | 0x28 => doLnInj l v s
  | 0x30 => writeEye l v s
  | _ => s

/-! ## Tide, faults, power, state -/

/-- A write to TIDE_PARENT: an item that names no fabric port is skipped and sets SET_REJ (R442). -/
def writeParents (v : Word) (s : State) : State :=
  let l := [fld v 29 20, fld v 19 10, fld v 9 0]
  let bad := l.any (parentBad s)
  retide (onTide (fun t => { t with
    parents := l, setRej := t.setRej || bad, setRejAt := if bad then some t.now else t.setRejAt }) s)

/-- A write to a register of the Tide block (R442). -/
def writeTide (o : Nat) (v : Word) (s : State) : State :=
  match o with
  | 0x08 => onTide (fun t => { t with setLo := v }) s
  | 0x0C => doTideSet v s
  | 0x10 => doTideRole v s
  | 0x14 => writeParents v s
  | 0x18 => onTide (fun t => { t with
      setRej := w1c t.setRej (bitAt v 26) t.setRejAt t.now, stepped := w1c t.stepped (bitAt v 25) t.steppedAt t.now }) s
  | _ => s

/-- A write to a register of the fault collector (R499, R501). -/
def writeFlt (o : Nat) (v : Word) (s : State) : State :=
  match o with
  | 0x00 =>
    let s := onlyIf (bitAt v 30) doLastCliffClear s
    onFlt (fun f => { f with
      storm := w1c f.storm (bitAt v 29) f.stormAt s.tide.now, swell := w1c f.swell (bitAt v 28) f.swellAt s.tide.now,
      ripple := w1c f.ripple (bitAt v 27) f.rippleAt s.tide.now }) s
  | 0x04 => onFlt (fun f => { f with swellEv := bitAt v 31, rateLim := fld v 23 0 }) s
  | 0x20 => doForceSet 0 v s
  | 0x24 => doForceSet 1 v s
  | 0x28 => doForceClr 0 v s
  | 0x2C => doForceClr 1 v s
  | 0x30 => onFlt (fun f => { f with forceLoc := BitVec.ofNat 32 (v.toNat / 128 * 128) }) s
  | _ => s

/-- A write through PF0's BAR0 outside the ring, function and latency registers. -/
def writeBlock (off : Nat) (v : Word) (s : State) : State :=
  if off = 0x1000C then onDev (fun d => { d with goRej := w1c d.goRej (bitAt v 31) d.goRejAt s.tide.now }) s
  else if off = 0x21008 then onPwr (fun p => { p with replanLo := v }) s
  else if off = 0x2100C then doPwrReplanWrite v s
  else if 0x181000 ≤ off ∧ off < 0x181400 then
    onHost (fun h => { h with classMap := mput h.classMap ((off - 0x181000) / 4) (v &&& 0x80001FFF) }) s
  else if off = 0x200000 then doDbwBudgetWrite v s
  else if 0x400000 ≤ off ∧ off < 0x400028 then writeTide (off - 0x400000) v s
  else if 0x800000 ≤ off ∧ off < 0x800034 then writeFlt (off - 0x800000) v s
  else if 0x1000000 ≤ off ∧ off < 0x1000300 then
    (if off % 16 = 0 then doLnGrpCfg ((off - 0x1000000) / 16) v s else s)
  else if 0x1010000 ≤ off ∧ off < 0x1040000 then writeLane ((off - 0x1010000) / 256) (off % 256) v s
  else s

/-- A write through BAR0: PF0's set-up space, or another function's window (R406, R410, R590). None is taken in CLIFF
(R491). -/
def writeBar0 (writer off : Nat) (v : Word) (s : State) : State :=
  if off % 4 ≠ 0 then doBarBadAccess true s
  else if s.dev.state = .cliff then s
  else if writer = 0 then
    if 0x20000 ≤ off ∧ off < 0x20400 then (if off % 16 = 0 then doLatTolWrite 0 ((off - 0x20000) / 16) v s else s)
    else if 0x100000 ≤ off ∧ off < 0x180000 then writeRing 0 ((off - 0x100000) / 64) (off % 64) v s
    else if 0x180000 ≤ off ∧ off < 0x180800 then writeFunc 0 ((off - 0x180000) / 32) (off % 32) v s
    else byHost (writeBlock off v) s
  else
    if off = 0 then doLatTolWrite writer writer v s
    else if 0x100 ≤ off ∧ off < 0x120 then writeFunc writer writer (off - 0x100) v s
    else if 0x80000 ≤ off ∧ off < 0x100000 then writeRing writer ((off - 0x80000) / 64) (off % 64) v s
    else s

/-! ## Reads (R14, R15, R411 to R415, R426, R433, R442, R499, R559, R568, R591, R592) -/

def ringCode : RingState → Nat
  | .disabled => 0 | .active => 1 | .draining => 2 | .error => 3

def fnCode : FnState → Nat
  | .enabled => 0 | .draining => 1 | .disabled => 2

def tCode : TState → Nat
  | .free => 0 | .acquire => 1 | .locked => 2 | .holdover => 3

def sCode : SState → Nat
  | .idle => 0 | .armed => 1 | .cut => 2 | .settled => 3 | .failed => 4

def lCode : LState → Nat
  | .down => 0 | .detect => 1 | .switch => 2 | .coeff => 3 | .align => 4 | .keying => 5 | .run => 6 | .neap => 7 | .lowWater => 8 | .test => 9

/-- A ring's register: in a function window the rings of other functions read 0 (R410 to R413). -/
def readRing (reader r o : Nat) (s : State) : Nat :=
  let g := getRing s r
  if ¬ ownsRing s reader r then 0
  else match o with
    | 0x00 => g.baseLo.toNat
    | 0x04 => g.baseHi.toNat
    | 0x08 => g.cfg.toNat
    | 0x0C => b2n (g.state != .disabled || g.enAtBoot)
    | 0x10 => g.dbLo.toNat
    | 0x14 => g.dbHi.toNat
    | 0x18 => ringCode g.state * 2 ^ 30 + g.err * 2 ^ 27 + b2n g.cfgRej * 2 ^ 26
    | 0x1C => if ringType g = 3 then 0 else g.out
    | 0x20 => g.pi
    | 0x24 => g.fetch
    | _ => 0

/-- A function's register (R414). -/
def readFunc (fn o : Nat) (s : State) : Nat :=
  let f := getFunc s fn
  match o with
  | 0x00 => b2n (f.state != .enabled) * 2 ^ 31 + b2n f.eqEn * 2 ^ 30 + f.eq
  | 0x04 => fnCode f.state * 2 ^ 30
  | 0x08 => f.coveHi * 2 ^ 16 + f.coveLo
  | 0x0C => (s.host.accepted.filter (fun d => d.func == fn)).length + (s.host.heldCpl.filter (fun e => e.1.func == fn)).length
  | _ => 0

/-- A function's latency register (R415). -/
def readLat (fn o : Nat) (s : State) : Nat :=
  let f := getFunc s fn
  match o with
  | 0x0 => f.latTol
  | 0x4 => f.latPoll
  | 0x8 => f.latMod
  | _ => 0

/-- A register of the doorbell watcher (R426). -/
def readDbw (o : Nat) (s : State) : Nat :=
  match o with
  | 0x0 => s.host.budget
  | 0x4 => s.host.scale * 2 ^ 16 + b2n (decide (256 < s.host.scale)) * 2 ^ 15 + s.host.lines
  | _ => 0

/-- A register of the Tide block (R442). -/
def readTide (o : Nat) (s : State) : Nat :=
  let t := s.tide
  match o with
  | 0x00 => t.now % 2 ^ 32
  | 0x04 => t.nowHi
  | 0x08 => t.setLo.toNat
  | 0x0C => t.setHi.toNat
  | 0x10 => t.role * 2 ^ 30 + b2n t.pinSrc * 2 ^ 29 + b2n t.outEn * 2 ^ 28
  | 0x14 => nth t.parents 0 0x3FF * 2 ^ 20 + nth t.parents 1 0x3FF * 2 ^ 10 + nth t.parents 2 0x3FF
  | 0x18 => tCode t.tstate * 2 ^ 29 + t.src * 2 ^ 27 + b2n t.setRej * 2 ^ 26 + b2n t.stepped * 2 ^ 25
  | 0x1C => ofSigned 32 t.theta
  | 0x20 => ofSigned 32 t.delay
  | 0x24 => sCode s.stop.sstate * 2 ^ 28 + s.stop.openPorts * 2 ^ 18 + s.stop.stopId
  | _ => 0

/-- LN_GRP_CFG (R376). -/
def readGroup (g : Nat) (s : State) : Nat :=
  let x := mgetD s.net.groups g {}
  b2n x.modeRej * 4 + x.mode

/-- The word of LN_TAPS for five taps (R398). -/
def tapsWord (t : List Int) : Nat :=
  ofSigned 6 (nth t 0 0) * 2 ^ 24 + ofSigned 6 (nth t 1 0) * 2 ^ 18 + ofSigned 6 (nth t 2 0) * 2 ^ 12
    + ofSigned 6 (nth t 3 0) * 2 ^ 6 + ofSigned 6 (nth t 4 0)

/-- A register of a lane; the fields of a port read 0 but in its lowest lane (R377, R380, R397 to R402). -/
def readLane (l o : Nat) (s : State) : Nat :=
  let y := getLane s l
  let p := portOfLane s l
  let x := getPort s p
  let port (n : Nat) : Nat := if l = p then n else 0
  match o with
  | 0x00 => if l = p then (y.ctl &&& 0xFFF00000).toNat else (y.ctl &&& 0x03B00000).toNat
  | 0x04 => lCode x.lstate * 2 ^ 28 + x.rate * 2 ^ 26 + b2n y.rxInvDet * 2 ^ 25 + port (b2n x.reversed * 2 ^ 24) + y.lidxIn * 2 ^ 22
      + b2n y.cfgRej * 2 ^ 21 + port (b2n x.trainFail * 2 ^ 20 + x.failed * 2 ^ 17)
  | 0x08 => tapsWord (if fld y.ctl 21 20 = 0 then y.taps else y.testTaps)
  | 0x10 => (y.prbs &&& 0xFFF00000).toNat
  | 0x18 => y.prbsErr % 2 ^ 32
  | 0x1C => y.prbsErr / 2 ^ 32
  | 0x20 => y.prbsBits % 2 ^ 32
  | 0x24 => y.prbsBits / 2 ^ 32
  | 0x28 => (y.inj &&& 0xFFFFFF1F).toNat
  | 0x30 => (y.eyeCtl &&& 0xFFFFFF80).toNat
  | 0x38 => y.eyeErr % 2 ^ 32
  | 0x3C => y.eyeErr / 2 ^ 32
  | 0x40 => y.eyeCnt % 2 ^ 32
  | 0x44 => y.eyeCnt / 2 ^ 32
  | _ => 0

/-- A word of a function's BAR2: the MSI-X table, whose mask bit is that in force, and the pending bits (R406, R430). -/
def readMsix (fn off : Nat) (s : State) : Nat :=
  let n := off / 16
  if off < 0x8000 then
    if vectorsOf fn ≤ n then 0
    else
      let w := (mgetD s.host.msixWords (65536 * fn + off) 0).toNat
      if off % 16 = 12 then w / 2 * 2 + b2n (!s.host.unmasked.contains (fn, n)) else w
  else maskOf ((List.range 32).filter (fun b => s.host.pendingMsi.contains (fn, 8 * (off - 0x8000) + b)))

/-- REGION_EN, MA_EN and PA_EN, once the manufacturing record is loaded (R591). -/
def regionEn (s : State) : Nat :=
  if s.dev.mfg then maskOf ((List.range 16).filter (fun k => !s.part.disabled.contains (k / 4, k % 4))) else 0
def maEn (s : State) : Nat := if s.dev.mfg then maskOf ((List.range 32).filter (fun k => maEnabled s (k / 8) (k % 8))) else 0
def paEn (s : State) : Nat := if s.dev.mfg then maskOf ((List.range 16).filter (fun k => paEnabled s (k / 4) (k % 4))) else 0

/-- A register of the identity block. -/
def readId (s : State) (o : Nat) : Nat :=
  let m (n : Nat) : Nat := if s.dev.mfg then n else 0
  match o with
  | 0x000 => 0x4B513700
  | 0x004 => 0x01100000 + m (match s.part.grade with
      | .a => 0
      | .b => 0x100)
  | 0x008 => m (Config.serial.toNat % 2 ^ 32)
  | 0x00C => m (Config.serial.toNat / 2 ^ 32)
  | 0x010 => regionEn s
  | 0x014 => maEn s
  | 0x018 => paEn s
  | 0x01C => m (leafWidth s * 0x1111)
  | 0x020 => b2n s.sec.owner.isSome * 2 ^ 31 + selfEpid s % 2 ^ 18
  | 0x024 => m (Config.macAddr.toNat % 2 ^ 32)
  | 0x028 => m (Config.macAddr.toNat / 2 ^ 32)
  | 0x02C => b2n s.dev.bifur * 2 ^ 30 + 64 * 2 ^ 22
  | 0x030 => 8192 * 2 ^ 16 + 768
  | 0x034 => s.sec.fw.id % 2 ^ 32
  | 0x038 => s.sec.fw.id / 2 ^ 32 % 2 ^ 32
  | 0x03C => s.sec.fw.slot * 2 ^ 30
  | 0x040 => s.sec.cfg.id % 2 ^ 32
  | 0x044 => s.sec.cfg.id / 2 ^ 32 % 2 ^ 32
  | 0x048 => s.sec.cfg.slot * 2 ^ 30
  | _ => 0

/-- SB_ALERT_N is low while a class bit of FLT_SUMMARY is set or the device is in HOLD or CLIFF (R605). -/
def sbAlertLow (s : State) : Bool :=
  s.flt.storm || s.flt.swell || s.flt.ripple || s.dev.state == .hold || s.dev.state == .cliff

/-- A register of the state block. -/
def readState (s : State) (o : Nat) : Nat :=
  let d := s.dev
  match o with
  | 0x000 => devCode d.state * 2 ^ 28 + devCode d.prev * 2 ^ 24
  | 0x008 => holdReason s
  | 0x00C => b2n d.goRej * 2 ^ 31 + b2n d.stDone * 2 ^ 30
  | 0x010 => nth d.lostCells 0 0 * 2 ^ 16 + min 0xFFFF (nth d.lostBuffers 0 0)
  | 0x014 => nth d.lostCells 1 0 * 2 ^ 16 + min 0xFFFF (nth d.lostBuffers 1 0)
  | 0x018 => nth d.lostCells 2 0 * 2 ^ 16 + min 0xFFFF (nth d.lostBuffers 2 0)
  | 0x01C => nth d.lostCells 3 0 * 2 ^ 16 + min 0xFFFF (nth d.lostBuffers 3 0)
  | 0x020 => beaconRateNow s * 2 ^ 30 + b2n (beaconLevel s) * 2 ^ 29
  | 0x024 => d.enterTide % 2 ^ 32
  | 0x028 => d.enterHi
  | _ => 0

/-- A register of the fault collector block. -/
def readFlt (s : State) (o : Nat) : Nat :=
  let f := s.flt
  let armed (k : Nat) : Nat := maskOf ((f.armed.filter (fun e => decide (e.1 / 32 = k))).map (fun e => e.1 % 32))
  match o with
  | 0x000 => b2n (s.dev.state == .cliff) * 2 ^ 31 + b2n f.lastCliff * 2 ^ 30 + b2n f.storm * 2 ^ 29 + b2n f.swell * 2 ^ 28
      + b2n f.ripple * 2 ^ 27 + f.lastSrc
  | 0x004 => b2n f.swellEv * 2 ^ 31 + f.rateLim
  | 0x008 => f.cliffSrc
  | 0x00C => f.cliffLoc.toNat
  | 0x010 => f.cliffTide % 2 ^ 32
  | 0x014 => f.cliffTide / 2 ^ 32
  | 0x018 => b2n f.injEn * 2 ^ 31 + b2n f.cliffEn * 2 ^ 30
  | 0x020 => armed 0
  | 0x024 => armed 1
  | 0x028 => armed 0
  | 0x02C => armed 1
  | 0x030 => f.forceLoc.toNat
  | _ => 0

/-- A register of the power policy block. -/
def readPwr (s : State) (o : Nat) : Nat :=
  let p := s.pwr
  let bits (f : Rgn → Bool) : Nat := maskOf ((List.range 16).filter (fun k => f (nth p.rgns k {})))
  match o with
  | 0x000 => p.lmin
  | 0x004 => bits (·.gated) * 2 ^ 16 + bits (·.ebb)
  | 0x008 => p.replanLo.toNat
  | 0x00C => p.replanHi.toNat
  | _ =>
    if 0x100 ≤ o ∧ o < 0x200 then
      let k := (o - 0x100) / 16
      let r := nth p.rgns k {}
      match o % 16 with
      | 0 => b2n (s.dev.mfg && s.part.disabled.contains (k / 4, k % 4)) * 2 ^ 31 + r.pace * 2 ^ 24 + nth p.vofs (k / 4) 0 * 2 ^ 16
      | 4 => ofSigned 16 r.margin * 2 ^ 16 + r.life
      | 8 => ofSigned 16 r.temp
      | _ => 0
    else 0

/-- A word of PF0's BAR0 (R410, R590): in CLIFF only the blocks marked C answer (R491). -/
def readBlock (off : Nat) (s : State) : Nat :=
  if off < 0x1000 then readId s off
  else if 0x10000 ≤ off ∧ off < 0x11000 then readState s (off - 0x10000)
  else if 0x800000 ≤ off ∧ off < 0x800034 then readFlt s (off - 0x800000)
  else if s.dev.state = .cliff then 0
  else if 0x20000 ≤ off ∧ off < 0x20400 then readLat ((off - 0x20000) / 16) (off % 16) s
  else if 0x21000 ≤ off ∧ off < 0x21200 then readPwr s (off - 0x21000)
  else if 0x100000 ≤ off ∧ off < 0x180000 then readRing 0 ((off - 0x100000) / 64) (off % 64) s
  else if 0x180000 ≤ off ∧ off < 0x180800 then readFunc ((off - 0x180000) / 32) (off % 32) s
  else if 0x181000 ≤ off ∧ off < 0x181400 then (mgetD s.host.classMap ((off - 0x181000) / 4) 0).toNat
  else if 0x200000 ≤ off ∧ off < 0x200008 then readDbw (off - 0x200000) s
  else if 0x400000 ≤ off ∧ off < 0x400028 then readTide (off - 0x400000) s
  else if 0x1000000 ≤ off ∧ off < 0x1000300 then (if off % 16 = 0 then readGroup ((off - 0x1000000) / 16) s else 0)
  else if 0x1010000 ≤ off ∧ off < 0x1040000 then readLane ((off - 0x1010000) / 256) (off % 256) s
  else if 0x2000000 ≤ off ∧ off < 0x4000000 then leAt (windowBytes s ((off - 0x2000000) / 2097152)) (off % 2097152) 4
  else 0

/-- What an aligned 32-bit read by a function returns (R14, R15, R407, R410): nothing that is reserved, write-only or not
present is in it. -/
def readRegister (reader bar off : Nat) (s : State) : Word :=
  BitVec.ofNat 32 (
    if s.dev.state = .reset then 0
    else if bar = 2 then (if s.dev.state = .cliff then 0 else readMsix reader off s)
    else if reader = 0 then readBlock off s
    else if s.dev.state = .cliff then 0
    else if off < 0x10 then readLat reader off s
    else if 0x100 ≤ off ∧ off < 0x120 then readFunc reader (off - 0x100) s
    else if 0x80000 ≤ off ∧ off < 0x100000 then readRing reader ((off - 0x80000) / 64) (off % 64) s
    else 0)

/-- What the sideband reads at a BAR0 offset: four blocks, in CLIFF the first three of them (R491, R609). -/
def readSideband (s : State) (off : Nat) : Word :=
  BitVec.ofNat 32 (
    if off < 0x1000 then readId s off
    else if 0x10000 ≤ off ∧ off < 0x11000 then readState s (off - 0x10000)
    else if 0x800000 ≤ off ∧ off < 0x800034 then readFlt s (off - 0x800000)
    else if 0x21000 ≤ off ∧ off < 0x21200 ∧ s.dev.state ≠ .cliff then readPwr s (off - 0x21000)
    else 0)

/-- SIDEBAND_READ. -/
def execSidebandRead (off : Nat) (s : State) : Host.Outcome State Fault Refusal :=
  .next (onDev (fun d => { d with sideband := readSideband s off }) s)

/-- DEV_ENTER_READ: a read of DEV_ENTER_LO latches the upper half (R592). -/
def execDevEnterRead (s : State) : Host.Outcome State Fault Refusal :=
  .next (if s.dev.state = .reset then s else onDev (fun d => { d with enterHi := d.enterTide / 2 ^ 32 }) s)

end Sys2Proof.Machine
end

