-- ==== Sys2Proof/Machine/Security.lean ====
section
/-! DEFINITION. Bundles, the flash slots and what a bundle applies (R508 to R528): FW_LOAD, CFG_LOAD, CFG_READ,
MEASURE_READ, SPDM and IDE. -/

namespace Sys2Proof.Machine

/-! ## HOLD reasons (R522) -/

def hrPUF : Nat := 0x01
def hrMFG : Nat := 0x02
def hrMRAM : Nat := 0x03
def hrNO_FIRMWARE : Nat := 0x04
def hrFW_SIGNATURE : Nat := 0x05
def hrFW_ROLLBACK : Nat := 0x06
def hrFW_STEPPING : Nat := 0x07
def hrFW_IMAGE : Nat := 0x08
def hrNO_CONFIG : Nat := 0x09
def hrCFG_SIGNATURE : Nat := 0x0A
def hrCFG_OWNER : Nat := 0x0B
def hrCFG_ROLLBACK : Nat := 0x0C
def hrCFG_FORMAT : Nat := 0x0D
def hrCFG_SECTION : Nat := 0x0E
def hrCFG_COMPAT : Nat := 0x0F
def hrCFG_APPLY : Nat := 0x10
def hrSELFTEST : Nat := 0x11
def hrCFG_SECRET : Nat := 0x12

/-- A HOLD that no bundle clears (R524). -/
def hardHold (s : State) : Bool :=
  s.dev.state == .hold && (s.dev.holdReason == hrPUF || s.dev.holdReason == hrMFG || s.dev.holdReason == hrMRAM)

/-- Set what HOLD_REASON shows (R592). -/
def setHold (reason place item : Nat) : State → State :=
  onDev (fun d => { d with holdReason := reason, holdWhere := place, holdItem := item })

/-! ## Parts of a bundle -/

/-- Bytes [off, off + n) are zero. -/
def zeroAt (d : List Byte) (off n : Nat) : Bool := (sliceB d off n).all (· == 0)

/-- An image or section entry: TYPE, OFFSET, LENGTH, SHA-512 (R511, R515). -/
structure BEntry where
  typ : Nat
  off : Nat
  len : Nat
  digest : List Byte
deriving DecidableEq, Repr

def entryOf (d : List Byte) (off : Nat) : BEntry := ⟨byteAt d off, leAt d (off + 8) 8, leAt d (off + 16) 8, sliceB d (off + 24) 64⟩

/-- An entry's reserved bytes are zero and its contents lie before the signature. -/
def entryOk (d : List Byte) (off total : Nat) : Bool :=
  zeroAt d (off + 1) 7 && zeroAt d (off + 88) 8 && decide ((entryOf d off).off + (entryOf d off).len + 64 ≤ total)

def entryBytes (d : List Byte) (e : BEntry) : List Byte := sliceB d e.off e.len

def digestOk (d : List Byte) (e : BEntry) : Bool := sha (entryBytes d e) == e.digest

/-- The bundle's signature under the last key of its chain, over the digest of all before it (R511, R515). -/
def signedOk (d chain : List Byte) (total : Nat) : Bool :=
  edVerify (leafKey chain) (sha (sliceB d 0 (total - 64))) (sliceB d (total - 64) 64)

/-! ## Firmware bundles (R511 to R513) -/

def fwTotal (d : List Byte) : Nat := leAt d 32 8
def fwSvnOf (d : List Byte) : Nat := leAt d 16 4
def fwImages (d : List Byte) : List BEntry := [entryOf d 64, entryOf d 160]
def fwImage (d : List Byte) (t : Nat) : List Byte := (((fwImages d).find? (fun e => e.typ == t)).map (entryBytes d)).getD []
def fwChain (d : List Byte) : List Byte := sliceB d (leAt d 40 4) (leAt d 44 4)

/-- Step 1 of R513. -/
def fwFormatOk (d : List Byte) : Bool :=
  let t := fwTotal d
  decide (leAt d 0 4 = 0x4B514657) && decide (leAt d 4 2 = 1) && decide (leAt d 6 2 = 2) && decide (byteAt d 24 < 4)
  && zeroAt d 25 7 && zeroAt d 48 16 && decide (320 ≤ t) && decide (t ≤ d.length)
  && decide (leAt d 44 4 ≤ 8192) && decide (leAt d 40 4 + leAt d 44 4 + 64 ≤ t)
  && entryOk d 64 t && entryOk d 160 t && (fwImages d).any (fun e => e.typ == 1) && (fwImages d).any (fun e => e.typ == 2)

/-- The checks of R513 in order: the HOLD reason of the first that fails. -/
def fwReason (s : State) (d : List Byte) : Option Nat :=
  if ¬ fwFormatOk d then some hrFW_IMAGE
  else if ¬ (Config.chainTo (fwChain d) Config.heldelRoot && Config.leafSignsFirmware (fwChain d) && signedOk d (fwChain d) (fwTotal d)) then
    some hrFW_SIGNATURE
  else if fwSvnOf d < s.sec.fwSvn then some hrFW_ROLLBACK
  else if ¬ (byteAt d 24).testBit 1 then some hrFW_STEPPING
  else if ¬ (fwImages d).all (digestOk d) then some hrFW_IMAGE
  else none

/-- The firmware that a bundle in a slot puts in force, and what is measured of it (R512). -/
def fwOf (d : List Byte) (slot : Nat) : Firmware :=
  { slot := slot, id := leAt d 8 8, svn := fwSvnOf d, schemaMin := leAt d 20 2, schemaMax := leAt d 22 2,
    mgmtDigest := sha512 (fwImage d 1), laneDigest := sha512 (fwImage d 2) }

/-! ## Configuration bundles (R515 to R518) -/

def cfgSects (d : List Byte) : List BEntry := (List.range (leAt d 6 2)).map (fun k => entryOf d (128 + 96 * k))
def cfgTotal (d : List Byte) : Nat := leAt d 44 8
def cfgSvnOf (d : List Byte) : Nat := leAt d 16 4
def cfgEpid (d : List Byte) : Nat := leAt d 32 4
def cfgChain (d : List Byte) : List Byte := sliceB d (leAt d 52 4) (leAt d 56 4)
def cfgSect (d : List Byte) (t : Nat) : Option (List Byte) := ((cfgSects d).find? (fun e => e.typ == t)).map (entryBytes d)

/-- Step 1 of R518. -/
def cfgFormatOk (d : List Byte) : Bool :=
  let t := cfgTotal d
  let n := leAt d 6 2
  decide (leAt d 0 4 = 0x4B514342) && decide (leAt d 4 2 = 1) && decide (1 ≤ n ∧ n ≤ 7) && decide (byteAt d 22 < 4) && decide (byteAt d 23 < 4)
  && decide (leAt d 24 8 ≠ 0) && decide (cfgEpid d < 2 ^ 18) && zeroAt d 60 68
  && decide (192 + 96 * n ≤ t) && decide (t ≤ d.length) && decide (leAt d 56 4 ≤ 8192) && decide (leAt d 52 4 + leAt d 56 4 + 64 ≤ t)
  && (List.range n).all (fun k => entryOk d (128 + 96 * k) t)
  && (cfgSects d).all (fun e => decide (1 ≤ e.typ ∧ e.typ ≤ 7)) && ascending ((cfgSects d).map (·.typ))

/-- The owner ID: the first 32 bytes of the digest of the first certificate's key (R515). -/
def ownerId (d : List Byte) : List Byte := (sha ((Config.chainKeys (cfgChain d)).headD [])).take 32

/-- Step 2 of R518. -/
def cfgSigned (s : State) (d : List Byte) : Bool :=
  Config.chainTo (cfgChain d) Config.ownerCa && signedOk d (cfgChain d) (cfgTotal d) && !(Config.chainKeys (cfgChain d)).any (revokedKey s)

/-- Step 5 of R518. -/
def cfgFits (s : State) (d : List Byte) : Bool :=
  decide (s.sec.fw.schemaMin ≤ leAt d 20 2 ∧ leAt d 20 2 ≤ s.sec.fw.schemaMax)
  && decide (leAt d 36 4 ≤ s.sec.fw.svn ∧ s.sec.fw.svn ≤ leAt d 40 4)
  && (byteAt d 22).testBit (match s.part.grade with
      | .a => 0
      | .b => 1)
  && (byteAt d 23).testBit 1
  && (match s.sec.owner with
      | some o => decide (o.2 = cfgEpid d)
      | none => true)

/-- The fabric save key that SECRETS wraps (R517); none where the tag fails. -/
def unwrapSave (d sect : List Byte) : Option (List Byte) :=
  let z := x25519 unwrapKey (sliceB sect 0 32)
  let kek := expandKey (hmac (sliceB d 8 8) z) (ascii "kwezar save key wrap" ++ bytesLE 4 (cfgEpid d)) 32
  let iv := List.replicate 12 (0 : Byte)
  let ct := sliceB sect 32 32
  if sect.length = 80 ∧ gcmTag kek iv (sliceB d 0 128) ct = sliceB sect 64 16 then some (gcmCrypt kek iv ct) else none

/-- Steps 1 to 7 of R518, in order: the HOLD reason of the first that fails. -/
def cfgReason (s : State) (d : List Byte) : Option Nat :=
  if ¬ cfgFormatOk d then some hrCFG_FORMAT
  else if ¬ cfgSigned s d then some hrCFG_SIGNATURE
  else if (s.sec.owner.map (fun o => o.1 == ownerId d)) = some false then some hrCFG_OWNER
  else if cfgSvnOf d < s.sec.cfgSvn then some hrCFG_ROLLBACK
  else if ¬ cfgFits s d then some hrCFG_COMPAT
  else if ¬ (cfgSects d).all (digestOk d) then some hrCFG_SECTION
  else if ((cfgSect d 3).map (fun x => (unwrapSave d x).isNone)).getD false then some hrCFG_SECRET
  else none

/-! ## Application (R519) -/

/-- Every register and table that a bundle can set returns to its reset value, and every object it can create is removed. -/
def clearForBundle (s : State) : State :=
  let s := onTide (fun t => { t with
    role := 0, pinSrc := false, outEn := false, parents := [0x3FF, 0x3FF, 0x3FF], src := 3, setRej := false }) s
  let s := setTState .free s
  let s := onHost (fun h => { h with budget := 40 }) s
  let s := onFlt (fun f => { f with swellEv := false, rateLim := 1000, injEn := false, cliffEn := false }) s
  let s := onMem (fun m => { m with coves := [], windows := [], jobs := [] }) s
  let s := onRoute (fun r => { flows := r.flows, outbox := r.outbox, direct := r.direct, toEngine := r.toEngine, tag := r.tag }) s
  let s := onShoal (fun h => { h with cfg := {} }) s
  let s := { s with qents := [], policers := [] }
  let s := onNet (fun n => { n with
    groups := [],
    lanes := n.lanes.map (fun e => (e.1, { e.2 with ctl := 0x01400000, cfgRej := false, rxInvDet := false })),
    ports := n.ports.map (fun e => (e.1, { e.2 with dim := 3, dl := false, soundIn := none, soundOut := none, sched := {} })) }) s
  rescale (onSec (fun x => { x with cfg := {}, epid := none }) s)

/-- POLICY: 8 bytes; CLIFF_EN requires INJ_EN, other bits zero (R516). -/
def applyPolicy (b : List Byte) (s : State) : Option State :=
  let p := leAt b 0 8
  if b.length ≠ 8 ∨ 8 ≤ p ∨ (p.testBit 1 = true ∧ p.testBit 0 = false) then none
  else some (onFlt (fun f => { f with injEn := p.testBit 0, cliffEn := p.testBit 1 })
    (onSec (fun x => { x with cfg := { x.cfg with policy := p, requireIde := p.testBit 2 } }) s))

/-- TRUST: anchors and revoked keys (R516). -/
def applyTrust (b : List Byte) (s : State) : Option State :=
  let n := byteAt b 0
  let m := leAt b 2 2
  if b.length ≠ 4 + 32 * n + 32 * m ∨ 16 < n ∨ byteAt b 1 ≠ 0 ∨ 4096 < m then none
  else some (onSec (fun x => { x with cfg := { x.cfg with
    anchors := (List.range n).map (fun k => sliceB b (4 + 32 * k) 32),
    revoked := (List.range m).map (fun k => sliceB b (4 + 32 * n + 32 * k) 32) } }) s)

/-- One entry of REGISTERS, as a write by PF0: another offset fails, and so does a write refused (R519). -/
def applyReg (off : Nat) (v : Word) (s : State) : Option State :=
  if off = 0x400010 then some (doTideRole v s)
  else if off = 0x400014 then
    (let t := writeParents v s
     if t.tide.setRej then none else some t)
  else if off = 0x200000 then some (doDbwBudgetWrite v s)
  else if off = 0x800004 then some (writeFlt 0x04 v s)
  else if 0x1000000 ≤ off ∧ off < 0x1000300 ∧ off % 16 = 0 then
    (let t := doLnGrpCfg ((off - 0x1000000) / 16) v s
     if (mgetD t.net.groups ((off - 0x1000000) / 16) {}).modeRej then none else some t)
  else if 0x1010000 ≤ off ∧ off < 0x1040000 ∧ off % 256 = 0 then
    (let l := (off - 0x1010000) / 256
     let t := doLnCtl l v s
     if (getLane t l).cfgRej then none else some t)
  else none

/-- Entries of a section in order; the number of the first that fails. -/
def applyEach (f : Nat → State → Option State) : Nat → Nat → State → State × Option Nat
  | 0, _, s => (s, none)
  | n + 1, k, s => match f k s with
    | none => (s, some k)
    | some t => applyEach f n (k + 1) t

/-- REGISTERS: entries of 8 bytes (R516). -/
def applyRegisters (b : List Byte) (s : State) : State × Option Nat :=
  if b.length % 8 ≠ 0 then (s, some (b.length / 8))
  else applyEach (fun k s => applyReg (leAt b (8 * k) 4) (BitVec.ofNat 32 (leAt b (8 * k + 4) 4)) s) (b.length / 8) 0 s

/-- The work of an opcode that COMMANDS allows (R519). -/
def bundleWork (c : Nat) : Option Work :=
  match c with
  | 0x48 => some (withTag (fun _ => (4, 0)) coveBehind coveMust coveBump rawCoveCreate)
  | 0x4B => some (withTag (fun _ => (1, 0)) winBehind winMust winBump rawWindowAdd)
  | 0x58 => some workJobClass
  | 0x60 => some (workRoute 0x60)
  | 0x62 => some (workRoute 0x62)
  | 0x64 => some workSoundingSet
  | 0x68 => some workShoalSet
  | 0x69 => some workDatelineSet
  | 0x6A => some workSchedSet
  | 0x6B => some workQueueSet
  | 0x6C => some workPoliceSet
  | _ => none

/-- The bytes an opcode reads at ADDR. -/
def bundleNeeds (c : Nat) (op : BitVec 384) : Nat :=
  if c = 0x4B then 32 else if c = 0x60 then fld op 267 249 * routeSize (fld op 287 286) else 0

/-- One descriptor of COMMANDS; ADDR is an offset into the data area. It must complete DONE, a staged one with its batch. -/
def applyCommand (area : List Byte) (k : Nat) (desc : BitVec 512) (s : State) : Option State :=
  let c := fld desc 7 0
  let op : BitVec 384 := BitVec.ofNat 384 (desc.toNat / 2 ^ 128)
  let need := bundleNeeds c op
  let addr := fld op 383 320
  match bundleWork c with
  | none => none
  | some w =>
    if fld desc 63 9 ≠ 0 ∨ (0 < need ∧ area.length < addr + need) then none
    else
      let out := w ⟨8192, k, 0, false⟩ op (if need = 0 then [] else sliceB area addr need) s
      match out.2 with
      | .done st _ _ => if st = stDONE then some out.1 else none
      | .wait .staged => some out.1
      | .wait _ => none

/-- COMMANDS: COUNT, zero, the descriptors, the data area. A batch left staged has not completed DONE. -/
def applyCommands (b : List Byte) (s : State) : State × Option Nat :=
  let n := leAt b 0 4
  if leAt b 4 4 ≠ 0 ∨ b.length < 8 + 64 * n then (s, some 0)
  else
    let area := b.drop (8 + 64 * n)
    let out := applyEach (fun k s => applyCommand area k (BitVec.ofNat 512 (leAt b (8 + 64 * k) 64)) s) n 0 s
    match out.2 with
    | some k => (out.1, some k)
    | none => if out.1.route.batch.isEmpty then out else (onRoute (fun r => { r with batch := [] }) out.1, some (n - 1))

/-- One section of a bundle: the state, and the item that fails. USER is never applied (R516). -/
def applySection (d : List Byte) (e : BEntry) (s : State) : State × Option Nat :=
  let b := entryBytes d e
  let whole (o : Option State) : State × Option Nat := match o with
    | some t => (t, none)
    | none => (s, some 0)
  match e.typ with
  | 1 => whole (applyPolicy b s)
  | 2 => whole (applyTrust b s)
  | 3 => (onSec (fun x => { x with cfg := { x.cfg with saveKey := unwrapSave d b } }) s, none)
  | 4 => applyRegisters b s
  | 5 => applyCommands b s
  | 6 => if b = List.replicate 8 0 then (s, none) else (s, some 0)
  | _ => (s, none)

/-- The sections in entry order, which is the order of application: the state, and entry and item of the first failure. -/
def applySections (d : List Byte) : Nat → List BEntry → State → State × Option (Nat × Nat)
  | _, [], s => (s, none)
  | k, e :: rest, s =>
    let out := applySection d e s
    match out.2 with
    | some i => (out.1, some (k, i))
    | none => applySections d (k + 1) rest out.1

/-- Step 8 of R518: apply a bundle that passed steps 1 to 7, from a slot (2 for none). Success posts CFG_APPLIED and writes
or empties the owner record; a failure leaves what was applied (R519). -/
def applyBundle (d0 : List Byte) (slot : Nat) (s : State) : State × Option (Nat × Nat) :=
  let d := d0.take (cfgTotal d0)
  let s := clearForBundle s
  let s := onSec (fun x => { x with
    epid := some (cfgEpid d), advanced := false, cfg := { x.cfg with fabric := leAt d 24 8 } }) s
  let out := applySections d 0 (cfgSects d) s
  match out.2 with
  | some e => (out.1, some e)
  | none =>
    let s := onSec (fun x => { x with
      cfg := { x.cfg with slot := slot, id := leAt d 8 8, svn := cfgSvnOf d, bundle := d },
      owner := if (cfgSect d 6).isSome then none else match x.owner with
        | some o => some o
        | none => some (ownerId d, cfgEpid d) }) out.1
    (postDev 0x39 (bytesLE 8 s.sec.cfg.id ++ bytesLE 4 s.sec.cfg.svn) s, none)

/-! ## Flash (R508, R510, R525) -/

/-- Write a bundle to a flash slot: its record carries a WRITE_SEQ above that of both slots of the pair. -/
def writeFlash (k : Nat) (d : List Byte) (s : State) : State :=
  let a := nth s.sec.flash (k / 2 * 2) {}
  let b := nth s.sec.flash (k / 2 * 2 + 1) {}
  onSec (fun x => { x with flash := setAt x.flash k { seq := max a.seq b.seq + 1, bundle := some d } }) s

/-- The configuration slot whose WRITE_SEQ is lower: 2 slot A, 3 slot B. -/
def olderSlot (s : State) : Nat :=
  let a := nth s.sec.flash 2 {}
  let b := nth s.sec.flash 3 {}
  if a.bundle.isNone then 2 else if b.bundle.isNone then 3 else if b.seq < a.seq then 3 else 2

/-- The restart of FW_LOAD with ACTIVATE: descriptors accepted after it complete HELD, the rings stand, and BOOT begins from
the slot written (R524). What the steps of BOOT fill reads as reset again. -/
def restart (slot : Nat) (r i : Nat) (s : State) : State :=
  let later := (s.host.accepted.dropWhile (fun d => !(d.ring == r && d.idx == i))).drop 1
  let s := forAll later (fun d => complete d stHELD 0 false false) s
  let s := onSec (fun x => { x with nextFw := some slot, fw := {}, cfg := {}, epid := none, advanced := false }) s
  let s := onDev (fun d => { d with startingUp := false, holdReason := 0, holdWhere := 0, holdItem := 0 }) s
  enterState .boot s

/-- FW_LOAD (R525). -/
def workFwLoad : Work := fun cx op d s =>
  let len := fld op 319 288
  let b := sliceB d 0 len
  if ¬ onlyBits op [(383, 320), (319, 288), (287, 287)] ∨ fld op 383 320 % 64 ≠ 0 then (s, fail stBAD)
  else if bitAt op 287 ∧ (s.dev.state ≠ .hold ∨ hardHold s) then (s, fail stHELD)
  else if 2 ^ 24 - 4096 < len then (s, fail stNORES)
  else match fwReason s b with
    | some x => (s, .done stBAD x false)
    | none =>
      let k := if s.sec.fw.slot = 0 then 1 else 0
      let s := writeFlash k (b.take (fwTotal b)) s
      (if bitAt op 287 then restart k cx.ring cx.idx s else s, ok)

def execFwLoad (r i : Nat) (d : List Byte) (s : State) : Host.Outcome State Fault Refusal := .next (runDesc 0x70 workFwLoad r i d s)

/-- CFG_LOAD (R524, R525). -/
def workCfgLoad : Work := fun _ op d s =>
  let len := fld op 319 288
  let b := sliceB d 0 len
  if ¬ onlyBits op [(383, 320), (319, 288), (287, 286)] ∨ fld op 383 320 % 64 ≠ 0 then (s, fail stBAD)
  else if bitAt op 286 ∧ (s.dev.state ≠ .hold ∨ hardHold s) then (s, fail stHELD)
  else if 2 ^ 23 - 4096 < len then (s, fail stNORES)
  else match cfgReason s b with
    | some x => (s, .done stBAD x false)
    | none =>
      let k := olderSlot s
      let s := if bitAt op 287 then writeFlash k (b.take (cfgTotal b)) s else s
      if ¬ bitAt op 286 then (s, ok)
      else
        let out := applyBundle b (if bitAt op 287 then k - 2 else 2) s
        match out.2 with
        | some e => (setHold hrCFG_APPLY e.1 e.2 out.1, .done stBAD hrCFG_APPLY false)
        | none => (onDev (fun x => { x with startingUp := true }) (setHold 0 0 0 out.1), ok)

def execCfgLoad (r i : Nat) (d : List Byte) (s : State) : Host.Outcome State Fault Refusal := .next (runDesc 0x71 workCfgLoad r i d s)

/-- CFG_READ (R525). -/
def workCfgRead : Work := fun cx op _ s =>
  let addr := fld op 383 320
  let len := fld op 319 288
  let off := fld op 287 224
  let src := fld op 223 222
  let b := if src = 0 then s.sec.cfg.bundle else ((nth s.sec.flash (src + 1) {}).bundle).getD []
  if ¬ onlyBits op [(383, 320), (319, 288), (287, 224), (223, 222)] ∨ addr % 64 ≠ 0 ∨ src = 3 then (s, fail stBAD)
  else if b.isEmpty ∨ b.length < off + len then (s, fail stNORES)
  else (hostWrite cx.func addr (sliceB b off len) s, okR b.length)

def execCfgRead (r i : Nat) (s : State) : Host.Outcome State Fault Refusal := .next (runDesc 0x72 workCfgRead r i [] s)

/-- MEASURE_READ: the report with its signature, or the certificates of levels 1 to 3 (R525). -/
def workMeasureRead : Work := fun cx op _ s =>
  let addr := fld op 383 320
  let len := fld op 319 288
  let what := fld op 287 286
  let body := (measBlocks s).flatten ++ bytesLE 32 (fld op 285 30)
  let out := if what = 0 then body ++ aliasSign s (sha body) else aliasChain s
  if ¬ onlyBits op ([(383, 320), (319, 288), (287, 286)] ++ (if what = 0 then [(285, 30)] else [])) ∨ addr % 64 ≠ 0 ∨ 1 < what then (s, fail stBAD)
  else if len < out.length then (s, fail stNORES)
  else (hostWrite cx.func addr out s, okR out.length)

def execMeasureRead (r i : Nat) (s : State) : Host.Outcome State Fault Refusal := .next (runDesc 0x73 workMeasureRead r i [] s)

/-! ## SPDM and IDE (R527, R528) -/

/-- SPDM_MESSAGE on a PF's mailbox: answered unless HOLD stands for PUF_FAIL, MFG_RECORD or MRAM_FAIL (R523). -/
def doSpdm (pf : Nat) (msg : List Byte) (s : State) : State :=
  if ¬ regsLive s ∨ ¬ isPf s pf ∨ hardHold s then s
  else onHost (fun h => { h with doe := h.doe ++ [Config.spdmAnswer (measBlocks s).flatten msg] }) s

def execSpdmMessage (pf : Nat) (msg : List Byte) (s : State) : Host.Outcome State Fault Refusal := .next (doSpdm pf msg s)

/-- IDE_KM inside an SPDM session sets which directions of the link's stream are active; completions that waited for it are
written once both are (R528). -/
def doIdeKm (pf : Nat) (inSession tx rx : Bool) (s : State) : State :=
  if ¬ regsLive s ∨ ¬ isPf s pf ∨ ¬ inSession then s
  else
    let s := onHost (fun h => { h with ideActive := mput h.ideActive (linkOfFn s pf) (tx, rx) }) s
    let held := s.host.heldCpl
    forAll held (fun x => complete x.1 x.2.1 x.2.2.1 x.2.2.2.1 x.2.2.2.2) (onHost (fun h => { h with heldCpl := [] }) s)

def execIdeKm (pf : Nat) (inSession tx rx : Bool) (s : State) : Host.Outcome State Fault Refusal := .next (doIdeKm pf inSession tx rx s)

end Sys2Proof.Machine
end

