-- ==== Sys2Proof/Machine/Startup.lean ====
section
/-! DEFINITION. Reset, power, BOOT and the path to RUN (R491, R503, R506, R510, R514, R582 to R594, R600 to R607), and the
boundary scan (R537). -/

namespace Sys2Proof.Machine

/-! ## GO and reset (R582 to R584, R588, R592) -/

/-- GO: accepted in TRAIN with Tide aligned where ROLE is SLAVE, refused with GO_REJ otherwise (R584, R588). The counters
of R520 advance before DEV_STATE shows RUN. -/
def doGo (s : State) : State :=
  if s.dev.state = .train ∧ s.stop.frozen = false ∧ ¬ (s.tide.role = 2 ∧ s.tide.tstate ≠ .locked) then enterState .run (advanceSvn s)
  else onDev (fun d => { d with goRej := true, goRejAt := some s.tide.now }) s

def execGo (s : State) : Host.Outcome State Fault Refusal := .next (byHost doGo s)

/-- RESET: everything returns to its reset value but the part, the flash and the MRAM, the levels of pins and supplies, what
has left for the host, and the commands waiting. -/
def toReset (s : State) : State :=
  let d := s.dev
  let h := s.host
  let x := s.sec
  { State.reset with
    pending := s.pending,
    dev := { state := .reset, bcnRate := 0, prev := d.state, resetLow := d.resetLow, cold := d.cold, railsOut := d.railsOut,
             clocksAbsent := d.clocksAbsent, bifur := d.bifur, sbAddr := d.sbAddr, tap := d.tap },
    part := s.part,
    host := { msi := h.msi, doe := h.doe, aer := h.aer, mem := h.mem },
    flt := { mramCliff := s.flt.mramCliff },
    sec := { flash := x.flash, fwSvn := x.fwSvn, cfgSvn := x.cfgSvn, owner := x.owner, fresh := x.fresh } }

/-- Leave RESET for BOOT once RESET_N is high, every rail in range, and MGMT_CLK and the Tide reference run (R582, R602). -/
def leaveReset (s : State) : State :=
  if s.dev.state = .reset ∧ s.dev.resetLow = false ∧ s.dev.railsOut = [] ∧ ¬ (18 ∈ s.dev.clocksAbsent ∨ 19 ∈ s.dev.clocksAbsent) then
    setState .boot s
  else s

/-- RESET_ASSERT: RESET_N falls, or domain 0 has a fundamental reset; not in CLIFF (R491, R582). -/
def doResetAssert (s : State) : State :=
  if s.dev.state = .cliff then s
  else onDev (fun d => { d with resetLow := true }) (if s.dev.state = .reset then s else toReset s)

def execResetAssert (s : State) : Host.Outcome State Fault Refusal := .next (doResetAssert s)

/-- RESET_RELEASE: BIFUR and SB_ADDR are sampled (R582, R607). -/
def doResetRelease (bifur sbAddr : Bool) (s : State) : State :=
  if s.dev.state = .reset ∧ s.dev.resetLow = true then
    leaveReset (onDev (fun d => { d with resetLow := false, bifur := bifur, sbAddr := sbAddr }) s)
  else s

def execResetRelease (bifur sbAddr : Bool) (s : State) : Host.Outcome State Fault Refusal := .next (doResetRelease bifur sbAddr s)

/-- SW_RESET: with KEY 0xA5 and the bit, RESET and released at once; without, ignored (R592). -/
def doSwReset (v : Word) (s : State) : State :=
  if fld v 31 24 = 0xA5 ∧ bitAt v 23 = true then leaveReset (toReset s) else s

def execSwReset (v : Word) (s : State) : Host.Outcome State Fault Refusal := .next (byHost (doSwReset v) s)

/-- A write of DEV_CTL through PF0's BAR0: SW_RESET with the key, and GO (W1S); the key alone and the reserved bits do
nothing (R15, R592). A write with both ends in RESET. -/
def writeDevCtl (v : Word) (s : State) : State :=
  if fld v 31 24 = 0xA5 ∧ bitAt v 23 = true then doSwReset v s else onlyIf (bitAt v 22) doGo s

/-- REGISTER_WRITE: a 32-bit write of a function to a register of BAR0 or BAR2. -/
def doRegisterWrite (writer bar off : Nat) (v : Word) (s : State) : State :=
  if bar = 2 then writeMsix writer off v s
  else if bar ≠ 0 then s
  else if writer = 0 ∧ off = 0x10004 then byHost (writeDevCtl v) s
  else writeBar0 writer off v s

/-- A 64-bit write to two registers: two writes, the lower address first (R407). -/
def doRegisterWrite64 (writer bar off : Nat) (v : BitVec 64) (s : State) : State :=
  doRegisterWrite writer bar (off + 4) (BitVec.ofNat 32 (v.toNat / 2 ^ 32))
    (doRegisterWrite writer bar off (BitVec.ofNat 32 v.toNat) s)

/-- A read of one 32-bit register and what it does: the lower half of the Tide or of DEV_ENTER latches the upper half
(R442, R592). -/
def readAt (reader bar off : Nat) (s : State) : Word × State :=
  (readRegister reader bar off s,
   if bar = 0 ∧ reader = 0 ∧ off = 0x400000 then doNowRead s
   else if bar = 0 ∧ reader = 0 ∧ off = 0x10024 ∧ s.dev.state ≠ .reset then onDev (fun d => { d with enterHi := d.enterTide / 2 ^ 32 }) s
   else s)

/-- A 64-bit read of two registers: two reads, the lower address first (R407). -/
def readAt64 (reader bar off : Nat) (s : State) : BitVec 64 × State :=
  let lo := readAt reader bar off s
  let hi := readAt reader bar (off + 4) lo.2
  (BitVec.ofNat 64 (hi.1.toNat * 2 ^ 32 + lo.1.toNat), hi.2)

def execRegisterWrite (writer bar off : Nat) (v : Word) (s : State) : Host.Outcome State Fault Refusal :=
  .next (doRegisterWrite writer bar off v s)

/-- RAILS_IN_RANGE (R602). -/
def doRailsInRange (s : State) : State := leaveReset (onDev (fun d => { d with railsOut := [] }) s)

def execRailsInRange (s : State) : Host.Outcome State Fault Refusal := .next (doRailsInRange s)

/-- REFERENCE_CLOCK_START (R602). -/
def doReferenceClockStart (c : Nat) (s : State) : State :=
  leaveReset (onDev (fun d => { d with clocksAbsent := d.clocksAbsent.filter (fun k => k != c) }) s)

def execReferenceClockStart (clock : Nat) (s : State) : Host.Outcome State Fault Refusal := .next (doReferenceClockStart clock s)

/-- POWER_CYCLE: what the MRAM, the flash and the part itself hold is left, and RESET_N is low (R491, R507, R600, R601). -/
def doPowerCycle (s : State) : State :=
  let t := toReset s
  { t with
    dev := { state := .reset, bcnRate := 0, resetLow := true },
    part := { t.part with retired := [], cellMap := [], badCells := [], repairWaiting := [] } }

def execPowerCycle (s : State) : Host.Outcome State Fault Refusal := .next (doPowerCycle s)

/-- PCIE_DOMAIN1_RESET: as a function level reset of PF1 and its VFs (R583). -/
def execPcieDomain1Reset (s : State) : Host.Outcome State Fault Refusal := .next (if s.dev.bifur then doFlr 32 0 s else s)

/-- BOUNDARY_SCAN_INSTRUCTION: EXTEST is refused outside RESET and HOLD (R537). -/
def doBoundaryScan (code : Nat) (s : State) : State :=
  if 5 < code ∨ (code = 3 ∧ s.dev.state ≠ .reset ∧ s.dev.state ≠ .hold) then s else onDev (fun d => { d with tap := code }) s

def execBoundaryScanInstruction (code : Nat) (s : State) : Host.Outcome State Fault Refusal := .next (doBoundaryScan code s)

/-! ## The choice of a slot (R510) -/

/-- The better of two valid slots: the higher SVN, then the higher WRITE_SEQ, then slot A. -/
def betterSlot (svn : List Byte → Nat) (s : State) (a b : Nat) : Nat :=
  let fa := nth s.sec.flash a {}
  let fb := nth s.sec.flash b {}
  let va := svn (fa.bundle.getD [])
  let vb := svn (fb.bundle.getD [])
  if va < vb ∨ (va = vb ∧ fa.seq < fb.seq) then b else a

/-- What a slot gives: none with no record, otherwise the reason of its first failing check, or none. -/
def slotState (check : State → List Byte → Option Nat) (s : State) (k : Nat) : Option (Option Nat) :=
  (nth s.sec.flash k {}).bundle.map (check s)

/-- The slot that a pair yields (a valid one is preferred where an ACTIVATE named it), or the HOLD reason (R510, R524). -/
def chooseSlot (check : State → List Byte → Option Nat) (svn : List Byte → Nat) (empty a : Nat) (first : Option Nat) (s : State) : Except Nat Nat :=
  let ra := slotState check s a
  let rb := slotState check s (a + 1)
  let va := ra == some none
  let vb := rb == some none
  if first = some a ∧ va = true then .ok a
  else if first = some (a + 1) ∧ vb = true then .ok (a + 1)
  else if va && vb then .ok (betterSlot svn s a (a + 1))
  else if va then .ok a
  else if vb then .ok (a + 1)
  else match ra, rb with
    | some (some x), some (some y) => .error (if (nth s.sec.flash a {}).seq < (nth s.sec.flash (a + 1) {}).seq then y else x)
    | some (some x), _ => .error x
    | _, some (some y) => .error y
    | _, _ => .error empty

/-! ## Self-test, change-over and re-plan: steps 5 and 6 of R585 -/

/-- A failed cell is mapped to the lowest unused spare, or its array retires (R25, R27, R585). -/
def mapCell (d u phys : Nat) (s : State) : State :=
  if ¬ arrayEnabled s d u ∨ 528 ≤ phys ∨ s.part.badCells.contains (d, u, phys) then s
  else
    let logical := logicalOf s d u phys
    let s := onPart (fun p => { p with
      badCells := p.badCells ++ [(d, u, phys)],
      cellMap := p.cellMap.filter (fun e => !(e.1 == d && e.2.1 == u && e.2.2.2 == phys)) }) s
    match logical with
    | none => s
    | some l => match nextSpare s d u with
      | some k => onPart (fun p => { p with cellMap := p.cellMap ++ [(d, u, l, k)] }) s
      | none => retireArray d u s

/-- A cell that self-test finds failed: mapped, logged, and counted for ST_LOST where a spare took it. -/
def testCell (d u phys : Nat) (s : State) : State :=
  if ¬ arrayEnabled s d u ∨ 528 ≤ phys ∨ s.part.badCells.contains (d, u, phys) then s
  else
    let t := logRepair d u phys (mapCell d u phys s)
    if s.part.cellMap.length < t.part.cellMap.length then onDev (fun x => { x with lostCells := modAt x.lostCells d (· + 1) }) t else t

/-- A buffer that self-test finds failed goes to the repair log, as unit 12 of its die where the log is full (R302, R507). -/
def testBuffer (d b : Nat) (s : State) : State :=
  if s.part.repairBufs.contains (d, b) ∨ s.part.repairWaiting.contains (d, 12, b) ∨ 655360 ≤ b then s
  else if s.part.repairLog.length + s.part.repairBufs.length < 1240 then onPart (fun p => { p with repairBufs := p.repairBufs ++ [(d, b)] }) s
  else postDev 0x3C (bytesLE 1 d) (onPart (fun p => { p with repairWaiting := p.repairWaiting ++ [(d, 12, b)] }) s)

/-- The buffers of a die that stay out of service. -/
def lostBufs (s : State) (d : Nat) : List Nat :=
  ((s.part.repairBufs.filter (fun e => e.1 == d)).map (·.2)
    ++ (s.part.repairWaiting.filter (fun e => e.1 == d && e.2.1 == 12)).map (·.2.2)).foldl (fun l b => insertAsc b l) []

/-- Step 5 of R585: the repair log is applied, then self-test maps cells and withholds buffers. -/
def selfTest (x : StartInput) (s : State) : State :=
  let s := forAll (s.part.repairLog ++ s.part.repairWaiting.filter (fun e => e.2.1 != 12)) (fun e => mapCell e.1 e.2.1 e.2.2) s
  let s := onDev (fun d => { d with lostBuffers := [0, 0, 0, 0], lostCells := [0, 0, 0, 0] }) s
  let s := forAll (x.badCells.filter (fun e => decide (e.1 < 4) && decide (e.2.1 < 12))) (fun e => testCell e.1 e.2.1 e.2.2) s
  let s := forAll (x.badBuffers.filter (fun e => decide (e.1 < 4))) (fun e => testBuffer e.1 e.2) s
  let s := forAll (List.range 4) (fun d s => onSlice d (fun sl => { sl with
    withheld := lostBufs s d, quarters := sl.quarters.map (fun x => { x with skip := lostBufs s d }) }) s) s
  onDev (fun d => { d with stDone := true, lostBuffers := (List.range 4).map (fun k => (lostBufs s k).length) }) s

/-- The die at which self-test fails: more than 4,096 buffers withheld, or the shared pool below POOL_FLOOR (R302, R585). -/
def failedDie (s : State) : Option Nat :=
  (List.range 4).find? (fun d => decide (4096 < (lostBufs s d).length) || decide (poolSize s d < s.shoal.cfg.poolFloor * 256))

/-- Step 6 of R585: every quarter changes over to the bitmap, and every die is re-planned. -/
def changeAndReplan (x : StartInput) (s : State) : State :=
  let s := forAll (List.range 4) (fun d s => forAll (List.range 4) (changeOver d) s) s
  forAll (List.range 4) (fun d => replan true d x.margins) s

/-! ## The end of BOOT (R585 to R587, R592, R594) -/

/-- Ring enables written during BOOT take effect: completion and event rings, then submission rings; the watchdog is armed
(R418, R484). -/
def bootEnds (s : State) : State :=
  let due := s.host.rings.filter (fun e => e.2.enAtBoot)
  let s := forAll ((due.filter (fun e => ringType e.2 != 1)).map (·.1)) enableRing s
  let s := forAll ((due.filter (fun e => ringType e.2 == 1)).map (·.1)) enableRing s
  onFlt (fun f => { f with wdArmed := true, wdAt := s.tide.now }) s

/-- SELFTEST_DONE of each die (R593). -/
def postSelfTest (s : State) : State :=
  forAll (List.range 4) (fun d s => postDev 0x31 (bytesLE 1 d ++ bytesLE 2 (min 0xFFFF (nth s.dev.lostBuffers d 0)) ++ bytesLE 2 (nth s.dev.lostCells d 0)) s) s

/-- Step 7 of R585: TRAIN, where enabled ports begin to train (R379). -/
def enterTrain (s : State) : State :=
  let s := postSelfTest s
  let s := enterState .train (onDev (fun d => { d with startingUp := false, holdReason := 0, holdWhere := 0, holdItem := 0 }) s)
  retide (startPorts s)

/-- BOOT ends in HOLD: the rings are enabled, and STATE_CHANGED precedes HOLD_ENTERED (R522, R523, R594). -/
def enterHold (reason place item : Nat) (s : State) : State :=
  let s := enterState .hold (setHold reason place item (bootEnds s))
  postDev 0x38 (bytesLE 4 (holdReason s)) s

/-- The boot ROM serves HOLD where no firmware bundle passed (R523, R591). -/
def holdByRom (reason place : Nat) (s : State) : State :=
  enterHold reason place 0 (onSec (fun x => { x with fw := { slot := 2 } }) s)

/-- Steps 5 to 7 of R585 at the end of BOOT. -/
def finishBoot (x : StartInput) (s : State) : State :=
  let s := selfTest x s
  match failedDie s with
  | some d => enterHold hrSELFTEST d 0 s
  | none => enterTrain (bootEnds (changeAndReplan x s))

/-- Step 4 of R585: the configuration bundle. -/
def bootConfig (x : StartInput) (s : State) : State :=
  match chooseSlot cfgReason cfgSvnOf hrNO_CONFIG 2 none s with
  | .error r => enterHold r 0 0 s
  | .ok k =>
    let out := applyBundle (((nth s.sec.flash k {}).bundle).getD []) (k - 2) s
    match out.2 with
    | some e => enterHold hrCFG_APPLY e.1 e.2 out.1
    | none => finishBoot x out.1

/-- Steps 2 and 3 of R585: the firmware bundle and the lane dies' image. -/
def bootFirmware (x : StartInput) (s : State) : State :=
  match chooseSlot fwReason fwSvnOf hrNO_FIRMWARE 0 s.sec.nextFw s with
  | .error r => holdByRom r 0 s
  | .ok k =>
    let s := onSec (fun y => { y with fw := fwOf (((nth s.sec.flash k {}).bundle).getD []) k, nextFw := none }) s
    match (List.range 12).find? (fun l => x.badLaneDies.contains l) with
    | some l => enterHold hrFW_IMAGE l 0 s
    | none => bootConfig x s

/-- What the MRAM areas give at step 1 of R585: a Cliff record or a repair log that fails its tag is discarded, the Cliff
record of before a power cycle is loaded, and the recorded endpoint ID is known (R492, R506). -/
def bootMram (x : StartInput) (s : State) : State :=
  let s := if x.cliffAreaOk then s else onFlt (fun f => { f with mramCliff := none }) s
  let s := if x.repairLogOk then s
    else onPart (fun p => { p with repairLog := [], repairBufs := [], retired := [], cellMap := [], badCells := [] }) s
  let s := match s.flt.mramCliff with
    | some c => if s.dev.cold then
        onFlt (fun f => { f with lastCliff := true, lastCliffAt := some s.tide.now, cliffSrc := c.1, cliffLoc := c.2.1, cliffTide := c.2.2 }) s else s
    | none => s
  onSec (fun y => { y with epid := y.owner.map (·.2) }) (onDev (fun d => { d with cold := false }) s)

/-- The manufacturing record as BOOT reads it: the first read fixes the part's disabled regions (R3, log entry 81), and those
regions stand power-gated (R4). -/
def readMfg (x : StartInput) (s : State) : State :=
  let s := onPart (fun p => if p.mfgRead then p else { p with mfgRead := true, off := x.disabled }) (onDev (fun d => { d with mfg := true }) s)
  forAll (s.part.disabled) (fun e => onRgn (4 * e.1 + e.2) (fun r => { r with gated := true, gatedAt := s.tide.now, opening := false })) s

/-- BOOT_SEQUENCE_DONE: the steps of BOOT in order; the first failure ends in HOLD (R503, R506, R585). -/
def doBootSequence (x : StartInput) (s : State) : State :=
  if s.dev.state ≠ .boot then s
  else if ¬ x.pufOk then holdByRom hrPUF 0 s
  else if ¬ x.mfgOk then holdByRom hrMFG 0 s
  else
    let s := readMfg x s
    if ¬ x.mramOk then holdByRom hrMRAM 0 s else bootFirmware x (bootMram x s)

def execBootSequenceDone (x : StartInput) (s : State) : Host.Outcome State Fault Refusal := .next (doBootSequence x s)

/-- HOLD_START_UP: after CFG_LOAD with APPLY, steps 5 to 7 run in HOLD; self-test may put SELFTEST back (R586). -/
def doHoldStartUp (x : StartInput) (s : State) : State :=
  if s.dev.state ≠ .hold ∨ s.dev.startingUp = false then s
  else
    let s := selfTest x s
    match failedDie s with
    | some d => setHold hrSELFTEST d 0 (onDev (fun y => { y with startingUp := false }) s)
    | none => enterTrain (bootEnds (changeAndReplan x s))

def execHoldStartUp (x : StartInput) (s : State) : Host.Outcome State Fault Refusal := .next (doHoldStartUp x s)

end Sys2Proof.Machine
end

