-- ==== Sys2Proof/Machine/Dispatch.lean ====
section
/-! DEFINITION. One arm for each command: a direct call of its meaning. -/

namespace Sys2Proof.Machine

/-- The effect of a command on everything but the queue. -/
def exec (i : Instr) (s : State) : Host.Outcome State Fault Refusal :=
  match i with
  | .nop r idx => Sys2Proof.Machine.execNop r idx s
  | .tideLaunch r idx => Sys2Proof.Machine.execTideLaunch r idx s
  | .stopAt r idx => Sys2Proof.Machine.execStopAt r idx s
  | .stopResume r idx => Sys2Proof.Machine.execStopResume r idx s
  | .stateSave r idx => Sys2Proof.Machine.execStateSave r idx s
  | .stateRestore r idx d => Sys2Proof.Machine.execStateRestore r idx d s
  | .snapshotAt r idx => Sys2Proof.Machine.execSnapshotAt r idx s
  | .counterReset r idx => Sys2Proof.Machine.execCounterReset r idx s
  | .telemetryDrain r idx => Sys2Proof.Machine.execTelemetryDrain r idx s
  | .traceSet r idx => Sys2Proof.Machine.execTraceSet r idx s
  | .traceDrain r idx => Sys2Proof.Machine.execTraceDrain r idx s
  | .groupInstall r idx d => Sys2Proof.Machine.execGroupInstall r idx d s
  | .groupExtents r idx d => Sys2Proof.Machine.execGroupExtents r idx d s
  | .groupEvict r idx => Sys2Proof.Machine.execGroupEvict r idx s
  | .groupQuiesce r idx => Sys2Proof.Machine.execGroupQuiesce r idx s
  | .groupResume r idx => Sys2Proof.Machine.execGroupResume r idx s
  | .groupRenew r idx => Sys2Proof.Machine.execGroupRenew r idx s
  | .groupDestroy r idx => Sys2Proof.Machine.execGroupDestroy r idx s
  | .groupQuery r idx => Sys2Proof.Machine.execGroupQuery r idx s
  | .accumSet r idx => Sys2Proof.Machine.execAccumSet r idx s
  | .tableInstall r idx d => Sys2Proof.Machine.execTableInstall r idx d s
  | .tableWrite r idx d => Sys2Proof.Machine.execTableWrite r idx d s
  | .tableRead r idx => Sys2Proof.Machine.execTableRead r idx s
  | .tableApply r idx => Sys2Proof.Machine.execTableApply r idx s
  | .tableSet r idx d => Sys2Proof.Machine.execTableSet r idx d s
  | .tableQuiesce r idx => Sys2Proof.Machine.execTableQuiesce r idx s
  | .tableResume r idx => Sys2Proof.Machine.execTableResume r idx s
  | .tableDestroy r idx => Sys2Proof.Machine.execTableDestroy r idx s
  | .shardMap r idx d => Sys2Proof.Machine.execShardMap r idx d s
  | .tableQuery r idx => Sys2Proof.Machine.execTableQuery r idx s
  | .coveCreate r idx => Sys2Proof.Machine.execCoveCreate r idx s
  | .coveDestroy r idx => Sys2Proof.Machine.execCoveDestroy r idx s
  | .portBind r idx => Sys2Proof.Machine.execPortBind r idx s
  | .portUnbind r idx => Sys2Proof.Machine.execPortUnbind r idx s
  | .windowAdd r idx d => Sys2Proof.Machine.execWindowAdd r idx d s
  | .windowRemove r idx => Sys2Proof.Machine.execWindowRemove r idx s
  | .regionExport r idx d => Sys2Proof.Machine.execRegionExport r idx d s
  | .regionRelease r idx => Sys2Proof.Machine.execRegionRelease r idx s
  | .jobClass r idx => Sys2Proof.Machine.execJobClass r idx s
  | .jobPort r idx => Sys2Proof.Machine.execJobPort r idx s
  | .jobPortUnbind r idx => Sys2Proof.Machine.execJobPortUnbind r idx s
  | .routeWrite r idx d => Sys2Proof.Machine.execRouteWrite r idx d s
  | .routeRead r idx => Sys2Proof.Machine.execRouteRead r idx s
  | .routeConfig r idx => Sys2Proof.Machine.execRouteConfig r idx s
  | .epochDrain r idx => Sys2Proof.Machine.execEpochDrain r idx s
  | .soundingSet r idx => Sys2Proof.Machine.execSoundingSet r idx s
  | .shoalSet r idx => Sys2Proof.Machine.execShoalSet r idx s
  | .datelineSet r idx => Sys2Proof.Machine.execDatelineSet r idx s
  | .schedSet r idx => Sys2Proof.Machine.execSchedSet r idx s
  | .queueSet r idx => Sys2Proof.Machine.execQueueSet r idx s
  | .policeSet r idx => Sys2Proof.Machine.execPoliceSet r idx s
  | .fwLoad r idx d => Sys2Proof.Machine.execFwLoad r idx d s
  | .cfgLoad r idx d => Sys2Proof.Machine.execCfgLoad r idx d s
  | .cfgRead r idx => Sys2Proof.Machine.execCfgRead r idx s
  | .measureRead r idx => Sys2Proof.Machine.execMeasureRead r idx s
  | .descriptorArrival ring ok desc => Sys2Proof.Machine.execDescriptorArrival ring ok desc s
  | .doorbellPoll line ok bytes => Sys2Proof.Machine.execDoorbellPoll line ok bytes s
  | .interruptModeration ring => Sys2Proof.Machine.execInterruptModeration ring s
  | .msixUnmask func vector => Sys2Proof.Machine.execMsixUnmask func vector s
  | .ringEnable writer ring => Sys2Proof.Machine.execRingEnable writer ring s
  | .ringDisable writer ring => Sys2Proof.Machine.execRingDisable writer ring s
  | .ringDrained ring => Sys2Proof.Machine.execRingDrained ring s
  | .functionDisable writer func => Sys2Proof.Machine.execFunctionDisable writer func s
  | .functionEnable writer func => Sys2Proof.Machine.execFunctionEnable writer func s
  | .funcDrained func => Sys2Proof.Machine.execFuncDrained func s
  | .functionLevelReset func kind => Sys2Proof.Machine.execFunctionLevelReset func kind s
  | .latTolWrite writer func v => Sys2Proof.Machine.execLatTolWrite writer func v s
  | .dbwBudgetWrite v => Sys2Proof.Machine.execDbwBudgetWrite v s
  | .registerWrite writer bar off v => Sys2Proof.Machine.execRegisterWrite writer bar off v s
  | .barBadAccess write => Sys2Proof.Machine.execBarBadAccess write s
  | .tideNowRead => Sys2Proof.Machine.execTideNowRead s
  | .devEnterRead => Sys2Proof.Machine.execDevEnterRead s
  | .tideSetWrite hi => Sys2Proof.Machine.execTideSetWrite hi s
  | .tideRoleWrite v => Sys2Proof.Machine.execTideRoleWrite v s
  | .go => Sys2Proof.Machine.execGo s
  | .swReset v => Sys2Proof.Machine.execSwReset v s
  | .lastCliffClear => Sys2Proof.Machine.execLastCliffClear s
  | .fltForceSet k v => Sys2Proof.Machine.execFltForceSet k v s
  | .fltForceClr k v => Sys2Proof.Machine.execFltForceClr k v s
  | .forcedDetection source object => Sys2Proof.Machine.execForcedDetection source object s
  | .lnGrpCfgWrite group v => Sys2Proof.Machine.execLnGrpCfgWrite group v s
  | .portEnable port => Sys2Proof.Machine.execPortEnable port s
  | .portDisable port => Sys2Proof.Machine.execPortDisable port s
  | .lnCtlWrite lane v => Sys2Proof.Machine.execLnCtlWrite lane v s
  | .lnTapsWrite lane v => Sys2Proof.Machine.execLnTapsWrite lane v s
  | .prbsCheckerEnable lane => Sys2Proof.Machine.execPrbsCheckerEnable lane s
  | .lnInjWrite lane v => Sys2Proof.Machine.execLnInjWrite lane v s
  | .eyeScanStart lane => Sys2Proof.Machine.execEyeScanStart lane s
  | .eyeScanDone lane err cnt aborted => Sys2Proof.Machine.execEyeScanDone lane err cnt aborted s
  | .pwrReplanWrite hi => Sys2Proof.Machine.execPwrReplanWrite hi s
  | .sidebandRead off => Sys2Proof.Machine.execSidebandRead off s
  | .spdmMessage pf msg => Sys2Proof.Machine.execSpdmMessage pf msg s
  | .ideKm pf inSession tx rx => Sys2Proof.Machine.execIdeKm pf inSession tx rx s
  | .contribution port p => Sys2Proof.Machine.execContribution port p s
  | .partialPiece port p => Sys2Proof.Machine.execPartialPiece port p s
  | .resultPiece port p => Sys2Proof.Machine.execResultPiece port p s
  | .join port p => Sys2Proof.Machine.execJoin port p s
  | .leave port p => Sys2Proof.Machine.execLeave port p s
  | .renew port p => Sys2Proof.Machine.execRenew port p s
  | .epochNotice port p => Sys2Proof.Machine.execEpochNotice port p s
  | .planReady port p => Sys2Proof.Machine.execPlanReady port p s
  | .groupCmd port p => Sys2Proof.Machine.execGroupCmd port p s
  | .groupCmdAck port p => Sys2Proof.Machine.execGroupCmdAck port p s
  | .groupCmdResend group port seq => Sys2Proof.Machine.execGroupCmdResend group port seq s
  | .planReadyResend group => Sys2Proof.Machine.execPlanReadyResend group s
  | .groupStorm port p => Sys2Proof.Machine.execGroupStorm port p s
  | .expUp port p => Sys2Proof.Machine.execExpUp port p s
  | .expDown port p => Sys2Proof.Machine.execExpDown port p s
  | .sealPkt port p => Sys2Proof.Machine.execSealPkt port p s
  | .revoke port p => Sys2Proof.Machine.execRevoke port p s
  | .pack port p => Sys2Proof.Machine.execPack port p s
  | .rack port p => Sys2Proof.Machine.execRack port p s
  | .nak port p => Sys2Proof.Machine.execNak port p s
  | .missing port p => Sys2Proof.Machine.execMissing port p s
  | .chunkWaitTimeout group epoch call chunk => Sys2Proof.Machine.execChunkWaitTimeout group epoch call chunk s
  | .rackWaitTimeout group epoch call chunk => Sys2Proof.Machine.execRackWaitTimeout group epoch call chunk s
  | .partialResendTimeout group epoch call chunk => Sys2Proof.Machine.execPartialResendTimeout group epoch call chunk s
  | .chunkBitmapExpiry group epoch call chunk => Sys2Proof.Machine.execChunkBitmapExpiry group epoch call chunk s
  | .bag port p => Sys2Proof.Machine.execBag port p s
  | .splitBag port p => Sys2Proof.Machine.execSplitBag port p s
  | .grad port p => Sys2Proof.Machine.execGrad port p s
  | .splitGrad port p => Sys2Proof.Machine.execSplitGrad port p s
  | .subBag port p => Sys2Proof.Machine.execSubBag port p s
  | .subGrad port p => Sys2Proof.Machine.execSubGrad port p s
  | .subPooled port p => Sys2Proof.Machine.execSubPooled port p s
  | .expUpE port p => Sys2Proof.Machine.execExpUpE port p s
  | .expDownE port p => Sys2Proof.Machine.execExpDownE port p s
  | .gradAck port p => Sys2Proof.Machine.execGradAck port p s
  | .embFail port p => Sys2Proof.Machine.execEmbFail port p s
  | .applyReq port p => Sys2Proof.Machine.execApplyReq port p s
  | .subBagTimeout src ltid step bag shard => Sys2Proof.Machine.execSubBagTimeout src ltid step bag shard s
  | .tableApplyTidemark table => Sys2Proof.Machine.execTableApplyTidemark table s
  | .rockpoolDecay => Sys2Proof.Machine.execRockpoolDecay s
  | .memRequestAdmit port p => Sys2Proof.Machine.execMemRequestAdmit port p s
  | .memRequestPerform port p => Sys2Proof.Machine.execMemRequestPerform port p s
  | .memResponse port p => Sys2Proof.Machine.execMemResponse port p s
  | .memRequestTimeout port tag => Sys2Proof.Machine.execMemRequestTimeout port tag s
  | .packetIngress port p => Sys2Proof.Machine.execPacketIngress port p s
  | .reseqArrival port p => Sys2Proof.Machine.execReseqArrival port p s
  | .reseqBaseTimeout die src dst ovc => Sys2Proof.Machine.execReseqBaseTimeout die src dst ovc s
  | .reseqGapTimeout die src dst ovc => Sys2Proof.Machine.execReseqGapTimeout die src dst ovc s
  | .reseqEntryFree die src dst ovc => Sys2Proof.Machine.execReseqEntryFree die src dst ovc s
  | .dispatch port vc => Sys2Proof.Machine.execDispatch port vc s
  | .escMove port vc => Sys2Proof.Machine.execEscMove port vc s
  | .egressTurn port => Sys2Proof.Machine.execEgressTurn port s
  | .jobSlotFree port slot => Sys2Proof.Machine.execJobSlotFree port slot s
  | .ownerRelease die buffer owner => Sys2Proof.Machine.execOwnerRelease die buffer owner s
  | .beachcomberAudit die => Sys2Proof.Machine.execBeachcomberAudit die s
  | .quarterRebuild die quarter => Sys2Proof.Machine.execQuarterRebuild die quarter s
  | .ethernetFrame port good frame => Sys2Proof.Machine.execEthernetFrame port good frame s
  | .mgmtFrameSend port frame => Sys2Proof.Machine.execMgmtFrameSend port frame s
  | .macAgeOut mac => Sys2Proof.Machine.execMacAgeOut mac s
  | .flitReceive port slot fecOk flit => Sys2Proof.Machine.execFlitReceive port slot fecOk flit s
  | .flitClose port => Sys2Proof.Machine.execFlitClose port s
  | .nakvRepeat port => Sys2Proof.Machine.execNakvRepeat port s
  | .portDownDeclare port cause => Sys2Proof.Machine.execPortDownDeclare port cause s
  | .portDownCommit port => Sys2Proof.Machine.execPortDownCommit port s
  | .portUpCommit port => Sys2Proof.Machine.execPortUpCommit port s
  | .keyPhaseChange port => Sys2Proof.Machine.execKeyPhaseChange port s
  | .tideSync port sent arrived => Sys2Proof.Machine.execTideSync port sent arrived s
  | .tideEcho port sent arrived => Sys2Proof.Machine.execTideEcho port sent arrived s
  | .tideSyncSend port => Sys2Proof.Machine.execTideSyncSend port s
  | .linkDown port cause => Sys2Proof.Machine.execLinkDown port cause s
  | .neapEnter port tag => Sys2Proof.Machine.execNeapEnter port tag s
  | .neapReply port tag code => Sys2Proof.Machine.execNeapReply port tag code s
  | .lowEnter port tag => Sys2Proof.Machine.execLowEnter port tag s
  | .lowReply port tag code => Sys2Proof.Machine.execLowReply port tag code s
  | .lanePowerRequestRetry port => Sys2Proof.Machine.execLanePowerRequestRetry port s
  | .idleStateDecision region unit => Sys2Proof.Machine.execIdleStateDecision region unit s
  | .neapWake port => Sys2Proof.Machine.execNeapWake port s
  | .lowWaterWake port => Sys2Proof.Machine.execLowWaterWake port s
  | .regionGateOpen region => Sys2Proof.Machine.execRegionGateOpen region s
  | .signalDetect port => Sys2Proof.Machine.execSignalDetect port s
  | .trainingFrame port lane inverted control status ready => Sys2Proof.Machine.execTrainingFrame port lane inverted control status ready s
  | .trainingCountdownEnd port => Sys2Proof.Machine.execTrainingCountdownEnd port s
  | .trainingPhaseFail port => Sys2Proof.Machine.execTrainingPhaseFail port s
  | .trainingRetryPause port => Sys2Proof.Machine.execTrainingRetryPause port s
  | .laneLockLoss lane => Sys2Proof.Machine.execLaneLockLoss lane s
  | .hello port p => Sys2Proof.Machine.execHello port p s
  | .cert port p => Sys2Proof.Machine.execCert port p s
  | .proof port p => Sys2Proof.Machine.execProof port p s
  | .finish port p => Sys2Proof.Machine.execFinish port p s
  | .abort port p => Sys2Proof.Machine.execAbort port p s
  | .measReq port p => Sys2Proof.Machine.execMeasReq port p s
  | .measRsp port p => Sys2Proof.Machine.execMeasRsp port p s
  | .keyingTimeout port => Sys2Proof.Machine.execKeyingTimeout port s
  | .linkRunSwitch port tx => Sys2Proof.Machine.execLinkRunSwitch port tx s
  | .launchAck port p => Sys2Proof.Machine.execLaunchAck port p s
  | .launchDeadline launch => Sys2Proof.Machine.execLaunchDeadline launch s
  | .stopCutTidemark => Sys2Proof.Machine.execStopCutTidemark s
  | .stopMark port p => Sys2Proof.Machine.execStopMark port p s
  | .stopSettle => Sys2Proof.Machine.execStopSettle s
  | .resume port p => Sys2Proof.Machine.execResume port p s
  | .resumeTidemark => Sys2Proof.Machine.execResumeTidemark s
  | .snapshotCapture window => Sys2Proof.Machine.execSnapshotCapture window s
  | .counterResetTidemark => Sys2Proof.Machine.execCounterResetTidemark s
  | .tideSyncInEdge => Sys2Proof.Machine.execTideSyncInEdge s
  | .tideSyncInMissing => Sys2Proof.Machine.execTideSyncInMissing s
  | .tideParentLoss => Sys2Proof.Machine.execTideParentLoss s
  | .faultRecord f => Sys2Proof.Machine.execFaultRecord f s
  | .cliffNotice port p => Sys2Proof.Machine.execCliffNotice port p s
  | .cliffNoticeHoldEnd port => Sys2Proof.Machine.execCliffNoticeHoldEnd port s
  | .regionStall region => Sys2Proof.Machine.execRegionStall region s
  | .checkerSelfTest ok => Sys2Proof.Machine.execCheckerSelfTest ok s
  | .watchdogExpiry => Sys2Proof.Machine.execWatchdogExpiry s
  | .watchdogRefresh => Sys2Proof.Machine.execWatchdogRefresh s
  | .droopCrossing region => Sys2Proof.Machine.execDroopCrossing region s
  | .ebbRelease region => Sys2Proof.Machine.execEbbRelease region s
  | .erosionMeasure region margin life => Sys2Proof.Machine.execErosionMeasure region margin life s
  | .erosionReplan die margins => Sys2Proof.Machine.execErosionReplan die margins s
  | .thermalSample sensor temp => Sys2Proof.Machine.execThermalSample sensor temp s
  | .railFault rail => Sys2Proof.Machine.execRailFault rail s
  | .clockLoss clock => Sys2Proof.Machine.execClockLoss clock s
  | .resetAssert => Sys2Proof.Machine.execResetAssert s
  | .resetRelease bifur sbAddr => Sys2Proof.Machine.execResetRelease bifur sbAddr s
  | .pcieDomain1Reset => Sys2Proof.Machine.execPcieDomain1Reset s
  | .pcieUncorrectable link => Sys2Proof.Machine.execPcieUncorrectable link s
  | .powerCycle => Sys2Proof.Machine.execPowerCycle s
  | .bootSequenceDone x => Sys2Proof.Machine.execBootSequenceDone x s
  | .holdStartUp x => Sys2Proof.Machine.execHoldStartUp x s
  | .groupDestroyDone group => Sys2Proof.Machine.execGroupDestroyDone group s
  | .groupQuiesced group => Sys2Proof.Machine.execGroupQuiesced group s
  | .tableQuiesced table => Sys2Proof.Machine.execTableQuiesced table s
  | .tableDestroyDone table => Sys2Proof.Machine.execTableDestroyDone table s
  | .regionReleaseDone region => Sys2Proof.Machine.execRegionReleaseDone region s
  | .windowRemoveDone window => Sys2Proof.Machine.execWindowRemoveDone window s
  | .portUnbindDone port => Sys2Proof.Machine.execPortUnbindDone port s
  | .epochDrainDone r idx => Sys2Proof.Machine.execEpochDrainDone r idx s
  | .tableCommitWaitEnd tsel index => Sys2Proof.Machine.execTableCommitWaitEnd tsel index s
  | .railsInRange => Sys2Proof.Machine.execRailsInRange s
  | .referenceClockStart clock => Sys2Proof.Machine.execReferenceClockStart clock s
  | .disableSquelch port => Sys2Proof.Machine.execDisableSquelch port s
  | .boundaryScanInstruction code => Sys2Proof.Machine.execBoundaryScanInstruction code s
  | .subGradResendTimeout src ltid step bag shard => Sys2Proof.Machine.execSubGradResendTimeout src ltid step bag shard s
  | .errorInjectionInterval lane => Sys2Proof.Machine.execErrorInjectionInterval lane s
  | .prbsCheckerLock lane => Sys2Proof.Machine.execPrbsCheckerLock lane s
  | .traceTimeRecord => Sys2Proof.Machine.execTraceTimeRecord s
  | .ebbHeavyWindow region => Sys2Proof.Machine.execEbbHeavyWindow region s

end Sys2Proof.Machine
end

