-- ==== Sys2Proof/Laws/State.lean ====
section
/-! SUPPORT. What each update of the state does to each of its fields: the field it names changes as it says, every
other stands. -/

namespace Sys2Proof.Machine

variable (s : State)


/-! ## onDev -/

@[simp] theorem onDev_pending (g : Dev → Dev) : (onDev g s).pending = s.pending := rfl
@[simp] theorem onDev_dev (g : Dev → Dev) : (onDev g s).dev = g s.dev := rfl
@[simp] theorem onDev_part (g : Dev → Dev) : (onDev g s).part = s.part := rfl
@[simp] theorem onDev_host (g : Dev → Dev) : (onDev g s).host = s.host := rfl
@[simp] theorem onDev_tide (g : Dev → Dev) : (onDev g s).tide = s.tide := rfl
@[simp] theorem onDev_stop (g : Dev → Dev) : (onDev g s).stop = s.stop := rfl
@[simp] theorem onDev_launches (g : Dev → Dev) : (onDev g s).launches = s.launches := rfl
@[simp] theorem onDev_groups (g : Dev → Dev) : (onDev g s).groups = s.groups := rfl
@[simp] theorem onDev_emb (g : Dev → Dev) : (onDev g s).emb = s.emb := rfl
@[simp] theorem onDev_mem (g : Dev → Dev) : (onDev g s).mem = s.mem := rfl
@[simp] theorem onDev_route (g : Dev → Dev) : (onDev g s).route = s.route := rfl
@[simp] theorem onDev_shoal (g : Dev → Dev) : (onDev g s).shoal = s.shoal := rfl
@[simp] theorem onDev_qents (g : Dev → Dev) : (onDev g s).qents = s.qents := rfl
@[simp] theorem onDev_policers (g : Dev → Dev) : (onDev g s).policers = s.policers := rfl
@[simp] theorem onDev_net (g : Dev → Dev) : (onDev g s).net = s.net := rfl
@[simp] theorem onDev_flt (g : Dev → Dev) : (onDev g s).flt = s.flt := rfl
@[simp] theorem onDev_sec (g : Dev → Dev) : (onDev g s).sec = s.sec := rfl
@[simp] theorem onDev_pwr (g : Dev → Dev) : (onDev g s).pwr = s.pwr := rfl
@[simp] theorem onDev_obs (g : Dev → Dev) : (onDev g s).obs = s.obs := rfl
@[simp] theorem onDev_restoring (g : Dev → Dev) : (onDev g s).restoring = s.restoring := rfl

/-! ## onPart -/

@[simp] theorem onPart_pending (g : Part → Part) : (onPart g s).pending = s.pending := rfl
@[simp] theorem onPart_dev (g : Part → Part) : (onPart g s).dev = s.dev := rfl
@[simp] theorem onPart_part (g : Part → Part) : (onPart g s).part = g s.part := rfl
@[simp] theorem onPart_host (g : Part → Part) : (onPart g s).host = s.host := rfl
@[simp] theorem onPart_tide (g : Part → Part) : (onPart g s).tide = s.tide := rfl
@[simp] theorem onPart_stop (g : Part → Part) : (onPart g s).stop = s.stop := rfl
@[simp] theorem onPart_launches (g : Part → Part) : (onPart g s).launches = s.launches := rfl
@[simp] theorem onPart_groups (g : Part → Part) : (onPart g s).groups = s.groups := rfl
@[simp] theorem onPart_emb (g : Part → Part) : (onPart g s).emb = s.emb := rfl
@[simp] theorem onPart_mem (g : Part → Part) : (onPart g s).mem = s.mem := rfl
@[simp] theorem onPart_route (g : Part → Part) : (onPart g s).route = s.route := rfl
@[simp] theorem onPart_shoal (g : Part → Part) : (onPart g s).shoal = s.shoal := rfl
@[simp] theorem onPart_qents (g : Part → Part) : (onPart g s).qents = s.qents := rfl
@[simp] theorem onPart_policers (g : Part → Part) : (onPart g s).policers = s.policers := rfl
@[simp] theorem onPart_net (g : Part → Part) : (onPart g s).net = s.net := rfl
@[simp] theorem onPart_flt (g : Part → Part) : (onPart g s).flt = s.flt := rfl
@[simp] theorem onPart_sec (g : Part → Part) : (onPart g s).sec = s.sec := rfl
@[simp] theorem onPart_pwr (g : Part → Part) : (onPart g s).pwr = s.pwr := rfl
@[simp] theorem onPart_obs (g : Part → Part) : (onPart g s).obs = s.obs := rfl
@[simp] theorem onPart_restoring (g : Part → Part) : (onPart g s).restoring = s.restoring := rfl

/-! ## onHost -/

@[simp] theorem onHost_pending (g : HostIf → HostIf) : (onHost g s).pending = s.pending := rfl
@[simp] theorem onHost_dev (g : HostIf → HostIf) : (onHost g s).dev = s.dev := rfl
@[simp] theorem onHost_part (g : HostIf → HostIf) : (onHost g s).part = s.part := rfl
@[simp] theorem onHost_host (g : HostIf → HostIf) : (onHost g s).host = g s.host := rfl
@[simp] theorem onHost_tide (g : HostIf → HostIf) : (onHost g s).tide = s.tide := rfl
@[simp] theorem onHost_stop (g : HostIf → HostIf) : (onHost g s).stop = s.stop := rfl
@[simp] theorem onHost_launches (g : HostIf → HostIf) : (onHost g s).launches = s.launches := rfl
@[simp] theorem onHost_groups (g : HostIf → HostIf) : (onHost g s).groups = s.groups := rfl
@[simp] theorem onHost_emb (g : HostIf → HostIf) : (onHost g s).emb = s.emb := rfl
@[simp] theorem onHost_mem (g : HostIf → HostIf) : (onHost g s).mem = s.mem := rfl
@[simp] theorem onHost_route (g : HostIf → HostIf) : (onHost g s).route = s.route := rfl
@[simp] theorem onHost_shoal (g : HostIf → HostIf) : (onHost g s).shoal = s.shoal := rfl
@[simp] theorem onHost_qents (g : HostIf → HostIf) : (onHost g s).qents = s.qents := rfl
@[simp] theorem onHost_policers (g : HostIf → HostIf) : (onHost g s).policers = s.policers := rfl
@[simp] theorem onHost_net (g : HostIf → HostIf) : (onHost g s).net = s.net := rfl
@[simp] theorem onHost_flt (g : HostIf → HostIf) : (onHost g s).flt = s.flt := rfl
@[simp] theorem onHost_sec (g : HostIf → HostIf) : (onHost g s).sec = s.sec := rfl
@[simp] theorem onHost_pwr (g : HostIf → HostIf) : (onHost g s).pwr = s.pwr := rfl
@[simp] theorem onHost_obs (g : HostIf → HostIf) : (onHost g s).obs = s.obs := rfl
@[simp] theorem onHost_restoring (g : HostIf → HostIf) : (onHost g s).restoring = s.restoring := rfl

/-! ## onTide -/

@[simp] theorem onTide_pending (g : Tide → Tide) : (onTide g s).pending = s.pending := rfl
@[simp] theorem onTide_dev (g : Tide → Tide) : (onTide g s).dev = s.dev := rfl
@[simp] theorem onTide_part (g : Tide → Tide) : (onTide g s).part = s.part := rfl
@[simp] theorem onTide_host (g : Tide → Tide) : (onTide g s).host = s.host := rfl
@[simp] theorem onTide_tide (g : Tide → Tide) : (onTide g s).tide = g s.tide := rfl
@[simp] theorem onTide_stop (g : Tide → Tide) : (onTide g s).stop = s.stop := rfl
@[simp] theorem onTide_launches (g : Tide → Tide) : (onTide g s).launches = s.launches := rfl
@[simp] theorem onTide_groups (g : Tide → Tide) : (onTide g s).groups = s.groups := rfl
@[simp] theorem onTide_emb (g : Tide → Tide) : (onTide g s).emb = s.emb := rfl
@[simp] theorem onTide_mem (g : Tide → Tide) : (onTide g s).mem = s.mem := rfl
@[simp] theorem onTide_route (g : Tide → Tide) : (onTide g s).route = s.route := rfl
@[simp] theorem onTide_shoal (g : Tide → Tide) : (onTide g s).shoal = s.shoal := rfl
@[simp] theorem onTide_qents (g : Tide → Tide) : (onTide g s).qents = s.qents := rfl
@[simp] theorem onTide_policers (g : Tide → Tide) : (onTide g s).policers = s.policers := rfl
@[simp] theorem onTide_net (g : Tide → Tide) : (onTide g s).net = s.net := rfl
@[simp] theorem onTide_flt (g : Tide → Tide) : (onTide g s).flt = s.flt := rfl
@[simp] theorem onTide_sec (g : Tide → Tide) : (onTide g s).sec = s.sec := rfl
@[simp] theorem onTide_pwr (g : Tide → Tide) : (onTide g s).pwr = s.pwr := rfl
@[simp] theorem onTide_obs (g : Tide → Tide) : (onTide g s).obs = s.obs := rfl
@[simp] theorem onTide_restoring (g : Tide → Tide) : (onTide g s).restoring = s.restoring := rfl

/-! ## onStop -/

@[simp] theorem onStop_pending (g : Stop → Stop) : (onStop g s).pending = s.pending := rfl
@[simp] theorem onStop_dev (g : Stop → Stop) : (onStop g s).dev = s.dev := rfl
@[simp] theorem onStop_part (g : Stop → Stop) : (onStop g s).part = s.part := rfl
@[simp] theorem onStop_host (g : Stop → Stop) : (onStop g s).host = s.host := rfl
@[simp] theorem onStop_tide (g : Stop → Stop) : (onStop g s).tide = s.tide := rfl
@[simp] theorem onStop_stop (g : Stop → Stop) : (onStop g s).stop = g s.stop := rfl
@[simp] theorem onStop_launches (g : Stop → Stop) : (onStop g s).launches = s.launches := rfl
@[simp] theorem onStop_groups (g : Stop → Stop) : (onStop g s).groups = s.groups := rfl
@[simp] theorem onStop_emb (g : Stop → Stop) : (onStop g s).emb = s.emb := rfl
@[simp] theorem onStop_mem (g : Stop → Stop) : (onStop g s).mem = s.mem := rfl
@[simp] theorem onStop_route (g : Stop → Stop) : (onStop g s).route = s.route := rfl
@[simp] theorem onStop_shoal (g : Stop → Stop) : (onStop g s).shoal = s.shoal := rfl
@[simp] theorem onStop_qents (g : Stop → Stop) : (onStop g s).qents = s.qents := rfl
@[simp] theorem onStop_policers (g : Stop → Stop) : (onStop g s).policers = s.policers := rfl
@[simp] theorem onStop_net (g : Stop → Stop) : (onStop g s).net = s.net := rfl
@[simp] theorem onStop_flt (g : Stop → Stop) : (onStop g s).flt = s.flt := rfl
@[simp] theorem onStop_sec (g : Stop → Stop) : (onStop g s).sec = s.sec := rfl
@[simp] theorem onStop_pwr (g : Stop → Stop) : (onStop g s).pwr = s.pwr := rfl
@[simp] theorem onStop_obs (g : Stop → Stop) : (onStop g s).obs = s.obs := rfl
@[simp] theorem onStop_restoring (g : Stop → Stop) : (onStop g s).restoring = s.restoring := rfl

/-! ## onEmb -/

@[simp] theorem onEmb_pending (g : Emb → Emb) : (onEmb g s).pending = s.pending := rfl
@[simp] theorem onEmb_dev (g : Emb → Emb) : (onEmb g s).dev = s.dev := rfl
@[simp] theorem onEmb_part (g : Emb → Emb) : (onEmb g s).part = s.part := rfl
@[simp] theorem onEmb_host (g : Emb → Emb) : (onEmb g s).host = s.host := rfl
@[simp] theorem onEmb_tide (g : Emb → Emb) : (onEmb g s).tide = s.tide := rfl
@[simp] theorem onEmb_stop (g : Emb → Emb) : (onEmb g s).stop = s.stop := rfl
@[simp] theorem onEmb_launches (g : Emb → Emb) : (onEmb g s).launches = s.launches := rfl
@[simp] theorem onEmb_groups (g : Emb → Emb) : (onEmb g s).groups = s.groups := rfl
@[simp] theorem onEmb_emb (g : Emb → Emb) : (onEmb g s).emb = g s.emb := rfl
@[simp] theorem onEmb_mem (g : Emb → Emb) : (onEmb g s).mem = s.mem := rfl
@[simp] theorem onEmb_route (g : Emb → Emb) : (onEmb g s).route = s.route := rfl
@[simp] theorem onEmb_shoal (g : Emb → Emb) : (onEmb g s).shoal = s.shoal := rfl
@[simp] theorem onEmb_qents (g : Emb → Emb) : (onEmb g s).qents = s.qents := rfl
@[simp] theorem onEmb_policers (g : Emb → Emb) : (onEmb g s).policers = s.policers := rfl
@[simp] theorem onEmb_net (g : Emb → Emb) : (onEmb g s).net = s.net := rfl
@[simp] theorem onEmb_flt (g : Emb → Emb) : (onEmb g s).flt = s.flt := rfl
@[simp] theorem onEmb_sec (g : Emb → Emb) : (onEmb g s).sec = s.sec := rfl
@[simp] theorem onEmb_pwr (g : Emb → Emb) : (onEmb g s).pwr = s.pwr := rfl
@[simp] theorem onEmb_obs (g : Emb → Emb) : (onEmb g s).obs = s.obs := rfl
@[simp] theorem onEmb_restoring (g : Emb → Emb) : (onEmb g s).restoring = s.restoring := rfl

/-! ## onMem -/

@[simp] theorem onMem_pending (g : MemSp → MemSp) : (onMem g s).pending = s.pending := rfl
@[simp] theorem onMem_dev (g : MemSp → MemSp) : (onMem g s).dev = s.dev := rfl
@[simp] theorem onMem_part (g : MemSp → MemSp) : (onMem g s).part = s.part := rfl
@[simp] theorem onMem_host (g : MemSp → MemSp) : (onMem g s).host = s.host := rfl
@[simp] theorem onMem_tide (g : MemSp → MemSp) : (onMem g s).tide = s.tide := rfl
@[simp] theorem onMem_stop (g : MemSp → MemSp) : (onMem g s).stop = s.stop := rfl
@[simp] theorem onMem_launches (g : MemSp → MemSp) : (onMem g s).launches = s.launches := rfl
@[simp] theorem onMem_groups (g : MemSp → MemSp) : (onMem g s).groups = s.groups := rfl
@[simp] theorem onMem_emb (g : MemSp → MemSp) : (onMem g s).emb = s.emb := rfl
@[simp] theorem onMem_mem (g : MemSp → MemSp) : (onMem g s).mem = g s.mem := rfl
@[simp] theorem onMem_route (g : MemSp → MemSp) : (onMem g s).route = s.route := rfl
@[simp] theorem onMem_shoal (g : MemSp → MemSp) : (onMem g s).shoal = s.shoal := rfl
@[simp] theorem onMem_qents (g : MemSp → MemSp) : (onMem g s).qents = s.qents := rfl
@[simp] theorem onMem_policers (g : MemSp → MemSp) : (onMem g s).policers = s.policers := rfl
@[simp] theorem onMem_net (g : MemSp → MemSp) : (onMem g s).net = s.net := rfl
@[simp] theorem onMem_flt (g : MemSp → MemSp) : (onMem g s).flt = s.flt := rfl
@[simp] theorem onMem_sec (g : MemSp → MemSp) : (onMem g s).sec = s.sec := rfl
@[simp] theorem onMem_pwr (g : MemSp → MemSp) : (onMem g s).pwr = s.pwr := rfl
@[simp] theorem onMem_obs (g : MemSp → MemSp) : (onMem g s).obs = s.obs := rfl
@[simp] theorem onMem_restoring (g : MemSp → MemSp) : (onMem g s).restoring = s.restoring := rfl

/-! ## onRoute -/

@[simp] theorem onRoute_pending (g : Route → Route) : (onRoute g s).pending = s.pending := rfl
@[simp] theorem onRoute_dev (g : Route → Route) : (onRoute g s).dev = s.dev := rfl
@[simp] theorem onRoute_part (g : Route → Route) : (onRoute g s).part = s.part := rfl
@[simp] theorem onRoute_host (g : Route → Route) : (onRoute g s).host = s.host := rfl
@[simp] theorem onRoute_tide (g : Route → Route) : (onRoute g s).tide = s.tide := rfl
@[simp] theorem onRoute_stop (g : Route → Route) : (onRoute g s).stop = s.stop := rfl
@[simp] theorem onRoute_launches (g : Route → Route) : (onRoute g s).launches = s.launches := rfl
@[simp] theorem onRoute_groups (g : Route → Route) : (onRoute g s).groups = s.groups := rfl
@[simp] theorem onRoute_emb (g : Route → Route) : (onRoute g s).emb = s.emb := rfl
@[simp] theorem onRoute_mem (g : Route → Route) : (onRoute g s).mem = s.mem := rfl
@[simp] theorem onRoute_route (g : Route → Route) : (onRoute g s).route = g s.route := rfl
@[simp] theorem onRoute_shoal (g : Route → Route) : (onRoute g s).shoal = s.shoal := rfl
@[simp] theorem onRoute_qents (g : Route → Route) : (onRoute g s).qents = s.qents := rfl
@[simp] theorem onRoute_policers (g : Route → Route) : (onRoute g s).policers = s.policers := rfl
@[simp] theorem onRoute_net (g : Route → Route) : (onRoute g s).net = s.net := rfl
@[simp] theorem onRoute_flt (g : Route → Route) : (onRoute g s).flt = s.flt := rfl
@[simp] theorem onRoute_sec (g : Route → Route) : (onRoute g s).sec = s.sec := rfl
@[simp] theorem onRoute_pwr (g : Route → Route) : (onRoute g s).pwr = s.pwr := rfl
@[simp] theorem onRoute_obs (g : Route → Route) : (onRoute g s).obs = s.obs := rfl
@[simp] theorem onRoute_restoring (g : Route → Route) : (onRoute g s).restoring = s.restoring := rfl

/-! ## onShoal -/

@[simp] theorem onShoal_pending (g : Shoal → Shoal) : (onShoal g s).pending = s.pending := rfl
@[simp] theorem onShoal_dev (g : Shoal → Shoal) : (onShoal g s).dev = s.dev := rfl
@[simp] theorem onShoal_part (g : Shoal → Shoal) : (onShoal g s).part = s.part := rfl
@[simp] theorem onShoal_host (g : Shoal → Shoal) : (onShoal g s).host = s.host := rfl
@[simp] theorem onShoal_tide (g : Shoal → Shoal) : (onShoal g s).tide = s.tide := rfl
@[simp] theorem onShoal_stop (g : Shoal → Shoal) : (onShoal g s).stop = s.stop := rfl
@[simp] theorem onShoal_launches (g : Shoal → Shoal) : (onShoal g s).launches = s.launches := rfl
@[simp] theorem onShoal_groups (g : Shoal → Shoal) : (onShoal g s).groups = s.groups := rfl
@[simp] theorem onShoal_emb (g : Shoal → Shoal) : (onShoal g s).emb = s.emb := rfl
@[simp] theorem onShoal_mem (g : Shoal → Shoal) : (onShoal g s).mem = s.mem := rfl
@[simp] theorem onShoal_route (g : Shoal → Shoal) : (onShoal g s).route = s.route := rfl
@[simp] theorem onShoal_shoal (g : Shoal → Shoal) : (onShoal g s).shoal = g s.shoal := rfl
@[simp] theorem onShoal_qents (g : Shoal → Shoal) : (onShoal g s).qents = s.qents := rfl
@[simp] theorem onShoal_policers (g : Shoal → Shoal) : (onShoal g s).policers = s.policers := rfl
@[simp] theorem onShoal_net (g : Shoal → Shoal) : (onShoal g s).net = s.net := rfl
@[simp] theorem onShoal_flt (g : Shoal → Shoal) : (onShoal g s).flt = s.flt := rfl
@[simp] theorem onShoal_sec (g : Shoal → Shoal) : (onShoal g s).sec = s.sec := rfl
@[simp] theorem onShoal_pwr (g : Shoal → Shoal) : (onShoal g s).pwr = s.pwr := rfl
@[simp] theorem onShoal_obs (g : Shoal → Shoal) : (onShoal g s).obs = s.obs := rfl
@[simp] theorem onShoal_restoring (g : Shoal → Shoal) : (onShoal g s).restoring = s.restoring := rfl

/-! ## onNet -/

@[simp] theorem onNet_pending (g : Net → Net) : (onNet g s).pending = s.pending := rfl
@[simp] theorem onNet_dev (g : Net → Net) : (onNet g s).dev = s.dev := rfl
@[simp] theorem onNet_part (g : Net → Net) : (onNet g s).part = s.part := rfl
@[simp] theorem onNet_host (g : Net → Net) : (onNet g s).host = s.host := rfl
@[simp] theorem onNet_tide (g : Net → Net) : (onNet g s).tide = s.tide := rfl
@[simp] theorem onNet_stop (g : Net → Net) : (onNet g s).stop = s.stop := rfl
@[simp] theorem onNet_launches (g : Net → Net) : (onNet g s).launches = s.launches := rfl
@[simp] theorem onNet_groups (g : Net → Net) : (onNet g s).groups = s.groups := rfl
@[simp] theorem onNet_emb (g : Net → Net) : (onNet g s).emb = s.emb := rfl
@[simp] theorem onNet_mem (g : Net → Net) : (onNet g s).mem = s.mem := rfl
@[simp] theorem onNet_route (g : Net → Net) : (onNet g s).route = s.route := rfl
@[simp] theorem onNet_shoal (g : Net → Net) : (onNet g s).shoal = s.shoal := rfl
@[simp] theorem onNet_qents (g : Net → Net) : (onNet g s).qents = s.qents := rfl
@[simp] theorem onNet_policers (g : Net → Net) : (onNet g s).policers = s.policers := rfl
@[simp] theorem onNet_net (g : Net → Net) : (onNet g s).net = g s.net := rfl
@[simp] theorem onNet_flt (g : Net → Net) : (onNet g s).flt = s.flt := rfl
@[simp] theorem onNet_sec (g : Net → Net) : (onNet g s).sec = s.sec := rfl
@[simp] theorem onNet_pwr (g : Net → Net) : (onNet g s).pwr = s.pwr := rfl
@[simp] theorem onNet_obs (g : Net → Net) : (onNet g s).obs = s.obs := rfl
@[simp] theorem onNet_restoring (g : Net → Net) : (onNet g s).restoring = s.restoring := rfl

/-! ## onFlt -/

@[simp] theorem onFlt_pending (g : Flt → Flt) : (onFlt g s).pending = s.pending := rfl
@[simp] theorem onFlt_dev (g : Flt → Flt) : (onFlt g s).dev = s.dev := rfl
@[simp] theorem onFlt_part (g : Flt → Flt) : (onFlt g s).part = s.part := rfl
@[simp] theorem onFlt_host (g : Flt → Flt) : (onFlt g s).host = s.host := rfl
@[simp] theorem onFlt_tide (g : Flt → Flt) : (onFlt g s).tide = s.tide := rfl
@[simp] theorem onFlt_stop (g : Flt → Flt) : (onFlt g s).stop = s.stop := rfl
@[simp] theorem onFlt_launches (g : Flt → Flt) : (onFlt g s).launches = s.launches := rfl
@[simp] theorem onFlt_groups (g : Flt → Flt) : (onFlt g s).groups = s.groups := rfl
@[simp] theorem onFlt_emb (g : Flt → Flt) : (onFlt g s).emb = s.emb := rfl
@[simp] theorem onFlt_mem (g : Flt → Flt) : (onFlt g s).mem = s.mem := rfl
@[simp] theorem onFlt_route (g : Flt → Flt) : (onFlt g s).route = s.route := rfl
@[simp] theorem onFlt_shoal (g : Flt → Flt) : (onFlt g s).shoal = s.shoal := rfl
@[simp] theorem onFlt_qents (g : Flt → Flt) : (onFlt g s).qents = s.qents := rfl
@[simp] theorem onFlt_policers (g : Flt → Flt) : (onFlt g s).policers = s.policers := rfl
@[simp] theorem onFlt_net (g : Flt → Flt) : (onFlt g s).net = s.net := rfl
@[simp] theorem onFlt_flt (g : Flt → Flt) : (onFlt g s).flt = g s.flt := rfl
@[simp] theorem onFlt_sec (g : Flt → Flt) : (onFlt g s).sec = s.sec := rfl
@[simp] theorem onFlt_pwr (g : Flt → Flt) : (onFlt g s).pwr = s.pwr := rfl
@[simp] theorem onFlt_obs (g : Flt → Flt) : (onFlt g s).obs = s.obs := rfl
@[simp] theorem onFlt_restoring (g : Flt → Flt) : (onFlt g s).restoring = s.restoring := rfl

/-! ## onSec -/

@[simp] theorem onSec_pending (g : Sec → Sec) : (onSec g s).pending = s.pending := rfl
@[simp] theorem onSec_dev (g : Sec → Sec) : (onSec g s).dev = s.dev := rfl
@[simp] theorem onSec_part (g : Sec → Sec) : (onSec g s).part = s.part := rfl
@[simp] theorem onSec_host (g : Sec → Sec) : (onSec g s).host = s.host := rfl
@[simp] theorem onSec_tide (g : Sec → Sec) : (onSec g s).tide = s.tide := rfl
@[simp] theorem onSec_stop (g : Sec → Sec) : (onSec g s).stop = s.stop := rfl
@[simp] theorem onSec_launches (g : Sec → Sec) : (onSec g s).launches = s.launches := rfl
@[simp] theorem onSec_groups (g : Sec → Sec) : (onSec g s).groups = s.groups := rfl
@[simp] theorem onSec_emb (g : Sec → Sec) : (onSec g s).emb = s.emb := rfl
@[simp] theorem onSec_mem (g : Sec → Sec) : (onSec g s).mem = s.mem := rfl
@[simp] theorem onSec_route (g : Sec → Sec) : (onSec g s).route = s.route := rfl
@[simp] theorem onSec_shoal (g : Sec → Sec) : (onSec g s).shoal = s.shoal := rfl
@[simp] theorem onSec_qents (g : Sec → Sec) : (onSec g s).qents = s.qents := rfl
@[simp] theorem onSec_policers (g : Sec → Sec) : (onSec g s).policers = s.policers := rfl
@[simp] theorem onSec_net (g : Sec → Sec) : (onSec g s).net = s.net := rfl
@[simp] theorem onSec_flt (g : Sec → Sec) : (onSec g s).flt = s.flt := rfl
@[simp] theorem onSec_sec (g : Sec → Sec) : (onSec g s).sec = g s.sec := rfl
@[simp] theorem onSec_pwr (g : Sec → Sec) : (onSec g s).pwr = s.pwr := rfl
@[simp] theorem onSec_obs (g : Sec → Sec) : (onSec g s).obs = s.obs := rfl
@[simp] theorem onSec_restoring (g : Sec → Sec) : (onSec g s).restoring = s.restoring := rfl

/-! ## onPwr -/

@[simp] theorem onPwr_pending (g : Pwr → Pwr) : (onPwr g s).pending = s.pending := rfl
@[simp] theorem onPwr_dev (g : Pwr → Pwr) : (onPwr g s).dev = s.dev := rfl
@[simp] theorem onPwr_part (g : Pwr → Pwr) : (onPwr g s).part = s.part := rfl
@[simp] theorem onPwr_host (g : Pwr → Pwr) : (onPwr g s).host = s.host := rfl
@[simp] theorem onPwr_tide (g : Pwr → Pwr) : (onPwr g s).tide = s.tide := rfl
@[simp] theorem onPwr_stop (g : Pwr → Pwr) : (onPwr g s).stop = s.stop := rfl
@[simp] theorem onPwr_launches (g : Pwr → Pwr) : (onPwr g s).launches = s.launches := rfl
@[simp] theorem onPwr_groups (g : Pwr → Pwr) : (onPwr g s).groups = s.groups := rfl
@[simp] theorem onPwr_emb (g : Pwr → Pwr) : (onPwr g s).emb = s.emb := rfl
@[simp] theorem onPwr_mem (g : Pwr → Pwr) : (onPwr g s).mem = s.mem := rfl
@[simp] theorem onPwr_route (g : Pwr → Pwr) : (onPwr g s).route = s.route := rfl
@[simp] theorem onPwr_shoal (g : Pwr → Pwr) : (onPwr g s).shoal = s.shoal := rfl
@[simp] theorem onPwr_qents (g : Pwr → Pwr) : (onPwr g s).qents = s.qents := rfl
@[simp] theorem onPwr_policers (g : Pwr → Pwr) : (onPwr g s).policers = s.policers := rfl
@[simp] theorem onPwr_net (g : Pwr → Pwr) : (onPwr g s).net = s.net := rfl
@[simp] theorem onPwr_flt (g : Pwr → Pwr) : (onPwr g s).flt = s.flt := rfl
@[simp] theorem onPwr_sec (g : Pwr → Pwr) : (onPwr g s).sec = s.sec := rfl
@[simp] theorem onPwr_pwr (g : Pwr → Pwr) : (onPwr g s).pwr = g s.pwr := rfl
@[simp] theorem onPwr_obs (g : Pwr → Pwr) : (onPwr g s).obs = s.obs := rfl
@[simp] theorem onPwr_restoring (g : Pwr → Pwr) : (onPwr g s).restoring = s.restoring := rfl

/-! ## onObs -/

@[simp] theorem onObs_pending (g : Obs → Obs) : (onObs g s).pending = s.pending := rfl
@[simp] theorem onObs_dev (g : Obs → Obs) : (onObs g s).dev = s.dev := rfl
@[simp] theorem onObs_part (g : Obs → Obs) : (onObs g s).part = s.part := rfl
@[simp] theorem onObs_host (g : Obs → Obs) : (onObs g s).host = s.host := rfl
@[simp] theorem onObs_tide (g : Obs → Obs) : (onObs g s).tide = s.tide := rfl
@[simp] theorem onObs_stop (g : Obs → Obs) : (onObs g s).stop = s.stop := rfl
@[simp] theorem onObs_launches (g : Obs → Obs) : (onObs g s).launches = s.launches := rfl
@[simp] theorem onObs_groups (g : Obs → Obs) : (onObs g s).groups = s.groups := rfl
@[simp] theorem onObs_emb (g : Obs → Obs) : (onObs g s).emb = s.emb := rfl
@[simp] theorem onObs_mem (g : Obs → Obs) : (onObs g s).mem = s.mem := rfl
@[simp] theorem onObs_route (g : Obs → Obs) : (onObs g s).route = s.route := rfl
@[simp] theorem onObs_shoal (g : Obs → Obs) : (onObs g s).shoal = s.shoal := rfl
@[simp] theorem onObs_qents (g : Obs → Obs) : (onObs g s).qents = s.qents := rfl
@[simp] theorem onObs_policers (g : Obs → Obs) : (onObs g s).policers = s.policers := rfl
@[simp] theorem onObs_net (g : Obs → Obs) : (onObs g s).net = s.net := rfl
@[simp] theorem onObs_flt (g : Obs → Obs) : (onObs g s).flt = s.flt := rfl
@[simp] theorem onObs_sec (g : Obs → Obs) : (onObs g s).sec = s.sec := rfl
@[simp] theorem onObs_pwr (g : Obs → Obs) : (onObs g s).pwr = s.pwr := rfl
@[simp] theorem onObs_obs (g : Obs → Obs) : (onObs g s).obs = g s.obs := rfl
@[simp] theorem onObs_restoring (g : Obs → Obs) : (onObs g s).restoring = s.restoring := rfl

/-! ## onRing -/

@[simp] theorem onRing_pending (r : Nat) (g : Ring → Ring) : (onRing r g s).pending = s.pending := rfl
@[simp] theorem onRing_dev (r : Nat) (g : Ring → Ring) : (onRing r g s).dev = s.dev := rfl
@[simp] theorem onRing_part (r : Nat) (g : Ring → Ring) : (onRing r g s).part = s.part := rfl
@[simp] theorem onRing_tide (r : Nat) (g : Ring → Ring) : (onRing r g s).tide = s.tide := rfl
@[simp] theorem onRing_stop (r : Nat) (g : Ring → Ring) : (onRing r g s).stop = s.stop := rfl
@[simp] theorem onRing_launches (r : Nat) (g : Ring → Ring) : (onRing r g s).launches = s.launches := rfl
@[simp] theorem onRing_groups (r : Nat) (g : Ring → Ring) : (onRing r g s).groups = s.groups := rfl
@[simp] theorem onRing_emb (r : Nat) (g : Ring → Ring) : (onRing r g s).emb = s.emb := rfl
@[simp] theorem onRing_mem (r : Nat) (g : Ring → Ring) : (onRing r g s).mem = s.mem := rfl
@[simp] theorem onRing_route (r : Nat) (g : Ring → Ring) : (onRing r g s).route = s.route := rfl
@[simp] theorem onRing_shoal (r : Nat) (g : Ring → Ring) : (onRing r g s).shoal = s.shoal := rfl
@[simp] theorem onRing_qents (r : Nat) (g : Ring → Ring) : (onRing r g s).qents = s.qents := rfl
@[simp] theorem onRing_policers (r : Nat) (g : Ring → Ring) : (onRing r g s).policers = s.policers := rfl
@[simp] theorem onRing_net (r : Nat) (g : Ring → Ring) : (onRing r g s).net = s.net := rfl
@[simp] theorem onRing_flt (r : Nat) (g : Ring → Ring) : (onRing r g s).flt = s.flt := rfl
@[simp] theorem onRing_sec (r : Nat) (g : Ring → Ring) : (onRing r g s).sec = s.sec := rfl
@[simp] theorem onRing_pwr (r : Nat) (g : Ring → Ring) : (onRing r g s).pwr = s.pwr := rfl
@[simp] theorem onRing_obs (r : Nat) (g : Ring → Ring) : (onRing r g s).obs = s.obs := rfl
@[simp] theorem onRing_restoring (r : Nat) (g : Ring → Ring) : (onRing r g s).restoring = s.restoring := rfl

/-! ## onFunc -/

@[simp] theorem onFunc_pending (n : Nat) (g : Func → Func) : (onFunc n g s).pending = s.pending := rfl
@[simp] theorem onFunc_dev (n : Nat) (g : Func → Func) : (onFunc n g s).dev = s.dev := rfl
@[simp] theorem onFunc_part (n : Nat) (g : Func → Func) : (onFunc n g s).part = s.part := rfl
@[simp] theorem onFunc_tide (n : Nat) (g : Func → Func) : (onFunc n g s).tide = s.tide := rfl
@[simp] theorem onFunc_stop (n : Nat) (g : Func → Func) : (onFunc n g s).stop = s.stop := rfl
@[simp] theorem onFunc_launches (n : Nat) (g : Func → Func) : (onFunc n g s).launches = s.launches := rfl
@[simp] theorem onFunc_groups (n : Nat) (g : Func → Func) : (onFunc n g s).groups = s.groups := rfl
@[simp] theorem onFunc_emb (n : Nat) (g : Func → Func) : (onFunc n g s).emb = s.emb := rfl
@[simp] theorem onFunc_mem (n : Nat) (g : Func → Func) : (onFunc n g s).mem = s.mem := rfl
@[simp] theorem onFunc_route (n : Nat) (g : Func → Func) : (onFunc n g s).route = s.route := rfl
@[simp] theorem onFunc_shoal (n : Nat) (g : Func → Func) : (onFunc n g s).shoal = s.shoal := rfl
@[simp] theorem onFunc_qents (n : Nat) (g : Func → Func) : (onFunc n g s).qents = s.qents := rfl
@[simp] theorem onFunc_policers (n : Nat) (g : Func → Func) : (onFunc n g s).policers = s.policers := rfl
@[simp] theorem onFunc_net (n : Nat) (g : Func → Func) : (onFunc n g s).net = s.net := rfl
@[simp] theorem onFunc_flt (n : Nat) (g : Func → Func) : (onFunc n g s).flt = s.flt := rfl
@[simp] theorem onFunc_sec (n : Nat) (g : Func → Func) : (onFunc n g s).sec = s.sec := rfl
@[simp] theorem onFunc_pwr (n : Nat) (g : Func → Func) : (onFunc n g s).pwr = s.pwr := rfl
@[simp] theorem onFunc_obs (n : Nat) (g : Func → Func) : (onFunc n g s).obs = s.obs := rfl
@[simp] theorem onFunc_restoring (n : Nat) (g : Func → Func) : (onFunc n g s).restoring = s.restoring := rfl

/-! ## onPort -/

@[simp] theorem onPort_pending (p : Nat) (g : Port → Port) : (onPort p g s).pending = s.pending := rfl
@[simp] theorem onPort_dev (p : Nat) (g : Port → Port) : (onPort p g s).dev = s.dev := rfl
@[simp] theorem onPort_part (p : Nat) (g : Port → Port) : (onPort p g s).part = s.part := rfl
@[simp] theorem onPort_host (p : Nat) (g : Port → Port) : (onPort p g s).host = s.host := rfl
@[simp] theorem onPort_tide (p : Nat) (g : Port → Port) : (onPort p g s).tide = s.tide := rfl
@[simp] theorem onPort_stop (p : Nat) (g : Port → Port) : (onPort p g s).stop = s.stop := rfl
@[simp] theorem onPort_launches (p : Nat) (g : Port → Port) : (onPort p g s).launches = s.launches := rfl
@[simp] theorem onPort_groups (p : Nat) (g : Port → Port) : (onPort p g s).groups = s.groups := rfl
@[simp] theorem onPort_emb (p : Nat) (g : Port → Port) : (onPort p g s).emb = s.emb := rfl
@[simp] theorem onPort_mem (p : Nat) (g : Port → Port) : (onPort p g s).mem = s.mem := rfl
@[simp] theorem onPort_route (p : Nat) (g : Port → Port) : (onPort p g s).route = s.route := rfl
@[simp] theorem onPort_shoal (p : Nat) (g : Port → Port) : (onPort p g s).shoal = s.shoal := rfl
@[simp] theorem onPort_qents (p : Nat) (g : Port → Port) : (onPort p g s).qents = s.qents := rfl
@[simp] theorem onPort_policers (p : Nat) (g : Port → Port) : (onPort p g s).policers = s.policers := rfl
@[simp] theorem onPort_flt (p : Nat) (g : Port → Port) : (onPort p g s).flt = s.flt := rfl
@[simp] theorem onPort_sec (p : Nat) (g : Port → Port) : (onPort p g s).sec = s.sec := rfl
@[simp] theorem onPort_pwr (p : Nat) (g : Port → Port) : (onPort p g s).pwr = s.pwr := rfl
@[simp] theorem onPort_obs (p : Nat) (g : Port → Port) : (onPort p g s).obs = s.obs := rfl
@[simp] theorem onPort_restoring (p : Nat) (g : Port → Port) : (onPort p g s).restoring = s.restoring := rfl

/-! ## onLink -/

@[simp] theorem onLink_pending (p : Nat) (g : Link → Link) : (onLink p g s).pending = s.pending := rfl
@[simp] theorem onLink_dev (p : Nat) (g : Link → Link) : (onLink p g s).dev = s.dev := rfl
@[simp] theorem onLink_part (p : Nat) (g : Link → Link) : (onLink p g s).part = s.part := rfl
@[simp] theorem onLink_host (p : Nat) (g : Link → Link) : (onLink p g s).host = s.host := rfl
@[simp] theorem onLink_tide (p : Nat) (g : Link → Link) : (onLink p g s).tide = s.tide := rfl
@[simp] theorem onLink_stop (p : Nat) (g : Link → Link) : (onLink p g s).stop = s.stop := rfl
@[simp] theorem onLink_launches (p : Nat) (g : Link → Link) : (onLink p g s).launches = s.launches := rfl
@[simp] theorem onLink_groups (p : Nat) (g : Link → Link) : (onLink p g s).groups = s.groups := rfl
@[simp] theorem onLink_emb (p : Nat) (g : Link → Link) : (onLink p g s).emb = s.emb := rfl
@[simp] theorem onLink_mem (p : Nat) (g : Link → Link) : (onLink p g s).mem = s.mem := rfl
@[simp] theorem onLink_route (p : Nat) (g : Link → Link) : (onLink p g s).route = s.route := rfl
@[simp] theorem onLink_shoal (p : Nat) (g : Link → Link) : (onLink p g s).shoal = s.shoal := rfl
@[simp] theorem onLink_qents (p : Nat) (g : Link → Link) : (onLink p g s).qents = s.qents := rfl
@[simp] theorem onLink_policers (p : Nat) (g : Link → Link) : (onLink p g s).policers = s.policers := rfl
@[simp] theorem onLink_flt (p : Nat) (g : Link → Link) : (onLink p g s).flt = s.flt := rfl
@[simp] theorem onLink_sec (p : Nat) (g : Link → Link) : (onLink p g s).sec = s.sec := rfl
@[simp] theorem onLink_pwr (p : Nat) (g : Link → Link) : (onLink p g s).pwr = s.pwr := rfl
@[simp] theorem onLink_obs (p : Nat) (g : Link → Link) : (onLink p g s).obs = s.obs := rfl
@[simp] theorem onLink_restoring (p : Nat) (g : Link → Link) : (onLink p g s).restoring = s.restoring := rfl

/-! ## onPeer -/

@[simp] theorem onPeer_pending (p : Nat) (g : Peer → Peer) : (onPeer p g s).pending = s.pending := rfl
@[simp] theorem onPeer_dev (p : Nat) (g : Peer → Peer) : (onPeer p g s).dev = s.dev := rfl
@[simp] theorem onPeer_part (p : Nat) (g : Peer → Peer) : (onPeer p g s).part = s.part := rfl
@[simp] theorem onPeer_host (p : Nat) (g : Peer → Peer) : (onPeer p g s).host = s.host := rfl
@[simp] theorem onPeer_tide (p : Nat) (g : Peer → Peer) : (onPeer p g s).tide = s.tide := rfl
@[simp] theorem onPeer_stop (p : Nat) (g : Peer → Peer) : (onPeer p g s).stop = s.stop := rfl
@[simp] theorem onPeer_launches (p : Nat) (g : Peer → Peer) : (onPeer p g s).launches = s.launches := rfl
@[simp] theorem onPeer_groups (p : Nat) (g : Peer → Peer) : (onPeer p g s).groups = s.groups := rfl
@[simp] theorem onPeer_emb (p : Nat) (g : Peer → Peer) : (onPeer p g s).emb = s.emb := rfl
@[simp] theorem onPeer_mem (p : Nat) (g : Peer → Peer) : (onPeer p g s).mem = s.mem := rfl
@[simp] theorem onPeer_route (p : Nat) (g : Peer → Peer) : (onPeer p g s).route = s.route := rfl
@[simp] theorem onPeer_shoal (p : Nat) (g : Peer → Peer) : (onPeer p g s).shoal = s.shoal := rfl
@[simp] theorem onPeer_qents (p : Nat) (g : Peer → Peer) : (onPeer p g s).qents = s.qents := rfl
@[simp] theorem onPeer_policers (p : Nat) (g : Peer → Peer) : (onPeer p g s).policers = s.policers := rfl
@[simp] theorem onPeer_flt (p : Nat) (g : Peer → Peer) : (onPeer p g s).flt = s.flt := rfl
@[simp] theorem onPeer_sec (p : Nat) (g : Peer → Peer) : (onPeer p g s).sec = s.sec := rfl
@[simp] theorem onPeer_pwr (p : Nat) (g : Peer → Peer) : (onPeer p g s).pwr = s.pwr := rfl
@[simp] theorem onPeer_obs (p : Nat) (g : Peer → Peer) : (onPeer p g s).obs = s.obs := rfl
@[simp] theorem onPeer_restoring (p : Nat) (g : Peer → Peer) : (onPeer p g s).restoring = s.restoring := rfl

/-! ## onLane -/

@[simp] theorem onLane_pending (l : Nat) (g : Lane → Lane) : (onLane l g s).pending = s.pending := rfl
@[simp] theorem onLane_dev (l : Nat) (g : Lane → Lane) : (onLane l g s).dev = s.dev := rfl
@[simp] theorem onLane_part (l : Nat) (g : Lane → Lane) : (onLane l g s).part = s.part := rfl
@[simp] theorem onLane_host (l : Nat) (g : Lane → Lane) : (onLane l g s).host = s.host := rfl
@[simp] theorem onLane_tide (l : Nat) (g : Lane → Lane) : (onLane l g s).tide = s.tide := rfl
@[simp] theorem onLane_stop (l : Nat) (g : Lane → Lane) : (onLane l g s).stop = s.stop := rfl
@[simp] theorem onLane_launches (l : Nat) (g : Lane → Lane) : (onLane l g s).launches = s.launches := rfl
@[simp] theorem onLane_groups (l : Nat) (g : Lane → Lane) : (onLane l g s).groups = s.groups := rfl
@[simp] theorem onLane_emb (l : Nat) (g : Lane → Lane) : (onLane l g s).emb = s.emb := rfl
@[simp] theorem onLane_mem (l : Nat) (g : Lane → Lane) : (onLane l g s).mem = s.mem := rfl
@[simp] theorem onLane_route (l : Nat) (g : Lane → Lane) : (onLane l g s).route = s.route := rfl
@[simp] theorem onLane_shoal (l : Nat) (g : Lane → Lane) : (onLane l g s).shoal = s.shoal := rfl
@[simp] theorem onLane_qents (l : Nat) (g : Lane → Lane) : (onLane l g s).qents = s.qents := rfl
@[simp] theorem onLane_policers (l : Nat) (g : Lane → Lane) : (onLane l g s).policers = s.policers := rfl
@[simp] theorem onLane_flt (l : Nat) (g : Lane → Lane) : (onLane l g s).flt = s.flt := rfl
@[simp] theorem onLane_sec (l : Nat) (g : Lane → Lane) : (onLane l g s).sec = s.sec := rfl
@[simp] theorem onLane_pwr (l : Nat) (g : Lane → Lane) : (onLane l g s).pwr = s.pwr := rfl
@[simp] theorem onLane_obs (l : Nat) (g : Lane → Lane) : (onLane l g s).obs = s.obs := rfl
@[simp] theorem onLane_restoring (l : Nat) (g : Lane → Lane) : (onLane l g s).restoring = s.restoring := rfl

/-! ## onGroup -/

@[simp] theorem onGroup_pending (i : Nat) (g : Group → Group) : (onGroup i g s).pending = s.pending := rfl
@[simp] theorem onGroup_dev (i : Nat) (g : Group → Group) : (onGroup i g s).dev = s.dev := rfl
@[simp] theorem onGroup_part (i : Nat) (g : Group → Group) : (onGroup i g s).part = s.part := rfl
@[simp] theorem onGroup_host (i : Nat) (g : Group → Group) : (onGroup i g s).host = s.host := rfl
@[simp] theorem onGroup_tide (i : Nat) (g : Group → Group) : (onGroup i g s).tide = s.tide := rfl
@[simp] theorem onGroup_stop (i : Nat) (g : Group → Group) : (onGroup i g s).stop = s.stop := rfl
@[simp] theorem onGroup_launches (i : Nat) (g : Group → Group) : (onGroup i g s).launches = s.launches := rfl
@[simp] theorem onGroup_emb (i : Nat) (g : Group → Group) : (onGroup i g s).emb = s.emb := rfl
@[simp] theorem onGroup_mem (i : Nat) (g : Group → Group) : (onGroup i g s).mem = s.mem := rfl
@[simp] theorem onGroup_route (i : Nat) (g : Group → Group) : (onGroup i g s).route = s.route := rfl
@[simp] theorem onGroup_shoal (i : Nat) (g : Group → Group) : (onGroup i g s).shoal = s.shoal := rfl
@[simp] theorem onGroup_qents (i : Nat) (g : Group → Group) : (onGroup i g s).qents = s.qents := rfl
@[simp] theorem onGroup_policers (i : Nat) (g : Group → Group) : (onGroup i g s).policers = s.policers := rfl
@[simp] theorem onGroup_net (i : Nat) (g : Group → Group) : (onGroup i g s).net = s.net := rfl
@[simp] theorem onGroup_flt (i : Nat) (g : Group → Group) : (onGroup i g s).flt = s.flt := rfl
@[simp] theorem onGroup_sec (i : Nat) (g : Group → Group) : (onGroup i g s).sec = s.sec := rfl
@[simp] theorem onGroup_pwr (i : Nat) (g : Group → Group) : (onGroup i g s).pwr = s.pwr := rfl
@[simp] theorem onGroup_obs (i : Nat) (g : Group → Group) : (onGroup i g s).obs = s.obs := rfl
@[simp] theorem onGroup_restoring (i : Nat) (g : Group → Group) : (onGroup i g s).restoring = s.restoring := rfl

/-! ## onTable -/

@[simp] theorem onTable_pending (t : Nat) (g : Table → Table) : (onTable t g s).pending = s.pending := rfl
@[simp] theorem onTable_dev (t : Nat) (g : Table → Table) : (onTable t g s).dev = s.dev := rfl
@[simp] theorem onTable_part (t : Nat) (g : Table → Table) : (onTable t g s).part = s.part := rfl
@[simp] theorem onTable_host (t : Nat) (g : Table → Table) : (onTable t g s).host = s.host := rfl
@[simp] theorem onTable_tide (t : Nat) (g : Table → Table) : (onTable t g s).tide = s.tide := rfl
@[simp] theorem onTable_stop (t : Nat) (g : Table → Table) : (onTable t g s).stop = s.stop := rfl
@[simp] theorem onTable_launches (t : Nat) (g : Table → Table) : (onTable t g s).launches = s.launches := rfl
@[simp] theorem onTable_groups (t : Nat) (g : Table → Table) : (onTable t g s).groups = s.groups := rfl
@[simp] theorem onTable_mem (t : Nat) (g : Table → Table) : (onTable t g s).mem = s.mem := rfl
@[simp] theorem onTable_route (t : Nat) (g : Table → Table) : (onTable t g s).route = s.route := rfl
@[simp] theorem onTable_shoal (t : Nat) (g : Table → Table) : (onTable t g s).shoal = s.shoal := rfl
@[simp] theorem onTable_qents (t : Nat) (g : Table → Table) : (onTable t g s).qents = s.qents := rfl
@[simp] theorem onTable_policers (t : Nat) (g : Table → Table) : (onTable t g s).policers = s.policers := rfl
@[simp] theorem onTable_net (t : Nat) (g : Table → Table) : (onTable t g s).net = s.net := rfl
@[simp] theorem onTable_flt (t : Nat) (g : Table → Table) : (onTable t g s).flt = s.flt := rfl
@[simp] theorem onTable_sec (t : Nat) (g : Table → Table) : (onTable t g s).sec = s.sec := rfl
@[simp] theorem onTable_pwr (t : Nat) (g : Table → Table) : (onTable t g s).pwr = s.pwr := rfl
@[simp] theorem onTable_obs (t : Nat) (g : Table → Table) : (onTable t g s).obs = s.obs := rfl
@[simp] theorem onTable_restoring (t : Nat) (g : Table → Table) : (onTable t g s).restoring = s.restoring := rfl

/-! ## onSlice -/

@[simp] theorem onSlice_pending (d : Nat) (g : Slice → Slice) : (onSlice d g s).pending = s.pending := rfl
@[simp] theorem onSlice_dev (d : Nat) (g : Slice → Slice) : (onSlice d g s).dev = s.dev := rfl
@[simp] theorem onSlice_part (d : Nat) (g : Slice → Slice) : (onSlice d g s).part = s.part := rfl
@[simp] theorem onSlice_host (d : Nat) (g : Slice → Slice) : (onSlice d g s).host = s.host := rfl
@[simp] theorem onSlice_tide (d : Nat) (g : Slice → Slice) : (onSlice d g s).tide = s.tide := rfl
@[simp] theorem onSlice_stop (d : Nat) (g : Slice → Slice) : (onSlice d g s).stop = s.stop := rfl
@[simp] theorem onSlice_launches (d : Nat) (g : Slice → Slice) : (onSlice d g s).launches = s.launches := rfl
@[simp] theorem onSlice_groups (d : Nat) (g : Slice → Slice) : (onSlice d g s).groups = s.groups := rfl
@[simp] theorem onSlice_emb (d : Nat) (g : Slice → Slice) : (onSlice d g s).emb = s.emb := rfl
@[simp] theorem onSlice_mem (d : Nat) (g : Slice → Slice) : (onSlice d g s).mem = s.mem := rfl
@[simp] theorem onSlice_route (d : Nat) (g : Slice → Slice) : (onSlice d g s).route = s.route := rfl
@[simp] theorem onSlice_qents (d : Nat) (g : Slice → Slice) : (onSlice d g s).qents = s.qents := rfl
@[simp] theorem onSlice_policers (d : Nat) (g : Slice → Slice) : (onSlice d g s).policers = s.policers := rfl
@[simp] theorem onSlice_net (d : Nat) (g : Slice → Slice) : (onSlice d g s).net = s.net := rfl
@[simp] theorem onSlice_flt (d : Nat) (g : Slice → Slice) : (onSlice d g s).flt = s.flt := rfl
@[simp] theorem onSlice_sec (d : Nat) (g : Slice → Slice) : (onSlice d g s).sec = s.sec := rfl
@[simp] theorem onSlice_pwr (d : Nat) (g : Slice → Slice) : (onSlice d g s).pwr = s.pwr := rfl
@[simp] theorem onSlice_obs (d : Nat) (g : Slice → Slice) : (onSlice d g s).obs = s.obs := rfl
@[simp] theorem onSlice_restoring (d : Nat) (g : Slice → Slice) : (onSlice d g s).restoring = s.restoring := rfl

/-! ## countRaw -/

@[simp] theorem countRaw_pending (k : CKey) (n : Nat) : (countRaw k n s).pending = s.pending := rfl
@[simp] theorem countRaw_dev (k : CKey) (n : Nat) : (countRaw k n s).dev = s.dev := rfl
@[simp] theorem countRaw_part (k : CKey) (n : Nat) : (countRaw k n s).part = s.part := rfl
@[simp] theorem countRaw_host (k : CKey) (n : Nat) : (countRaw k n s).host = s.host := rfl
@[simp] theorem countRaw_tide (k : CKey) (n : Nat) : (countRaw k n s).tide = s.tide := rfl
@[simp] theorem countRaw_stop (k : CKey) (n : Nat) : (countRaw k n s).stop = s.stop := rfl
@[simp] theorem countRaw_launches (k : CKey) (n : Nat) : (countRaw k n s).launches = s.launches := rfl
@[simp] theorem countRaw_groups (k : CKey) (n : Nat) : (countRaw k n s).groups = s.groups := rfl
@[simp] theorem countRaw_emb (k : CKey) (n : Nat) : (countRaw k n s).emb = s.emb := rfl
@[simp] theorem countRaw_mem (k : CKey) (n : Nat) : (countRaw k n s).mem = s.mem := rfl
@[simp] theorem countRaw_route (k : CKey) (n : Nat) : (countRaw k n s).route = s.route := rfl
@[simp] theorem countRaw_shoal (k : CKey) (n : Nat) : (countRaw k n s).shoal = s.shoal := rfl
@[simp] theorem countRaw_qents (k : CKey) (n : Nat) : (countRaw k n s).qents = s.qents := rfl
@[simp] theorem countRaw_policers (k : CKey) (n : Nat) : (countRaw k n s).policers = s.policers := rfl
@[simp] theorem countRaw_net (k : CKey) (n : Nat) : (countRaw k n s).net = s.net := rfl
@[simp] theorem countRaw_flt (k : CKey) (n : Nat) : (countRaw k n s).flt = s.flt := rfl
@[simp] theorem countRaw_sec (k : CKey) (n : Nat) : (countRaw k n s).sec = s.sec := rfl
@[simp] theorem countRaw_pwr (k : CKey) (n : Nat) : (countRaw k n s).pwr = s.pwr := rfl
@[simp] theorem countRaw_restoring (k : CKey) (n : Nat) : (countRaw k n s).restoring = s.restoring := rfl

/-! ## gaugeMax -/

@[simp] theorem gaugeMax_pending (k : CKey) (n : Nat) : (gaugeMax k n s).pending = s.pending := rfl
@[simp] theorem gaugeMax_dev (k : CKey) (n : Nat) : (gaugeMax k n s).dev = s.dev := rfl
@[simp] theorem gaugeMax_part (k : CKey) (n : Nat) : (gaugeMax k n s).part = s.part := rfl
@[simp] theorem gaugeMax_host (k : CKey) (n : Nat) : (gaugeMax k n s).host = s.host := rfl
@[simp] theorem gaugeMax_tide (k : CKey) (n : Nat) : (gaugeMax k n s).tide = s.tide := rfl
@[simp] theorem gaugeMax_stop (k : CKey) (n : Nat) : (gaugeMax k n s).stop = s.stop := rfl
@[simp] theorem gaugeMax_launches (k : CKey) (n : Nat) : (gaugeMax k n s).launches = s.launches := rfl
@[simp] theorem gaugeMax_groups (k : CKey) (n : Nat) : (gaugeMax k n s).groups = s.groups := rfl
@[simp] theorem gaugeMax_emb (k : CKey) (n : Nat) : (gaugeMax k n s).emb = s.emb := rfl
@[simp] theorem gaugeMax_mem (k : CKey) (n : Nat) : (gaugeMax k n s).mem = s.mem := rfl
@[simp] theorem gaugeMax_route (k : CKey) (n : Nat) : (gaugeMax k n s).route = s.route := rfl
@[simp] theorem gaugeMax_shoal (k : CKey) (n : Nat) : (gaugeMax k n s).shoal = s.shoal := rfl
@[simp] theorem gaugeMax_qents (k : CKey) (n : Nat) : (gaugeMax k n s).qents = s.qents := rfl
@[simp] theorem gaugeMax_policers (k : CKey) (n : Nat) : (gaugeMax k n s).policers = s.policers := rfl
@[simp] theorem gaugeMax_net (k : CKey) (n : Nat) : (gaugeMax k n s).net = s.net := rfl
@[simp] theorem gaugeMax_flt (k : CKey) (n : Nat) : (gaugeMax k n s).flt = s.flt := rfl
@[simp] theorem gaugeMax_sec (k : CKey) (n : Nat) : (gaugeMax k n s).sec = s.sec := rfl
@[simp] theorem gaugeMax_pwr (k : CKey) (n : Nat) : (gaugeMax k n s).pwr = s.pwr := rfl
@[simp] theorem gaugeMax_restoring (k : CKey) (n : Nat) : (gaugeMax k n s).restoring = s.restoring := rfl

/-! ## gaugeSet -/

@[simp] theorem gaugeSet_pending (k : CKey) (n : Nat) : (gaugeSet k n s).pending = s.pending := rfl
@[simp] theorem gaugeSet_dev (k : CKey) (n : Nat) : (gaugeSet k n s).dev = s.dev := rfl
@[simp] theorem gaugeSet_part (k : CKey) (n : Nat) : (gaugeSet k n s).part = s.part := rfl
@[simp] theorem gaugeSet_host (k : CKey) (n : Nat) : (gaugeSet k n s).host = s.host := rfl
@[simp] theorem gaugeSet_tide (k : CKey) (n : Nat) : (gaugeSet k n s).tide = s.tide := rfl
@[simp] theorem gaugeSet_stop (k : CKey) (n : Nat) : (gaugeSet k n s).stop = s.stop := rfl
@[simp] theorem gaugeSet_launches (k : CKey) (n : Nat) : (gaugeSet k n s).launches = s.launches := rfl
@[simp] theorem gaugeSet_groups (k : CKey) (n : Nat) : (gaugeSet k n s).groups = s.groups := rfl
@[simp] theorem gaugeSet_emb (k : CKey) (n : Nat) : (gaugeSet k n s).emb = s.emb := rfl
@[simp] theorem gaugeSet_mem (k : CKey) (n : Nat) : (gaugeSet k n s).mem = s.mem := rfl
@[simp] theorem gaugeSet_route (k : CKey) (n : Nat) : (gaugeSet k n s).route = s.route := rfl
@[simp] theorem gaugeSet_shoal (k : CKey) (n : Nat) : (gaugeSet k n s).shoal = s.shoal := rfl
@[simp] theorem gaugeSet_qents (k : CKey) (n : Nat) : (gaugeSet k n s).qents = s.qents := rfl
@[simp] theorem gaugeSet_policers (k : CKey) (n : Nat) : (gaugeSet k n s).policers = s.policers := rfl
@[simp] theorem gaugeSet_net (k : CKey) (n : Nat) : (gaugeSet k n s).net = s.net := rfl
@[simp] theorem gaugeSet_flt (k : CKey) (n : Nat) : (gaugeSet k n s).flt = s.flt := rfl
@[simp] theorem gaugeSet_sec (k : CKey) (n : Nat) : (gaugeSet k n s).sec = s.sec := rfl
@[simp] theorem gaugeSet_pwr (k : CKey) (n : Nat) : (gaugeSet k n s).pwr = s.pwr := rfl
@[simp] theorem gaugeSet_restoring (k : CKey) (n : Nat) : (gaugeSet k n s).restoring = s.restoring := rfl

/-! ## hostWrite -/

@[simp] theorem hostWrite_pending (fn a : Nat) (b : List Byte) : (hostWrite fn a b s).pending = s.pending := rfl
@[simp] theorem hostWrite_dev (fn a : Nat) (b : List Byte) : (hostWrite fn a b s).dev = s.dev := rfl
@[simp] theorem hostWrite_part (fn a : Nat) (b : List Byte) : (hostWrite fn a b s).part = s.part := rfl
@[simp] theorem hostWrite_tide (fn a : Nat) (b : List Byte) : (hostWrite fn a b s).tide = s.tide := rfl
@[simp] theorem hostWrite_stop (fn a : Nat) (b : List Byte) : (hostWrite fn a b s).stop = s.stop := rfl
@[simp] theorem hostWrite_launches (fn a : Nat) (b : List Byte) : (hostWrite fn a b s).launches = s.launches := rfl
@[simp] theorem hostWrite_groups (fn a : Nat) (b : List Byte) : (hostWrite fn a b s).groups = s.groups := rfl
@[simp] theorem hostWrite_emb (fn a : Nat) (b : List Byte) : (hostWrite fn a b s).emb = s.emb := rfl
@[simp] theorem hostWrite_mem (fn a : Nat) (b : List Byte) : (hostWrite fn a b s).mem = s.mem := rfl
@[simp] theorem hostWrite_route (fn a : Nat) (b : List Byte) : (hostWrite fn a b s).route = s.route := rfl
@[simp] theorem hostWrite_shoal (fn a : Nat) (b : List Byte) : (hostWrite fn a b s).shoal = s.shoal := rfl
@[simp] theorem hostWrite_qents (fn a : Nat) (b : List Byte) : (hostWrite fn a b s).qents = s.qents := rfl
@[simp] theorem hostWrite_policers (fn a : Nat) (b : List Byte) : (hostWrite fn a b s).policers = s.policers := rfl
@[simp] theorem hostWrite_net (fn a : Nat) (b : List Byte) : (hostWrite fn a b s).net = s.net := rfl
@[simp] theorem hostWrite_flt (fn a : Nat) (b : List Byte) : (hostWrite fn a b s).flt = s.flt := rfl
@[simp] theorem hostWrite_sec (fn a : Nat) (b : List Byte) : (hostWrite fn a b s).sec = s.sec := rfl
@[simp] theorem hostWrite_pwr (fn a : Nat) (b : List Byte) : (hostWrite fn a b s).pwr = s.pwr := rfl
@[simp] theorem hostWrite_obs (fn a : Nat) (b : List Byte) : (hostWrite fn a b s).obs = s.obs := rfl
@[simp] theorem hostWrite_restoring (fn a : Nat) (b : List Byte) : (hostWrite fn a b s).restoring = s.restoring := rfl

/-! ## linkSend -/

@[simp] theorem linkSend_pending (p : Nat) (k : Packet) : (linkSend p k s).pending = s.pending := rfl
@[simp] theorem linkSend_dev (p : Nat) (k : Packet) : (linkSend p k s).dev = s.dev := rfl
@[simp] theorem linkSend_part (p : Nat) (k : Packet) : (linkSend p k s).part = s.part := rfl
@[simp] theorem linkSend_host (p : Nat) (k : Packet) : (linkSend p k s).host = s.host := rfl
@[simp] theorem linkSend_tide (p : Nat) (k : Packet) : (linkSend p k s).tide = s.tide := rfl
@[simp] theorem linkSend_stop (p : Nat) (k : Packet) : (linkSend p k s).stop = s.stop := rfl
@[simp] theorem linkSend_launches (p : Nat) (k : Packet) : (linkSend p k s).launches = s.launches := rfl
@[simp] theorem linkSend_groups (p : Nat) (k : Packet) : (linkSend p k s).groups = s.groups := rfl
@[simp] theorem linkSend_emb (p : Nat) (k : Packet) : (linkSend p k s).emb = s.emb := rfl
@[simp] theorem linkSend_mem (p : Nat) (k : Packet) : (linkSend p k s).mem = s.mem := rfl
@[simp] theorem linkSend_route (p : Nat) (k : Packet) : (linkSend p k s).route = s.route := rfl
@[simp] theorem linkSend_shoal (p : Nat) (k : Packet) : (linkSend p k s).shoal = s.shoal := rfl
@[simp] theorem linkSend_qents (p : Nat) (k : Packet) : (linkSend p k s).qents = s.qents := rfl
@[simp] theorem linkSend_policers (p : Nat) (k : Packet) : (linkSend p k s).policers = s.policers := rfl
@[simp] theorem linkSend_flt (p : Nat) (k : Packet) : (linkSend p k s).flt = s.flt := rfl
@[simp] theorem linkSend_sec (p : Nat) (k : Packet) : (linkSend p k s).sec = s.sec := rfl
@[simp] theorem linkSend_pwr (p : Nat) (k : Packet) : (linkSend p k s).pwr = s.pwr := rfl
@[simp] theorem linkSend_obs (p : Nat) (k : Packet) : (linkSend p k s).obs = s.obs := rfl
@[simp] theorem linkSend_restoring (p : Nat) (k : Packet) : (linkSend p k s).restoring = s.restoring := rfl

/-! ## linkMark -/

@[simp] theorem linkMark_pending (p : Nat) (k : Packet) : (linkMark p k s).pending = s.pending := rfl
@[simp] theorem linkMark_dev (p : Nat) (k : Packet) : (linkMark p k s).dev = s.dev := rfl
@[simp] theorem linkMark_part (p : Nat) (k : Packet) : (linkMark p k s).part = s.part := rfl
@[simp] theorem linkMark_host (p : Nat) (k : Packet) : (linkMark p k s).host = s.host := rfl
@[simp] theorem linkMark_tide (p : Nat) (k : Packet) : (linkMark p k s).tide = s.tide := rfl
@[simp] theorem linkMark_stop (p : Nat) (k : Packet) : (linkMark p k s).stop = s.stop := rfl
@[simp] theorem linkMark_launches (p : Nat) (k : Packet) : (linkMark p k s).launches = s.launches := rfl
@[simp] theorem linkMark_groups (p : Nat) (k : Packet) : (linkMark p k s).groups = s.groups := rfl
@[simp] theorem linkMark_emb (p : Nat) (k : Packet) : (linkMark p k s).emb = s.emb := rfl
@[simp] theorem linkMark_mem (p : Nat) (k : Packet) : (linkMark p k s).mem = s.mem := rfl
@[simp] theorem linkMark_route (p : Nat) (k : Packet) : (linkMark p k s).route = s.route := rfl
@[simp] theorem linkMark_shoal (p : Nat) (k : Packet) : (linkMark p k s).shoal = s.shoal := rfl
@[simp] theorem linkMark_qents (p : Nat) (k : Packet) : (linkMark p k s).qents = s.qents := rfl
@[simp] theorem linkMark_policers (p : Nat) (k : Packet) : (linkMark p k s).policers = s.policers := rfl
@[simp] theorem linkMark_flt (p : Nat) (k : Packet) : (linkMark p k s).flt = s.flt := rfl
@[simp] theorem linkMark_sec (p : Nat) (k : Packet) : (linkMark p k s).sec = s.sec := rfl
@[simp] theorem linkMark_pwr (p : Nat) (k : Packet) : (linkMark p k s).pwr = s.pwr := rfl
@[simp] theorem linkMark_obs (p : Nat) (k : Packet) : (linkMark p k s).obs = s.obs := rfl
@[simp] theorem linkMark_restoring (p : Nat) (k : Packet) : (linkMark p k s).restoring = s.restoring := rfl

/-! ## takeDelivered -/

@[simp] theorem takeDelivered_pending (p : Nat) (k : Packet) : (takeDelivered p k s).pending = s.pending := rfl
@[simp] theorem takeDelivered_dev (p : Nat) (k : Packet) : (takeDelivered p k s).dev = s.dev := rfl
@[simp] theorem takeDelivered_part (p : Nat) (k : Packet) : (takeDelivered p k s).part = s.part := rfl
@[simp] theorem takeDelivered_host (p : Nat) (k : Packet) : (takeDelivered p k s).host = s.host := rfl
@[simp] theorem takeDelivered_tide (p : Nat) (k : Packet) : (takeDelivered p k s).tide = s.tide := rfl
@[simp] theorem takeDelivered_stop (p : Nat) (k : Packet) : (takeDelivered p k s).stop = s.stop := rfl
@[simp] theorem takeDelivered_launches (p : Nat) (k : Packet) : (takeDelivered p k s).launches = s.launches := rfl
@[simp] theorem takeDelivered_groups (p : Nat) (k : Packet) : (takeDelivered p k s).groups = s.groups := rfl
@[simp] theorem takeDelivered_emb (p : Nat) (k : Packet) : (takeDelivered p k s).emb = s.emb := rfl
@[simp] theorem takeDelivered_mem (p : Nat) (k : Packet) : (takeDelivered p k s).mem = s.mem := rfl
@[simp] theorem takeDelivered_shoal (p : Nat) (k : Packet) : (takeDelivered p k s).shoal = s.shoal := rfl
@[simp] theorem takeDelivered_qents (p : Nat) (k : Packet) : (takeDelivered p k s).qents = s.qents := rfl
@[simp] theorem takeDelivered_policers (p : Nat) (k : Packet) : (takeDelivered p k s).policers = s.policers := rfl
@[simp] theorem takeDelivered_net (p : Nat) (k : Packet) : (takeDelivered p k s).net = s.net := rfl
@[simp] theorem takeDelivered_flt (p : Nat) (k : Packet) : (takeDelivered p k s).flt = s.flt := rfl
@[simp] theorem takeDelivered_sec (p : Nat) (k : Packet) : (takeDelivered p k s).sec = s.sec := rfl
@[simp] theorem takeDelivered_pwr (p : Nat) (k : Packet) : (takeDelivered p k s).pwr = s.pwr := rfl
@[simp] theorem takeDelivered_obs (p : Nat) (k : Packet) : (takeDelivered p k s).obs = s.obs := rfl
@[simp] theorem takeDelivered_restoring (p : Nat) (k : Packet) : (takeDelivered p k s).restoring = s.restoring := rfl

/-! ## originate -/

@[simp] theorem originate_pending (k : Packet) : (originate k s).pending = s.pending := rfl
@[simp] theorem originate_dev (k : Packet) : (originate k s).dev = s.dev := rfl
@[simp] theorem originate_part (k : Packet) : (originate k s).part = s.part := rfl
@[simp] theorem originate_host (k : Packet) : (originate k s).host = s.host := rfl
@[simp] theorem originate_tide (k : Packet) : (originate k s).tide = s.tide := rfl
@[simp] theorem originate_stop (k : Packet) : (originate k s).stop = s.stop := rfl
@[simp] theorem originate_launches (k : Packet) : (originate k s).launches = s.launches := rfl
@[simp] theorem originate_groups (k : Packet) : (originate k s).groups = s.groups := rfl
@[simp] theorem originate_emb (k : Packet) : (originate k s).emb = s.emb := rfl
@[simp] theorem originate_mem (k : Packet) : (originate k s).mem = s.mem := rfl
@[simp] theorem originate_shoal (k : Packet) : (originate k s).shoal = s.shoal := rfl
@[simp] theorem originate_qents (k : Packet) : (originate k s).qents = s.qents := rfl
@[simp] theorem originate_policers (k : Packet) : (originate k s).policers = s.policers := rfl
@[simp] theorem originate_net (k : Packet) : (originate k s).net = s.net := rfl
@[simp] theorem originate_flt (k : Packet) : (originate k s).flt = s.flt := rfl
@[simp] theorem originate_sec (k : Packet) : (originate k s).sec = s.sec := rfl
@[simp] theorem originate_pwr (k : Packet) : (originate k s).pwr = s.pwr := rfl
@[simp] theorem originate_obs (k : Packet) : (originate k s).obs = s.obs := rfl
@[simp] theorem originate_restoring (k : Packet) : (originate k s).restoring = s.restoring := rfl

end Sys2Proof.Machine
end

