-- ==== Sys2Proof/Safety.lean ====
section
/-! DEFINITION. What counts as a safe run of the block, and the vocabulary the claims share: states well formed as
data, an accepted descriptor whose turn has come, and the device in CLIFF. -/

namespace Sys2Proof

open Sys2Proof.Machine

/-- Every byte memory of a state is in its canonical form: host memory as the Q7 wrote it, the exported regions and
the row spaces of the tables. -/
def memoriesOk (s : State) : Bool :=
  s.host.mem.all (fun e => memWf e.2)
  && s.mem.regions.all (fun r => memWf r.2.mem)
  && s.emb.tables.all (fun t => memWf t.2.space0 && memWf t.2.space1 && memWf t.2.space2 && memWf t.2.space3)

/-- Descriptor `i` of ring `r` is `d`: accepted with that opcode, its turn has come, and the Q7 may complete it
(R419, R420, R423, R464, R528). -/
abbrev Ready (s : State) (r i opcode : Nat) (d : Desc) : Prop :=
  findDesc s r i = some d ∧ d.opcode = opcode ∧ d.stage = .waiting ∧ turnOf s d = true ∧ s.dev.state ≠ .cliff
    ∧ ideOk s d.func = true ∧ (s.dev.state = .stopped → stoppedOpcode opcode = true)

/-- The completion of `d` with a status and a RESULT, COMMITTED and RECOVERED clear (R421, R422). -/
abbrev answer (d : Desc) (status result : Nat) : State → State := complete d status result false false

/-- An engine has taken a delivered packet: it no longer stands among those delivered, and its Shoal buffers are free
(R250, R305). -/
abbrev taken (port : Nat) (p : Packet) (s : State) : State := freeAll (deliveredAt s port p) (takeDelivered port p s)

/-- The device is in CLIFF, and no power cycle waits in the queue (R491). -/
def CliffHeld (s : State) : Prop := s.dev.state = .cliff ∧ Instr.powerCycle ∉ s.pending

/-- A segment completes message `m` of control type `ctype` at a port whose link runs; `u` is the state in which the message is
taken (R529). -/
abbrev MessageWhole (s : State) (ctype port : Nat) (p : Packet) (m : List Byte) (u : State) : Prop :=
  linkRuns s port = true ∧ p.ctype = ctype ∧ takeSegment port ctype p (takeDelivered port p s) = some (u, some m)

/-- The Q7 has entered CLIFF on a detection: the state, the record and every port DOWN (R486, R492). -/
abbrev EnteredCliff (s t : State) (src : Nat) (loc : Word) : Prop :=
  t.dev.state = .cliff ∧ t.dev.prev = s.dev.state ∧ t.flt.cliffSrc = src ∧ t.flt.cliffLoc = loc ∧ t.flt.lastCliff = false
    ∧ (∀ p, (getPort t p).lstate = .down) ∧ t.host.accepted = s.host.accepted ∧ t.groups = s.groups ∧ t.mem = s.mem ∧ t.emb = s.emb

/-- Nothing is due that R451 puts before the snapshots of a Tidemark: an apply, a cut, a resume. -/
abbrev SnapsNext (s : State) (mark : Nat) : Prop := appliesDue s mark = [] ∧ cutDue s = false ∧ resumeDue s = false

/-- Nothing waits for the end of the instant: no rebuild, no flow, no answer, no packet heard or read bad, no SEAL, nothing in a
queue of LOCAL and no commit of the instant (R127, R219, R265, R269, R275, R283, R300). -/
def InstantSettled (s : State) : Prop :=
  (∀ d q, d < 4 → q < 4 → (nth (getSlice s d).quarters q {}).doneAt = none)
  ∧ (∀ e ∈ s.shoal.flows, e.2.expire = false ∧ e.2.late = []) ∧ (∀ o ∈ s.mem.outst, o.expire = false)
  ∧ s.shoal.badHeld = [] ∧ s.obs.heard = [] ∧ (∀ d, d < 4 → (getPort s (768 + d)).queues = [])
  ∧ (∀ e ∈ s.groups, ∀ k ∈ e.2.chunks, k.sealDue = true → k.sealed = true) ∧ s.route.looks = [] ∧ s.route.wrote = []

/-- Everything that holds the Q7 in RESET has gone: the rails are in range, MGMT_CLK and the Tide reference run (R582, R602). -/
abbrev SupplyGood (s : State) : Prop := s.dev.railsOut = [] ∧ 18 ∉ s.dev.clocksAbsent ∧ 19 ∉ s.dev.clocksAbsent

end Sys2Proof
end

