-- ==== Sys2Proof/Certificates/Slice0/Obligations.lean ====
section
/-! DEFINITION. What is stated about the Q7 for the provers: one `Obligations.<Name>` for each entry of
OBLIGATIONS.json. A clause of the form `exec c s = .next t` says where the command completes with its own effect,
and `t` carries the frame: everything it does not name is as in `s`. -/

open Sys2Proof Sys2Proof.Machine


/-- The command at the front of the queue runs on the state with the queue's rest, and no command faults or is refused. With no
command waiting a step settles what the instant leaves (a quarter whose rebuild is over, a flow whose wait has run out, a SEAL
whose RACKs are in) and lets one nanosecond of Tide pass; where nothing waits to settle only the waits of queued packets, the
counters of gated and throttled regions and the lanes' own streams move, and while the data path is frozen the latter two alone
(R127, R265, R300, R440, R562; log entry 2 gives the step this meaning). The counter stops at its greatest value (R441). -/
def Obligations.StepRunsFrontCommandOrIdles : Prop :=
  (∀ (c : Instr) (rest : List Instr) (s : State),
     step { s with pending := c :: rest } = exec c { s with pending := rest } ∧ ∃ t, exec c s = .next t)
  ∧ (∀ s : State, s.pending = [] → s.dev.state ≠ .reset →
     step s = .next (onTide (fun x => { x with now := min (x.now + 1) (2 ^ 64 - 1) }) (waitNs (endInstant s)))
     ∧ (InstantSettled s → endInstant s = s)
     ∧ (endInstant s = s → ∃ t, step s = .next t ∧ t.tide = { s.tide with now := min (s.tide.now + 1) (2 ^ 64 - 1) }
       ∧ t = { s with tide := t.tide, obs := t.obs, shoal := t.shoal, net := t.net, host := t.host }
       ∧ t.shoal = { s.shoal with stored := t.shoal.stored }
       ∧ t.shoal.stored.map (fun x => { x with since := 0 }) = s.shoal.stored.map (fun x => { x with since := 0 })
       ∧ (s.stop.frozen = true → t.shoal = s.shoal)
       ∧ (s.stop.frozen = true → (∀ r, r < 16 → (getRgn s r).gated = false ∧ (getRgn s r).ebb = false) → t.obs = s.obs)
       ∧ (regsLive s = true → ∀ r, r < 16 → (getRgn s r).gated = true → (ctrOf s.obs (kRegion r iGATED_NS)).val < 2 ^ 64 - 1 →
           ctrVal t (kRegion r iGATED_NS) = ctrVal s (kRegion r iGATED_NS) + 1)
       ∧ t.net = { s.net with ports := t.net.ports, lanes := t.net.lanes }
       ∧ (∀ p, (getPort t p).link = (getPort s p).link ∧ (getPort t p).lstate = (getPort s p).lstate ∧ (getPort t p).queues = (getPort s p).queues)
       ∧ ((∀ p, framesGo (getPort s p) = false) → ∀ l, laneState s l ≠ .test → bitAt (getLane s l).eyeCtl 31 = false → getLane t l = getLane s l)))

/-- What reset leaves, where the spec gives the value: DEV_STATE and PREV (R592), the latency registers and the functions (R414,
R415), DBW_CTL and DBW_STAT (R426), the ring states (R413), LN_TAPS at preset 1 (R384), RX_POL_AUTO and REV_ALLOW (R377), the
ports DOWN (R380), SHOAL_SET's parameters (R290), the scheduler's parameters (R331), the Tide counter free-running from 0 (R440,
R442), SEL_GEN of every counter instance 0 (R571). -/
def Obligations.ResetLeavesTheStatedValues : Prop :=
  let s := State.reset
  s.pending = [] ∧ devCode s.dev.state = 1 ∧ devCode s.dev.prev = 0
  ∧ (∀ f, (getFunc s f).state = .enabled ∧ (getFunc s f).eqEn = false ∧ (getFunc s f).latTol = 10000
      ∧ (getFunc s f).latPoll = 5000 ∧ (getFunc s f).latMod = 5000)
  ∧ s.host.budget = 40 ∧ s.host.scale = 256 ∧ s.host.lines = 0
  ∧ (∀ r, (getRing s r).state = .disabled ∧ (getRing s r).out = 0)
  ∧ (∀ l, (getLane s l).taps = [0, 0, 0, 63, 0] ∧ bitAt (getLane s l).ctl 24 = true ∧ bitAt (getLane s l).ctl 22 = true)
  ∧ (∀ p, (getPort s p).lstate = .down)
  ∧ s.shoal.cfg.shareCap = 160 ∧ s.shoal.cfg.credAhead = 112 ∧ s.shoal.cfg.embRes = 128
  ∧ (∀ p, (getPort s p).sched.floor = 8)
  ∧ s.tide.now = 0 ∧ s.tide.tstate = .free
  ∧ (∀ k, ctrVal s k = 0)

/-- What a completion writes (R408, R421, R422): while the Q7 may write host memory and no function level reset runs, the 32
bytes at the completion ring's next entry, in the memory of the ring's function, are the entry of R421, and no other byte of
host memory changes; the descriptor is no longer accepted, the completion ring's entry count goes up by one, and only the host
interface, the counters and, for interrupts, the message list change. -/
def Obligations.CompletionIsWrittenOnce : Prop :=
  ∀ (s : State) (d : Desc) (status result : Nat) (com rec : Bool),
    s.dev.state ≠ .cliff → ideOk s d.func = true → (getFunc s d.func).flr = false →
    d.ring ≠ ringLink (getRing s d.ring) →
    let c := ringLink (getRing s d.ring)
    let g := getRing s c
    let e := cplEntry (phaseOf g g.pi) (b2n com) (b2n rec) d.opcode s.tide.now result status d.ring d.idx d.user
    let t := complete d status result com rec s
    memReadN (hostMem t (ringFunc g)) (entryAddr g g.pi) 32 = bytesLE 32 e.toNat
    ∧ (∀ a, (a < entryAddr g g.pi ∨ entryAddr g g.pi + 32 ≤ a) →
        memRead (hostMem t (ringFunc g)) a = memRead (hostMem s (ringFunc g)) a)
    ∧ (∀ fn, fn ≠ ringFunc g → hostMem t fn = hostMem s fn)
    ∧ findDesc t d.ring d.idx = none
    ∧ (getRing t c).pi = (g.pi + 1) % 2 ^ 32
    ∧ (getRing t d.ring).out = (getRing s d.ring).out - 1
    ∧ t = { s with host := t.host, obs := t.obs }

/-- Events (R431 to R433, R438): an event for an ACTIVE event ring with room is written once, in ring order, and no other byte
of host memory changes; one without room is dropped, counted in EVT_DROP and leaves the ring's LOST mark; one with no such ring
is counted in EVT_UNMAPPED, and one during a function level reset in HOST_CPL_DROP. -/
def Obligations.EventsAreWrittenOnce : Prop :=
  ∀ (s : State) (r fn cls : Nat) (detail : List Byte) (more : List (List Byte)), s.dev.state ≠ .cliff →
    let g := getRing s r
    let n := 1 + more.length
    let t := postTo (some r) fn cls detail more s
    let fits := g.state = .active ∧ ringType g = 3 ∧ ringFunc g = fn ∧ (getFunc s fn).flr = false ∧ ideOk s fn = true
      ∧ ahead g.ci g.pi + n ≤ ringSize g
    (fits →
      (memReadN (hostMem t (ringFunc g)) (entryAddr g g.pi) 32 = eventHeader cls more.length (b2n g.lost) g.events s.tide.now detail (phaseOf g g.pi))
      ∧ (∀ k, k < more.length → memReadN (hostMem t (ringFunc g)) (entryAddr g (g.pi + 1 + k)) 32 = sliceB (nth more k []) 0 32)
      ∧ (∀ a, (∀ k, k < n → a < entryAddr g (g.pi + k) ∨ entryAddr g (g.pi + k) + 32 ≤ a) → memRead (hostMem t (ringFunc g)) a = memRead (hostMem s (ringFunc g)) a)
      ∧ (getRing t r).pi = (g.pi + n) % 2 ^ 32 ∧ (getRing t r).events = (g.events + 1) % 2 ^ 32 ∧ (getRing t r).lost = false
      ∧ t.host.accepted = s.host.accepted ∧ t = { s with host := t.host, obs := t.obs })
    ∧ (g.state = .active ∧ ringType g = 3 ∧ ringFunc g = fn → (getFunc s fn).flr = false → ideOk s fn = true →
        ringSize g < ahead g.ci g.pi + n → t = countRaw kEVT_DROP 1 (onRing r (fun x => { x with lost := true }) s))
    ∧ (¬ (g.state = .active ∧ ringType g = 3 ∧ ringFunc g = fn) → t = countRaw kEVT_UNMAPPED 1 s)
    ∧ (g.state = .active ∧ ringType g = 3 ∧ ringFunc g = fn → (getFunc s fn).flr = true → t = countRaw kHOST_CPL_DROP 1 s)
    ∧ postTo none fn cls detail more s = countRaw kEVT_UNMAPPED 1 s

/-- NOP (R417): with operand bits [383:64] zero it completes DONE with bits [63:0] in RESULT, otherwise BAD. Descriptors arrive
(R419, R422): a descriptor that an ACTIVE submission ring's oldest read returns is accepted, in order, with the ring's next
index; a check that fails ends it at once, in the order BAD, DENIED, HELD. One that a read from before the ring left ACTIVE
returns is not, and the entry reserved for it is released. One taken in STOPPED with an opcode that R464 does not list completes
HELD, nothing else done. A doorbell read (R424, R425, R427): where the line holds the word of one ring alone, a submission ring
takes the new PI and issues the reads, of up to 64 descriptors and none across the ring's end, that the completion ring's free
entries, the limit of 16,384 and that of 768 requests on the link allow; a completion or event ring takes the new CI. A word out
of range puts the ring in ERROR (DB_RANGE 1, CI_RANGE 3), a failed read with READ_ERR 2. -/
def Obligations.DescriptorsAreAcceptedAndPolled : Prop :=
  (∀ (s : State) (r i : Nat) (d : Desc), Ready s r i 0x00 d →
     exec (.nop r i) s = .next (if fld d.op 383 64 = 0 then answer d 0x00 (fld d.op 63 0) s else answer d 0x09 0 s))
  ∧ ((∀ (s : State) (r c : Nat) (desc : BitVec 512) (l : List (Nat × Option Nat)), s.dev.state ≠ .cliff →
     (getRing s r).stale = (1, some c) :: l →
     exec (.descriptorArrival r true desc) s =
       .next (onRing c (fun g => { g with out := g.out - 1 }) (onRing r (fun g => { g with stale := l }) s)))
   ∧ (∀ (s : State) (r i opcode : Nat) (w : Work) (data : List Byte) (d : Desc), findDesc s r i = some d → d.opcode = opcode →
     d.stage = .waiting → turnOf s d = true → ideOk s d.func = true → s.dev.state = .stopped → stoppedOpcode opcode = false →
     runDesc opcode w r i data s = answer d 0x0B 0 s)
   ∧ ∀ (s : State) (r : Nat) (desc : BitVec 512),
     s.dev.state ≠ .cliff → (getRing s r).state = .active → ringType (getRing s r) = 1 → (getRing s r).stale = [] →
     (getRing s r).reads ≠ [] →
     let g := getRing s r
     let fn := ringFunc g
     let d : Desc := {
       ring := r, idx := g.fetch, func := fn, opcode := fld desc 7 0, fence := bitAt desc 8,
       user := BitVec.ofNat 64 (fld desc 127 64), op := BitVec.ofNat 384 (fld desc 511 128), came := s.tide.now }
     let t := countRaw (kRing r 0) 1 (onHost (fun h => { h with accepted := h.accepted ++ [d] })
       (onRing r (fun g => { g with reads := oneLess g.reads, fetch := (g.fetch + 1) % 2 ^ 32, out := g.out + 1 }) s))
     exec (.descriptorArrival r true desc) s = .next (
       if isOpcode (fld desc 7 0) = false ∨ fld desc 63 9 ≠ 0 then answer d 0x09 0 t
       else if fn ≠ 0 ∧ restrictedOpcode (fld desc 7 0) = false then answer d 0x05 0 t
       else if stateAllows s.dev.state (fld desc 7 0) = false then answer d 0x0B 0 t
       else t))
  ∧ (∀ (s : State) (r line : Nat) (bytes : List Byte) (g : Ring),
     watcherRuns s.dev.state = true → getRing s r = g →
     s.host.rings.filter (fun e => e.2.state == .active && ringDoorbell e.2 / 64 == line / 64 && ideOk s (ringFunc e.2)) = [(r, g)] →
     let word := leAt bytes (ringDoorbell g % 64) 8
     let v := word % 2 ^ 32
     (ringType g = 1 →
       exec (.doorbellPoll line true bytes) s = .next (
         if word / 2 ^ 32 ≠ 0 ∨ ringSize g < ahead g.fetch v ∨ 2 ^ 31 ≤ ahead g.pi v then
           ringError r 1 (onRing r (fun x => { x with pi := v }) s)
         else
           let next := (g.fetch + readsOf g) % 2 ^ 32
           let most := min (ahead next v) (min (cplFree (getRing s (ringLink g))) (16384 - descsHeld s))
           let new := readSizes (ringSize g) (768 - requestsOut s (linkOfFn s (ringFunc g))) next most
           onRing (ringLink g) (fun c => { c with out := c.out + sumOf new id })
             (onRing r (fun x => { x with pi := v, reads := x.reads ++ new }) s))
       ∧ exec (.doorbellPoll line false bytes) s = .next (ringError r 2 s))
     ∧ (2 ≤ ringType g →
       exec (.doorbellPoll line true bytes) s = .next (
         if ahead g.ci g.pi < ahead g.ci v then ringError r 3 (onRing r (fun x => { x with fetch := v }) s)
         else onRing r (fun x => { x with ci := v, fetch := v }) s)))

/-- Enabling, disabling and draining a ring (R434, R435): a valid enable of a DISABLED ring starts it with every count 0, an
invalid one records BAD_CFG, or CFG_REJ in the instant of its function's disable (R439); a disable of an event ring, or of a
completion ring without busy submission rings, leaves it DISABLED; a disable of a submission ring takes back what it accepted in
that instant (R439) and aborts under R436 from DRAINING; a DRAINING ring with nothing out becomes DISABLED and posts
RING_DRAINED. Functions (R414, R437, R438): a function goes DRAINING at its disable (alone, where it owns no submission ring),
DISABLED once its submission rings are, an enable of its rings in the instant of the disable undone (R439), and ENABLED again at
its enable. A function level reset returns its registers but FN_COVE to their reset values, at its drain's end or, from
DISABLED, at once; the clearing of Bus Master Enable leaves them. -/
def Obligations.RingsAndFunctionsLiveAndEnd : Prop :=
  ((∀ (s : State) (w r : Nat), s.dev.state ∉ [DevState.cliff, .boot, .reset] → ownsRing s w r = true →
     (getRing s r).state = .disabled →
     exec (.ringEnable w r) s = .next (
       if enableOk s (getRing s r) = true then
         rescale (onRing r (fun g => { g with
           state := .active, pi := 0, fetch := 0, out := 0, ci := 0, reads := [], enabledAt := some s.tide.now,
           unsignalled := 0, events := 0, lost := false, enAtBoot := false }) (forgetStale r s))
       else if (getFunc s (ringFunc (getRing s r))).state ≠ .enabled
           ∧ (getFunc s (ringFunc (getRing s r))).disabledAt = some s.tide.now then
         onRing r (fun g => { g with cfgRej := true, cfgRejAt := some s.tide.now, enAtBoot := false }) s
       else onRing r (fun g => { g with err := 5, enAtBoot := false }) s))
   ∧ (∀ (s : State) (w r : Nat), s.dev.state ∈ [DevState.boot, .reset] → ownsRing s w r = true →
     exec (.ringEnable w r) s = .next (onRing r (fun g => { g with enAtBoot := true }) s))
   ∧ (∀ (s : State) (w r : Nat), s.dev.state ≠ .cliff → ownsRing s w r = true →
     (getRing s r).state = .active ∨ (getRing s r).state = .error →
     (ringType (getRing s r) = 1 → exec (.ringDisable w r) s =
       .next (rescale (abortRing r (onRing r (fun g => { g with state := .draining }) (dropReads r
         (forAll (s.host.accepted.filter (fun d => d.ring == r && d.came == s.tide.now)) (fun _ => unaccept r) s))))))
     ∧ (ringType (getRing s r) = 2 → exec (.ringDisable w r) s =
       .next (if boundBusy s r = true then onRing r (fun g => { g with cfgRej := true, cfgRejAt := some s.tide.now }) s
         else rescale (postDrained r (onRing r (fun g => { g with state := .disabled }) s))))
     ∧ (ringType (getRing s r) = 3 → exec (.ringDisable w r) s =
       .next (rescale (onRing r (fun g => { g with state := .disabled }) s))))
   ∧ (∀ (s : State) (r : Nat), regsLive s = true → (getRing s r).state = .draining → (getRing s r).out = 0 →
     exec (.ringDrained r) s = .next (rescale (postDrained r (onRing r (fun g => { g with state := .disabled }) s)))))
  ∧ ((∀ (s : State) (w fn : Nat), s.dev.state ≠ .cliff → w = 0 ∨ w = fn → (getFunc s fn).state = .enabled →
     ∃ t, exec (.functionDisable w fn) s = .next t ∧ (getFunc t fn).state = .draining
       ∧ (ringsOf s fn 1 = [] → t = onFunc fn (fun f => { f with state := .draining, disabledAt := some s.tide.now }) (undoEnable fn s)))
   ∧ (∀ (s : State) (w fn : Nat), s.dev.state ≠ .cliff → w = 0 ∨ w = fn → (getFunc s fn).state = .disabled →
     exec (.functionEnable w fn) s = .next (onFunc fn (fun f => { f with state := .enabled }) s))
   ∧ (∀ (s : State) (fn : Nat), regsLive s = true → (getFunc s fn).state = .draining →
     (ringsOf s fn 1).all (fun r => (getRing s r).state == .disabled) = true →
     ∃ t, exec (.funcDrained fn) s = .next t ∧ (getFunc t fn).flr = false
       ∧ (getFunc t fn).state = (if (getFunc s fn).flrRegs = true then .enabled else .disabled))
   ∧ (∀ (s : State) (fn : Nat), regsLive s = true → isPf s fn = false → (getFunc s fn).state = .disabled →
     exec (.functionLevelReset fn 0) s = .next (rescale (flrReset fn s))
     ∧ exec (.functionLevelReset fn 1) s = .next (rescale s))
   ∧ (∀ (s : State) (fn : Nat), (getFunc (flrReset fn s) fn) = { coveHi := (getFunc s fn).coveHi, coveLo := (getFunc s fn).coveLo }))

/-- Interrupts (R429, R430): moderation and unmasking send one message, or set the pending bit of a masked vector; a message
leaves every entry it covers signalled. Register writes of the host interface (R406, R407, R410, R415, R426): LAT_TOL by the
function itself, a BUDGET of 1 to 200, an MSI-X table word, and an access that R407 does not accept, which is counted and whose
read returns all ones. -/
def Obligations.InterruptsAndHostRegisters : Prop :=
  ((∀ (s : State) (r : Nat), regsLive s = true → 2 ≤ ringType (getRing s r) → 0 < (getRing s r).unsignalled →
     (getRing s r).oldest + (getFunc s (ringFunc (getRing s r))).latMod ≤ s.tide.now →
     ∃ t, exec (.interruptModeration r) s = .next t ∧
       let f := ringFunc (getRing s r)
       let v := ringVector (getRing s r)
       if (f, v) ∈ s.host.unmasked then
         t.host.msi = s.host.msi ++ [(f, v)] ∧ t = { s with host := t.host } ∧ t.host.mem = s.host.mem
         ∧ (∀ e ∈ t.host.rings, 2 ≤ ringType e.2 ∧ ringFunc e.2 = f ∧ ringVector e.2 = v → e.2.unsignalled = 0)
       else t = onHost (fun h => { h with pendingMsi := addNew h.pendingMsi (f, v) }) s)
   ∧ (∀ (s : State) (fn v : Nat), regsLive s = true → v < vectorsOf fn →
     ∃ t, exec (.msixUnmask fn v) s = .next t ∧ (fn, v) ∈ t.host.unmasked ∧ (fn, v) ∉ t.host.pendingMsi
       ∧ t.host.msi = s.host.msi ++ (if (fn, v) ∈ s.host.pendingMsi then [(fn, v)] else [])
       ∧ t = { s with host := t.host } ∧ t.host.mem = s.host.mem))
  ∧ ((∀ (s : State) (fn : Nat) (v : Word), s.dev.state ≠ .cliff →
     exec (.latTolWrite fn fn v) s = .next (rescale (onFunc fn (fun f => { f with latTol := v.toNat }) s)))
   ∧ (∀ (s : State) (v : Word), s.dev.state ∉ [DevState.cliff, .boot, .reset] → 1 ≤ fld v 7 0 → fld v 7 0 ≤ 200 →
     exec (.dbwBudgetWrite v) s = .next (rescale (onHost (fun h => { h with budget := fld v 7 0 }) s)))
   ∧ (∀ (s : State) (fn n off : Nat) (v : Word), regsLive s = true → n < vectorsOf fn → off = 0 ∨ off = 4 ∨ off = 8 →
     exec (.registerWrite fn 2 (16 * n + off) v) s = .next (onHost (fun h => { h with
       msixWords := h.msixWords.filter (fun e => e.1 != 65536 * fn + (16 * n + off)) ++ [(65536 * fn + (16 * n + off), v)] }) s))
   ∧ (∀ (s : State) (write : Bool), s.dev.state ≠ .cliff →
     exec (.barBadAccess write) s = .next (count kHOST_BADACC
       (if write then s else onDev (fun d => { d with badAccess := 0xFFFFFFFF }) s))))

/-- R430: a masked vector sets its pending bit in place of sending, and holds at most one pending message; unmasked with the bit
set it sends one message, which covers every entry written by then. -/
def Obligations.MaskedVectorHoldsOneMessage : Prop :=
  (∀ (s : State) (f v : Nat), s.dev.state ≠ .cliff → (f, v) ∉ s.host.unmasked → let t := sendVector f v s
    t.host.msi = s.host.msi ∧ (f, v) ∈ t.host.pendingMsi ∧ t.host.rings = s.host.rings
    ∧ (∀ x ∈ t.host.pendingMsi, x = (f, v) ∨ x ∈ s.host.pendingMsi) ∧ (s.host.pendingMsi.Nodup → t.host.pendingMsi.Nodup))
  ∧ (∀ (s : State) (f v : Nat), regsLive s = true → v < vectorsOf f → (f, v) ∈ s.host.pendingMsi →
    ∃ t, exec (.msixUnmask f v) s = .next t ∧ t.host.msi = s.host.msi ++ [(f, v)] ∧ (f, v) ∉ t.host.pendingMsi
      ∧ (f, v) ∈ t.host.unmasked
      ∧ ∀ e ∈ t.host.rings, 2 ≤ ringType e.2 → ringFunc e.2 = f → ringVector e.2 = v → e.2.unsignalled = 0)

/-- SHOAL_SET and DATELINE_SET (R290, R291, R311): out of range BAD, minima beyond a slice NO_RESOURCE, HELD once a port has run
since RESET; otherwise the parameters of every die, or DIM and DL of the port, are those of the descriptor. SCHED_SET, QUEUE_SET
and POLICE_SET (R331, R332, R333): checked whole, then set on every port or die they name; a table that would pass 4,096 entries
or 1,024 policers on a die answers NO_RESOURCE and changes nothing. -/
def Obligations.ShoalAndSchedulerSettings : Prop :=
  ((∀ (s : State) (r i : Nat) (d : Desc), Ready s r i 0x68 d →
     let c := shoalCfgOf d.op
     let t := onShoal (fun h => { h with cfg := c }) s
     exec (.shoalSet r i) s = .next (
       if shoalCfgOk c = false ∨ fld d.op 179 0 ≠ 0 then answer d 0x09 0 s
       else if (List.range 4).any (fun k => 655360 < shoalNeeds t k) = true then answer d 0x08 0 s
       else if s.shoal.everRun = true then answer d 0x0B 0 s
       else answer d 0x00 0 t))
   ∧ (∀ (s : State) (r i : Nat) (d : Desc), Ready s r i 0x69 d →
     let p := fld d.op 383 374
     exec (.datelineSet r i) s = .next (
       if fld d.op 370 0 ≠ 0 ∨ isDrezhPort s p = false ∨ isAttach s p = true ∨ (bitAt d.op 371 = true ∧ fld d.op 373 372 = 3) then
         answer d 0x09 0 s
       else if linkUp s p = true then answer d 0x0B 0 s
       else answer d 0x00 0 (onPort p (fun x => { x with dim := fld d.op 373 372, dl := bitAt d.op 371 }) s))))
  ∧ ((∀ (s : State) (r i : Nat) (d : Desc), Ready s r i 0x6A d →
     exec (.schedSet r i) s = .next (
       if schedCfgOk (schedCfgOf d.op) = false ∨ fld d.op 236 0 ≠ 0 ∨ (bitAt d.op 373 = false ∧ isDrezhPort s (fld d.op 383 374) = false) then
         answer d 0x09 0 s
       else answer d 0x00 0 (forAll (if bitAt d.op 373 = true then drezhPorts s else [fld d.op 383 374])
         (fun q => onPort q (fun x => { x with sched := schedCfgOf d.op })) s)))
   ∧ (∀ (s : State) (r i : Nat) (d : Desc), Ready s r i 0x6B d →
     let job := fld d.op 372 365
     let weight := fld d.op 362 355
     let rate := fld d.op 354 335
     let burst := fld d.op 334 311
     let t := forAll (if bitAt d.op 373 = true then drezhPorts s else [fld d.op 383 374])
       (fun q => setQEntry q job (fld d.op 364 363) weight rate burst) s
     exec (.queueSet r i) s = .next (
       if job = 0 ∨ weight = 0 ∨ rateOk rate burst = false ∨ fld d.op 310 0 ≠ 0
         ∨ (bitAt d.op 373 = false ∧ isDrezhPort s (fld d.op 383 374) = false) then answer d 0x09 0 s
       else if (List.range 4).any (fun k => 4096 < (t.qents.filter (fun e => dieOf e.port == k)).length) = true then answer d 0x08 0 s
       else answer d 0x00 0 t))
   ∧ (∀ (s : State) (r i : Nat) (d : Desc), Ready s r i 0x6C d →
     let key := fld d.op 382 367
     let rate := fld d.op 358 339
     let burst := fld d.op 338 315
     let t := forAll (bitsOf 4 (fld d.op 366 363)) (setPolicer (bitAt d.op 383) key (fld d.op 362 359) rate burst) s
     exec (.policeSet r i) s = .next (
       if fld d.op 314 0 ≠ 0 ∨ fld d.op 366 363 = 0 ∨ fld d.op 362 359 = 0 ∨ rateOk rate burst = false
         ∨ (bitAt d.op 383 = true ∧ (key = 0 ∨ 256 ≤ key)) ∨ (bitAt d.op 383 = false ∧ key ∉ s.mem.coves) then answer d 0x09 0 s
       else if (List.range 4).any (fun k => 1024 < (t.policers.filter (fun p => p.die == k)).length) = true then answer d 0x08 0 s
       else answer d 0x00 0 t)))

/-- Beachcomber (R298, R300, R307, R308): an audit, of a die not audited for 100 ms, returns to the free store each buffer that
two audits in a row found without owner and untouched. A quarter that is rebuilt holds as used only what an owner record names,
gives no buffer until its walks end (log entry 95 leaves their length open within the 2 ms of R300), and is in bitmap mode after
a walk that succeeds. Neither touches a stored packet. Dispatch, the escape move and the release of owners (R242, R255, R257,
R288, R305, R312 to R314): the head of an ingress account without a route is dropped and counted, one at its hop limit likewise,
one whose port's account takes it goes to the end of its queue; a packet blocked for ESC_WAIT moves to ESC; the last owner's
release frees the buffers, a release by an ID not named is refused. -/
def Obligations.LostBuffersReturnAndOwnersRelease : Prop :=
  ((∀ (s : State) (d : Nat), auditDue s d = false → exec (.beachcomberAudit d) s = .next s)
   ∧ (∀ (s : State) (d : Nat), engineOn s = true → d < 4 → auditDue s d = true →
     ∃ t, exec (.beachcomberAudit d) s = .next t ∧ t.shoal.stored = s.shoal.stored
       ∧ (∀ e ∈ (getSlice s d).used, (nth (getSlice s d).quarters (e.1 / 163840) {}).bitmap = true →
           isOwned s d e.1 = false → e.2.noted = true → e.2.touched = false → mget (getSlice t d).used e.1 = none)
       ∧ (∀ d', d' ≠ d → getSlice t d' = getSlice s d'))
   ∧ (∀ (s : State) (d q : Nat), s.dev.state ∈ [DevState.train, .run, .stopped] → d < s.shoal.slices.length →
     q < (getSlice s d).quarters.length →
     (nth (getSlice s d).quarters q {}).failures + (if (nth (getSlice s d).quarters q {}).closed.isSome = true then 1 else 0) < 2 →
     ∃ t, exec (.quarterRebuild d q) s = .next t ∧ t.shoal.stored = s.shoal.stored
       ∧ quarterFree (getSlice t d) q = none
       ∧ (nth (getSlice t d).quarters q {}).doneAt = some (s.tide.now + min Config.rebuildTime 2000000)
       ∧ (∀ e ∈ (getSlice t d).used, e.1 / 163840 = q → isOwned s d e.1 = true)
       ∧ (∀ d', d' ≠ d → getSlice t d' = getSlice s d'))
   ∧ (∀ (s : State) (d q at_ : Nat), d < 4 → q < 4 →
     (∀ d' q', d' < 4 → q' < 4 → (d', q') ≠ (d, q) → (nth (getSlice s d').quarters q' {}).doneAt = none) →
     (nth (getSlice s d).quarters q {}).doneAt = some at_ → walkOk (nth (getSlice s d).quarters q {}) q = true →
     settleQuarters s = (if at_ ≤ s.tide.now then onQuarter d q (fun x => { bitmap := true, failures := x.failures }) s else s)))
  ∧ ((∀ (s : State) (port c : Nat) (x : Stored), engineOn s = true → port < 768 → ingressHead s port c = some x →
     let b := x.bufs.headD 0xFFFFF
     (x.dest = .noRoute → exec (.dispatch port c) s = .next (popIngress port c (dropAt x iROUTE_NONE s)))
     ∧ (∀ node e p t, x.dest = .via node e → x.pkt.vc ≠ vcESC → choosePort s x.cap x.die node e x.pkt = some (p, t) →
       (isFabric s p = true → x.cap.hopLimit ≤ x.pkt.hops →
         exec (.dispatch port c) s = .next (popIngress port c (dropAt x iROUTE_LOOP s)))
       ∧ (∀ q u, x.pkt.hops < x.cap.hopLimit → canMove t x (egressAcct t p x.pkt) = true → queueFor t p x.pkt = some (q, u) →
         ∃ v, exec (.dispatch port c) s = .next v ∧ queuePkts v p q = queuePkts s p q ++ [(x.die, b)]
           ∧ mgetD (getPort v port).ingress c [] = (mgetD (getPort s port).ingress c []).drop 1)))
   ∧ (∀ (s : State) (port c : Nat) (x : Stored) (node p q : Nat) (e : BitVec 512) (u : State),
     let b := x.bufs.headD 0xFFFFF
     let k := (x.pkt.setVc vcESC).setDline 0
     let s₁ := setStored x.die b (fun _ => k) s
     engineOn s = true → ingressHead s port c = some x → x.dest = .via node e → x.pkt.vc ≠ vcESC →
     x.since + s.shoal.cfg.escWait ≤ s.tide.now → allBlocked s x e = true → allowedSet s x.cap e ≠ [] →
     chooseEsc s₁ x.cap e k = some p → x.pkt.hops < x.cap.hopLimit → canMove s₁ { x with pkt := k } (egressAcct s₁ p k) = true →
     queueFor s₁ p k = some (q, u) →
     ∃ v y, exec (.escMove port c) s = .next v ∧ queuePkts v p q = queuePkts s p q ++ [(x.die, b)]
       ∧ storedAt v x.die b = some y ∧ y.pkt = k
       ∧ mgetD (getPort v port).ingress c [] = (mgetD (getPort s port).ingress c []).drop 1)
   ∧ (∀ (s : State) (d b owner : Nat) (x : Stored), regsLive s = true → storedAt s d b = some x →
     (x.owners = [owner] → exec (.ownerRelease d b owner) s = .next (freeStored d b s))
     ∧ (owner ∈ x.owners → x.owners ≠ [owner] →
       exec (.ownerRelease d b owner) s = .next (onStored d b (fun y => { y with owners := y.owners.erase owner }) s))
     ∧ (namedBy s d b owner = none → exec (.ownerRelease d b owner) s =
       .next (collect ⟨0x25, mkLoc d (b / 163840) 0, owner, s.tide.now, false, 0, true⟩ (badRelease d owner s)))))

/-- A route batch (R246, R247, R252, R253, R268, R269): a write with HOLDC joins the batch; the write that ends it commits every
write at once and advances the tag where the checks of R253 pass, and otherwise changes nothing and answers BAD. The commit
waits out an instant in which the table has been looked up, and one in which a higher ring wrote it (log entry 3). Egress (R304,
R318, R320, R321): where one queue of a Drezh port in RUN is eligible, holds one packet and the deficit covers it, the turn
gives the packet to the link as it leaves and takes its credits from its class; a job slot whose queues have stayed empty for 10
µs is free. -/
def Obligations.RoutesCommitAndEgressSends : Prop :=
  ((∀ (s : State) (r i : Nat) (d : Desc) (data : List Byte), Ready s r i 0x60 d → routeWriteOk d.op = true →
     s.route.batch = [] → s.route.commits = [] → routeMust s = false → ringBehind s (0, 0) d.ring = false →
     bitAt d.op 248 = false →
     let n := applyWrite ⟨r, i, 0x60, d.op, data, s.tide.now⟩ s.route
     exec (.routeWrite r i data) s = .next (if routeOk s n = true then answer d 0x00 0 (noteWrote (0, 0) d.ring (commitRoute n s)) else answer d 0x09 0 s))
   ∧ (∀ (s : State) (r i : Nat) (d : Desc), Ready s r i 0x62 d → routeConfigOk d.op = true →
     s.route.batch = [] → s.route.commits = [] → routeMust s = false → ringBehind s (0, 0) d.ring = false →
     bitAt d.op 248 = false →
     let n := applyWrite ⟨r, i, 0x62, d.op, [], s.tide.now⟩ s.route
     exec (.routeConfig r i) s = .next (if routeOk s n = true then answer d 0x00 0 (noteWrote (0, 0) d.ring (commitRoute n s)) else answer d 0x09 0 s))
   ∧ (∀ (s : State) (n : Route), commitRoute n s = { s with route := { n with tag := (n.tag + 1) % 16 } })
   ∧ (∀ (s : State) (r i : Nat) (d : Desc) (data : List Byte), Ready s r i 0x60 d → routeWriteOk d.op = true →
     s.route.batch.length < 16 → bitAt d.op 248 = true → ringBehind s (0, 0) d.ring = false →
     ∃ t, exec (.routeWrite r i data) s = .next t
       ∧ t.route = { s.route with batch := joinBatch s.route.batch ⟨r, i, 0x60, d.op, data, s.tide.now⟩ }
       ∧ t = { s with route := t.route, host := { s.host with accepted := t.host.accepted } }))
  ∧ ((∀ (s : State) (p q d b : Nat) (x : Stored), p < 768 → isEthPort s p = false → portRun s p = true → s.stop.frozen = false →
     s.dev.state ≠ .cliff → q < 64 → queuePkts s p q = [(d, b)] → storedAt s d b = some x →
     (∀ k, k < 64 → (eligible s p k = true ↔ k = q)) →
     x.pkt.size ≤ mgetD (getPort s p).deficit q 0 + quantum s p q → staleAt s p x.pkt = false → barred s p x.pkt = false →
     storedGood x = true →
     ∃ t, exec (.egressTurn p) s = .next t ∧ queuePkts t p q = []
       ∧ (getPort t p).link.tx = (getPort s p).link.tx ++ [{ pkt := leaving s p x.pkt, die := d, buf := b, queue := q, par := parityOut s d b (leaving s p x.pkt) }]
       ∧ nth (getPort t p).link.avail (outClass s p x.pkt) 0 = nth (getPort s p).link.avail (outClass s p x.pkt) 0 - x.pkt.bufs
       ∧ (getPort t p).pktsTx = ((getPort s p).pktsTx + 1) % 2 ^ 32
       ∧ (∀ p', p' ≠ p → getPort t p' = getPort s p'))
   ∧ (∀ (s : State) (p j : Nat) (e : Nat × Nat), regsLive s = true → mget (getPort s p).slots j = some e →
     slotEmpty (getPort s p) j = true → e.2 + 10000 ≤ s.tide.now → s.stop.frozen = false →
     exec (.jobSlotFree p j) s = .next (onPort p (fun x => { x with slots := mdel x.slots j }) s)))

/-- ROUTE_READ, EPOCH_DRAIN and SOUNDING_SET (R251, R274, R275): the entries as they stand go to ADDR; a drain completes at once
where no lookup of an older tag is in flight, and otherwise waits for EPOCH_DRAIN_DONE. Wait traces (R575, R576, R578, R579):
TRACE_SET's checks and its settings of every die named; TRACE_DRAIN hands over the oldest whole records, as many as LEN and the
tokens allow, RESULT counting their bytes; a die that traces notes the change of Tide bits [63:48]. -/
def Obligations.RouteReadsSoundingsAndTraces : Prop :=
  ((∀ (s : State) (r i : Nat) (d : Desc), Ready s r i 0x61 d →
     exec (.routeRead r i) s = .next (
       if onlyBits d.op [(383, 320), (319, 288), (287, 286), (285, 268), (267, 249)] = false ∨ routeRangeOk d.op = false then answer d 0x09 0 s
       else answer d 0x00 0 (hostWrite d.func (fld d.op 383 320)
         ((List.range (fld d.op 267 249)).flatMap (fun k => routeBytes s.route (fld d.op 287 286) (fld d.op 285 268 + k))) s)))
   ∧ (∀ (s : State) (r i : Nat) (d : Desc) (x : List (Option Nat) × Nat), Ready s r i 0x63 d →
     onlyBits d.op [(205, 202), (201, 186)] = true → tagsOf s (fld d.op 205 202) (fld d.op 201 186) = some x →
     ∃ t, exec (.epochDrain r i) s = .next t
       ∧ (drained x.1 x.2 x.2 = true → t = answer d 0x00 0 s)
       ∧ (drained x.1 x.2 x.2 = false → ∃ e, findDesc t r i = some e ∧ e.stage = .draining ∧ e.oldTag = x.2
           ∧ t = { s with host := { s.host with accepted := t.host.accepted } }))
   ∧ (∀ (s : State) (r i : Nat) (d : Desc) (x : List (Option Nat) × Nat), regsLive s = true → findDesc s r i = some d →
     d.opcode = 0x63 → d.stage = .draining → tagsOf s (fld d.op 205 202) (fld d.op 201 186) = some x → drained x.1 x.2 d.oldTag = true →
     exec (.epochDrainDone r i) s = .next (answer d 0x00 0 s))
   ∧ (∀ (s : State) (r i : Nat) (d : Desc), Ready s r i 0x64 d →
     onlyBits d.op [(185, 176), (174, 174), (173, 173), (172, 149), (148, 141)] = true → isDrezhPort s (fld d.op 185 176) = true →
     let x (o : Option Sounding) : Sounding :=
       { n := fld d.op 172 149 + 1, svcs := fld d.op 148 141, en := bitAt d.op 173, seq := (o.map (·.seq)).getD 0 }
     exec (.soundingSet r i) s = .next (answer d 0x00 0 (
       if bitAt d.op 174 = true then onPort (fld d.op 185 176) (fun y => { y with soundOut := some (x y.soundOut) }) s
       else onPort (fld d.op 185 176) (fun y => { y with soundIn := some (x y.soundIn) }) s))))
  ∧ ((∀ (s : State) (r i : Nat) (d : Desc), Ready s r i 0x13 d →
     let dies := (List.range 4).filter (fun k => bitAt d.op (380 + k))
     let en := bitAt d.op 379
     let mib := fld d.op 331 320
     let t := forAll dies (fun k => onTrace k (fun x => { x with
       en := en, budget := fld d.op 378 376, minWait := fld d.op 375 344, types := fld d.op 343 340, job := fld d.op 339 332,
       ringMib := mib, allocated := x.allocated || en })) (forAll dies fillTrace s)
     exec (.traceSet r i) s = .next (
       if fld d.op 319 0 ≠ 0 ∨ ¬ (1 ≤ fld d.op 378 376 ∧ fld d.op 378 376 ≤ 5) ∨ bitAt d.op 343 = true ∨ ¬ (4 ≤ mib ∧ mib ≤ 1024) then
         answer d 0x09 0 s
       else if dies.any (fun k => (getTrace s k).en && (getTrace s k).ringMib != mib) = true then answer d 0x0B 0 s
       else if hbmFits t = false then answer d 0x08 0 s
       else answer d 0x00 0 (forAll dies (fun k u => if en = true ∧ (getTrace s k).en = false then writeTimeRecord k u else u) t)))
   ∧ (∀ (s : State) (r i : Nat) (d : Desc), Ready s r i 0x14 d → s.obs.traces.length = 4 →
     onlyBits d.op [(383, 320), (319, 288), (287, 286)] = true → fld d.op 319 288 % 32 = 0 →
     let k := fld d.op 287 286
     let x := getTrace s k
     let tokens := min 65536000 (x.tokens + 16384 * x.budget * (s.tide.now - x.tokensAt))
     let n := min (fld d.op 319 288 / 32) (min x.records.length (tokens / 32000))
     ∃ u, exec (.traceDrain r i) s = .next (answer d 0x00 (32 * n) u)
       ∧ (getTrace u k).records = x.records.drop n ∧ (getTrace u k).tokens = tokens - 32000 * n
       ∧ (∀ k', k' < 4 → k' ≠ k → getTrace u k' = getTrace s k'))
   ∧ (∀ (s : State), regsLive s = true → ∃ t, exec .traceTimeRecord s = .next t
       ∧ (∀ k, k < 4 → (getTrace s k).en = true → (getTrace t k).hi = s.tide.now / 2 ^ 48)))

/-- GROUP_INSTALL (R51 to R54, R76, R77, R292): the checks answer BAD, the Cove DENIED, a full table or a reservation that does
not fit NO_RESOURCE; otherwise the entry holds the fragment, INSTALLING while child ports have still to report, and at a root
without children ACTIVE at epoch 1. -/
def Obligations.GroupInstallTakesThePlan : Prop :=
  ∀ (s : State) (r i : Nat) (d : Desc) (data : List Byte), Ready s r i 0x20 d →
    let gid := fld d.op 23 0
    let f := parseFrag data
    (installOk d.op data s = false → exec (.groupInstall r i data) s = .next (answer d 0x09 0 s))
    ∧ (installOk d.op data s = true → coveAllowed s d.func f.cove = false → exec (.groupInstall r i data) s = .next (answer d 0x05 0 s))
    ∧ (installOk d.op data s = true → coveAllowed s d.func f.cove = true → getGroup s gid = none →
        (freeEntry s = none → exec (.groupInstall r i data) s = .next (answer d 0x08 0 s))
        ∧ (∀ e, freeEntry s = some e →
          (reservationsOk { s with groups := mput s.groups gid (installed f e none) } = false →
            exec (.groupInstall r i data) s = .next (answer d 0x08 0 s))
          ∧ (reservationsOk { s with groups := mput s.groups gid (installed f e none) } = true →
            ∃ t g, exec (.groupInstall r i data) s = .next (answer d 0x00 0 t) ∧ getGroup t gid = some g
              ∧ g.frag = f ∧ g.entry = e ∧ g.shoalRes = shoalNeed f ∧ g.stagingRes = accNeed f f.chunkWindow
              ∧ (f.children ≠ [] ∨ f.isRoot = false → g.state = .installing)
              ∧ (f.children = [] → f.isRoot = true → g.state = .active ∧ g.now.epoch = 1))))

/-- The root's group descriptors (R56, R67 to R70, R76): QUIESCE waits in QUIESCING, RESUME returns to ACTIVE and sends the
command down the plan (a plan whose array has retired meanwhile fails at once, log entry 87), EVICT and RENEW commit the next
epoch, DESTROY enters DESTROYING and waits. The ends of a group's waits (R76, R77, R293): with no call open a QUIESCING entry is
QUIESCED and the waiting GROUP_QUIESCE completes DONE; a DESTROYING entry that retains nothing and whose own descriptor was
taken is FREE, and every GROUP_DESTROY that waits completes DONE. -/
def Obligations.RootGroupDescriptorsAndWaits : Prop :=
  (∀ (s : State) (r i : Nat) (d : Desc) (g : Group), getGroup s (fld d.op 23 0) = some g → g.frag.group = fld d.op 23 0 →
     coveAllowed s d.func g.frag.cove = true →
     (Ready s r i 0x23 d → onlyBits d.op [(23, 0)] = true → g.frag.isRoot = true →
       (g.state ≠ .active → exec (.groupQuiesce r i) s = .next (answer d 0x09 0 s))
       ∧ (g.state = .active → ∃ t g' e, exec (.groupQuiesce r i) s = .next t ∧ getGroup t g.frag.group = some g'
           ∧ g'.state = .quiescing ∧ g'.quiescer = some (r, i) ∧ findDesc t r i = some e ∧ e.stage = .draining))
     ∧ (Ready s r i 0x24 d → onlyBits d.op [(23, 0)] = true → g.frag.isRoot = true →
       exec (.groupResume r i) s = .next (if g.state = .quiesced then
           answer d 0x00 0 (failRetired g.frag.group
             (sendCmd g.frag.group g.now.epoch 1 0 0 0 (onGroup g.frag.group (fun x => { x with state := .active }) s)))
         else answer d 0x09 0 s)
       ∧ (∀ u, getGroup u g.frag.group = some g → g.frag.arrays.any (fun a => u.part.retired.contains a) = false →
           failRetired g.frag.group u = u))
     ∧ (Ready s r i 0x22 d → onlyBits d.op [(23, 0), (287, 270)] = true → g.frag.isRoot = true → takesChanges g = true →
       g.now.epoch ≠ 0xFFFF → g.now.roster.any (fun e => e.1 == fld d.op 287 270) = true →
       ∃ t g', exec (.groupEvict r i) s = .next (answer d 0x00 0 t) ∧ getGroup t g.frag.group = some g'
         ∧ g'.now.epoch = g.now.epoch + 1 ∧ g'.now.roster = g.now.roster.filter (fun e => e.1 != fld d.op 287 270)
         ∧ g'.now.admitted = g.now.admitted.filter (fun m => m.2.1 != fld d.op 287 270))
     ∧ (Ready s r i 0x25 d → onlyBits d.op [(23, 0)] = true → g.frag.isRoot = true → takesChanges g = true →
       (g.now.epoch = 0xFFFF → exec (.groupRenew r i) s = .next (answer d 0x08 0 s))
       ∧ (g.now.epoch ≠ 0xFFFF → ∃ t g', exec (.groupRenew r i) s = .next (answer d 0x00 0 t) ∧ getGroup t g.frag.group = some g'
           ∧ g'.now.epoch = g.now.epoch + 1 ∧ g'.now.roster = g.now.roster ∧ g'.now.admitted = g.now.admitted))
     ∧ (Ready s r i 0x26 d → onlyBits d.op [(23, 0)] = true → g.quiescer ≠ some (r, i) →
       ∃ t g' e, exec (.groupDestroy r i) s = .next t ∧ getGroup t g.frag.group = some g' ∧ g'.state = .destroying
         ∧ g'.destroyTaken = true ∧ (r, i) ∈ g'.destroyers ∧ findDesc t r i = some e ∧ e.stage = .draining))
  ∧ ((∀ (s : State) (gid : Nat) (g : Group), engineOn s = true → getGroup s gid = some g → g.state = .quiescing → openCalls g = [] →
     ∃ t g', exec (.groupQuiesced gid) s = .next t ∧ getGroup t gid = some g' ∧ g'.state = .quiesced ∧ g'.quiescer = none
       ∧ (∀ ri, g.quiescer = some ri → t = finishDesc ri 0x00 0 (onGroup gid (fun x => { x with quiescer := none })
           (onGroup gid (fun x => { x with state := .quiesced }) s)))
       ∧ (g.quiescer = none → t = onGroup gid (fun x => { x with state := .quiesced }) s))
   ∧ (∀ (s : State) (gid : Nat) (g : Group), regsLive s = true → getGroup s gid = some g → g.state = .destroying →
     g.destroyTaken = true → g.chunks = [] → charge s (.group g.entry) = 0 →
     exec (.groupDestroyDone gid) s = .next (forAll g.destroyers (fun d => finishDesc d 0x00 0)
       (noteIdle (usedRegions s) { s with groups := mdel s.groups gid }))))

/-- GROUP_QUERY, GROUP_EXTENTS and ACCUM_SET (R57, R93, R136): the record goes to ADDR as far as LEN; an extent table and an
accumulation setting are taken whole or not at all. Setting a plan up (R70, R76, R77): each child's PLAN_READY is noted once;
the last one starts the root at epoch 1, or one above the epoch a REPLACE kept; an EPOCH_NOTICE from the parent brings the epoch
and its count; PLAN_READY goes again after 100 µs of INSTALLING. -/
def Obligations.GroupRecordsAndPlanSetUp : Prop :=
  (∀ (s : State) (r i : Nat) (d : Desc) (g : Group), getGroup s (fld d.op 23 0) = some g → coveAllowed s d.func g.frag.cove = true →
     (Ready s r i 0x27 d → onlyBits d.op [(23, 0), (383, 320), (319, 288)] = true →
       exec (.groupQuery r i) s = .next (
         if fld d.op 383 320 % 8 ≠ 0 ∨ fld d.op 319 288 < 64 then answer d 0x09 0 s
         else answer d 0x00 0 (hostWrite d.func (fld d.op 383 320) ((groupRecord g).take (fld d.op 319 288)) s)))
     ∧ (∀ data, Ready s r i 0x21 d → onlyBits d.op [(23, 0), (383, 320), (319, 288), (269, 266)] = true →
       let l := parseExtents data
       let t := onGroup (fld d.op 23 0) (fun g => { g with extents := mput g.extents (fld d.op 269 266) l }) s
       exec (.groupExtents r i data) s = .next (
         if fld d.op 383 320 % 8 ≠ 0 ∨ fld d.op 319 288 % 8 ≠ 0 ∨ data.length ≠ fld d.op 319 288
           ∨ (List.range (data.length / 8)).all (fun i => fld (entryAt data (8 * i)) 45 32 == 0) = false
           ∨ ascending (l.map (·.1)) = false ∨ l.any (fun e => e.1 == noRank) = true then answer d 0x09 0 s
         else if hbmFits t = false then answer d 0x08 0 s
         else answer d 0x00 0 t))
     ∧ (Ready s r i 0x30 d →
       let n := fld d.op 383 352
       let k := fld d.op 351 336
       let t := onGroup (fld d.op 23 0) (fun x => { x with pendingAccum := some (k, n, accNeed g.frag n) }) s
       exec (.accumSet r i) s = .next (
         if onlyBits d.op [(383, 352), (351, 336), (23, 0)] = false ∨ n = 0 ∨ 65536 < n ∨ k = 0 ∨ g.state = .failed ∨ g.state = .destroying then
           answer d 0x09 0 s
         else if 2 ^ 22 < memberCount g * k ∨ stagingFits t = false ∨ hbmFits t = false then answer d 0x08 0 s
         else answer d 0x00 0 t)))
  ∧ ((∀ (s : State) (port : Nat) (p : Packet) (g : Group),
     let gid := fld p.ctl 119 96
     engineFor s port p = true → getGroup s gid = some g → port ∈ g.frag.children → g.state = .installing → port ∉ g.ready →
     g.frag.arrays.any (fun a => s.part.retired.contains a) = false →
     (g.frag.children.all (fun c => (g.ready ++ [port]).contains c) = false →
       exec (.planReady port p) s = .next (onGroup gid (fun g => { g with ready := g.ready ++ [port] }) (taken port p s)))
     ∧ (g.frag.children.all (fun c => (g.ready ++ [port]).contains c) = true → g.frag.isRoot = true →
       ∃ t g', exec (.planReady port p) s = .next t ∧ getGroup t gid = some g' ∧ g'.state = .active
         ∧ g'.now.epoch = (if g.fromQuiesced = true then g.now.epoch + 1 else 1)))
   ∧ (∀ (s : State) (port : Nat) (p : Packet) (g : Group),
     let gid := fld p.ctl 119 96
     engineFor s port p = true → getGroup s gid = some g → g.frag.isRoot = false → planPort s g port p = g.frag.parent →
     takesChanges g = true ∨ (g.state = .installing ∧ 2 ≤ fld p.ctl 11 10) →
     g.frag.arrays.any (fun a => s.part.retired.contains a) = false →
     ∃ t g', exec (.epochNotice port p) s = .next t ∧ getGroup t gid = some g' ∧ g'.now.epoch = fld p.ctl 95 80
       ∧ g'.now.count = fld p.ctl 61 44 ∧ g'.readyAt = none
       ∧ g'.state = (if g.state = .installing then .active else g.state))
   ∧ (∀ (s : State) (gid : Nat) (g : Group) (at_ : Nat), engineOn s = true → getGroup s gid = some g → g.readyAt = some at_ →
     g.state = .installing → g.frag.isRoot = false → at_ + 100000 ≤ s.tide.now →
     exec (.planReadyResend gid) s = .next (sendPlanReady gid s)))

/-- Membership requests (R67, R68, R70): at the root a JOIN of a free rank, a LEAVE of a member and a RENEW of the epoch in
force each commit the next epoch, and a JOIN is answered DONE with its rank; another Q7 forwards the request of a member port to
its parent, its SRC, FSEQ and FS as they came (R244). The root's commands at the other Q7s (R488, R616): a command is
acknowledged, applied once in SEQ order and passed on; an acknowledged command is sent no more, an unacknowledged one again
after 10 µs; a GROUP_STORM goes up the plan, and fails the group at the root. -/
def Obligations.MembershipAndGroupCommands : Prop :=
  (∀ (s : State) (port : Nat) (p : Packet) (g : Group),
     let gid := fld p.ctl 119 96
     let rank := fld p.ctl 79 62
     engineFor s port p = true → getGroup s gid = some g → g.frag.group = gid → isFabric s port = false → refuseRequest (boundAt s port p) port (some g) = none →
     (g.frag.isRoot = true → g.now.epoch ≠ 0xFFFF → rank ≠ noRank → g.now.roster.any (fun m => m.2 == p.src) = false →
       g.now.roster.any (fun m => m.1 == rank) = false → maxPasses g = 1 →
       ∃ t g', exec (.join port p) s = .next (sendReply p.src gid (g.now.epoch + 1) 0x00 rank p.job t) ∧ getGroup t gid = some g'
         ∧ g'.now.epoch = g.now.epoch + 1 ∧ (rank, p.src) ∈ g'.now.roster ∧ (port, rank, p.src) ∈ g'.now.admitted
         ∧ g'.now.count = g'.now.roster.length)
     ∧ (g.frag.isRoot = true → g.now.epoch ≠ 0xFFFF → (rank, p.src) ∈ g.now.roster →
       ∃ t g', exec (.leave port p) s = .next t ∧ getGroup t gid = some g' ∧ g'.now.epoch = g.now.epoch + 1
         ∧ g'.now.roster = g.now.roster.filter (fun e => e.1 != rank))
     ∧ (g.frag.isRoot = true → g.now.epoch ≠ 0xFFFF → fld p.ctl 95 80 = g.now.epoch →
       ∃ t g', exec (.renew port p) s = .next t ∧ getGroup t gid = some g' ∧ g'.now.epoch = g.now.epoch + 1
         ∧ g'.now.roster = g.now.roster)
     ∧ (g.frag.isRoot = false →
       let t := sendOn (p.setDst (farEpid s g.frag.parent)) (taken port p s)
       exec (.join port p) s = .next t ∧ exec (.leave port p) s = .next t ∧ exec (.renew port p) s = .next t))
  ∧ ((∀ (s : State) (port : Nat) (p : Packet) (g : Group),
     let gid := fld p.ctl 119 96
     engineFor s port p = true → getGroup s gid = some g → g.frag.isRoot = false → port = g.frag.parent → fld p.ctl 79 76 ≤ 4 →
     g.heldCmds = [] → fld p.ctl 42 27 = g.expectSeq →
     exec (.groupCmd port p) s = .next (applyCmd gid p.ctl p.job (onGroup gid (fun x => { x with
       heldCmds := [], expectSeq := (x.expectSeq + 1) % 65536 })
       (originate (ctlPkt vcCTRL p.src 0 0 (setFld (setFld p.ctl 75 75 1) 95 80 g.now.epoch)) (taken port p s)))))
   ∧ (∀ (s : State) (job gid : Nat) (b : BitVec 128) (g : Group), getGroup s gid = some g → fld b 79 76 = 0 → g.state = .active →
     ∃ g', getGroup (applyCmd gid b job s) gid = some g' ∧ g'.state = .quiescing)
   ∧ (∀ (s : State) (port : Nat) (p : Packet) (g : Group),
     let gid := fld p.ctl 119 96
     engineFor s port p = true → getGroup s gid = some g →
     exec (.groupCmdAck port p) s = .next (onGroup gid (fun x => { x with
       sent := x.sent.filter (fun y => !(y.port == planPort s g port p && y.seq == fld p.ctl 42 27)) }) (taken port p s)))
   ∧ (∀ (s : State) (gid port seq : Nat) (g : Group) (x : SentCmd), engineOn s = true → getGroup s gid = some g →
     g.sent.find? (fun y => y.port == port && y.seq == seq) = some x → x.sentAt + 10000 ≤ s.tide.now →
     exec (.groupCmdResend gid port seq) s = .next (originate x.pkt (onGroup gid (fun g => { g with
       sent := g.sent.map (fun y => if y.port == port && y.seq == seq then { y with sentAt := s.tide.now } else y) }) s)))
   ∧ (∀ (s : State) (port : Nat) (p : Packet) (g : Group),
     let gid := fld p.ctl 119 96
     engineFor s port p = true → getGroup s gid = some g → g.frag.group = gid → planPort s g port p ∈ g.frag.children →
     (g.frag.isRoot = false → exec (.groupStorm port p) s =
       .next (sendStorm g (fld p.ctl 95 88) (fld p.ctl 87 80) (fld p.ctl 79 62) (taken port p s)))
     ∧ (g.frag.isRoot = true → g.state = .active ∨ g.state = .quiescing →
       ∃ t g', exec (.groupStorm port p) s = .next t ∧ getGroup t gid = some g' ∧ g'.state = .failed ∧ g'.chunks = [])))

/-- EXACT sums (R86, R92, R107): the window integers a Q7 combines are the same whatever the order in which its inputs arrived,
and the same where a child Q7 has combined some of them first and sent their combination as a partial. So the root's integers
depend neither on arrival order nor on the shape of the tree. The partial's finite elements keep R86's range. -/
def Obligations.ExactSumIgnoresOrderAndTree : Prop :=
  ∀ (par : CallPar) (e : Int) (ms sub l : List Input) (x : Input) (port : Nat),
    x.src = .child port → x.data = winBytes (parW96 par) (sumWins par e sub) →
    (∀ v, Win.fin v ∈ sumWins par e sub → v.natAbs ≤ 2 ^ (8 * winSize (parW96 par) - 1) - 4) →
    l.Perm (ms ++ [x]) → sumWins par e l = sumWins par e (ms ++ sub)

/-- ORDERED sums and the mismatch report (R72, R104, R107): with distinct ranks, neither depends on the order of arrival. -/
def Obligations.OrderedSumIgnoresArrivalOrder : Prop :=
  ∀ (par : CallPar) (w : Nat) (l₁ l₂ : List Input), l₁.Perm l₂ → (l₁.map (·.rank)).Nodup →
    (par.mode = mORDERED → sumF32 par w l₁ = sumF32 par w l₂) ∧ mismOf l₁ = mismOf l₂

/-- Conversion (R81, R614): the value of a code, NaNs apart, converts back to that very code in its own format, zeros with their
sign, subnormals and infinities included. -/
def Obligations.ConversionIsExactInItsOwnFormat : Prop :=
  ∀ f ∈ [fmtE4M3, fmtE5M2, fmtBf16, fmtFp16, fmtFp32], ∀ x : Nat, x < 2 ^ f.bits → decodeF f x ≠ .nan → convF (decodeF f x) f = x

/-- Contributions (R65, R113 to R115, R118, R119, R132, R134, R293): one that must wait for its region's gate, for room in the
group's reservation or for a re-delivery on its port stays delivered; a malformed one is counted and dropped, a refused one
answered with COLL_FAIL, a repeated one counted and dropped, the pair data of an ALLTOALL goes on to its DST; the first of a new
chunk is kept with its bytes while other members' are awaited, and starts the wait for them. -/
def Obligations.ContributionIsKeptOnce : Prop :=
  ∀ (s : State) (port : Nat) (p : Packet) (g : Group),
    let b := p.sub
    let gid := scGroup b
    let e := scEpoch b
    let n := scCall b
    let c := scChunk b
    let u := takeDelivered port p s
    let bufs := deliveredAt s port p
    engineFor s port p = true → getGroup s gid = some g →
    (scResend b = true → redelivering s port = true → exec (.contribution port p) s = .next s)
    ∧ (¬ ((parOf b).kind = 6 ∧ 0 < c ∧ p.dst ≠ selfEpid s) → inputWaits gid c p.job bufs s = true → exec (.contribution port p) s = .next s)
    ∧ ((scResend b = false ∨ redelivering s port = false) →
      ((parOf b).kind = 6 ∧ 0 < c ∧ p.dst ≠ selfEpid s) ∨ inputWaits gid c p.job bufs s = false →
      (subCodesOk b = false ∨ scPhase b ≠ 0 ∨ scPiece b ≠ 0 →
        exec (.contribution port p) s = .next (freeAll bufs (count (kPort port iPKT_MALFORMED) u)))
      ∧ (subCodesOk b = true → scPhase b = 0 → scPiece b = 0 →
        (∀ st, refuseContribution s port p = some (st, none) →
          exec (.contribution port p) s = .next (freeAll bufs (backOn port (sendCollFail p.src gid g.now.epoch (scRank b) st n p.job) u)))
        ∧ (∀ st i, refuseContribution s port p = some (st, some i) →
          exec (.contribution port p) s = .next (freeAll bufs (backOn port (sendCollFail p.src gid g.now.epoch (scRank b) st n p.job)
            (count (kPort port i) u))))
        ∧ (refuseContribution s port p = none → (parOf b).kind = 6 → 0 < c → p.dst ≠ selfEpid s →
          exec (.contribution port p) s = .next (forwardPkt bufs p u))
        ∧ (refuseContribution s port p = none → ¬ ((parOf b).kind = 6 ∧ 0 < c ∧ p.dst ≠ selfEpid s) →
          (∀ k, findChunk g e n c = some k → .member (scRank b) ∈ k.seen →
            exec (.contribution port p) s = .next (freeAll bufs (count (kGroup g.entry iCOLL_DUP) u)))
          ∧ (findChunk g e n c = none → isStale g e n c = false → findCall g e n = none → reduces (parOf b) = true → g.passes = 1 →
            (∀ k ∈ g.chunks, k.slot = true) → slotsUsed g < g.frag.chunkWindow →
            (∃ m ∈ (rosterAt g e).admitted, m.2.1 ≠ scRank b) →
            ∃ t g' k x, exec (.contribution port p) s = .next t ∧ getGroup t gid = some g' ∧ findChunk g' e n c = some k
              ∧ k.seen = [.member (scRank b)] ∧ k.inputs = [x] ∧ x.data = pktData p ∧ x.rank = scRank b ∧ x.hash = scHash b
              ∧ x.bufs = bufs ∧ x.job = p.job ∧ k.job = p.job ∧ k.par = some (parOf b) ∧ k.slot = true ∧ k.combined = false
              ∧ k.inDeadline = some (s.tide.now + g.frag.waitTimeout) ∧ g'.now = g.now))))

/-- Pieces between the Q7s of a plan (R115 to R117, R120, R132): the first piece of a child's partial is kept in order until the
partial is whole; the next piece of a result from the parent is kept and the Q7's copy grows by it. Exponents and reports (R88,
R89, R113, R119): a child's EXP_UP is kept by its port, EXP_DOWN fixes E once for a chunk whose members have not all
contributed, and a child's MISSING is kept by its port. -/
def Obligations.PiecesExponentsAndReports : Prop :=
  ((∀ (s : State) (port : Nat) (p : Packet) (g : Group),
     let b := p.sub
     let gid := scGroup b
     let e := scEpoch b
     let n := scCall b
     let c := scChunk b
     let from_ := planPort s g port p
     engineFor s port p = true → getGroup s gid = some g → inputWaits gid c p.job (deliveredAt s port p) s = false →
     subCodesOk b = true → scPhase b = 1 → groupLive g = true → from_ ∈ g.frag.children → reduces (parOf b) = true →
     g.passes = 1 → scPiece b = 0 → scResend b = false →
     findChunk g e n c = none → isStale g e n c = false →
     endsChunk g.frag.chunkSegs (partSize (parOf b)) 0 (pktData p).length (scLast b) = false →
     ∃ t g' k x, exec (.partialPiece port p) s = .next t ∧ getGroup t gid = some g' ∧ findChunk g' e n c = some k
       ∧ k.taking = [x] ∧ x.port = from_ ∧ x.via = port ∧ x.next = 1 ∧ x.bytes = pktData p ∧ x.bufs = deliveredAt s port p ∧ k.inputs = [])
   ∧ (∀ (s : State) (port : Nat) (p : Packet) (g : Group) (k : Chunk),
     let b := p.sub
     let gid := scGroup b
     let e := scEpoch b
     let n := scCall b
     let c := scChunk b
     engineFor s port p = true → resultWaits gid (deliveredAt s port p) s = false → getGroup s gid = some g → subCodesOk b = true →
     scPhase b = 2 → groupLive g = true → g.frag.isRoot = false →
     planPort s g port p = g.frag.parent → (findCall g e n).any (fun x => x.failed && !x.stale) = false →
     findChunk g e n c = some k → k.sealed = false → k.resultWhole = false → k.resultResend = false → scResend b = false →
     scPiece b = k.pieces →
     let whole := endsChunk g.frag.chunkSegs (elemSize (parOf b).outfmt) (scPiece b) (pktData p).length (scLast b)
       || (parOf b).kind == 5 || (parOf b).kind == 6
     ∃ t g' k', exec (.resultPiece port p) s = .next t ∧ getGroup t gid = some g' ∧ findChunk g' e n c = some k'
       ∧ k'.hash = scHash b ∧ k'.job = p.job ∧ k'.resultLast = scLast b ∧ k'.resultWhole = whole ∧ k'.pieces = k.pieces + 1
       ∧ (whole = false ∨ (∃ y ∈ g.frag.children, .child y ∉ k.racked) →
           k'.result = k.result ++ [(scPiece b, pktData p)] ∧ k'.resultBufs = k.resultBufs ++ deliveredAt s port p)))
  ∧ (∀ (s : State) (port : Nat) (p : Packet) (g : Group) (k : Chunk),
     let b := p.ctl
     let gid := ccGroup b
     engineFor s port p = true → getGroup s gid = some g → groupLive g = true → findChunk g (ccEpoch b) (ccCall b) (ccChunk b) = some k →
     (∀ x ∈ g.chunks, x.slot = true) → g.passes ≤ 1 → membersIn g k = false →
     (planPort s g port p ∈ g.frag.children → k.par.map reduces ≠ some false →
       ∃ t g' k', exec (.expUp port p) s = .next t ∧ getGroup t gid = some g'
         ∧ findChunk g' (ccEpoch b) (ccCall b) (ccChunk b) = some k'
         ∧ k'.exps = k.exps.filter (fun x => x.1 != planPort s g port p)
             ++ [(planPort s g port p, if bitAt b 19 = true then none else some (toSigned 12 (fld b 31 20)))]
         ∧ k'.exp = k.exp ∧ k'.inputs = k.inputs)
     ∧ (g.frag.isRoot = false → planPort s g port p = g.frag.parent → k.exp = none →
       ∃ t g' k', exec (.expDown port p) s = .next t ∧ getGroup t gid = some g'
         ∧ findChunk g' (ccEpoch b) (ccCall b) (ccChunk b) = some k' ∧ k'.exp = some (toSigned 12 (fld b 31 20)))
     ∧ (planPort s g port p ∈ g.frag.children → ccLast b = false →
       ∃ t g' k', exec (.missing port p) s = .next t ∧ getGroup t gid = some g'
         ∧ findChunk g' (ccEpoch b) (ccCall b) (ccChunk b) = some k'
         ∧ k'.missingIn = k.missingIn.filter (fun x => x.1 != planPort s g port p) ++ [(planPort s g port p, p.aux % 2 ^ 18)])
     ∧ (planPort s g port p ∈ g.frag.children → ccLast b = true → ccDeliv b = k.deliv → k.sealed = false →
       exec (.missing port p) s = .next (onChunk gid (ccEpoch b) (ccCall b) (ccChunk b) (fun x => { x with
         missingRack := x.missingRack.filter (fun y => y.1 != planPort s g port p) ++ [(planPort s g port p, p.aux % 2 ^ 18)] })
         (taken port p s))))

/-- The end of a chunk (R115, R117, R118, R120, R121, R127, R128, R133): PACK frees the partial or the forwarded input it
answers; a RACK is noted, and the last one makes the root seal, as the instant ends (log entry 92), and another Q7 free its
copies and RACK upward; SEAL frees every copy; REVOKE withdraws older deliveries; the chunk's record goes 200 µs after its SEAL. -/
def Obligations.ChunkEndsInSeal : Prop :=
  (∀ (s : State) (port : Nat) (p : Packet) (g : Group) (k : Chunk),
    let b := p.ctl
    let gid := ccGroup b
    let at_ := planPort s g port p
    engineFor s port p = true → getGroup s gid = some g → groupLive g = true → findChunk g (ccEpoch b) (ccCall b) (ccChunk b) = some k →
    (g.frag.isRoot = false → at_ = g.frag.parent → p.aux % 2 ^ 18 = noRank → k.unacked.any (fun x => x.rank == noRank) = true →
      (∀ x ∈ g.chunks, x.slot = true ∧ x.combined = true) →
      exec (.pack port p) s = .next (onChunk gid k.epoch k.call k.chunk (fun x => { x with unacked := [], inputs := [], slot := false })
        (letGo (inputBufs k ++ k.unacked.flatMap (·.bufs)) (taken port p s))))
    ∧ (g.frag.isRoot = false → at_ = g.frag.parent → p.aux % 2 ^ 18 ≠ noRank →
      exec (.pack port p) s = .next (onChunk gid k.epoch k.call k.chunk (fun x => { x with
          unacked := x.unacked.filter (fun y => y.rank != p.aux % 2 ^ 18), inputs := x.inputs.filter (fun y => y.rank != p.aux % 2 ^ 18) })
        (letGo ((k.inputs.filter (fun y => y.rank == p.aux % 2 ^ 18)).flatMap (·.bufs)) (taken port p s))))
    ∧ (∀ x, downSrc g (ccEpoch b) at_ = some x → k.sealed = false → ccDeliv b = k.deliv → x ∈ downSrcs g k →
      (∀ y ∈ g.chunks, y.slot = true) → g.passes ≤ 1 →
      ∃ t g' k', exec (.rack port p) s = .next t ∧ getGroup t gid = some g'
        ∧ findChunk g' (ccEpoch b) (ccCall b) (ccChunk b) = some k' ∧ x ∈ k'.racked
        ∧ (k.resultAt ≠ none → k.rackSent = false → k.nakSent = false → k.resultWhole = true →
            (∀ y ∈ downSrcs g k, y ∈ k.racked ∨ y = x) →
            (g.frag.isRoot = true → k'.sealDue = true ∧ k'.rackDeadline = none)
            ∧ (g.frag.isRoot = false → k'.rackSent = true ∧ k'.result = [] ∧ k'.resultBufs = [])))
    ∧ (g.frag.isRoot = false → at_ = g.frag.parent → k.sealed = false → bitAt b 22 = false → ccDeliv b = k.deliv → k.resultWhole = true →
      ∃ t g' k', exec (.sealPkt port p) s = .next t ∧ getGroup t gid = some g'
        ∧ findChunk g' (ccEpoch b) (ccCall b) (ccChunk b) = some k' ∧ k'.sealed = true ∧ k'.sealedAt = s.tide.now
        ∧ k'.inputs = [] ∧ k'.taking = [] ∧ k'.result = [])
    ∧ (g.frag.isRoot = false → at_ = g.frag.parent → k.sealed = false → k.deliv < ccDeliv b →
      ∃ t g' k', exec (.revoke port p) s = .next t ∧ getGroup t gid = some g'
        ∧ findChunk g' (ccEpoch b) (ccCall b) (ccChunk b) = some k' ∧ k'.deliv = ccDeliv b ∧ k'.racked = [] ∧ k'.result = []
        ∧ k'.resultWhole = false ∧ k'.recovered = true))
  ∧ (∀ (s : State) (g : Group) (k : Chunk), getGroup s g.frag.group = some g → findChunk g k.epoch k.call k.chunk = some k →
    g.frag.isRoot = true →
    ∃ g' k', getGroup (sealNow g k s) g.frag.group = some g' ∧ findChunk g' k.epoch k.call k.chunk = some k' ∧ k'.sealed = true
      ∧ k'.sealedAt = s.tide.now ∧ k'.inputs = [] ∧ k'.result = [] ∧ k'.slot = false)
  ∧ (∀ (s : State) (gid e n c : Nat) (g : Group) (k : Chunk), engineOn s = true → getGroup s gid = some g →
    findChunk g e n c = some k → k.sealed = true → k.sealedAt + 200000 ≤ s.tide.now →
    ∃ t g', exec (.chunkBitmapExpiry gid e n c) s = .next t ∧ getGroup t gid = some g' ∧ findChunk g' e n c = none
      ∧ (∀ e' n' c', (e', n', c') ≠ (e, n, c) → findChunk g' e' n' c' = findChunk g e' n' c'))

/-- Recovery (R119, R126, R127, R131): a NAK at the root withdraws the delivery under the next DELIV, at another Q7 goes on to
the parent, and for a partial brings it again, as 12 µs without PACK do; a wait that times out fails the call at the root, and
elsewhere sends MISSING to the parent. -/
def Obligations.RecoveryAndTimeouts : Prop :=
  (∀ (s : State) (port : Nat) (p : Packet) (g : Group),
    let b := p.ctl
    let gid := ccGroup b
    let at_ := planPort s g port p
    engineFor s port p = true → getGroup s gid = some g → groupLive g = true → g.frag.group = gid →
    (ccLast b = true → downSrc g (ccEpoch b) at_ ≠ none → g.frag.isRoot = false →
      exec (.nak port p) s = .next (sendChunk vcCTRL (farEpid s g.frag.parent) p.job (p.aux % 2 ^ 18) 0x4D gid (ccEpoch b) (ccCall b)
        (ccChunk b) (fld b 31 0) (taken port p s)))
    ∧ (∀ k, ccLast b = true → downSrc g (ccEpoch b) at_ ≠ none → g.frag.isRoot = true →
      findChunk g (ccEpoch b) (ccCall b) (ccChunk b) = some k → k.sealed = false → ccDeliv b = k.deliv → k.deliv < 15 → k.resultAt ≠ none →
      (∀ y ∈ g.chunks, y.slot = true) → g.passes ≤ 1 →
      ∃ t g' k', exec (.nak port p) s = .next t ∧ getGroup t gid = some g'
        ∧ findChunk g' (ccEpoch b) (ccCall b) (ccChunk b) = some k' ∧ k'.deliv = k.deliv + 1 ∧ k'.recovered = true ∧ k'.racked = [])
    ∧ (ccLast b = false → at_ = g.frag.parent →
      exec (.nak port p) s = .next (resendPartial gid (ccEpoch b) (ccCall b) (ccChunk b) (fun _ => true) (taken port p s))))
  ∧ (∀ (s : State) (gid e n c : Nat) (g : Group) (k : Chunk), engineOn s = true → getGroup s gid = some g → findChunk g e n c = some k →
    (k.unacked ≠ [] → (∀ x ∈ k.unacked, x.at_ + 12000 ≤ s.tide.now) →
      ∃ t g' k', exec (.partialResendTimeout gid e n c) s = .next t ∧ getGroup t gid = some g' ∧ findChunk g' e n c = some k'
        ∧ k'.recovered = true ∧ k'.unacked = k.unacked.map (fun x => { x with at_ := s.tide.now, on_ := [] }) ∧ t.route.outbox.length = s.route.outbox.length + k.unacked.length)
    ∧ (∀ d, groupLive g = true → k.inDeadline = some d → d ≤ s.tide.now → k.combined = false →
      (inputsMissing g k = false → exec (.chunkWaitTimeout gid e n c) s = .next (onChunk gid e n c (fun x => { x with inDeadline := none }) s))
      ∧ (g.frag.isRoot = true → inputsMissing g k = true → (∀ y ∈ g.chunks, y.slot = true) → g.passes ≤ 1 →
        ∃ t g', exec (.chunkWaitTimeout gid e n c) s = .next t ∧ getGroup t gid = some g' ∧ callFailed g' e n = true)
      ∧ (g.frag.isRoot = false → inputsMissing g k = true →
        exec (.chunkWaitTimeout gid e n c) s = .next (sendChunk vcCTRL (farEpid s g.frag.parent) k.job (lowest (missingRanks g k)) 0x4E gid e n c 0
          (endWait gid e n c false true (lowest (missingRanks g k)) 0 (onChunk gid e n c (fun x => { x with inDeadline := none }) s)))))
    ∧ (∀ d x, groupLive g = true → k.rackDeadline = some d → d ≤ s.tide.now → k.sealed = false → x ∈ downSrcs g k → x ∉ k.racked →
      (g.frag.isRoot = true → (∀ y ∈ g.chunks, y.slot = true) → g.passes ≤ 1 →
        ∃ t g', exec (.rackWaitTimeout gid e n c) s = .next t ∧ getGroup t gid = some g' ∧ callFailed g' e n = true)
      ∧ (g.frag.isRoot = false →
        ∃ u, exec (.rackWaitTimeout gid e n c) s = .next (sendChunk vcCTRL (farEpid s g.frag.parent) k.job (lowest (missingRackRanks g k))
              0x4E gid e n c (lowWord 0 false false k.deliv true) u)
          ∧ u.groups = (onChunk gid e n c (fun y => { y with rackDeadline := none }) s).groups)))

/-- TABLE_INSTALL and SHARD_MAP (R143, R144, R159, R179, R268): a record that breaks a check answers BAD, a Cove outside the
function's DENIED, one that does not fit NO_RESOURCE; otherwise the table stands LOADING with the record's fields, A at
FIRST_STEP − 1 and every row zero, or the map is replaced whole. Table states (R178, R182): TABLE_SET changes the six
hyperparameters and the Rockpool share alone, and lines beyond the share go; QUIESCE waits in QUIESCING until nothing is in
flight; RESUME returns to ACTIVE; DESTROY ends what waits, after the apply that runs, and frees the table when its last work has
gone. -/
def Obligations.TablesAreInstalledAndChanged : Prop :=
  ((∀ (s : State) (r i : Nat) (d : Desc) (data : List Byte), Ready s r i 0x38 d →
     let tid := fld d.op 15 0
     let x := recOf data
     let bad : Prop := onlyBits d.op [(383, 320), (319, 288), (15, 0)] = false ∨ fld d.op 383 320 % 32 ≠ 0 ∨ fld d.op 319 288 ≠ 128
       ∨ x.table ≠ tid ∨ recOk s x data = false ∨ x.cove ∉ s.mem.coves ∨ getTable s tid ≠ none
     let new : Table := {
       info := x, state := .loading, applied := (x.firstStep + 2 ^ 32 - 1) % 2 ^ 32, bytes := tableHbm x }
     let fits := hbmFits (onEmb (fun e => { e with tables := mput e.tables tid new }) s)
     ringBehind s (5, tid) d.ring = false → tableBehind s d.op = false →
     (bad → exec (.tableInstall r i data) s = .next (answer d 0x09 0 s))
     ∧ (¬ bad → coveAllowed s d.func x.cove = false → exec (.tableInstall r i data) s = .next (answer d 0x05 0 s))
     ∧ (¬ bad → coveAllowed s d.func x.cove = true → fits = false → exec (.tableInstall r i data) s = .next (answer d 0x08 0 s))
     ∧ (¬ bad → coveAllowed s d.func x.cove = true → fits = true → tableMust s d.op = false →
       ∃ t, exec (.tableInstall r i data) s = .next (answer d 0x00 0 t) ∧ getTable t tid = some new
         ∧ (∀ q, q ≠ tid → getTable t q = getTable s q) ∧ t.host = s.host ∧ t.groups = s.groups ∧ t.mem = s.mem
         ∧ (∀ sp row, ∀ b ∈ rowBytes new sp row, b = 0)))
   ∧ (∀ (s : State) (r i : Nat) (d : Desc) (data : List Byte), Ready s r i 0x40 d → ringBehind s (6, leAt data 4 2) d.ring = false →
     mapBehind s (leAt data 4 2) = false → mapMust s (leAt data 4 2) = false →
     let l := leAt data 4 2
     let m : ShardMap := {
       ltid := l, imode := byteAt data 6, dim := leAt data 8 2, cove := leAt data 12 2, lrows := leAt data 16 8,
       seed := leAt data 24 8, shards := mapEntries data (leAt data 10 2) }
     let maps := mput s.emb.maps l m
     exec (.shardMap r i data) s = .next (
       if onlyBits d.op [(383, 320), (319, 288)] = false ∨ fld d.op 383 320 % 32 ≠ 0 ∨ mapOk s data (fld d.op 319 288) = false then
         answer d 0x09 0 s
       else if coveAllowed s d.func m.cove = false then answer d 0x05 0 s
       else if 4096 < maps.length ∨ 262144 < sumOf maps (fun e => e.2.shards.length) then answer d 0x08 0 s
       else answer d 0x00 0 (noteWrote (6, l) d.ring (onEmb (fun e => { e with
         maps := maps, mapTags := mput e.mapTags l ((mgetD e.mapTags l 0 + 1) % 16) }) s)))))
  ∧ ((∀ (s : State) (r i : Nat) (d : Desc) (tb : Table),
     let tid := fld d.op 15 0
     getTable s tid = some tb → fld d.op 383 320 % 32 = 0 → coveAllowed s d.func tb.info.cove = true → ringBehind s (5, tid) d.ring = false →
     tableBehind s d.op = false → tableMust s d.op = false →
     (∀ data, Ready s r i 0x3C d → onlyBits d.op [(15, 0), (383, 320), (319, 288)] = true →
       let x := recOf data
       exec (.tableSet r i data) s = .next (
         if tb.state = .failed ∨ tb.state = .free then answer d 0x0B 0 s
         else if fld d.op 319 288 ≠ 128 ∨ isFmt x.rfmt = false ∨ 64 < x.rpShare ∨ hyperOk x tb.info.opt = false then answer d 0x09 0 s
         else
           let n := { tb.info with
             lr := x.lr, mu := x.mu, beta1 := x.beta1, beta2 := x.beta2, eps := x.eps, wd := x.wd, rpShare := x.rpShare }
           answer d 0x00 0 (noteWrote (5, tid) d.ring (tableBump d.op (rpTrim n (onTable tid (fun t => { t with info := n }) s))))))
     ∧ (Ready s r i 0x3D d → onlyBits d.op [(15, 0)] = true →
       (tb.state ≠ .active → exec (.tableQuiesce r i) s = .next (answer d 0x0B 0 s))
       ∧ (tb.state = .active → ∃ t tb' e, exec (.tableQuiesce r i) s = .next t ∧ getTable t tid = some tb'
         ∧ tb' = { tb with state := .quiescing, quiescer := some (r, i) } ∧ findDesc t r i = some e ∧ e.stage = .draining))
     ∧ (Ready s r i 0x3E d → onlyBits d.op [(15, 0)] = true →
       (atRest tb = false → exec (.tableResume r i) s = .next (answer d 0x0B 0 s))
       ∧ (atRest tb = true → tb.sched = none →
         exec (.tableResume r i) s = .next (answer d 0x00 0 (noteWrote (5, tid) d.ring (tableBump d.op (onTable tid (fun t => { t with state := .active }) s))))))
     ∧ (Ready s r i 0x3F d → onlyBits d.op [(15, 0)] = true → tb.state ≠ .destroying → tb.quiescer ≠ some (r, i) →
       (∀ c, tb.sched = some c → c.begun = true →
         ∃ t tb' e, exec (.tableDestroy r i) s = .next t ∧ getTable t tid = some tb' ∧ tb'.state = .destroying ∧ tb'.sched = some c
           ∧ tb'.waiting = tb.waiting ∧ (r, i) ∈ tb'.destroyers ∧ findDesc t r i = some e ∧ e.stage = .draining)
       ∧ ((∀ c, tb.sched = some c → c.begun = false ∧ c.desc ≠ some (r, i)) →
       ∃ t tb' e, exec (.tableDestroy r i) s = .next t ∧ getTable t tid = some tb' ∧ tb'.state = .destroying ∧ tb'.sched = none
         ∧ tb'.waiting = [] ∧ (r, i) ∈ tb'.destroyers ∧ findDesc t r i = some e ∧ e.stage = .draining)))
   ∧ (∀ (s : State) (tid : Nat) (tb : Table), regsLive s = true → getTable s tid = some tb → tableQuiet s tb = true →
     (tb.state = .quiescing →
       (∀ ri, tb.quiescer = some ri → exec (.tableQuiesced tid) s = .next (finishDesc ri 0x00 0
         (onTable tid (fun t => { t with quiescer := none }) (onTable tid (fun t => { t with state := .quiesced }) s))))
       ∧ (tb.quiescer = none → exec (.tableQuiesced tid) s = .next (onTable tid (fun t => { t with state := .quiesced }) s)))
     ∧ (tb.state = .destroying → ∃ u, exec (.tableDestroyDone tid) s = .next (forAll tb.destroyers (fun ri => finishDesc ri 0x00 0) u)
         ∧ getTable u tid = none ∧ (∀ q, q ≠ tid → getTable u q = getTable s q)
         ∧ (∀ e ∈ u.emb.rockpool, e.2.table ≠ tid))))

/-- TABLE_WRITE, TABLE_READ and TABLE_QUERY (R165, R179, R180): rows move in LOADING and QUIESCED; a write sets exactly the rows
named, as rows are stored, and drops their cached copies; a read writes the rows, a query the record with A, at ADDR. -/
def Obligations.TableRowsAreWrittenAndRead : Prop :=
  ∀ (s : State) (r i : Nat) (d : Desc) (tb : Table),
    let tid := fld d.op 15 0
    let sp := fld d.op 119 118
    let first := fld d.op 191 152
    let n := fld d.op 151 120
    let st := spaceStride tb.info sp
    getTable s tid = some tb → fld d.op 383 320 % 32 = 0 → coveAllowed s d.func tb.info.cove = true →
    (∀ data, Ready s r i 0x39 d → onlyBits d.op [(15, 0), (383, 320), (319, 288), (191, 152), (151, 120), (119, 118)] = true →
      (atRest tb = false → exec (.tableWrite r i data) s = .next (answer d 0x0B 0 s))
      ∧ (atRest tb = true → rowsOk tb d.op = false → exec (.tableWrite r i data) s = .next (answer d 0x09 0 s))
      ∧ (atRest tb = true → rowsOk tb d.op = true → tb.info.rows ≤ 2 ^ 40 → tb.info.dim ≤ 1024 →
        ∃ t tb', exec (.tableWrite r i data) s = .next (answer d 0x00 0 t) ∧ getTable t tid = some tb'
          ∧ tb'.info = tb.info ∧ tb'.state = tb.state ∧ tb'.applied = tb.applied ∧ tb'.shadow = tb.shadow
          ∧ (∀ k, k < n → rowBytes tb' sp (first + k) = normRow tb.info sp (sliceB data (k * st) st))
          ∧ (∀ row, row < 2 ^ 40 → row < first ∨ first + n ≤ row → rowBytes tb' sp row = rowBytes tb sp row)
          ∧ (∀ q, q < 4 → q ≠ sp → spaceOf tb' q = spaceOf tb q)
          ∧ (∀ q, q ≠ tid → getTable t q = getTable s q)
          ∧ (sp = 0 → ∀ e ∈ t.emb.rockpool, e.2.table = tid → e.2.row < first ∨ first + n ≤ e.2.row)))
    ∧ (Ready s r i 0x3A d → onlyBits d.op [(15, 0), (383, 320), (319, 288), (191, 152), (151, 120), (119, 118)] = true →
      exec (.tableRead r i) s = .next (
        if atRest tb = false then answer d 0x0B 0 s
        else if rowsOk tb d.op = false then answer d 0x09 0 s
        else answer d 0x00 0 (countN (kDie tb.info.die iHBM_RD) (n * st)
          (hostWrite d.func (fld d.op 383 320) ((List.range n).flatMap (fun k => rowBytes tb sp (first + k))) s))))
    ∧ (Ready s r i 0x41 d → onlyBits d.op [(15, 0), (383, 320), (319, 288)] = true →
      exec (.tableQuery r i) s = .next (
        if fld d.op 319 288 < 128 then answer d 0x09 0 s
        else answer d 0x00 0 (hostWrite d.func (fld d.op 383 320) (recBytes tb.info tb.applied) s)))

/-- The apply (R172 to R175, R178): one asked for ahead of its Tidemark is kept; at the Tidemark, once every admitted bag of the
step has ended, every touched row is updated once, the shadow pool is empty, A is the step, and an overflowed pool leaves every
row as it was. -/
def Obligations.ApplyRunsAtItsTidemark : Prop :=
  (∀ (s : State) (r i : Nat) (d : Desc) (tb : Table),
    let tid := fld d.op 15 0
    let step := fld d.op 287 256
    Ready s r i 0x3B d → getTable s tid = some tb → onlyBits d.op [(15, 0), (287, 256), (255, 192)] = true →
    coveAllowed s d.func tb.info.cove = true →
    (tb.state ≠ .active → exec (.tableApply r i) s = .next (answer d 0x0B 0 s))
    ∧ (tb.state = .active → applyBad tb step = true → exec (.tableApply r i) s = .next (answer d 0x09 0 s))
    ∧ (tb.state = .active → applyBad tb step = false → s.tide.now < fld d.op 255 192 →
      ∃ t e, exec (.tableApply r i) s = .next t ∧ findDesc t r i = some e ∧ e.stage = .scheduled
        ∧ getTable t tid = some { tb with sched := some { step := step, mark := fld d.op 255 192, desc := some (r, i), fixed := s.stop.frozen } }))
  ∧ (∀ (s : State) (port : Nat) (p : Packet) (tb : Table),
    let tid := ecTable p.ctl
    engineFor s port p = true → 768 ≤ port ∨ isFabric s port = true ∨ bindOf s port ≠ none → getTable s tid = some tb →
    tb.state = .active → tb.info.owner = some p.src → applyBad tb (ecStep p.ctl) = false → s.tide.now < fld p.ctl 71 8 →
    exec (.applyReq port p) s = .next (onTable tid (fun t => { t with
      sched := some { step := ecStep p.ctl, mark := fld p.ctl 71 8, job := p.job } }) (taken port p s)))
  ∧ (∀ (s : State) (tid : Nat) (tb : Table) (c : Sched), engineOn s = true → regsLive s = true → getTable s tid = some tb →
    tb.sched = some c → c.mark ≤ s.tide.now → paReady s tid = true → tb.state = .active ∨ tb.state = .quiescing → tb.waiting = [] →
    (hasShardBags s tid = true → ∃ t tb', exec (.tableApplyTidemark tid) s = .next t ∧ getTable t tid = some tb'
      ∧ tb' = { tb with sched := some { c with begun := true, hyper := some tb.info } })
    ∧ (hasShardBags s tid = false → ∃ t tb', exec (.tableApplyTidemark tid) s = .next t ∧ getTable t tid = some tb'
      ∧ tb'.applied = c.step ∧ tb'.sched = none ∧ tb'.shadow = [] ∧ tb'.windows = [] ∧ tb'.overflowed = false ∧ tb'.state = tb.state
      ∧ tb'.info = adamPowers tb.info
      ∧ (tb.overflowed = true → ∀ sp, spaceOf tb' sp = spaceOf tb sp)
      ∧ (tb.overflowed = false → ∀ sp, spaceOf tb' sp =
          spaceOf (tb.shadow.foldl (fun t x => applyRow x.1 x.2 t) { tb with info := adamPowers tb.info }) sp)
      ∧ (∀ q, q ≠ tid → getTable t q = getTable s q)))

/-- A BAG in one packet (R149, R150, R153, R155, R156, R172): admitted, in range and of the stated length, it is answered by the
POOLED elements of its rows, and the table's rows, shadow pool and windows stay as they were; refused, by EMB_FAIL. -/
def Obligations.BagIsPooledAndAnswered : Prop :=
  ∀ (s : State) (port : Nat) (p : Packet) (tb : Table),
    let b := p.sub
    let tid := emTable b
    let bufs := deliveredAt s port p
    let fails (st : Nat) : Prop := ∃ u, exec (.bag port p) s = .next (freeAll bufs (builtOn tb.info.die
        (originate (embCtl 0x51 tid (emStep b) (emBag b) st none false false p.src p.job)) u))
      ∧ u.route = (takeDelivered port p s).route ∧ u.groups = s.groups ∧ u.emb.tables = s.emb.tables
    engineFor s port p = true → emCodesOk b = true → emKind b = ekBAG → emSplit b = false → portDenies s port p = false →
    p.dst = selfEpid s → paReady s tid = true → embFits s tb.info.die bufs = true → bagWaits s p = false → emPiece b = 0 → emLast b = true →
    (∀ x ∈ s.emb.streams, sameStream p.src b x = false) → getTable s tid = some tb →
    (∀ st, tableStatus (some tb) = some st → fails st)
    ∧ (tb.state = .active → coveOf s port p ≠ tb.info.cove → fails 0x05)
    ∧ (tb.state = .active → coveOf s port p = tb.info.cove → emDim b ≠ tb.info.dim ∨ 4096 < emNidx b ∨ p.data.length ≠ emLen b → fails 0x09)
    ∧ (tb.state = .active → coveOf s port p = tb.info.cove → emDim b = tb.info.dim → emNidx b ≤ 4096 → p.data.length = emLen b →
      (∀ st, admission tb (emStep b) = .refuse st → fails st)
      ∧ (admission tb (emStep b) = .pass →
        (allSome ((emIndices b p.data).map (translate tb.info.imode tb.info.rows tb.info.seed)) = none → fails 0x09)
        ∧ (∀ rows, allSome ((emIndices b p.data).map (translate tb.info.imode tb.info.rows tb.info.seed)) = some rows →
          ∃ u, exec (.bag port p) s = .next (builtOn tb.info.die (fun v => freeAll bufs (emit {
              kind := ekPOOLED, pool := emPool b, w96 := emW96 b, vfmt := emVfmt b, table := tid, step := emStep b, bag := emBag b,
              nidx := emNidx b, ntot := emNtot b, dim := tb.info.dim, empty := rows.isEmpty,
              recovered := touchedNow s tb (poolArray s tb) }
            ((poolBag tb.info b (bagTerms tb.info (rows.map (rowBytes tb 0)) (emWeights b p.data))).flatMap
              (bytesLE (elemSize (emVfmt b)))) p.src p.job v)) u)
            ∧ getTable u tid = some { tb with touched := [], served := tb.served + 1 } ∧ (∀ q, q ≠ tid → getTable u q = getTable s q)
            ∧ u.route = (takeDelivered port p s).route ∧ u.groups = s.groups)))

/-- A gradient (R166 to R170): a GRAD or SUB_GRAD in one packet adds its terms to the shadow pool once and is acknowledged; one
already answered changes no shadow value and is answered as before; a shadow pool without room answers NO_RESOURCE. -/
def Obligations.GradientIsAddedOnce : Prop :=
  ∀ (s : State) (port : Nat) (p : Packet) (tb : Table),
    let b := p.sub
    let tid := emTable b
    let bufs := deliveredAt s port p
    let takes (kind : Nat) (out : Host.Outcome State Fault Refusal) : Prop :=
    emKind b = kind → engineFor s port p = true → emCodesOk b = true → emSplit b = false → portDenies s port p = false →
    p.dst = selfEpid s → paReady s tid = true → embFits s tb.info.die bufs = true → bagWaits s p = false → emPiece b = 0 → emLast b = true →
    (∀ x ∈ s.emb.streams, sameStream p.src b x = false) → getTable s tid = some tb →
    tb.state = .active → coveOf s port p = tb.info.cove → emDim b = tb.info.dim → emNidx b ≤ 4096 → tb.info.opt ≠ 0 →
    p.data.length = emLen b → admission tb (emStep b) = .pass →
    (∀ st, (bagWin tb p.src).marks.find? (fun m => m.1 == emBag b) = some (emBag b, st) →
      ∃ t tb', out = .next t ∧ getTable t tid = some tb' ∧ tb' = tb)
    ∧ ((bagWin tb p.src).marks.find? (fun m => m.1 == emBag b) = none → emBag b < (bagWin tb p.src).base + 256 →
      ∀ rows, allSome ((emIndices b p.data).map (translate tb.info.imode tb.info.rows tb.info.seed)) = some rows →
      let g := match floatFmt (emVfmt b) with
        | some f => (elems (elemSize (emVfmt b)) (p.data.take (emHead b))).map (decodeF f)
        | none => []
      let ts := gradTerms tb.info b g (emWeights b p.data) (rows.map (rowBytes tb 0))
      let adds := (rows.zip ts).filter (fun y => y.2.any Option.isSome)
      let fresh := distinct ((adds.map (·.1)).filter (fun y => (mget tb.shadow y).isNone))
      (tb.info.shadowRows < tb.shadow.length + fresh.length →
        ∃ t tb', out = .next t ∧ getTable t tid = some tb' ∧ tb'.overflowed = true ∧ tb'.shadow = tb.shadow)
      ∧ (tb.shadow.length + fresh.length ≤ tb.info.shadowRows →
        ∃ u, out = .next (builtOn tb.info.die (fun v => freeAll bufs (originate
            (embCtl 0x50 tid (emStep b) (emBag b) 0 none false (touchedNow s tb (poolArray s tb)) p.src p.job) v)) u)
          ∧ getTable u tid = some { tb with
              touched := [], served := tb.served + 1,
              shadow := adds.foldl (fun m y => mput m y.1 (addTerms (mgetD m y.1 (List.replicate tb.info.dim (.fin 0))) y.2)) tb.shadow,
              windows := tb.windows.filter (fun w => w.src != p.src) ++ [markBag (emBag b) 0x00 (bagWin tb p.src)] }
          ∧ (∀ q, q ≠ tid → getTable u q = getTable s q) ∧ u.route = (takeDelivered port p s).route ∧ u.groups = s.groups))
    takes ekGRAD (exec (.grad port p) s) ∧ takes ekSUB_GRAD (exec (.subGrad port p) s)

/-- A SPLIT bag or gradient at its home (R159, R160, R171, R295): every index of the bag goes in exactly one part, to the shard
whose range holds its logical row, and a part goes to each shard so named and no other. A SUB_BAG at its shard (R160 steps 4 and
6): under MAX it is answered with its order keys; otherwise its rows are kept and its exponent reported, and EXP_DOWN_E brings
the answer at the home's window exponent. -/
def Obligations.SplitBagsAndTheirShards : Prop :=
  (∀ (s : State) (port : Nat) (p : Packet) (m : ShardMap) (rows : List Nat),
     let b := p.sub
     let bufs := deliveredAt s port p
     let die := splitDie s port p
     let u := (gather die p.src p.job port p bufs (takeDelivered port p s)).1
     let ks := (List.range m.shards.length).filter (fun k => rows.any (fun y => shardIndex m.shards y == k))
     let goes (grad : Bool) (out : Host.Outcome State Fault Refusal) : Prop :=
     engineFor s port p = true → emCodesOk b = true → emSplit b = true → portDenies s port p = false → p.dst = selfEpid s →
     embFits s die bufs = true → emPiece b = 0 → emLast b = true → (∀ x ∈ s.emb.streams, sameStream p.src b x = false) →
     findHome s p.src grad (emTable b) (emStep b) (emBag b) = none → mget s.emb.maps (emTable b) = some m → m.shards ≠ [] →
     coveOf s port p = m.cove → emDim b = m.dim → emNidx b ≤ 4096 → p.data.length = emLen b →
     allSome ((emIndices b p.data).map (translate m.imode m.lrows m.seed)) = some rows → rows ≠ [] →
     embUsed u die + (if grad = true then 0 else ks.length * subRoom (emDim b) (emW96 b)) ≤ s.shoal.cfg.embRes * 256 →
     (grad = true → ks.all (fun k => subGradRoom s (nth m.shards k (0, 0, 0)) (emStep b)) = true) →
     ∃ t h, out = .next t ∧ findHome t p.src grad (emTable b) (emStep b) (emBag b) = some h
       ∧ h.works.map (·.shard) = ks ∧ h.shards = m.shards ∧ h.expSent = false ∧ h.n = emNidx b
       ∧ (∀ w ∈ h.works, w.sums = none ∧ w.acked = false ∧ w.sentAt = s.tide.now
           ∧ ∀ j, j ∈ w.positions ↔ j < rows.length ∧ shardIndex m.shards (nth rows j 0) = w.shard)
       ∧ (∀ j, j < rows.length → ∃ w ∈ h.works, j ∈ w.positions)
       ∧ t.route.outbox.length = s.route.outbox.length + sumOf h.works (fun w => w.pkts.length)
       ∧ t.emb.tables = s.emb.tables ∧ t.groups = s.groups
     (emKind b = ekBAG → goes false (exec (.splitBag port p) s))
     ∧ (emKind b = ekGRAD → emPool b ≠ poMAX → emBag b < (homeWin s (emTable b) (emStep b) p.src).base + 256 →
       (homeWin s (emTable b) (emStep b) p.src).marks.find? (fun y => y.1 == emBag b) = none → goes true (exec (.splitGrad port p) s)))
  ∧ ((∀ (s : State) (port : Nat) (p : Packet) (tb : Table) (rows : List Nat),
     let b := p.sub
     let tid := emTable b
     let bufs := deliveredAt s port p
     let raw := rows.map (rowBytes tb 0)
     let terms := bagTerms tb.info raw (emWeights b p.data)
     engineFor s port p = true → emCodesOk b = true → emKind b = ekSUB_BAG → portDenies s port p = false → p.dst = selfEpid s →
     paReady s tid = true → embFits s tb.info.die bufs = true → bagWaits s p = false → emPiece b = 0 → emLast b = true →
     (∀ x ∈ s.emb.streams, sameStream p.src b x = false) → (∀ x ∈ s.emb.shardBags, sameBag p.src b x = false) →
     getTable s tid = some tb → tb.state = .active → coveOf s port p = tb.info.cove → emDim b = tb.info.dim → emNidx b ≤ 4096 →
     p.data.length = emLen b → admission tb (emStep b) = .pass →
     allSome ((emIndices b p.data).map (translate tb.info.imode tb.info.rows tb.info.seed)) = some rows →
     (emPool b = poMAX → ∃ u, exec (.subBag port p) s = .next (builtOn tb.info.die (fun v => freeAll bufs (emit {
           kind := ekSUB_POOLED, pool := poMAX, w96 := emW96 b, vfmt := 0, table := tid, step := emStep b, bag := emBag b,
           nidx := emNidx b, ntot := emNtot b, dim := tb.info.dim } (winBytes (emW96 b) (poolKeys tb.info terms)) p.src p.job v)) u)
         ∧ u.emb.shardBags = s.emb.shardBags ∧ u.emb.tables = s.emb.tables ∧ u.route = (takeDelivered port p s).route)
     ∧ (emPool b ≠ poMAX → ∃ u y, exec (.subBag port p) s =
           .next (builtOn tb.info.die (originate (embCtl 0x53 tid (emStep b) (emBag b) 0 (termsExp terms) (termsExp terms).isNone false
             p.src p.job)) u)
         ∧ u.emb.shardBags = s.emb.shardBags ++ [y] ∧ y.src = p.src ∧ y.rows = raw ∧ y.stream.sub = b ∧ y.stream.bytes = p.data
         ∧ y.stream.job = p.job ∧ u.emb.tables = s.emb.tables ∧ u.route = (takeDelivered port p s).route))
   ∧ (∀ (s : State) (port : Nat) (p : Packet) (tb : Table) (x : ShardBag),
     let b := p.ctl
     let k := x.stream.sub
     let e := toSigned 12 (fld b 31 20)
     engineFor s port p = true → getTable s (ecTable b) = some tb → (∀ c, tb.sched = some c → c.begun = false) →
     s.emb.shardBags.find? (fun x => x.src == p.src && emTable x.stream.sub == ecTable b && emStep x.stream.sub == ecStep b
       && emBag x.stream.sub == ecBag b) = some x →
     exec (.expDownE port p) s = .next (dropShardBag x.src k (builtOn tb.info.die (emit {
         kind := ekSUB_POOLED, pool := emPool k, w96 := emW96 k, table := ecTable b, step := emStep k, bag := emBag k,
         nidx := emNidx k, ntot := emNtot k, exp := e, dim := tb.info.dim }
       (winBytes (emW96 k) (sumTerms tb.info.dim (emW96 k) e (bagTerms tb.info x.rows (emWeights k x.stream.bytes)))) x.src x.stream.job)
       (taken port p s)))))

/-- The shards' answers at the home (R160 steps 5 and 7, R162, R170, R171): the last exponent sends E to every shard, the last
SUB_POOLED has the bag rounded once and answered, the last GRAD_ACK acknowledges the gradient, EMB_FAIL fails it whole, and the
number of a part that R153 refused is sent again. Waits of a home and Rockpool's decay (R162, R164, R171): a part without answer
for 100 µs goes again with RESEND; a bag's part that has timed out three times fails the bag with TIMEOUT, a gradient's goes
again; the decay, once in each 1 ms of Tide, halves every hit counter. -/
def Obligations.HomeGathersItsShards : Prop :=
  (∀ (s : State) (port : Nat) (p : Packet) (h : HomeBag) (w : SubWork), engineFor s port p = true →
     (findWork s p.src (ecTable p.ctl) (ecStep p.ctl) (ecBag p.ctl) = some (h, w) →
       let v : Option Int := if bitAt p.ctl 19 then none else some (toSigned 12 (fld p.ctl 31 20))
       let works := h.works.map (fun y => if y.shard == w.shard then { y with exp := some v } else y)
       let h₁ := { h with works := works, expSent := true }
       let acks := h.works.map (fun y => if y.shard == w.shard then { y with acked := true } else y)
       let h₂ := { h with works := acks, recovered := h.recovered || bitAt p.ctl 18 }
       let h₃ := { h with works := acks }
       let st := fld p.ctl 39 32
       (h.expSent = false → works.all (fun y => y.exp.isSome) = true →
         exec (.expUpE port p) s = .next (forAll h.works (fun y => builtOn h.die (originate (embCtl 0x54 (shardOfWork h y).2.2 h.step y.subId 0
           (some (homeExp h₁)) false false (shardOfWork h y).2.1 h.job))) (onHome h (fun _ => h₁) (taken port p s))))
       ∧ (h.expSent = false → works.all (fun y => y.exp.isSome) = false →
         exec (.expUpE port p) s = .next (onHome h (fun _ => { h with works := works }) (taken port p s)))
       ∧ (h.isGrad = true → w.acked = false → exec (.gradAck port p) s = .next (
           if acks.all (·.acked) = true then ackHome h₂ (onHome h (fun _ => h₂) (taken port p s))
           else onHome h (fun _ => h₂) (taken port p s)))
       ∧ exec (.embFail port p) s = .next (failHome h₃ st (onHome h (fun _ => h₃) (
           if ecBag p.ctl < 2 ^ 31 ∧ ¬ (st = 0x09 ∨ st = 0x08) then onEmb (fun e => { e with
             subFree := e.subFree ++ [(p.src, ecTable p.ctl, ecStep p.ctl, ecBag p.ctl)] }) (taken port p s)
           else taken port p s))))
     ∧ (findWork s p.src (emTable p.sub) (emStep p.sub) (emBag p.sub) = some (h, w) → subPooledOk p.sub = true → w.sums = none →
       emPiece p.sub = 0 → emLast p.sub = true → p.data.length = emDim h.sub * winSize (emW96 h.sub) →
       (∀ x ∈ s.emb.streams, sameStream p.src p.sub x = false) →
       let works := h.works.map (fun y => if y.shard == w.shard then { y with sums := some (winsOf (emW96 h.sub) p.data) } else y)
       let h₁ := { h with works := works }
       ∃ u, u.emb = s.emb ∧ u.route = (takeDelivered port p s).route ∧ u.groups = s.groups
         ∧ exec (.subPooled port p) s = .next (
           if works.all (fun y => y.sums.isSome) = true then
             answerHome h₁ ((homeElems h₁).flatMap (bytesLE (elemSize (emVfmt h.sub)))) false (onHome h (fun _ => h₁) u)
           else onHome h (fun _ => h₁) u)))
  ∧ ((∀ (s : State) (src ltid step bag shard : Nat) (h : HomeBag) (w : SubWork) (grad : Bool),
     findHome s src grad ltid step bag = some h → h.works.find? (fun x => x.shard == shard) = some w → engineOn s = true →
     w.sentAt + 100000 ≤ s.tide.now → w.sums = none → w.acked = false →
     let again := sendWork h w true (onWork h w (fun y => { y with tries := y.tries + 1 }) (onHome h (fun x => { x with recovered := true }) s))
     (grad = false → exec (.subBagTimeout src ltid step bag shard) s = .next (if 2 ≤ w.tries then failHome h 0x07 s else again))
     ∧ (grad = true → exec (.subGradResendTimeout src ltid step bag shard) s = .next again))
   ∧ (∀ s : State, s.stop.frozen = false → regsLive s = true →
     exec .rockpoolDecay s = .next (if s.emb.rpDecayAt + 1000000 ≤ s.tide.now then onEmb (fun e => { e with
         rpDecayAt := e.rpDecayAt + 1000000, rockpool := e.rockpool.map (fun x => (x.1, { x.2 with hits := x.2.hits / 2 })) }) s
       else s)))

/-- A memory request at its first Q7 (R198 to R201): undefined codes drop it, counted; a refusal is answered at once on the
requester's port; an admitted one gets the port's EPID as SRC, its Cove and Tide in TADM, and an outstanding entry. Responses
and timeouts at the requester's port (R203, R219): a response that matches an outstanding request goes on and frees its entry
alone; any other is dropped and counted; a request 500 µs old or more is answered TIMEOUT, unless its response has come by then:
in the very instant of its 500 µs it is only marked, and answered as the instant ends. -/
def Obligations.MemoryRequestsAndResponsesAtThePort : Prop :=
  (∀ (s : State) (port : Nat) (p : Packet), engineFor s port p = true → isFabric s port = false → port < 768 → p.ovc = vcREQ →
     isLocalAcct s (deliveredAt s port p) = false →
     let bufs := deliveredAt s port p
     (reqDefined p = false → exec (.memRequestAdmit port p) s =
       .next (freeAll bufs (count (kPort port iMEM_MALFORMED) (takeDelivered port p s))))
     ∧ (∀ st, reqDefined p = true → refuseReq s port p = some st → ∃ u, exec (.memRequestAdmit port p) s =
         .next (freeAll bufs (answerReq port p st u))
       ∧ u.mem.outst = s.mem.outst ∧ u.mem.regions = s.mem.regions ∧ u.route = (takeDelivered port p s).route)
     ∧ (∀ bd, reqDefined p = true → refuseReq s port p = none → boundAt s port p = some bd →
       let k := stampReq p bd.epid bd.cove s.tide.now
       ∃ t, exec (.memRequestAdmit port p) s = .next t
         ∧ t.mem = { s.mem with outst := s.mem.outst ++ [{
             port := port, tag := mmTag p.sub, dst := p.dst, wtag := s.mem.wtag,
             ptag := ((deliveredIn s port p).bind (·.ptag)).getD s.mem.ptag, ctag := s.mem.ctag,
             at_ := s.tide.now, pkt := k }] }
         ∧ k.src = bd.epid % 2 ^ 18 ∧ mmCove k.sub = bd.cove % 2 ^ 16 ∧ mmTadm k.sub = s.tide.now % 2 ^ 32 ∧ mmAddr k.sub = mmAddr p.sub
         ∧ (bufs = [] → t.route.outbox = s.route.outbox ++ [k]) ∧ (bufs ≠ [] → t.route.reentry = s.route.reentry ++ bufs)))
  ∧ ((∀ (s : State) (port : Nat) (p : Packet), engineFor s port p = true → p.ovc = vcRSP →
     let stray := freeAll (deliveredAt s port p) (count (kPort port iMEM_STRAY) (takeDelivered port p s))
     (findOut s port (mmTag p.sub) = none → exec (.memResponse port p) s = .next stray)
     ∧ (∀ o, findOut s port (mmTag p.sub) = some o →
       (o.dst ≠ p.src ∨ mmResp p.sub = false → exec (.memResponse port p) s = .next stray)
       ∧ (o.dst = p.src → mmResp p.sub = true → ∃ t, exec (.memResponse port p) s = .next t
         ∧ t.mem = { s.mem with outst := s.mem.outst.filter (fun x => !(x.port == port && x.tag == mmTag p.sub)) }
         ∧ findOut t port (mmTag p.sub) = none
         ∧ (deliveredAt s port p = [] → t.route.outbox = s.route.outbox ++ [p]))))
   ∧ (∀ (s : State) (port tag : Nat) (o : Outst), engineOn s = true → findOut s port tag = some o →
     (o.at_ + 500000 < s.tide.now → exec (.memRequestTimeout port tag) s =
       .next (if responseHere s port tag o = true then s else answerReq port o.pkt 0x07 (freeOut port tag s)))
     ∧ (o.at_ + 500000 = s.tide.now → ∃ t, exec (.memRequestTimeout port tag) s = .next t ∧ findOut t port tag = some { o with expire := true }
       ∧ t.route.outbox = s.route.outbox ∧ ∀ p n, p ≠ port ∨ n ≠ tag → findOut t p n = findOut s p n)))

/-- A memory request at its region (R192, R194, R211 to R213, R215, R218): one that must wait for an earlier one of its source
stays; the response carries the request's TAG and ADDR, a READ the bytes, an atomic the 8 bytes as they were; a WRITE and an
atomic change exactly the bytes they name; one too old is dropped; where no region covers the offset nothing changes and the
status is DENIED, in a poisoned region POISONED. -/
def Obligations.RegionPerformsMemoryRequests : Prop :=
  ∀ (s : State) (port : Nat) (p : Packet),
    let b := p.sub
    let resp (st : Nat) (data : List Byte) : Packet := dataPkt vcRSP p.src p.job (responseBits b st) data
    engineFor s port p = true → p.ovc = vcREQ → p.dst = selfEpid s → reqDefined p = true →
    768 ≤ port ∨ isFabric s port = true ∨ isLocalAcct s (deliveredAt s port p) = true →
    (behindEarlier s port p = true → exec (.memRequestPerform port p) s = .next s)
    ∧ (behindEarlier s port p = false →
      (reqStale s b = true → ∃ t, exec (.memRequestPerform port p) s = .next t ∧ t.mem = s.mem ∧ t.route.outbox = s.route.outbox)
      ∧ (reqStale s b = false → mmOp b = mopFENCE →
        exec (.memRequestPerform port p) s = .next (builtOn (serveDie s p) (originate (resp 0x00 [])) (taken port p s)))
      ∧ (reqStale s b = false → mmOp b ≠ mopFENCE → regionAt s (mmOff b) = none →
        exec (.memRequestPerform port p) s = .next (builtOn (serveDie s p) (originate (resp 0x05 [])) (taken port p s)))
      ∧ (∀ ridx r, reqStale s b = false → mmOp b ≠ mopFENCE → regionAt s (mmOff b) = some (ridx, r) →
          mget s.mem.regions ridx = some r →
        let off := mmOff b - r.offset
        (r.poisoned = true → exec (.memRequestPerform port p) s = .next (builtOn (serveDie s p) (originate (resp 0x06 [])) (taken port p s)))
        ∧ (r.poisoned = false → hbmLost s r.die = false →
          (mmOp b = mopREAD → exec (.memRequestPerform port p) s = .next (builtOn (serveDie s p) (originate (resp 0x00 (memReadN r.mem off (mmLen b))))
            (countN (kDie r.die iHBM_RD) (mmLen b) (taken port p s))))
          ∧ (mmOp b = mopWRITE → ∃ u r', exec (.memRequestPerform port p) s = .next (builtOn (serveDie s p) (originate (resp 0x00 [])) u)
              ∧ mget u.mem.regions ridx = some r' ∧ r'.offset = r.offset ∧ r'.size = r.size
              ∧ (∀ a, memRead r'.mem a = if off ≤ a ∧ a < off + mmLen b then nth p.data (a - off) 0 else memRead r.mem a)
              ∧ (∀ k, k ≠ ridx → mget u.mem.regions k = mget s.mem.regions k) ∧ u.mem.outst = s.mem.outst)
          ∧ (mmOp b ≠ mopREAD → mmOp b ≠ mopWRITE →
            let old := memReadN r.mem off 8
            let new := atomic b p.data (ofLE old)
            ∃ u r', exec (.memRequestPerform port p) s = .next (builtOn (serveDie s p) (originate (resp new.2 old)) u)
              ∧ mget u.mem.regions ridx = some r' ∧ memReadN r'.mem off 8 = bytesLE 8 new.1
              ∧ (∀ a, a < off ∨ off + 8 ≤ a → memRead r'.mem a = memRead r.mem a)
              ∧ (∀ k, k ≠ ridx → mget u.mem.regions k = mget s.mem.regions k) ∧ u.mem.outst = s.mem.outst))))

/-- Coves and port bindings (R204 to R207, R534): COVE_CREATE and COVE_DESTROY check the Cove and its users; PORT_BIND binds a
RUN port whose peer passed the exchange with that EPID; unbinding takes effect at once and completes when no request of the port
is outstanding. Windows and regions (R190, R191, R193, R208, R210, R220): WINDOW_ADD checks the record and its overlaps; a
removed window is gone at once and completes when no request that saw it is in flight; REGION_EXPORT reads the image and zeroes
the rest; a released region takes no access from that moment and is freed at its end. Jobs and waiting commits (R230, R231,
R234, R270, R272): JOB_CLASS, JOB_PORT and its UNBIND keep one job of each class on a port; a commit that waited for its tag is
checked and made at its own commit point, and stays while the tag is in flight. -/
def Obligations.CovesPortsJobsAndRegions : Prop :=
  ((∀ (s : State) (r i : Nat) (d : Desc), ringBehind s (4, 0) d.ring = false → coveBehind s d.op = false → coveMust s d.op = false →
     let c := fld d.op 15 0
     (Ready s r i 0x48 d → exec (.coveCreate r i) s = .next (
       if onlyBits d.op [(15, 0)] = false ∨ c = 0 ∨ c ∈ s.mem.coves then answer d 0x09 0 s
       else if coveAllowed s d.func c = false then answer d 0x05 0 s
       else answer d 0x00 0 (noteWrote (4, 0) d.ring (coveBump d.op (resetInstance 8 c (onMem (fun m => { m with coves := insertAsc c m.coves }) s))))))
     ∧ (Ready s r i 0x49 d → exec (.coveDestroy r i) s = .next (
       if onlyBits d.op [(15, 0)] = false ∨ c ∉ s.mem.coves then answer d 0x09 0 s
       else if coveAllowed s d.func c = false then answer d 0x05 0 s
       else if coveNamed s c = true then answer d 0x0B 0 s
       else answer d 0x00 0 (noteWrote (4, 0) d.ring (coveBump d.op (onMem (fun m => { m with coves := m.coves.filter (fun x => x != c) }) s))))))
   ∧ (∀ (s : State) (r i : Nat) (d : Desc), Ready s r i 0x4A d → ringBehind s (2, 0) d.ring = false → bindBehind s d.op = false → bindMust s d.op = false →
     let p := fld d.op 269 260
     let ep := fld d.op 287 270
     let c := fld d.op 15 0
     let n := fld d.op 259 247
     (c ≠ 0 → exec (.portBind r i) s = .next (
       if onlyBits d.op bindFields = false ∨ isFabric s p = true ∨ portExists s p = false ∨ ep = selfEpid s
           ∨ s.mem.binds.any (fun b => b.1 != p && b.2.epid == ep) = true ∨ c ∉ s.mem.coves ∨ n < 1 ∨ 4096 < n then answer d 0x09 0 s
       else if coveAllowed s d.func c = false then answer d 0x05 0 s
       else if bindOf s p ≠ none then answer d 0x0B 0 s
       else if portRun s p = false ∨ (getPort s p).peer.role ≠ some 1 ∨ (getPort s p).peer.epid ≠ ep then answer d 0x05 0 s
       else answer d 0x00 0 (noteWrote (2, 0) d.ring (bindBump d.op (onMem (fun m => { m with binds := mput m.binds p ⟨ep, c, n⟩ }) s)))))
     ∧ (c = 0 → onlyBits d.op bindFields = true → isFabric s p = false → portExists s p = true →
       (∀ b, bindOf s p = some b → coveAllowed s d.func b.cove = true) →
       ∃ t, exec (.portUnbind r i) s = .next t ∧ bindOf t p = none ∧ (∀ q, q ≠ p → bindOf t q = bindOf s q)
         ∧ (outCount s p = 0 → findDesc t r i = none)
         ∧ (outCount s p ≠ 0 → (p, r, i) ∈ t.mem.unbinding ∧ ∃ e, findDesc t r i = some e ∧ e.stage = .draining)))
   ∧ (∀ (s : State) (p r i : Nat), regsLive s = true → outCount s p = 0 → s.mem.unbinding = [(p, r, i)] →
     exec (.portUnbindDone p) s = .next (finishDesc (r, i) 0x00 0 (onMem (fun m => { m with unbinding := [] }) s))))
  ∧ ((∀ (s : State) (r i : Nat) (d : Desc) (data : List Byte), Ready s r i 0x4B d → ringBehind s (1, 0) d.ring = false → winBehind s d.op = false → winMust s d.op = false →
     let w := (windowOf data).1
     let n := fld d.op 246 230
     exec (.windowAdd r i data) s = .next (
       if onlyBits d.op [(383, 320), (319, 288), (246, 230)] = false ∨ fld d.op 383 320 % 32 ≠ 0 ∨ fld d.op 319 288 ≠ 32
           ∨ w.cove = 0 ∨ w.hi < w.lo ∨ w.limit < w.base ∨ fld (windowOf data).2 131 0 ≠ 0
           ∨ (w.pr = false ∧ w.pw = false ∧ w.pa = false ∧ w.px = false)
           ∨ w.cove ∉ s.mem.coves ∨ mget s.mem.windows n ≠ none ∨ s.mem.windows.any (fun x => winOverlap w x.2) = true then
         answer d 0x09 0 s
       else if coveAllowed s d.func w.cove = false then answer d 0x05 0 s
       else answer d 0x00 0 (noteWrote (1, 0) d.ring (winBump d.op (onMem (fun m => { m with windows := mput m.windows n w }) s)))))
   ∧ (∀ (s : State) (r i : Nat) (d : Desc) (w : Window), Ready s r i 0x4C d → ringBehind s (1, 0) d.ring = false → winBehind s d.op = false → winMust s d.op = false →
     let n := fld d.op 246 230
     onlyBits d.op [(246, 230)] = true → mget s.mem.windows n = some w → coveAllowed s d.func w.cove = true →
     ∃ t e, exec (.windowRemove r i) s = .next t ∧ mget t.mem.windows n = none ∧ (∀ k, k ≠ n → mget t.mem.windows k = mget s.mem.windows k)
       ∧ t.mem.wtag = (s.mem.wtag + 1) % 16 ∧ findDesc t r i = some e ∧ e.stage = .draining)
   ∧ (∀ (s : State) (n r i tag : Nat), regsLive s = true → s.mem.removing = [(r, i, n, tag)] →
     exec (.windowRemoveDone n) s = .next (
       if drained (windowTags s) s.mem.wtag tag = true then finishDesc (r, i) 0x00 0 (onMem (fun m => { m with removing := [] }) s) else s))
   ∧ (∀ (s : State) (r i : Nat) (d : Desc) (data : List Byte), Ready s r i 0x4D d →
     let ridx := fld d.op 184 177
     let size := fld d.op 204 187 * 2 ^ 21
     let off := fld d.op 229 205 * 2 ^ 21
     let len := fld d.op 319 288
     let t := onMem (fun m => { m with regions := mput m.regions ridx {
       offset := off, size := size, die := fld d.op 186 185, mem := memWriteN [] 0 (sliceB data 0 len) } }) s
     exec (.regionExport r i data) s = .next (
       if onlyBits d.op [(383, 320), (319, 288), (229, 205), (204, 187), (186, 185), (184, 177)] = false ∨ fld d.op 383 320 % 32 ≠ 0
           ∨ mget s.mem.regions ridx ≠ none ∨ fld d.op 204 187 < 1 ∨ 49152 < fld d.op 204 187 ∨ size < len ∨ 2 ^ 46 < off + size
           ∨ s.mem.regions.any (fun x => decide (off < x.2.offset + x.2.size ∧ x.2.offset < off + size)) = true then answer d 0x09 0 s
       else if hbmFits t = false then answer d 0x08 0 s
       else answer d 0x00 0 (countN (kDie (fld d.op 186 185) iHBM_WR) size t)))
   ∧ (∀ (s : State) (r i : Nat) (d : Desc) (x : Region), Ready s r i 0x4E d → onlyBits d.op [(184, 177)] = true →
     mget s.mem.regions (fld d.op 184 177) = some x → x.releasing = none →
     ∃ t e, exec (.regionRelease r i) s = .next t ∧ mget t.mem.regions (fld d.op 184 177) = some { x with releasing := some (r, i) }
       ∧ findDesc t r i = some e ∧ e.stage = .draining
       ∧ (∀ off k y, regionAt t off = some (k, y) → k ≠ fld d.op 184 177))
   ∧ (∀ (s : State) (k : Nat) (x : Region) (ri : Nat × Nat), regsLive s = true → mget s.mem.regions k = some x → x.releasing = some ri →
     exec (.regionReleaseDone k) s = .next (finishDesc ri 0x00 0 (onMem (fun m => { m with regions := mdel m.regions k }) s))))
  ∧ ((∀ (s : State) (r i : Nat) (d : Desc), Ready s r i 0x58 d →
     let j := fld d.op 7 0
     let cls := bitAt d.op 372
     let cap := fld d.op 371 362
     exec (.jobClass r i) s = .next (
       if onlyBits d.op [(372, 372), (371, 362), (7, 0)] = false ∨ j = 0 ∨ cap < 1 ∨ 640 < cap then answer d 0x09 0 s
       else if ((s.mem.jobPorts.filter (fun x => x.2 == j)).map (·.1)).any (fun p => classClash s p j cls) = true then answer d 0x08 0 s
       else answer d 0x00 0 (onMem (fun m => { m with jobs := mput m.jobs j (cls, cap), jtag := (m.jtag + 1) % 16 }) s)))
   ∧ (∀ (s : State) (r i : Nat) (d : Desc), Ready s r i 0x59 d → ringBehind s (2, 0) d.ring = false → bindBehind s d.op = false → bindMust s d.op = false →
     let p := fld d.op 383 374
     let j := fld d.op 7 0
     (bitAt d.op 373 = false → exec (.jobPort r i) s = .next (
       if jobPortBad s d.op = true then answer d 0x09 0 s
       else if classClash s p j (isFill s j) = true then answer d 0x08 0 s
       else answer d 0x00 0 (noteWrote (2, 0) d.ring (bindBump d.op (onMem (fun m => { m with jobPorts := addNew m.jobPorts (p, j) }) s)))))
     ∧ (bitAt d.op 373 = true → exec (.jobPortUnbind r i) s = .next (
       if jobPortBad s d.op = true then answer d 0x09 0 s
       else answer d 0x00 0 (noteWrote (2, 0) d.ring (bindBump d.op (onMem (fun m => { m with jobPorts := m.jobPorts.filter (fun x => x != (p, j)) }) s))))))
   ∧ (∀ (s : State) (d : Desc) (k : Nat), regsLive s = true → s.host.accepted.find? (fun e => e.stage == .commitWait && (e.opcode == 0x48 || e.opcode == 0x49)) = some d →
     d.opcode = 0x48 → onlyBits d.op [(15, 0)] = true → fld d.op 15 0 ≠ 0 → coveAllowed s d.func (fld d.op 15 0) = true →
     exec (.tableCommitWaitEnd 4 k) s = .next (
       if coveMust s d.op = true then s
       else if fld d.op 15 0 ∈ s.mem.coves then answer d 0x09 0 s
       else answer d 0x00 0 (coveBump d.op (resetInstance 8 (fld d.op 15 0)
         (onMem (fun m => { m with coves := insertAsc (fld d.op 15 0) m.coves }) s))))))

/-- A packet at its port (R232, R240, R241, R281, R284): malformed, it is dropped and counted; link-local control goes to the
port's own logic; from a fabric port any other is stored behind what its ingress account holds, with its route lookup captured;
on an unbound endpoint port it is dropped, or an embedding stream refused as its last piece comes, and for a job not bound to
the port denied. Each is noted for the soundings of the port. Ethernet-mode ports (R366 to R369): a bad frame, a MAC control
frame and one without Shoal are counted and dropped; the management controller's frames go to the port it names or to every port
in RUN; an address not seen for 300 s is forgotten. -/
def Obligations.PacketsAndFramesAtTheirPort : Prop :=
  (∀ (s : State) (port : Nat) (p : Packet), linksOn s = true → isDrezhPort s port = true → portRun s port = true →
     let u := leaveLink port p s
     let h (dest : Dest) (v : State) : State := hear (heardIn v port p dest [] false) v
     let c := classOn s port p
     (p.wellFormed = false → exec (.packetIngress port p) s = .next (h .noRoute (count (kPort port iPKT_MALFORMED) u)))
     ∧ (p.wellFormed = true → isFabric s port = true → portControl true p = true →
       exec (.packetIngress port p) s = .next (h .noRoute (giveEngine port p u)))
     ∧ (∀ b l sl, p.wellFormed = true → isFabric s port = true → portControl true p = false →
       allocN (acctKey (.ingress port c)) p.bufs (getSlice s (dieOf port)) = some (b :: l, sl) → storedAt s (dieOf port) b = none →
       mgetD (getPort s port).ingress c [] ≠ [] →
       ∃ t x, exec (.packetIngress port p) s = .next t ∧ storedAt t (dieOf port) b = some x ∧ x.pkt = p ∧ x.bufs = b :: l
         ∧ x.acct = .ingress port c ∧ x.owners = [ownIngress port] ∧ x.dest = lookupDest s p.dst ∧ x.cap = capOf s ∧ x.rtag = some s.route.tag
         ∧ mgetD (getPort t port).ingress c [] = mgetD (getPort s port).ingress c [] ++ [(dieOf port, b)])
     ∧ (p.wellFormed = true → isFabric s port = false → p.vc = vcESC ∨ p.hops ≠ 0 ∨ p.dline ≠ 0 ∨ p.gap = true →
       exec (.packetIngress port p) s = .next (h .noRoute (count (kPort port iPKT_MALFORMED) u)))
     ∧ (p.wellFormed = true → isFabric s port = false → p.vc ≠ vcESC → p.hops = 0 → p.dline = 0 → p.gap = false →
       (bindOf s port = none → p.ptype ≠ 0 → engineAtPort true p = false →
         exec (.packetIngress port p) s = .next (h .noRoute (
           if p.ovc = vcEMB then
             backOn port (if emLast p.sub then embFailTo p.src p.job (emTable p.sub) (emStep p.sub) (emBag p.sub) 0x05 else id) u
           else count (kPort port iPORT_UNBOUND) u)))
       ∧ (∀ b, bindOf s port = some b → p.ptype ≠ 0 → p.ovc = vcXFER → (port, p.job) ∉ s.mem.jobPorts →
         exec (.packetIngress port p) s = .next (h .noRoute (count (kPort port iJOB_DENY) u)))))
  ∧ ((∀ (s : State) (port : Nat) (good : Bool) (f : List Byte), linksOn s = true → isEthPort s port = true → portRun s port = true →
     let u := count (kPort port iRX_PKTS) (countN (kPort port iRX_BYTES) f.length s)
     (good = false ∨ f.length < 64 ∨ 9216 < f.length ∨ fcsOk f = false → exec (.ethernetFrame port good f) s = .next (count (kPort port iETH_BAD) u))
     ∧ (good = true → 64 ≤ f.length → f.length ≤ 9216 → fcsOk f = true → beAt f 12 2 = 0x8808 →
       exec (.ethernetFrame port good f) s = .next (count (kPort port iETH_CTL) u))
     ∧ (good = true → 64 ≤ f.length → f.length ≤ 9216 → fcsOk f = true → beAt f 12 2 ≠ 0x8808 →
       (acctCan u (.ethIn port) (dieOf port) (ceilDiv f.length 256) = false →
         exec (.ethernetFrame port good f) s = .next (count (kPort port iETH_DROP) u))
       ∧ (acctCan u (.ethIn port) (dieOf port) (ceilDiv f.length 256) = true → frameDst f = Config.macAddr.toNat ∨ isGroupMac (frameDst f) = true →
         (mget s.net.macs (frameSrc f)).isSome = true ∨ s.net.macs.length < 16384 →
         ∃ t, exec (.ethernetFrame port good f) s = .next t ∧ t.net.mgmtIn = s.net.mgmtIn ++ [f]
           ∧ mget t.net.macs (frameSrc f) = some (port, s.tide.now)
           ∧ ((bridge s (some port) (frameDst f)).1 = [] → t.net.ethOut = s.net.ethOut ∧ t.shoal = s.shoal))))
   ∧ (∀ (s : State) (p : Nat) (f : List Byte), linksOn s = true → isEthPort s p = true → portRun s p = true →
     exec (.mgmtFrameSend (some p) f) s = .next (queueFrame 1024 f p s))
   ∧ (∀ (s : State) (f : List Byte), linksOn s = true →
     exec (.mgmtFrameSend none f) s = .next (forAll (ethPorts s) (queueFrame 1024 f) s))
   ∧ (∀ (s : State) (mac : Nat) (e : Nat × Nat), regsLive s = true → mget s.net.macs mac = some e → e.2 + 300000000000 ≤ s.tide.now →
     exec (.macAgeOut mac) s = .next (onNet (fun n => { n with macs := mdel n.macs mac }) s)))

/-- R367: an Ethernet-mode port accepts frames of 64 to 9,216 bytes whose checks pass, and drops every other one, counting it in
ETH_BAD; `good` is what the port's PCS found. -/
def Obligations.EthernetPortAcceptsGoodFrames : Prop :=
  ∀ (s : State) (port : Nat) (good : Bool) (f : List Byte), linksOn s = true → isEthPort s port = true → portRun s port = true →
    let u := count (kPort port iRX_PKTS) (countN (kPort port iRX_BYTES) f.length s)
    (good = false ∨ f.length < 64 ∨ 9216 < f.length ∨ fcsOk f = false →
      exec (.ethernetFrame port good f) s = .next (count (kPort port iETH_BAD) u))
    ∧ (good = true → 64 ≤ f.length → f.length ≤ 9216 → fcsOk f = true →
      ∃ t, exec (.ethernetFrame port good f) s = .next t ∧ ctrOf t.obs (kPort port iETH_BAD) = ctrOf s.obs (kPort port iETH_BAD))

/-- The resequencer (R262, R263): for a packet within its window, what leaves an entry carries the sequence numbers from EXP on
with none missing and none marked GAP, EXP follows the last one, and no packet is lost or made twice. -/
def Obligations.ResequencerKeepsSequence : Prop :=
  ∀ (now : Nat) (it : RItem) (f : Flow), f.exp < 2 ^ 32 → it.1 < 2 ^ 32 → ahead f.exp it.1 ≤ 511 →
    let r := runArrive now it { flow := f }
    (∀ k x, r.out[k]? = some x → x.1.1 = (f.exp + k) % 2 ^ 32 ∧ x.2 = false)
    ∧ r.flow.exp = (f.exp + r.out.length) % 2 ^ 32
    ∧ (r.out.map (·.1) ++ r.flow.held ++ r.drop.map (·.1)).Perm (f.held ++ [it])

/-- The resequencer's commands for packets this Q7 consumes (R250, R262 to R265): the packet at EXP is delivered at once; a BASE
entry enters RUN 2 µs after it first held a packet, a gap is skipped after 50 µs with GAP set on the packet after it, and an
idle entry is freed after 150 µs. A wait that ends in this very instant is left to the instant's end, for what arrives in it is
taken first. -/
def Obligations.ResequencerDeliversAndTimesOut : Prop :=
  (∀ (s : State) (port : Nat) (p : Packet) (f : Flow), engineOn s = true → lookupDest s p.dst = .here →
    (∀ c, c < 9 → ingressHead s port c = none) → consumes (decide (768 ≤ port) || isFabric s port) p = true →
    findFlow s (p.src % 4) p.src p.dst p.ovc = some f → f.run = true → f.held = [] → f.exp = p.fseq → s.route.direct = [] →
    storedAt s 4 0 = none →
    ∃ t f', exec (.reseqArrival port p) s = .next t ∧ t.route.toEngine = s.route.toEngine ++ [(port, p, 4, 0)]
      ∧ findFlow t (p.src % 4) p.src p.dst p.ovc = some f' ∧ f'.exp = (p.fseq + 1) % 2 ^ 32 ∧ f'.held = [] ∧ f'.lastAt = s.tide.now)
  ∧ (∀ (s : State) (die src dst ovc : Nat) (f : Flow) (it : RItem) (tm : Nat), engineOn s = true → findFlow s die src dst ovc = some f →
    f.held = [it] → f.timer = some tm → it.1 < 2 ^ 32 → goodAt s it.2.2.2.1 it.2.2.2.2 = true →
    (f.run = false → tm + 2000 = s.tide.now →
      exec (.reseqBaseTimeout die src dst ovc) s = .next (expireFlow die f.entry s))
    ∧ (f.run = true → tm + 50000 = s.tide.now →
      exec (.reseqGapTimeout die src dst ovc) s = .next (expireFlow die f.entry s))
    ∧ (f.run = false → tm + 2000 < s.tide.now → ∃ t f', exec (.reseqBaseTimeout die src dst ovc) s = .next t
      ∧ findFlow t die src dst ovc = some f' ∧ f'.run = true ∧ f'.exp = (it.1 + 1) % 2 ^ 32 ∧ f'.held = [] ∧ f'.timer = none)
    ∧ (f.run = true → tm + 50000 < s.tide.now → ∃ t f', exec (.reseqGapTimeout die src dst ovc) s = .next t
      ∧ findFlow t die src dst ovc = some f' ∧ f'.run = true ∧ f'.exp = (it.1 + 1) % 2 ^ 32 ∧ f'.held = [] ∧ f'.timer = none
      ∧ (lastDest s it = .here →
          (queueFor s (768 + it.2.2.1.src % 4) it.2.2.1).isSome = true →
          t.route.toEngine = s.route.toEngine ++ [(it.2.1, it.2.2.1.setGap true, it.2.2.2.1, it.2.2.2.2)])))
  ∧ (∀ (s : State) (die src dst ovc : Nat) (f : Flow), engineOn s = true → findFlow s die src dst ovc = some f → f.held = [] →
    f.lastAt + 150000 ≤ s.tide.now → exec (.reseqEntryFree die src dst ovc) s =
      .next (if s.tide.now = f.lastAt + 150000 then expireFlow die f.entry s else freeFlow die f.entry s))

/-- A flit (R339, R341, R358, R359): sealed, it is 256 bytes that carry their CRC and begin with their header, and it opens to
its payload at an end that holds the direction's key, salt and slot number; in KEYING it opens as it stands. The bytes leave the
GCM unit with their parity (R475). -/
def Obligations.SealedFlitOpensToItsPayload : Prop :=
  ∀ (x : Port) (l : Link) (h : BitVec 160) (payload : List Byte) (run : Bool), payload.length = 224 →
    let f := sealFlit l run h payload
    f.length = 256 ∧ leAt f 252 4 = crc32c (f.take 252) ∧ flitHdr f = h
    ∧ (run = true → x.peer.runRx = true → x.link.keyRx = l.keyTx → x.link.saltRx = l.saltTx → flKph h = x.link.keyRxNo % 2 →
        openFlit x l.slotTx f = some (genParity payload, x.link))
    ∧ (∀ slot, run = false → x.peer.runRx = false → flKph h = 0 → openFlit x slot f = some (genParity payload, x.link))

/-- Flits at a port whose link runs (R343, R346 to R350, R356, R360 to R362): one that fails a check leaves everything but the
wait for a replay as it was; a DATA flit at EXPECT gives its packets, one out of sequence none, and a NAKV that is due stays
due; a LINKCTL flit gives its messages up to NONE; closing sends one flit, a replayed one first, NULL where nothing waits. -/
def Obligations.FlitsAreCheckedAndClosed : Prop :=
  ∀ (s : State) (p : Nat), linkRuns s p = true →
    let l := (getPort s p).link
    (∀ slot fecOk f, fecOk = false ∨ f.length ≠ 256 ∨ leAt f 252 4 ≠ crc32c (f.take 252) →
      ∃ t, exec (.flitReceive p slot fecOk f) s = .next t ∧ t.flt.ripple = true
        ∧ (getPort t p).link = { l with
            slotRx := slot + 1, waitingFor := true, nakvDue := l.nakvDue || !l.waitingFor,
            nakvAt := if l.waitingFor = true then l.nakvAt else s.tide.now })
    ∧ (∀ slot f payload, let h := flitHdr f
      f.length = 256 → leAt f 252 4 = crc32c (f.take 252) → (openFlit (getPort s p) slot f).map (·.1) = some payload →
      (l.baseRx + slot) / portWidth s p % 5 = 0 ∨ (getLane s (laneIn s p (l.baseRx + slot))).pairOk = true →
      fld h 152 149 = 0 → fld h 116 108 = 0 →
      (flType h = 1 → flFsn h = l.expect → flBadp h = false → ∃ t, exec (.flitReceive p slot true f) s = .next t
        ∧ (getPort t p).link.rxPkts = l.rxPkts ++ (takePayload (flSop h) l.rx payload).pkts
        ∧ (getPort t p).link.rx = (takePayload (flSop h) l.rx payload).rx
        ∧ (getPort t p).link.expect = (l.expect + 1) % 4096 ∧ (getPort t p).link.waitingFor = false
        ∧ (getPort t p).link.nakvDue = l.nakvDue ∧ (getPort t p).link.goodAt = s.tide.now)
      ∧ (flType h = 2 → ∃ t, exec (.flitReceive p slot true f) s = .next t ∧ (getPort t p).link.rxPkts = l.rxPkts
        ∧ (getPort t p).link.rxMsgs = l.rxMsgs ++ msgsIn (pieces 32 (bareBytes payload)) ∧ (getPort t p).link.expect = l.expect)
      ∧ (flType h = 1 → flFsn h ≠ l.expect → ∃ t, exec (.flitReceive p slot true f) s = .next t
        ∧ (getPort t p).link.rxPkts = l.rxPkts ∧ (getPort t p).link.rx = l.rx ∧ (getPort t p).link.expect = l.expect
        ∧ (getPort t p).link.waitingFor = true))
    ∧ (l.issued.length = 9 → ∃ t f, exec (.flitClose p) s = .next t
        ∧ (getPort t p).link.sent = l.sent ++ [f] ∧ (getPort t p).link.slotTx = l.slotTx + 1
        ∧ (l.resend = [] → l.msgs = [] → l.tx = [] →
            f.length = 256 ∧ flType (flitHdr f) = 0 ∧ flFsn (flitHdr f) = (l.nextFsn + 4095) % 4096 ∧ (getPort t p).link.replay = l.replay)
        ∧ (∀ x, nextResend l = some x →
            flType (flitHdr f) = 1 ∧ flFsn (flitHdr f) = x.fsn % 4096 ∧ flSop (flitHdr f) = x.sop % 256
            ∧ (parityGood x.payload = false → flBadp (flitHdr f) = true)))
    ∧ (l.waitingFor = true → l.nakvAt + 1000 ≤ s.tide.now →
      exec (.nakvRepeat p) s = .next (onLink p (fun y => { y with nakvDue := true, nakvAt := s.tide.now }) s))
    ∧ ((getPort s p).peer.runTx = true → l.keyTxNo = 0 ∨ 2 ^ 20 ≤ l.slotTx - l.keyTxSlot →
      exec (.keyPhaseChange p) s = .next (onLink p changeKey s))
    ∧ (portRun s p = true → exec (.tideSyncSend p) s = .next (onLink p (fun y => { y with
        msgs := (y.msgs.filter (fun m => byteAt m 0 != 1)) ++ [linkMsg 1 (bytesLE 8 s.tide.now) []], syncAt := s.tide.now }) s))

/-- A port that goes down and comes up (R258 to R260, R352, R373, R378, R391, R461, R484, R493): a declaration ends the link at
once and leaves its packets for the mask to commit; the mask then sends the queues of a fabric port back to path choice;
CLIFF_NOTICE holds the port DOWN for 1 ms; a disabled port is squelched after 1 µs. -/
def Obligations.PortsGoDownAndComeUp : Prop :=
  (∀ (s : State) (p cause : Nat), linksOn s = true → isDrezhPort s p = true → portRun s p = true →
    let isDown (t : State) : Prop := linkUp t p = false ∧ (getPort t p).declared = some s.tide.now
      ∧ (getPort t p).queues = (getPort s p).queues ∧ (getPort t p).peer.runTx = false ∧ (getPort t p).link.replay = []
    ((cause = 0 ∧ (getPort s p).link.goodAt + 1500 ≤ s.tide.now) ∨ (cause = 1 ∧ pairBad s p = true) →
      ∃ t, exec (.portDownDeclare p cause) s = .next t ∧ isDown t)
    ∧ (cause ≤ 3 → ∃ t, exec (.linkDown p cause) s = .next t ∧ isDown t)
    ∧ (∀ l, l < 768 → portOfLane s l = p → isEthPort s p = false → ∃ t, exec (.laneLockLoss l) s = .next t ∧ isDown t))
  ∧ (∀ (s : State) (p tm : Nat), regsLive s = true → (getPort s p).declared = some tm →
    ∃ t, exec (.portDownCommit p) s = .next t ∧ (getPort t p).masked = true ∧ (getPort t p).declared = none ∧ (getPort t p).link.tx = []
      ∧ (isFabric s p = true → s.stop.frozen = false → (getPort t p).queues = []))
  ∧ (∀ (s : State) (p : Nat), regsLive s = true → linkUp s p = true → (getPort s p).declared = none →
    exec (.portUpCommit p) s = .next (onPort p (fun x => { x with masked := false }) s))
  ∧ (∀ (s : State) (p : Nat) (k : Packet), regsLive s = true → k.ptype = 0 → k.ctype = 0x30 → isFabric s p = true → linkUp s p = true →
    ∃ t, exec (.cliffNotice p k) s = .next t ∧ (getPort t p).lstate = .down ∧ (getPort t p).squelched = true
      ∧ (getPort t p).cliffHold = some s.tide.now)
  ∧ (∀ (s : State) (p tm : Nat), regsLive s = true → (getPort s p).cliffHold = some tm → tm + 1000000 ≤ s.tide.now →
    exec (.cliffNoticeHoldEnd p) s = .next (startPort p (onPort p (fun x => { x with cliffHold := none }) s)))
  ∧ (∀ (s : State) (p tm : Nat), regsLive s = true → (getPort s p).disableAt = some tm → tm ≤ s.tide.now →
    bitAt (getLane s p).ctl 31 = false →
    ∃ t, exec (.disableSquelch p) s = .next t ∧ (getPort t p).lstate = .down ∧ (getPort t p).squelched = true
      ∧ (getPort t p).disableAt = none)

/-- The settings of ports and lanes (R375 to R379, R398): a mode changes only while its group is idle; enabling starts DETECT at
the lowest rate with preset 1, or TEST; disabling clears ENABLE and leaves 1 µs; a change that R378 refuses sets CFG_REJ alone.
The bit stream of a lane, test patterns, error injection and eye scans (R370, R371, R397, R399, R400, R402): the levels of a
stream give its bits back, and the receiver decodes what the precoder sent; enabling a checker clears both counters; an
injection comes once its interval is over and ends when its count is done; an eye scan in RUN or TEST clears its counts, and
ends with them once its dwell is compared. -/
def Obligations.PortAndLaneSettings : Prop :=
  ((∀ (s : State) (g : Nat) (v : Word), regsLive s = true → s.dev.state ≠ .boot → g < 48 →
     let old := mgetD s.net.groups g {}
     let lanes := (List.range 16).map (fun k => 16 * g + k)
     let moved := onNet (fun n => { n with groups := mput n.groups g { old with mode := fld v 1 0 } }) s
     let refused := decide (fld v 1 0 = 3) || (decide (fld v 1 0 ≠ old.mode) && (!groupIdle s g || !ethFits lanes moved))
     exec (.lnGrpCfgWrite g v) s = .next (onNet (fun n => { n with groups := mput n.groups g {
       mode := if refused = true then old.mode else fld v 1 0, modeRej := w1c old.modeRej (bitAt v 2) old.modeRejAt s.tide.now || refused,
       modeRejAt := if refused = true then some s.tide.now else old.modeRejAt } }) s))
   ∧ (∀ (s : State) (p : Nat), linksOn s = true → portExists s p = true → (getPort s p).lstate = .down →
     (getPort s p).peer.held = false → (getPort s p).cliffHold = none → (p / 64) ∉ s.flt.deadDies →
     ∃ t, exec (.portEnable p) s = .next t ∧ bitAt (getLane t p).ctl 31 = true
       ∧ ((∀ l ∈ portLanes s p, fld (getLane s l).ctl 21 20 = 0) →
           (getPort t p).lstate = .detect ∧ (getPort t p).rate = 2 ∧ (getPort t p).squelched = false
           ∧ ∀ l ∈ portLanes s p, (getLane t l).taps = [0, 0, 0, 63, 0])
       ∧ ((∃ l ∈ portLanes s p, fld (getLane s l).ctl 21 20 ≠ 0) → (getPort t p).lstate = .test))
   ∧ (∀ (s : State) (p : Nat), regsLive s = true → s.dev.state ≠ .boot → portExists s p = true → bitAt (getLane s p).ctl 31 = true →
     ∃ t, exec (.portDisable p) s = .next t ∧ bitAt (getLane t p).ctl 31 = false ∧ (getPort t p).lstate = (getPort s p).lstate
       ∧ ((getPort s p).lstate ≠ .down → (getPort t p).disableAt = some (s.tide.now + 1000))
       ∧ (linkRuns s p = true → if nextResend (getPort s p).link = none
           then (getPort t p).link.sent.length = (getPort s p).link.sent.length + 1
           else (getPort t p).link.msgs = (getPort s p).link.msgs ++ [linkMsg 3 (bytesLE 8 3) []]))
   ∧ (∀ (s : State) (l : Nat) (v : Word), regsLive s = true → s.dev.state ≠ .boot → l < 768 →
     let p := portOfLane s l
     let old := (getLane s l).ctl
     let new := laneFields (l == p) old v
     let change := decide (new ≠ old.toNat &&& (0x7FF <<< 20))
     let idle := (lanesJudged s l new).all (fun k => laneState s k == .down && !bitAt (getLane s (portOfLane s k)).ctl 31)
     l ≠ p ∨ bitAt v 31 = bitAt old 31 →
     exec (.lnCtlWrite l v) s = .next (
       if (change && !(idle && laneFieldsOk s l new)) = true then onLane l (fun y => { y with cfgRej := true, cfgRejAt := some s.tide.now }) s
       else onLane l (fun y => { y with
         ctl := BitVec.ofNat 32 (new ||| (old.toNat &&& 0x80000000)), rxInvDet := if new.testBit 24 then y.rxInvDet else new.testBit 23 }) s))
   ∧ (∀ (s : State) (l : Nat) (v : Word), regsLive s = true → s.dev.state ≠ .boot → l < 768 → fld (getLane s l).ctl 21 20 ≠ 0 →
     exec (.lnTapsWrite l v) s = .next (
       if tapsOk (tapsOfWord v) = true then onLane l (fun y => { y with testTaps := tapsOfWord v }) s
       else onLane l (fun y => { y with cfgRej := true, cfgRejAt := some s.tide.now }) s)))
  ∧ ((∀ (bits : List Bool) (levels : List Nat) (b : Nat), b < 4 → (∀ a ∈ levels, a < 4) →
     (bits.length % 2 = 0 → grayUnmap (grayMap bits) = bits ∧ ∀ a ∈ grayMap bits, a < 4)
     ∧ unprecode b (precode b levels) = levels ∧ ∀ a ∈ precode b levels, a < 4)
   ∧ (∀ (s : State) (l : Nat), regsLive s = true → s.dev.state ≠ .boot → l < 768 →
     (bitAt (getLane s l).prbs 30 = false → exec (.prbsCheckerEnable l) s = .next (onLane l (fun y => { y with
       prbs := setFld (setFld y.prbs 30 30 1) 21 21 0, prbsErr := 0, prbsBits := 0 }) s))
     ∧ (∀ v : Word, exec (.lnInjWrite l v) s = .next (onLane l (fun y => { y with
       inj := BitVec.ofNat 32 (v.toNat &&& 0xFFFFFF1F), injDone := 0,
       injLeft := if fld y.inj 31 30 = fld v 31 30 then y.injLeft else 2 ^ fld v 4 0 }) s))
     ∧ (bitAt (getLane s l).eyeCtl 31 = false → eyeRuns s l = true → exec (.eyeScanStart l) s = .next (onLane l (fun y => { y with
       eyeCtl := setFld (setFld y.eyeCtl 31 31 1) 7 7 0, eyeErr := 0, eyeCnt := 0 }) s)))
   ∧ (∀ (s : State) (l : Nat), regsLive s = true →
     (bitAt (getLane s l).prbs 30 = true → laneState s l = .test →
       exec (.prbsCheckerLock l) s = .next (onLane l (fun y => { y with prbs := setFld y.prbs 21 21 1 }) s))
     ∧ (injLive s l = true → (getLane s l).injLeft = 0 → ∃ t, exec (.errorInjectionInterval l) s = .next t ∧ (getLane t l).injDone = (getLane s l).injDone + 1
       ∧ (getLane t l).injLeft = 2 ^ fld (getLane s l).inj 4 0 ∧ (∀ k, k ≠ l → getLane t k = getLane s k)
       ∧ (fld (getLane s l).inj 23 8 = (getLane s l).injDone + 1 → fld (getLane t l).inj 31 30 = 0))
     ∧ (∀ err cnt aborted, bitAt (getLane s l).eyeCtl 31 = true →
       (if aborted = true then eyeRuns s l = false else 2 ^ fld (getLane s l).eyeCtl 13 8 ≤ (getLane s l).eyeCnt) →
       exec (.eyeScanDone l err cnt aborted) s = .next (onLane l (fun y => { y with
         eyeCtl := setFld (setFld y.eyeCtl 31 31 0) 7 7 (b2n aborted) }) s))))

/-- Training (R384 to R391): signal on every lane starts DETECT; in COEFF a new tap request is taken whole or not at all, and no
request takes the taps out of the ranges of R384; once both ends have counted down, the countdowns lead to SWITCH and to KEYING;
a rate that overruns its budget is marked, and with every rate failed the cycle ends with TRAIN_FAIL and a pause of 1 ms. Signal
at a port that CLIFF_NOTICE holds DOWN starts its millisecond again (R493, log entry 111). -/
def Obligations.TrainingRunsByItsPhases : Prop :=
  (∀ (c : Word) (taps : List Int), taps.length = 5 → tapsOk taps = true → tapsOk (tapRequest c taps).1 = true)
  ∧ (∀ (s : State) (p : Nat), linksOn s = true → (getPort s p).cliffHold ≠ none →
    exec (.signalDetect p) s = .next (onPort p (fun x => { x with cliffHold := some s.tide.now }) s))
  ∧ (∀ (s : State) (p : Nat), linksOn s = true → (getPort s p).lstate = .detect → (getPort s p).retryAt = none →
    (getPort s p).cliffHold = none →
    (isEthPort s p = false → isDrezhPort s p = true →
      exec (.signalDetect p) s = .next (onPort p (fun x => { x with signal := true, phaseAt := s.tide.now }) s))
    ∧ (isEthPort s p = true → ∃ t, exec (.signalDetect p) s = .next t ∧ (getPort t p).lstate = .run))
  ∧ (∀ (s : State) (p l : Nat) (inverted ready : Bool) (control status : Word), linksOn s = true → isDrezhPort s p = true →
    (getPort s p).lstate = .coeff → p ≤ l → l < p + portWidth s p → bitAt (getLane s l).ctl 24 = true →
    ∃ t, exec (.trainingFrame p l inverted control status ready) s = .next t ∧ (getLane t l).rxInvDet = inverted
      ∧ (getLane t l).markers = (getLane s l).markers + 1
      ∧ (bitAt status 7 = false → fld control 31 28 ≠ (getLane s l).echo →
          (getLane t l).taps = (tapRequest control (getLane s l).taps).1 ∧ (getLane t l).tapSt = (tapRequest control (getLane s l).taps).2
          ∧ (getLane t l).echo = fld control 31 28)
      ∧ (bitAt status 7 = true ∨ fld control 31 28 = (getLane s l).echo → (getLane t l).taps = (getLane s l).taps)
      ∧ ((getPort t p).lstate = .coeff ∨ (getPort t p).lstate = .align))
  ∧ (∀ (s : State) (p : Nat), linksOn s = true → (getPort s p).countdown = some 0 → farCounted s p = true →
    ((getPort s p).lstate = .detect → ∃ t, exec (.trainingCountdownEnd p) s = .next t ∧ (getPort t p).lstate = .switch
      ∧ (getPort t p).rate = (getPort s p).agreed ∧ (getPort t p).countdown = none ∧ ∀ l ∈ portLanes s p, (getLane t l).markers = 0)
    ∧ ((getPort s p).lstate = .align → ∃ t, exec (.trainingCountdownEnd p) s = .next t ∧ (getPort t p).lstate = .keying
      ∧ (getPort t p).peer.startAt = s.tide.now ∧ (getPort t p).link.expect = 0 ∧ (getPort t p).link.nextFsn = 0))
  ∧ (∀ (s : State) (p : Nat), linksOn s = true → (getPort s p).lstate = .coeff →
    (getPort s p).phaseAt + coeffBudget (getPort s p).rate ≤ s.tide.now →
    let failed := (getPort s p).failed ||| rateBit (getPort s p).rate
    (failed ≠ 7 → exec (.trainingPhaseFail p) s = .next (backToDetect p failed s))
    ∧ (failed = 7 → ∃ t, exec (.trainingPhaseFail p) s = .next t ∧ (getPort t p).trainFail = true
        ∧ (getPort t p).retryAt = some (s.tide.now + 1000000)))
  ∧ (∀ (s : State) (p tm : Nat), linksOn s = true → (getPort s p).retryAt = some tm → tm ≤ s.tide.now →
    exec (.trainingRetryPause p) s = .next (toDetect p s))

/-- Lane power states, region gates and Ebb (R4, R392 to R396, R543 to R550, R560): a request is accepted by a quiet port alone,
and two that cross are each other's acceptance; a reply ends the request; a wake returns the port to RUN or to training; an idle
region closes its gate, and a disabled region keeps it closed; a throttled region is released and counted. -/
def Obligations.IdleStatesAndEbb : Prop :=
  (∀ (s : State) (p tag : Nat), linkRuns s p = true → (getPort s p).lstate = .run →
    let answered (kind : Nat) (t : State) : Prop :=
      (if nextResend (getPort s p).link = none then (getPort t p).link.sent.length = (getPort s p).link.sent.length + 1
        else (getPort t p).link.msgs = (getPort s p).link.msgs ++ [linkMsg (2 * kind + 3) (bytesLE 1 tag ++ bytesLE 1 1) []])
      ∧ (getPort t p).lstate = (if (portQuiet s p && mayQuiet s p kind) = true then (if kind = 1 then .neap else .lowWater) else .run)
    ((getPort s p).reqKind ≠ 0 →
      exec (.neapEnter p tag) s = .next (goQuiet p (min 1 (getPort s p).reqKind) (takeMsg p 4 s))
      ∧ exec (.lowEnter p tag) s = .next (goQuiet p (min 2 (getPort s p).reqKind) (takeMsg p 6 s)))
    ∧ ((getPort s p).reqKind = 0 →
      (∃ t, exec (.neapEnter p tag) s = .next t ∧ answered 1 t) ∧ (∃ t, exec (.lowEnter p tag) s = .next t ∧ answered 2 t)))
  ∧ (∀ (s : State) (p tag code : Nat), linkRuns s p = true → (getPort s p).reqTag = tag → code ≤ 1 →
    let ended (kind : Nat) (u : State) : State := if code = 0 then goQuiet p kind u else onPort p (fun x => { x with reqKind := 0 }) u
    ((getPort s p).reqKind = 1 → exec (.neapReply p tag code) s = .next (ended 1 (takeMsg p 5 s)))
    ∧ ((getPort s p).reqKind = 2 → exec (.lowReply p tag code) s = .next (ended 2 (takeMsg p 7 s))))
  ∧ (∀ (s : State) (p : Nat), linkRuns s p = true → (getPort s p).reqKind ≠ 0 → (getPort s p).reqAt + 2000 ≤ s.tide.now →
    exec (.lanePowerRequestRetry p) s = .next (
      if (getPort s p).reqTries < 3 ∧ portQuiet s p = true then askPower p (getPort s p).reqKind ((getPort s p).reqTries + 1) s
      else onPort p (fun x => { x with reqKind := 0 }) s))
  ∧ (∀ (s : State) (p : Nat), linkRuns s p = true → (getPort s p).lstate = .run → (getPort s p).reqKind = 0 → portQuiet s p = true →
    isAttach s p = false → mayQuiet s p 1 = true → neapExit (getPort s p).rate ≤ s.pwr.lmin →
    (getPort s p).link.dataAt + max 1000 (10 * neapExit (getPort s p).rate) ≤ s.tide.now →
    exec (.idleStateDecision false p) s = .next (askPower p 1 1 s))
  ∧ (∀ (s : State) (p : Nat), linksOn s = true →
    ((getPort s p).lstate = .neap → exec (.neapWake p) s =
      .next (precodersAfresh p (onPort p (fun x => { x with lstate := .run, link := { x.link with goodAt := s.tide.now } }) s)))
    ∧ ((getPort s p).lstate = .lowWater → exec (.lowWaterWake p) s = .next (toDetect p s)))
  ∧ (∀ (s : State) (r : Nat), regsLive s = true → r < s.pwr.rgns.length →
    ((getRgn s r).gated = false → r ∉ usedRegions s → 2000 ≤ s.pwr.lmin → (getRgn s r).idleAt + 1000000 ≤ s.tide.now →
      exec (.idleStateDecision true r) s = .next (onRgn r (fun x => { x with gated := true, gatedAt := s.tide.now, opening := false }) s))
    ∧ ((r / 4, r % 4) ∈ s.part.disabled → exec (.regionGateOpen r) s = .next s)
    ∧ ((getRgn s r).gated = true → (r / 4, r % 4) ∉ s.part.disabled → (getRgn s r).opening = true ∨ s.pwr.lmin < 2000 → exec (.regionGateOpen r) s =
      .next (onRgn r (fun x => { x with gated := false, opening := false, idleAt := s.tide.now }) s))
    ∧ exec (.droopCrossing r) s = .next (onRgn r (fun x => { x with
        ebb := true, ebbAt := if x.ebb then x.ebbAt else s.tide.now, ebbLast := s.tide.now }) s)
    ∧ ((getRgn s r).ebb = true → (getRgn s r).ebbLast + 1000 ≤ s.tide.now → ∃ t, exec (.ebbRelease r) s = .next t
      ∧ (getRgn t r).ebb = false ∧ ctrOf t.obs (kRegion r iEBB_TIME) = ctrOf s.obs (kRegion r iEBB_TIME) ∧ (∀ k, k ≠ r → (getRgn t k).ebb = (getRgn s k).ebb))
    ∧ (100000 < ebbInWindow s r → (getRgn s r).heavyAt ≠ some (s.tide.now / 1000000) → exec (.ebbHeavyWindow r) s =
      .next (postDev 0x60 (bytesLE 1 r ++ bytesLE 4 (ebbInWindow s r)) (onRgn r (fun x => { x with heavyAt := some (s.tide.now / 1000000) }) s))))

/-- Erosion and temperature (R552 to R556, R559): a low MARGIN adds a pacing step, a negative one that no step or voltage can
mend retires the region's arrays; a re-plan raises the supply by 5 mV for each step held, up to 40 mV; 100 °C warns and 115 °C
ends in CLIFF. -/
def Obligations.ErosionAndTemperature : Prop :=
  (∀ (s : State) (r : Nat) (margin : Int) (life : Nat), regsLive s = true → r < 16 → r < s.pwr.rgns.length → 8760 ≤ life * 10 →
    let x := getRgn s r
    (measureDue s r = false → exec (.erosionMeasure r margin life) s = .next s)
    ∧ (measureDue s r = true → ¬ (margin < 0 ∧ nth s.pwr.vofs (r / 4) 0 = 40 ∧ x.pace = 16) →
      exec (.erosionMeasure r margin life) s = .next (onRgn r (fun y => { y with
        measuredAt := some s.tide.now, margin := margin, life := life, pace := if margin < 80 ∧ y.pace < 16 then y.pace + 1 else y.pace }) s))
    ∧ (measureDue s r = true → margin < 0 → nth s.pwr.vofs (r / 4) 0 = 40 → x.pace = 16 → ∃ t, exec (.erosionMeasure r margin life) s = .next t
      ∧ t.flt.storm = true ∧ ∀ a ∈ regionArrays s r, a ∈ t.part.retired))
  ∧ (∀ (s : State) (d : Nat) (margins : List (Nat × Int × Int)), regsLive s = true → d < s.pwr.vofs.length → replanOver s d = true →
    ∃ t, exec (.erosionReplan d margins) s = .next t
      ∧ nth t.pwr.vofs d 0 = min 40 (nth s.pwr.vofs d 0 + 5 * (dieRgns d).foldl (fun n r => max n (getRgn s r).pace) 0)
      ∧ (∀ k, k ≠ d → nth t.pwr.vofs k 0 = nth s.pwr.vofs k 0)
      ∧ (s.pwr.replanArmed = true → s.pwr.replanHi.toNat * 2 ^ 32 + s.pwr.replanLo.toNat ≤ s.tide.now →
          t.pwr.replanArmed = false ∧ t.pwr.replanHi = 0 ∧ t.pwr.replanLo = 0))
  ∧ (∀ (s : State) (n : Nat) (temp : Int), regsLive s = true → n < 29 →
    ∃ t, exec (.thermalSample n temp) s = .next t
      ∧ (460 ≤ temp → t.dev.state = .cliff ∧ t.flt.cliffSrc = 0x37)
      ∧ (temp < 460 → t.dev.state = s.dev.state ∧ t.flt = s.flt)
      ∧ (400 ≤ temp → (n < 16 → n < s.pwr.rgns.length) → t.pwr.thermWarn = true))
  ∧ (∀ (s : State) (hi : Word), regsLive s = true → s.dev.state ≠ .boot →
    exec (.pwrReplanWrite hi) s = .next (onPwr (fun p => { p with replanHi := hi, replanArmed := hi != 0 || p.replanLo != 0 }) s))

/-- The peer exchange in KEYING (R529 to R533): HELLO and CERT are kept and checked, and CERT is answered with PROOF; a PROOF
that verifies gives the link keys and discards the ephemeral key; a FINISH that verifies fixes the switch pair. Anything else
aborts with the cause of R533, and an abort takes the port out of KEYING. The switch to RUN and measurements (R527, R529, R532,
R534, R535): a direction switches at the first flit slot of its pair, and with both switched the port is in RUN with its peer
recorded; a MEAS_REQ is answered at once and a MEAS_RSP is kept. -/
def Obligations.PeerExchangeInKeying : Prop :=
  ((∀ (s u : State) (port : Nat) (p : Packet) (m : List Byte), (getPort s port).lstate = .keying →
     let e := (getPort u port).peer
     (MessageWhole s 0x20 port p m u → exec (.hello port p) s = .next (
       if m.length = 80 ∧ byteAt m 2 = 1 ∧ helloRole m ≤ 1 ∧ e.hello = [] ∧ helloNonce m ≠ helloNonce e.myHello then
         onPeer port (fun x => { x with hello := m }) u
       else abortPort port 1 u))
     ∧ (MessageWhole s 0x21 port p m u → e.hello ≠ [] → e.cert = [] → m.length ≤ 8194 →
       exec (.cert port p) s = .next (match certCause s e.hello (m.drop 2) with
         | some c => abortPort port c u
         | none =>
           let e' := { e with cert := m }
           let proof := peerMsg (aliasSign u (proofText e' (isEndA e')))
           sendMsg port 0x22 proof (onPeer port (fun _ => { e' with myProof := proof }) u)))
     ∧ (MessageWhole s 0x22 port p m u → e.cert ≠ [] → e.proof = [] → m.length = 66 →
       ∃ t n, exec (.proof port p) s = .next (
           if edVerify (leafKey (e.cert.drop 2)) (proofText e (!isEndA e)) (m.drop 2) = true then t else abortPort port 4 u) ∧
           let f := (getPort t port).peer
           let l := (getPort t port).link
           f.proof = m ∧ f.eph = [] ∧ f.h2 = sha (hash1 e ++ inAB e e.myProof m)
           ∧ f.prk = hmac f.h2 (x25519 e.eph (sliceB e.hello 48 32))
           ∧ l.keyTx = expandKey f.prk (dirLabel (isEndA e) "key") 32 ∧ l.keyRx = expandKey f.prk (dirLabel (!isEndA e) "key") 32
           ∧ l.saltTx = expandKey f.prk (dirLabel (isEndA e) "salt") 4 ∧ l.saltRx = expandKey f.prk (dirLabel (!isEndA e) "salt") 4
           ∧ f.switchTx = some n ∧ pairOf u port + switchDistance (getPort u port).rate ≤ n)
     ∧ (MessageWhole s 0x23 port p m u → e.proof ≠ [] → e.switchRx = none → m.length = 70 →
       exec (.finish port p) s = .next (
         if m.drop 6 = finishMac e (!isEndA e) (leAt m 2 4) then onPeer port (fun x => { x with switchRx := some (leAt m 2 4) }) u
         else abortPort port 5 u))
     ∧ (MessageWhole s 0x24 port p m u →
       exec (.abort port p) s = .next (declareDown port 2 false (noteAbort port (byteAt m 2) true u))))
   ∧ (∀ (s : State) (port ctype : Nat) (p : Packet) (c : Instr),
     (c = .hello port p ∧ ctype = 0x20) ∨ (c = .cert port p ∧ ctype = 0x21) ∨ (c = .proof port p ∧ ctype = 0x22)
       ∨ (c = .finish port p ∧ ctype = 0x23) ∨ (c = .abort port p ∧ ctype = 0x24) →
     linkRuns s port = true → (getPort s port).lstate = .keying → p.ctype = ctype →
     takeSegment port ctype p (takeDelivered port p s) = none →
     exec c s = .next (abortPort port 1 (takeDelivered port p s)))
   ∧ (∀ (s : State) (port : Nat), linkRuns s port = true → (getPort s port).lstate = .keying →
     (getPort s port).peer.startAt + 5000000 ≤ s.tide.now → exec (.keyingTimeout port) s = .next (abortPort port 6 s))
   ∧ (∀ (s : State) (port cause : Nat), linkRuns s port = true → (getPort s port).lstate = .keying →
     let t := abortPort port cause s
     (getPort t port).lstate ∈ [LState.detect, .down] ∧ (getPort t port).peer.runTx = false ∧ (getPort t port).peer.runRx = false
     ∧ (2 ≤ ((getPort s port).peer.aborts.filter (fun a => s.tide.now < a + 1000000000)).length →
         (getPort t port).peer.held = true ∧ (getPort t port).lstate = .down)))
  ∧ ((∀ (s : State) (p n : Nat), linkRuns s p = true → (getPort s p).lstate = .keying →
     let e := (getPort s p).peer
     (e.runTx = false → e.switchTx = some n → 5 * portWidth s p * n ≤ (getPort s p).link.slotTx → finishWaits (getPort s p).link = false →
       ∃ t, exec (.linkRunSwitch p true) s = .next t ∧ (getPort t p).peer.runTx = true ∧ (getPort t p).link.slotTx = 0
         ∧ (getPort t p).lstate = (if e.runRx = true then .run else .keying)
         ∧ (e.runRx = true → (getPort t p).peer.role = some (helloRole e.hello) ∧ (getPort t p).peer.epid = helloEpid e.hello % 2 ^ 18
             ∧ (getPort t p).peer.leaf = leafKey (e.cert.drop 2) ∧ t.shoal.everRun = true))
     ∧ (e.runRx = false → e.switchRx = some n → 5 * portWidth s p * n ≤ (getPort s p).link.slotRx →
       ∃ t, exec (.linkRunSwitch p false) s = .next t ∧ (getPort t p).peer.runRx = true ∧ (getPort t p).link.slotRx = 0
         ∧ (getPort t p).lstate = (if e.runTx = true then .run else .keying)
         ∧ (e.runTx = true → (getPort t p).peer.role = some (helloRole e.hello))))
   ∧ (∀ (s u : State) (port : Nat) (p : Packet) (m : List Byte), portRun s port = true →
     (MessageWhole s 0x25 port p m u → m.length = 36 → (getPort u port).link.tx.all (fun x => x.pkt.ctype != 0x26) = true → s.stop.frozen = false →
       exec (.measReq port p) s = .next (sendMsg port 0x26 (measAnswer u (sliceB m 2 32) (leAt m 34 2)) u))
     ∧ (MessageWhole s 0x26 port p m u → exec (.measRsp port p) s = .next (onPeer port (fun e => { e with measured := m }) u))))

/-- The two ends of a link agree (R530 to R532): from the same four messages both derive one H1, take opposite parts, verify the
text that the other signs, and expect the FINISH that the other sends. Segments (R529): a message of LEN bytes, cut into
segments of 12 bytes and taken in order by a port that holds no message in reception, comes out as it was. -/
def Obligations.BothEndsDeriveTheSameExchange : Prop :=
  (∀ (e f : Peer), helloNonce e.myHello ≠ helloNonce e.hello →
     f.myHello = e.hello → f.hello = e.myHello → f.myCert = e.cert → f.cert = e.myCert →
     isEndA f = !isEndA e ∧ hash1 f = hash1 e
     ∧ proofText f (!isEndA f) = proofText e (isEndA e)
     ∧ (f.prk = e.prk → f.h2 = e.h2 → ∀ pair, finishMac f (!isEndA f) pair = finishMac e (isEndA e) pair))
  ∧ (∀ (s : State) (port ctype : Nat) (m : List Byte), ctype < 2 ^ 8 → 3 ≤ m.length → m.length ≤ 49152 → leAt m 0 2 = m.length →
     (getPort s port).peer.segs = none →
     let last := ceilDiv m.length 12 - 1
     let seg (k : Nat) : Packet := ctlPkt vcCTRL 0 0 0 (segBody ctype k last (sliceB m (12 * k) 12))
     let took := (List.range (last + 1)).foldl (fun (acc : Option (State × Option (List Byte))) k =>
       acc.bind (fun a => if a.2 = none then takeSegment port ctype (seg k) a.1 else none)) (some (s, none))
     took.map (·.2) = some (some m))

/-- Reads and settings of Tide (R441, R442, R445, R447, R449, R592): a read of a low half latches the upper half; TIDE_SET is
refused to a SLAVE, backward and off the edges of the pin, waits for the edge with the pin as source, and else loads at once,
every timer keeping what it has measured; TIDE_CFG sets the role and starts alignment anew; a SLAVE takes the first parent in
RUN or goes to HOLDOVER; TIDE_SYNC_OUT is high for 100 ns from each millisecond with OUT_EN set, and low with it clear.
Alignment (R362, R443, R444, R448): a TIDE_SYNC is answered with TIDE_ECHO; an exchange with the parent within 20 µs gives a θ
of half the difference of its two ways, of which the last eight are averaged; a mean above 1,000 ns in ACQUIRE steps the counter
forward; an edge of the pin loads a waiting TIDE_SET or gives θ against the nearest millisecond; the third missing edge ends in
HOLDOVER. -/
def Obligations.TideRegistersAndAlignment : Prop :=
  ((∀ s : State, regsLive s = true →
     exec .tideNowRead s = .next (onTide (fun x => { x with nowHi := x.now / 2 ^ 32 }) s)
     ∧ exec .devEnterRead s = .next (onDev (fun d => { d with enterHi := d.enterTide / 2 ^ 32 }) s))
   ∧ (∀ (s : State) (hi : Word), regsLive s = true → s.dev.state ≠ .boot →
     let v := hi.toNat * 2 ^ 32 + s.tide.setLo.toNat
     let pin := s.tide.role == 1 && s.tide.pinSrc
     let refused := decide (s.tide.role = 2) || decide (v < s.tide.now) || (pin && decide (v % 1000000 ≠ 0))
     (refused = true → exec (.tideSetWrite hi) s = .next (onTide (fun x => { x with setHi := hi, setRej := true, setRejAt := some s.tide.now }) s))
     ∧ (refused = false → pin = true →
         exec (.tideSetWrite hi) s = .next (onTide (fun x => { x with setHi := hi, pendingSet := some v }) s))
     ∧ (refused = false → pin = false → s.tide.now < v → ∃ t, exec (.tideSetWrite hi) s = .next t
         ∧ t.tide.now = v ∧ t.tide.stepped = true ∧ t.flt.wdAt = s.flt.wdAt + (v - s.tide.now)
         ∧ t.groups.length = s.groups.length ∧ t.host.mem = s.host.mem
         ∧ t.dev = { s.dev with bcnAt := s.dev.bcnAt + (v - s.tide.now) } ∧ t.shoal.slices = s.shoal.slices
         ∧ (∀ p x, mget s.net.ports p = some x → ∃ y, mget t.net.ports p = some y ∧ y.lstate = x.lstate
             ∧ y.link.goodAt = x.link.goodAt + (v - s.tide.now) ∧ y.link.tx = x.link.tx)))
   ∧ (∀ (s : State) (v : Word), regsLive s = true → s.dev.state ≠ .boot → ∃ t, exec (.tideRoleWrite v) s = .next t
     ∧ t.tide.role = (if fld v 31 30 = 3 then s.tide.role else fld v 31 30) ∧ t.tide.pinSrc = bitAt v 29 ∧ t.tide.outEn = bitAt v 28
     ∧ t.tide.now = s.tide.now ∧ t.tide.samples = []
     ∧ t.tide.tstate = (if t.tide.role = 0 then .free else if t.tide.role = 2 ∧ parentOf s = 3 then .holdover else .acquire))
   ∧ (∀ s : State, linksOn s = true → s.tide.role = 2 → ∃ t, exec .tideParentLoss s = .next t ∧ t.tide.src = parentOf s
     ∧ t.tide.tstate = (if parentOf s = 3 ∧ (s.tide.tstate = .acquire ∨ s.tide.tstate = .locked) then .holdover
         else if parentOf s < 3 ∧ s.tide.tstate = .holdover then .acquire else s.tide.tstate))
   ∧ (∀ s : State,
     let edge := s.tide.now / 1000000 * 1000000
     (s.tide.outEn = false → tideSyncOut s = false)
     ∧ (s.tide.outEn = true → s.tide.outAt ≤ edge → s.tide.steppedAt.getD 0 ≤ edge →
         (tideSyncOut s = true ↔ s.tide.now % 1000000 < 100))))
  ∧ (let aligned (s : State) (p : Nat) : Prop := linkRuns s p = true ∧ portRun s p = true ∧ s.tide.role = 2 ∧ s.tide.src < 3
     ∧ parentOf s = s.tide.src ∧ s.tide.tstate ≠ .holdover ∧ parentPort s = some p
   let result (s t : State) (up down : Nat × Nat) : Prop :=
     let theta : Int := 8 * (((up.2 : Int) - up.1) - ((down.2 : Int) - down.1))
     let f := mean ((theta :: s.tide.samples.map (·.1)).take 8)
     t.tide.up = none ∧ t.tide.down = none ∧ t.tide.theta = f
     ∧ (s.tide.tstate = .acquire → 16000 < f → (t.tide.now : Int) = s.tide.now + f / 16)
     ∧ (s.tide.tstate ≠ .acquire ∨ f ≤ 16000 → t.tide.now = s.tide.now)
     ∧ (s.tide.tstate = .acquire → f ≤ 16000 → theta.natAbs ≤ 32 → 15 ≤ s.tide.good → t.tide.tstate = .locked)
     ∧ (s.tide.tstate = .locked → 320 < theta.natAbs → 3 ≤ s.tide.bad → t.tide.tstate = .acquire)
   (∀ (s : State) (p sent arrived : Nat), linkRuns s p = true → portRun s p = true →
     ∃ t, exec (.tideSync p sent arrived) s = .next t
       ∧ (getPort t p).link.msgs = (getPort s p).link.msgs.filter (fun m => byteAt m 0 != 2) ++ [linkMsg 2 (bytesLE 8 sent) (bytesLE 8 arrived)])
   ∧ (∀ (s : State) (p sent arrived : Nat), aligned s p →
     (∀ u, s.tide.up = some u → u.2.2 ≤ s.tide.now → s.tide.now ≤ u.2.2 + 20000 →
       ∃ t, exec (.tideSync p sent arrived) s = .next t ∧ result s t (u.1, u.2.1) (sent, arrived))
     ∧ (∀ w, s.tide.down = some w → w.2.2 ≤ s.tide.now → s.tide.now ≤ w.2.2 + 20000 →
       ∃ t, exec (.tideEcho p sent arrived) s = .next t ∧ result s t (sent, arrived) (w.1, w.2.1))
     ∧ (s.tide.down = none → exec (.tideEcho p sent arrived) s = .next (onTide (fun x => { x with up := some (sent, arrived, x.now) }) (takeMsg p 2 s))))
   ∧ (∀ s : State, regsLive s = true → s.tide.role = 1 → s.tide.pinSrc = true →
     (∀ v, s.tide.pendingSet = some v → s.tide.now < v → ∃ t, exec .tideSyncInEdge s = .next t
       ∧ t.tide.now = v ∧ t.tide.pendingSet = none ∧ t.tide.missing = 0)
     ∧ (s.tide.pendingSet = none → ∃ t, exec .tideSyncInEdge s = .next t ∧ t.tide.missing = 0
       ∧ t.tide.theta = mean (((16 * ((nearestMs s.tide.now : Int) - s.tide.now)) :: s.tide.samples.map (·.1)).take 8))
     ∧ (∃ t, exec .tideSyncInMissing s = .next t ∧ t.tide.missing = s.tide.missing + 1
       ∧ t.tide.tstate = (if 2 ≤ s.tide.missing ∧ (s.tide.tstate = .acquire ∨ s.tide.tstate = .locked) then .holdover else s.tide.tstate))))

/-- Launches (R452 to R454): TIDE_LAUNCH names a job with bound attachment ports, or ends BAD, and sends a LAUNCH on each of
them that carries packets; a LAUNCH_ACK of no launch is counted in LAUNCH_STRAY; the last answer, or T + 10 µs, ends the launch:
DONE where every port answered DONE, else TIMEOUT, with both counts in RESULT. -/
def Obligations.Launches : Prop :=
  (∀ (s : State) (r i : Nat) (d : Desc), Ready s r i 0x08 d →
    let job := fld d.op 295 288
    let ports := launchPorts s job
    let bad := !onlyBits d.op [(383, 320), (319, 296), (295, 288), (287, 256)] || decide (job = 0) || ports.isEmpty
    (bad = true → exec (.tideLaunch r i) s = .next (answer d 0x09 0 s))
    ∧ (bad = false → ∃ t, exec (.tideLaunch r i) s = .next t
      ∧ t.launches = s.launches ++ [{ id := fld d.op 319 296, mark := fld d.op 383 320, ports := ports, desc := (r, i) }]
      ∧ t.route.outbox.length = s.route.outbox.length + (ports.filter (fun p => linkUp s p)).length
      ∧ t = { s with launches := t.launches, route := t.route, host := t.host } ∧ t.host.mem = s.host.mem ∧ t.host.rings = s.host.rings))
  ∧ (∀ (s : State) (port : Nat) (p : Packet), engineFor s port p = true → p.ptype = 0 → p.ctype = 0x02 →
    let u := freeAll ((deliveredAt s port p).filter (fun b => decide (b.1 < 4))) (takeDelivered port p s)
    let hit := u.launches.find? (fun l => l.id == fld p.ctl 119 96 && l.ports.contains port && !l.answered.contains port && !l.late.contains port)
    (hit = none → exec (.launchAck port p) s = .next (count kLAUNCH_STRAY u))
    ∧ (∀ l, hit = some l →
      let l' := if fld p.ctl 31 24 = 0 then { l with answered := l.answered ++ [port] } else { l with late := l.late ++ [port] }
      let v : State := { u with launches := u.launches.map (fun x => if x.desc = l.desc then l' else x) }
      exec (.launchAck port p) s = .next (if l.answered.length + l.late.length + 1 = l.ports.length then endLaunch l' v else v)))
  ∧ (∀ (s : State) (id : Nat) (l : Launch), engineOn s = true →
    s.launches.find? (fun x => x.id == id && decide (x.mark + 10000 ≤ s.tide.now)) = some l →
    exec (.launchDeadline id) s = .next (endLaunch l s))
  ∧ (∀ (s : State) (l : Launch),
    let left := l.ports.filter (fun p => !l.answered.contains p)
    ∃ u, endLaunch l s = finishDesc l.desc (if left = [] then 0x00 else 0x07) (l.ports.length + left.length * 2 ^ 32) u
      ∧ u.launches = s.launches.filter (fun x => !(x.desc == l.desc)) ∧ u.host.accepted = s.host.accepted
      ∧ (left = [] → u = { s with launches := u.launches }))

/-- The stop (R178, R455 to R460): STOP_AT arms one stop in RUN; at its Tidemark, or at the first STOP_MARK, the data path
freezes and memories stand, once the applies due by then have begun; with every port drained, or 100 µs after the cut, the Q7 is
STOPPED, the stop FAILED where a link's counts differ or a port is not drained. The resume (R461, R465 to R467): STOP_RESUME and
RESUME schedule it at the first R to come and pass it on to every port in RUN; at R the device is back in the state it stopped
in, timers and Tidemarks move by what the stop took, and each waiting STOP_RESUME completes DONE. -/
def Obligations.SlackWaterStopsAndResumes : Prop :=
  ((∀ (s : State) (r i : Nat) (d : Desc), Ready s r i 0x09 d →
     exec (.stopAt r i) s = .next (
       if onlyBits d.op [(383, 320), (319, 304)] = false ∨ fld d.op 319 304 = 0 then answer d 0x09 0 s
       else if s.dev.state ≠ .run ∨ s.stop.sstate ≠ .idle then answer d 0x0B 0 s
       else settleDesc d [] (.wait .scheduled) (onStop (fun t => { t with
         sstate := .armed, stopId := fld d.op 319 304, mark := fld d.op 383 320, armedBy := some (r, i) }) s)))
   ∧ (∀ s : State, s.stop.sstate = .armed → s.dev.state = .run → s.stop.mark ≤ s.tide.now →
     let u := forAll (appliesDue s s.stop.mark) beginApply s
     ∃ t, exec .stopCutTidemark s = .next t ∧ t.stop.sstate = .cut ∧ t.stop.frozen = true ∧ t.stop.byMark = false
       ∧ t.stop.stopId = s.stop.stopId ∧ t.stop.mark = s.stop.mark ∧ t.stop.cutAt = u.tide.now ∧ t.stop.before = u.dev.state
       ∧ t.stop.ports.map (·.port) = runPorts u
       ∧ t.dev = u.dev ∧ t.groups = u.groups ∧ t.emb = u.emb ∧ t.mem = u.mem ∧ t.shoal = u.shoal ∧ t.part = u.part
       ∧ (appliesDue s s.stop.mark = [] → u = s ∧ t.stop.armedBy = s.stop.armedBy))
   ∧ (∀ (s : State) (port : Nat) (p : Packet), regsLive s = true → engineOn s = true → s.stop.sstate = .idle →
     p.ptype = 0 → p.ctype = 0x08 → linkUp s port = true →
     let u := forAll (appliesDue s (fld p.ctl 103 40)) beginApply (takeDelivered port p s)
     ∃ t, exec (.stopMark port p) s = .next t ∧ t.stop.sstate = .cut ∧ t.stop.frozen = true ∧ t.stop.byMark = true
       ∧ t.stop.stopId = fld p.ctl 119 104 ∧ t.stop.mark = fld p.ctl 103 40 ∧ t.stop.before = u.dev.state
       ∧ (∀ e ∈ t.stop.ports, e.port = port → e.gotMark = true ∧ e.pktsField = fld p.ctl 39 8 ∧ e.rxAtMark = (getPort u port).pktsRx)
       ∧ t.groups = u.groups ∧ t.emb = u.emb ∧ t.mem = u.mem
       ∧ (appliesDue s (fld p.ctl 103 40) = [] → t.groups = s.groups ∧ t.emb = s.emb ∧ t.mem = s.mem ∧ t.stop.before = s.dev.state))
   ∧ (∀ s : State, s.stop.sstate = .cut → s.dev.state = .run ∨ s.dev.state = .train →
     let left := (s.stop.ports.filter (fun e => !portDrained s e)).length
     let diff := s.stop.ports.any (fun e => e.gotMark && e.pktsField != e.rxAtMark)
     left = 0 ∨ s.stop.cutAt + 100000 ≤ s.tide.now →
     ∃ t, exec .stopSettle s = .next t ∧ t.dev.state = .stopped ∧ t.dev.prev = s.dev.state ∧ t.stop.settledAt = s.tide.now
       ∧ t.stop.sstate = (if diff = true ∨ left ≠ 0 then .failed else .settled) ∧ t.stop.openPorts = left ∧ t.stop.frozen = s.stop.frozen
       ∧ (∀ r i, s.stop.armedBy = some (r, i) → findDesc t r i = none)))
  ∧ ((∀ (s : State) (r i : Nat) (d : Desc), Ready s r i 0x0A d →
     let id := fld d.op 319 304
     let result := match s.stop.resumeAt with
       | some r0 => if s.stop.resumeTaken < s.tide.now then r0 else 0
       | none => 0
     exec (.stopResume r i) s = .next (
       if onlyBits d.op [(383, 320), (319, 304)] = false then answer d 0x09 0 s
       else if stopHolds s id = true then settleDesc d [] (.wait .running) (onStop (fun t => { t with
         resumers := t.resumers ++ [(r, i, result)] }) (takeResume (fld d.op 383 320) s))
       else match s.stop.lastDone with
         | some l => if l.1 = id then answer d 0x00 l.2 s else answer d 0x0B 0 s
         | none => answer d 0x0B 0 s))
   ∧ (∀ (s : State) (at0 : Nat), s.stop.resumeAt = none →
     let t := takeResume at0 s
     t.stop.resumeAt = some at0 ∧ t.stop.resumeTaken = s.tide.now ∧ (∀ p ∈ runPorts s, p ∈ t.stop.resumed)
     ∧ (∀ p ∈ runPorts s, p ∉ s.stop.resumed → (getPort t p).pktsTx = 0 ∧ (getPort t p).pktsRx = 0))
   ∧ (∀ (s : State) (port : Nat) (p : Packet), regsLive s = true → p.ptype = 0 → p.ctype = 0x09 → linkUp s port = true →
     ∃ t, exec (.resume port p) s = .next t ∧ (getPort t port).pktsTx = 0 ∧ (getPort t port).pktsRx = 0
       ∧ (stopHolds s (fld p.ctl 119 104) = false → t.stop = s.stop)
       ∧ (stopHolds s (fld p.ctl 119 104) = true → s.stop.resumeAt = none → t.stop.resumeAt = some (fld p.ctl 103 40)
           ∧ port ∈ t.stop.resumed ∧ ∀ q ∈ runPorts s, q ∈ t.stop.resumed))
   ∧ (∀ (s : State) (at0 : Nat), stopHolds s s.stop.stopId = true → s.stop.resumeAt = some at0 → at0 ≤ s.tide.now →
     ∃ t, exec .resumeTidemark s = .next t ∧ t.stop.sstate = .idle ∧ t.dev.state = s.stop.before ∧ t.stop.resumeAt = none
       ∧ t.stop.resumers = [] ∧ t.stop.lastDone = some (s.stop.stopId, at0)
       ∧ (s.stop.before ≠ .cliff → ∀ w ∈ s.stop.resumers, findDesc t w.1 w.2.1 = none)
       ∧ (s.flt.deferred = [] →
           let move : Int := (max at0 s.stop.resumeTaken : Nat) - (s.stop.mark : Int)
           t.stop.frozen = false ∧ t.launches = s.launches.map (fun l => { l with mark := moved move l.mark })
           ∧ t.mem.outst.map (·.at_) = s.mem.outst.map (fun o => moved ((s.tide.now : Int) - s.stop.cutAt) o.at_))))

/-- State images (R468 to R470): STATE_SAVE writes the bytes asked for of the stop's image and nothing else; STATE_RESTORE takes
an image piece by piece, and commits it whole, to STOPPED and settled with the image's stop, or not at all. -/
def Obligations.StateImages : Prop :=
  (∀ (s : State) (r i : Nat) (d : Desc), Ready s r i 0x0B d →
    let off := fld d.op 287 224
    let len := fld d.op 319 288
    exec (.stateSave r i) s = .next (
      if onlyBits d.op [(383, 320), (319, 288), (287, 224), (223, 208)] = false ∨ fld d.op 325 320 ≠ 0 then answer d 0x09 0 s
      else match s.sec.cfg.saveKey with
        | none => answer d 0x08 0 s
        | some key =>
          if s.stop.sstate = .failed then answer d 0x06 0 s
          else if s.stop.sstate ≠ .settled ∨ s.stop.stopId ≠ fld d.op 223 208 then answer d 0x0B 0 s
          else
            let img := imageOf key s
            if img.length < off + len then answer d 0x08 img.length s
            else answer d 0x00 img.length (hostWrite d.func (fld d.op 383 320) (sliceB img off len) s)))
  ∧ (∀ (s : State) (r i : Nat) (bytes : List Byte) (d : Desc), Ready s r i 0x0C d →
    let bad := !onlyBits d.op [(383, 320), (319, 288), (287, 224), (223, 208)] || decide (fld d.op 325 320 ≠ 0)
      || decide (fld d.op 223 208 ≠ 0) || decide (fld d.op 287 224 ≠ s.restoring.length)
    let now := s.restoring ++ sliceB bytes 0 (fld d.op 319 288)
    let total := leAt now 16 8
    (restoreOk s = false → exec (.stateRestore r i bytes) s = .next (answer d 0x0B 0 { s with restoring := [] }))
    ∧ (restoreOk s = true → bad = true → exec (.stateRestore r i bytes) s = .next (answer d 0x09 0 { s with restoring := [] }))
    ∧ (restoreOk s = true → bad = false → s.sec.cfg.saveKey = none →
        exec (.stateRestore r i bytes) s = .next (answer d 0x08 0 { s with restoring := [] }))
    ∧ (∀ key, restoreOk s = true → bad = false → s.sec.cfg.saveKey = some key →
        exec (.stateRestore r i bytes) s = .next (
          if now.length < 24 then answer d 0x00 0 { s with restoring := now }
          else if total < 256 ∨ total < now.length then answer d 0x09 0 { s with restoring := [] }
          else if now.length < total then answer d 0x00 0 { s with restoring := now }
          else answer d (commitImage key { s with restoring := now }).2 0 (commitImage key { s with restoring := now }).1)))
  ∧ (∀ (s : State) (key : List Byte),
    let out := commitImage key s
    let t := out.1
    (out.2 ≠ 0 → t = { s with restoring := [] })
    ∧ (out.2 = 0 → t.dev.state = .stopped ∧ t.stop.sstate = .settled ∧ t.stop.frozen = true ∧ t.restoring = []
        ∧ t.stop.stopId = leAt s.restoring 6 2 ∧ t.stop.mark = leAt s.restoring 8 8 ∧ leAt s.restoring 24 4 = selfEpid s
        ∧ t.tide = s.tide ∧ t.sec = s.sec ∧ t.flt = s.flt))

/-- Snapshots (R566 to R569): SNAPSHOT_AT arms one of sixteen windows; at its Tidemark every selected counter and gauge is
captured in one instant and the window is READY with the next SEQ. Counter resets and telemetry (R570 to R572, R574): a reset
takes its instances to zero and their GEN forward, at once where its Tidemark has passed, else at it; a drain writes the bytes
of a READY window and nothing else. -/
def Obligations.SnapshotsAndCounterResets : Prop :=
  ((∀ (s : State) (r i : Nat) (d : Desc), Ready s r i 0x10 d →
     let w := fld d.op 319 316
     let scope := fld d.op 315 312
     let first := fld d.op 311 280
     let cnt := fld d.op 279 248
     exec (.snapshotAt r i) s = .next (
       if fld d.op 247 0 ≠ 0 ∨ rangeOk scope first cnt = false then answer d 0x09 0 s
       else if 2 ^ 21 < 64 + cnt * (24 + 8 * scopeCtrs scope) ∨ 16 ≤ s.obs.snaps.length then answer d 0x08 0 s
       else if (getWindow s w).pend = true then answer d 0x0B 0 s
       else settleDesc d [] (.wait .scheduled) (onWindow w (fun x => { x with pend := true, state := if x.state = 0 then 1 else x.state })
         (onObs (fun o => { o with snaps := o.snaps ++ [{
           window := w, scope := scope, first := first, count := cnt, mark := fld d.op 383 320, desc := (r, i),
           fixed := s.dev.state == .stopped }] }) s))))
   ∧ (∀ (s : State) (w : Nat) (x : Snap), regsLive s = true → s.obs.snaps.find? (fun y => y.window == w) = some x → markDue s x = true →
     ∃ t, exec (.snapshotCapture w) s = .next t ∧
       let insts := ((List.range x.count).map (· + x.first)).filter (instanceExists s x.scope)
       let v := getWindow t w
       v.state = 3 ∧ v.pend = false ∧ v.seq = (getWindow s w).seq + 1 ∧ v.mark = x.mark ∧ v.taken = s.tide.now ∧ v.scope = x.scope
       ∧ v.first = x.first ∧ v.count = x.count ∧ v.nrec = insts.length ∧ v.records = insts.flatMap (instanceRecord s x.scope)
       ∧ t.obs.snaps = s.obs.snaps.filter (fun y => y.window != w)
       ∧ (∀ k, k ≠ w → getWindow t k = getWindow s k) ∧ t = { s with host := t.host, obs := t.obs }))
  ∧ ((∀ (s : State) (r i : Nat) (d : Desc), Ready s r i 0x11 d →
     let scope := fld d.op 315 312
     let x : Snap := {
       window := 0, scope := scope, first := fld d.op 311 280, count := fld d.op 279 248, mark := fld d.op 383 320, desc := (r, i),
       fixed := s.dev.state == .stopped }
     exec (.counterReset r i) s = .next (
       if fld d.op 247 0 ≠ 0 ∨ fld d.op 319 316 ≠ 0 ∨ rangeOk scope x.first x.count = false then answer d 0x09 0 s
       else if x.mark ≤ s.tide.now then answer d 0x00 0 (resetRange x s)
       else settleDesc d [] (.wait .running) (onObs (fun o => { o with resets := o.resets ++ [x] }) s)))
   ∧ (∀ (s : State) (x : Snap), regsLive s = true → s.obs.resets = [x] → markDue s x = true →
     (∀ y ∈ s.obs.snaps, markDue s y = false) →
     exec .counterResetTidemark s = .next (finishDesc x.desc 0x00 0 (resetRange x (onObs (fun o => { o with resets := [] }) s))))
   ∧ (∀ (s : State) (x : Snap) (n i : Nat), x.first ≤ n → n < x.first + x.count →
     let t := resetRange x s
     genOf t.obs (x.scope, n) = (genOf s.obs (x.scope, n) + 1) % 65536
     ∧ (x.scope ∉ [1, 2, 5] → ctrVal t (x.scope, n, i) = 0)
     ∧ (∀ scope m, scope ≠ x.scope ∨ m < x.first ∨ x.first + x.count ≤ m → ctrOf t.obs (scope, m, i) = ctrOf s.obs (scope, m, i)))
   ∧ (∀ (s : State) (r i : Nat) (d : Desc), Ready s r i 0x12 d →
     let addr := fld d.op 383 320
     let w := getWindow s (fld d.op 255 252)
     let seq := fld d.op 251 188
     exec (.telemetryDrain r i) s = .next (
       if fld d.op 187 0 ≠ 0 ∨ addr % 64 ≠ 0 then answer d 0x09 0 s
       else if w.state ≠ 3 ∨ (seq ≠ 0 ∧ seq ≠ w.seq) then answer d 0x0B 0 s
       else if 64 + w.records.length < fld d.op 287 256 + fld d.op 319 288 then answer d 0x08 0 s
       else answer d 0x00 (64 + w.records.length)
         (hostWrite d.func addr (sliceB (windowBytes s (fld d.op 255 252)) (fld d.op 287 256) (fld d.op 319 288)) s))))

/-- The collector (R25, R477, R480, R484, R486): the unit acts first; a record then sets LAST_SRC and its class bit, and one of
class Cliff enters CLIFF and writes the MRAM record unless it was forced; one whose bytes fail their parity is taken as source
0x34 (R479), and a bridge whose retries have failed as 0x31 too (R482); a reserved source does nothing, and in CLIFF and RESET
no record is taken; a failed cell's place is taken by the lowest unused spare. What the Q7 itself detects (R482, R484, R497,
R539, R602, R604): a checker that answers wrong, a watchdog not refreshed for 10 ms, a rail out of range and the loss of
MGMT_CLK or the Tide reference each enter CLIFF; the loss of a lane die's clock, of a PCIe clock and an uncorrectable PCIe error
are Storms; a stall is a Swell. -/
def Obligations.FaultsAreCollected : Prop :=
  ((∀ (s : State) (f : FaultRec), regsLive s = true →
     let u := if (s.stop.frozen && deferredSource f.source) = true then onFlt (fun t => { t with deferred := t.deferred ++ [f] }) s
       else unitAction f s
     exec (.faultRecord f) s = .next (
       if f.good = false then collect ⟨0x34, mkLoc 16 0 0, 0, f.tide, false, 0, true⟩ u
       else if f.source = 0x04 ∧ bridgeDead f s = true then collect ⟨0x31, f.loc, f.object, f.tide, f.forced, 0, true⟩ (collect f u)
       else collect f u))
   ∧ (∀ (s : State) (f : FaultRec) (c : FClass), regsLive s = true → classOf f.source = some c →
     let t := collect f s
     t.flt.lastSrc = f.source ∧ t.flt.ripple = (s.flt.ripple || c == .ripple) ∧ t.flt.swell = (s.flt.swell || c == .swell)
     ∧ t.flt.storm = (s.flt.storm || c == .storm)
     ∧ (c ≠ .cliff → t = { s with flt := t.flt, host := t.host, obs := t.obs } ∧ t.host.accepted = s.host.accepted
         ∧ t.flt.armed = s.flt.armed ∧ t.flt.mramCliff = s.flt.mramCliff)
     ∧ (c = .cliff → unitAction f s = s ∧ EnteredCliff s t f.source f.loc ∧ t.flt.cliffTide = f.tide
         ∧ t.flt.mramCliff = (if f.forced = true then s.flt.mramCliff else some (f.source, f.loc, f.tide))))
   ∧ (∀ (s : State) (f : FaultRec), (classOf f.source = none ∧ f.good = true) ∨ regsLive s = false → exec (.faultRecord f) s = .next s)
   ∧ (∀ (s : State) (f : FaultRec) (k : Nat),
     let d := locDie f.loc
     let u := locUnit f.loc
     regsLive s = true → s.stop.frozen = false → f.good = true → (f.source = 0x10 ∧ u < 8) ∨ (f.source = 0x11 ∧ 8 ≤ u) →
     arrayEnabled s d u = true → locSub f.loc < 512 → (d, u, locSub f.loc) ∉ s.part.badCells → nextSpare s d u = some k →
     ∃ t, exec (.faultRecord f) s = .next t ∧ (d, u, locSub f.loc, k) ∈ t.part.cellMap ∧ (d, u, locSub f.loc) ∈ t.part.badCells
       ∧ t.part.retired = s.part.retired))
  ∧ (∀ s : State, regsLive s = true →
     exec (.checkerSelfTest true) s = .next s
     ∧ (∃ t, exec (.checkerSelfTest false) s = .next t ∧ EnteredCliff s t 0x32 (mkLoc 16 0 0))
     ∧ exec .watchdogRefresh s = .next (onFlt (fun f => { f with wdAt := s.tide.now }) s)
     ∧ (s.flt.wdArmed = true → s.flt.wdAt + 10000000 ≤ s.tide.now →
         ∃ t, exec .watchdogExpiry s = .next t ∧ EnteredCliff s t 0x33 (mkLoc 16 0 0))
     ∧ (s.flt.wdArmed = false ∨ s.tide.now < s.flt.wdAt + 10000000 → exec .watchdogExpiry s = .next s)
     ∧ (∀ r, ∃ t, exec (.railFault r) s = .next t ∧ EnteredCliff s t 0x36 (mkLoc (railDie r) 0 0) ∧ r ∈ t.dev.railsOut)
     ∧ (∀ c, let u := onDev (fun d => { d with clocksAbsent := addNew d.clocksAbsent c }) s
         (c < 12 → exec (.clockLoss c) s = .next (collect ⟨0x24, mkLoc (4 + c) (64 * c) 0, 0, s.tide.now, false, 0, true⟩ (dieDown c u)))
         ∧ (c = 12 ∨ c = 13 → exec (.clockLoss c) s = .next (collect ⟨0x27, mkLoc 16 (c - 12) 0, 0, s.tide.now, false, 0, true⟩
             (doFlr (32 * (c - 12)) 0 (reportAer (c - 12) true u))))
         ∧ (14 ≤ c → c < 18 → exec (.clockLoss c) s = .next (stacksLost (c - 14) u) ∧ hbmLost u (c - 14) = true)
         ∧ (c = 18 ∨ c = 19 → ∃ t, exec (.clockLoss c) s = .next t ∧ EnteredCliff s t 0x35 (mkLoc 16 0 0) ∧ c ∈ t.dev.clocksAbsent))
     ∧ (∀ l, l < 2 → exec (.pcieUncorrectable l) s = .next (collect ⟨0x27, mkLoc 16 l 0, 0, s.tide.now, false, 0, true⟩ (doFlr (32 * l) 0 (reportAer l true s))))
     ∧ (∀ r, r < 16 → let f : FaultRec := ⟨0x1B, mkLoc (r / 4) (r % 4) 0, r, s.tide.now, false, 0, true⟩
         exec (.regionStall r) s = .next (collect f (
           if s.stop.frozen = true then onFlt (fun t => { t with deferred := t.deferred ++ [f] }) s
           else stallRegion r false s.tide.now s))))

/-- Forced detections (R499 to R502): a bit written to FLT_FORCE_SET arms its source at the location, or makes the detection of
a condition at once, and does nothing without INJ_EN, for a Cliff without CLIFF_EN, or at a location that names no unit of the
source; a bit written to FLT_FORCE_CLR disarms; the access an armed source waits for makes the forced detection and disarms it,
in the very instant of a clear too; a lane source corrupts the next codeword or flit of its lane, and its bit reads 0 once that
has been sent; a 1 to the LAST_CLIFF bit clears the Cliff registers and the MRAM record (R492). -/
def Obligations.DetectionsAreForced : Prop :=
  (∀ (s : State) (k b : Nat) (v : Word), regsLive s = true → s.dev.state ≠ .boot → b < 32 → v.toNat = 2 ^ b →
    let src := 32 * k + b
    let w := s.flt.forceLoc
    exec (.fltForceSet k v) s = .next (
      if classOf src = none ∨ s.flt.injEn = false ∨ (0x30 ≤ src ∧ s.flt.cliffEn = false) ∨ namesUnit s src w = false then s
      else if isCondition src = true then takeFault ⟨src, w, conditionObject src w, s.tide.now, true, 0, true⟩ s
      else onFlt (fun f => { f with armed := mput f.armed src w }) s))
  ∧ (∀ (s : State) (k : Nat) (v : Word), regsLive s = true → s.dev.state ≠ .boot →
    exec (.fltForceClr k v) s = .next (onFlt (fun f => { f with
      armed := f.armed.filter (fun e => !(e.1 / 32 == k && bitAt v (e.1 % 32))),
      cleared := f.cleared.filter (fun e => e.2.2 == s.tide.now)
        ++ (f.armed.filter (fun e => e.1 / 32 == k && bitAt v (e.1 % 32))).map (fun e => (e.1, e.2, s.tide.now)) })
      (forAll (s.flt.armed.filter (fun e => e.1 / 32 == k && bitAt v (e.1 % 32))) cancelForced s)))
  ∧ (∀ (s : State) (src obj site : Nat) (w : Word), regsLive s = true →
    mget s.flt.armed src = some w
      ∨ (mget s.flt.armed src = none ∧ (s.flt.cleared.find? (fun e => e.1 == src && e.2.2 == s.tide.now)).map (·.2.1) = some w) →
    (4 ≤ src → exec (.forcedDetection src ⟨obj, site⟩) s = .next (takeFault ⟨src, w, if src = 0x26 then fld w 19 7 else obj, s.tide.now, true, site, true⟩
      (onFlt (fun f => { f with armed := mdel f.armed src, cleared := f.cleared.filter (fun e => e.1 != src) }) s)))
    ∧ (src ≤ 3 → laneState s (locUnit w) = .run → ∃ t, exec (.forcedDetection src ⟨obj, site⟩) s = .next t
      ∧ t.flt = { s.flt with cleared := s.flt.cleared.filter (fun e => e.1 != src) } ∧ t.host = s.host
      ∧ (getLane t (locUnit w)).injForce = some (src, w) ∧ (src = 3 → (getLane t (locUnit w)).injFlit = true)
      ∧ (src ≠ 3 → (getLane t (locUnit w)).injSym = some (false, if src = 1 then 1 else 16)))
    ∧ (∀ lane, (getLane s lane).injForce = some (src, w) → src = 3 → (getLane s lane).injFlit = false →
      (noteForced lane s).flt.armed = mdel s.flt.armed src ∧ (getLane (noteForced lane s) lane).injForce = none)
    ∧ (src ≤ 3 → laneState s (locUnit w) ≠ .run → exec (.forcedDetection src ⟨obj, site⟩) s = .next s))
  ∧ (∀ s : State, regsLive s = true → s.dev.state ≠ .boot → s.flt.lastCliff = true →
    s.flt.lastCliffAt ≠ some s.tide.now →
    exec .lastCliffClear s = .next (onFlt (fun f => { f with
      lastCliff := false, cliffSrc := 0, cliffLoc := 0, cliffTide := 0, mramCliff := none }) s))

/-- R500: writes to FLT_FORCE_SETk do nothing without INJ_EN, and a bit of the sources 0x30 to 0x37 nothing without CLIFF_EN;
the POLICY section of the configuration bundle sets both enables. -/
def Obligations.ForcingNeedsItsEnables : Prop :=
  (∀ (s : State) (k : Nat) (v : Word), s.flt.injEn = false → exec (.fltForceSet k v) s = .next s)
  ∧ (∀ (s : State) (v : Word) (b : Nat), s.flt.cliffEn = false → 16 ≤ b → b < 24 → v.toNat = 2 ^ b → exec (.fltForceSet 1 v) s = .next s)
  ∧ (∀ (s : State) (k b : Nat) (v : Word), regsLive s = true → s.dev.state ≠ .boot → s.flt.injEn = true → b < 32 → v.toNat = 2 ^ b →
    32 * k + b < 0x30 ∨ s.flt.cliffEn = true → (classOf (32 * k + b)).isSome = true → namesUnit s (32 * k + b) s.flt.forceLoc = true →
    isCondition (32 * k + b) = false →
    exec (.fltForceSet k v) s = .next (onFlt (fun f => { f with armed := mput f.armed (32 * k + b) f.forceLoc }) s))
  ∧ (∀ (b : List Byte) (s t : State), applyPolicy b s = some t →
    t.flt.injEn = (leAt b 0 8).testBit 0 ∧ t.flt.cliffEn = (leAt b 0 8).testBit 1)

/-- In CLIFF nothing moves (R486, R491): no command but a power cycle changes anything but what a pin, a supply or a read that
CLIFF still serves shows, and the Q7 stays in CLIFF until a power cycle. -/
def Obligations.CliffIsInert : Prop :=
  (∀ (c : Instr) (s : State), s.dev.state = .cliff → c ≠ .powerCycle → ∃ d, exec c s = .next { s with dev := d }
    ∧ d = { s.dev with badAccess := d.badAccess, enterHi := d.enterHi, sideband := d.sideband, tap := d.tap,
                       railsOut := d.railsOut, clocksAbsent := d.clocksAbsent })
  ∧ (∀ s t : State, CliffHeld s → step s = .next t → CliffHeld t)

/-- Reset and power (R491, R507, R582, R592, R602, R607): RESET_N, SW_RESET and a power cycle return everything to its reset
value but what MRAM, flash and the part keep; the Q7 leaves RESET for BOOT once RESET_N is high and every supply and clock is
there. Register reads, the boundary scan and the second PCIe domain (R14, R537, R583, R591, R592, R609): the sideband reads the
identity, state and fault blocks, what a function reads there too, and 0 outside what it serves; a ring of another function
reads 0; EXTEST is refused outside RESET and HOLD. -/
def Obligations.ResetPowerAndSideband : Prop :=
  ((∀ s : State, s.dev.state ≠ .cliff → s.dev.state ≠ .reset → ∃ t, exec .resetAssert s = .next t
     ∧ t.dev.state = .reset ∧ t.dev.prev = s.dev.state ∧ t.dev.resetLow = true ∧ t.part = s.part ∧ t.pending = s.pending
     ∧ t.sec.flash = s.sec.flash ∧ t.sec.fwSvn = s.sec.fwSvn ∧ t.sec.cfgSvn = s.sec.cfgSvn ∧ t.sec.owner = s.sec.owner
     ∧ t.flt.mramCliff = s.flt.mramCliff ∧ t.groups = [] ∧ t.emb = State.reset.emb ∧ t.mem = State.reset.mem ∧ t.net = State.reset.net
     ∧ t.tide = State.reset.tide ∧ (∀ r, (getRing t r).state = .disabled))
   ∧ (∀ s : State, s.dev.state = .reset → exec .resetAssert s = .next (onDev (fun d => { d with resetLow := true }) s))
   ∧ (∀ (s : State) (bifur sbAddr : Bool), s.dev.state = .reset → s.dev.resetLow = true →
     let u := onDev (fun d => { d with resetLow := false, bifur := bifur, sbAddr := sbAddr }) s
     (SupplyGood s → exec (.resetRelease bifur sbAddr) s = .next (setState .boot u))
     ∧ (¬ SupplyGood s → exec (.resetRelease bifur sbAddr) s = .next u))
   ∧ (∀ (s : State) (v : Word), regsLive s = true → s.dev.state ≠ .boot →
     (fld v 31 24 = 0xA5 ∧ bitAt v 23 = true → SupplyGood s → s.dev.resetLow = false → ∃ t, exec (.swReset v) s = .next t
       ∧ t.dev.state = .boot ∧ t.dev.prev = .reset ∧ t.part = s.part ∧ t.sec.flash = s.sec.flash ∧ t.groups = [] ∧ t.mem = State.reset.mem)
     ∧ (¬ (fld v 31 24 = 0xA5 ∧ bitAt v 23 = true) → exec (.swReset v) s = .next s))
   ∧ (∀ s : State, exec .railsInRange s = .next (leaveReset (onDev (fun d => { d with railsOut := [] }) s))
     ∧ ∀ c, exec (.referenceClockStart c) s = .next (leaveReset (onDev (fun d => { d with
         clocksAbsent := d.clocksAbsent.filter (fun k => k != c) }) s)))
   ∧ (∀ s : State, (s.dev.state = .reset → s.dev.resetLow = false → SupplyGood s → leaveReset s = setState .boot s)
     ∧ (s.dev.state ≠ .reset ∨ s.dev.resetLow = true ∨ ¬ SupplyGood s → leaveReset s = s))
   ∧ (∀ s : State, ∃ t, exec .powerCycle s = .next t ∧ t.dev = { state := .reset, resetLow := true } ∧ t.pending = s.pending
     ∧ t.part.repairLog = s.part.repairLog ∧ t.part.repairBufs = s.part.repairBufs ∧ t.part.disabled = s.part.disabled
     ∧ t.part.grade = s.part.grade ∧ t.part.retired = [] ∧ t.part.repairWaiting = []
     ∧ t.sec.flash = s.sec.flash ∧ t.sec.fwSvn = s.sec.fwSvn ∧ t.sec.cfgSvn = s.sec.cfgSvn ∧ t.sec.owner = s.sec.owner
     ∧ t.flt.mramCliff = s.flt.mramCliff ∧ t.groups = [] ∧ t.mem = State.reset.mem ∧ t.emb = State.reset.emb))
  ∧ ((∀ (s : State) (off : Nat), exec (.sidebandRead off) s = .next (onDev (fun d => { d with sideband := readSideband s off }) s))
   ∧ (∀ s : State, readSideband s 0 = 0x4B513700#32
     ∧ (readSideband s 0x10000).toNat = devCode s.dev.state * 2 ^ 28 + devCode s.dev.prev * 2 ^ 24
     ∧ (s.flt.lastSrc < 256 → bitAt (readSideband s 0x800000) 31 = (s.dev.state == .cliff))
     ∧ (∀ off, 0x800034 ≤ off → readSideband s off = 0)
     ∧ (∀ off, s.dev.state ≠ .reset →
         off < 0x1000 ∨ (0x10000 ≤ off ∧ off < 0x11000) ∨ (0x21000 ≤ off ∧ off < 0x21200) ∨ (0x800000 ≤ off ∧ off < 0x800034) →
         readRegister 0 0 off s = readSideband s off)
     ∧ (∀ fn r o, ownsRing s fn r = false → r < 8192 → o < 64 → fn ≠ 0 → readRegister fn 0 (0x80000 + 64 * r + o) s = 0))
   ∧ (∀ (s : State) (code : Nat), exec (.boundaryScanInstruction code) s = .next (
     if 5 < code ∨ (code = 3 ∧ s.dev.state ≠ .reset ∧ s.dev.state ≠ .hold) then s else onDev (fun d => { d with tap := code }) s))
   ∧ (∀ s : State, exec .pcieDomain1Reset s = .next (if s.dev.bifur = true then doFlr 32 0 s else s)))

/-- R588: GO is accepted only in TRAIN, and refused with GO_REJ in another state and at a SLAVE whose TSTATE is not LOCKED (as
also in TRAIN with a cut in force, R584); on acceptance the counters of R520 advance before DEV_STATE shows RUN, and
STATE_CHANGED is posted. -/
def Obligations.GoIsAcceptedOnlyInTrain : Prop :=
  ∀ s : State, regsLive s = true → s.dev.state ≠ .boot →
    (s.dev.state = .train → s.stop.frozen = false → (s.tide.role = 2 → s.tide.tstate = .locked) →
      exec .go s = .next (postStateChanged (setState .run (advanceSvn s)))
      ∧ (s.sec.advanced = false → (advanceSvn s).sec.fwSvn = max s.sec.fwSvn s.sec.fw.svn
          ∧ (advanceSvn s).sec.cfgSvn = max s.sec.cfgSvn s.sec.cfg.svn)
      ∧ (setState .run (advanceSvn s)).dev.state = .run ∧ (setState .run (advanceSvn s)).sec = (advanceSvn s).sec)
    ∧ (s.dev.state ≠ .train ∨ s.stop.frozen = true ∨ (s.tide.role = 2 ∧ s.tide.tstate ≠ .locked) →
      exec .go s = .next (onDev (fun d => { d with goRej := true, goRejAt := some s.tide.now }) s))

/-- BOOT and start-up from HOLD (R3, R4, R302, R503, R506, R510, R513, R514, R518, R585, R586, R592): the first step that fails
ends in HOLD with its reason and place; the first read of the manufacturing record fixes the disabled regions, which stand gated
(log entry 81); with every step passed the Q7 is in TRAIN, self-tested, its watchdog armed. -/
def Obligations.BootEndsInHoldOrTrain : Prop :=
  (∀ (s : State) (x : StartInput) (reason : Nat), s.dev.state = .boot →
    (x.pufOk = false ∧ reason = 0x01) ∨ (x.pufOk = true ∧ x.mfgOk = false ∧ reason = 0x02)
      ∨ (x.pufOk = true ∧ x.mfgOk = true ∧ x.mramOk = false ∧ reason = 0x03) →
    ∃ t, exec (.bootSequenceDone x) s = .next t ∧ t.dev.state = .hold ∧ t.dev.prev = .boot ∧ t.dev.holdReason = reason
      ∧ t.flt.wdArmed = true ∧ t.sec.flash = s.sec.flash ∧ (reason ≠ 0x03 → t.part = s.part) ∧ (reason = 0x03 → t.part = (readMfg x s).part))
  ∧ (∀ (s : State) (x : StartInput), s.dev.state = .boot → x.pufOk = true → x.mfgOk = true → x.mramOk = true →
    let u := bootMram x (readMfg x s)
    (∀ reason, chooseSlot fwReason fwSvnOf 0x04 0 u.sec.nextFw u = .error reason →
      ∃ t, exec (.bootSequenceDone x) s = .next t ∧ t.dev.state = .hold ∧ t.dev.holdReason = reason ∧ t.dev.mfg = true)
    ∧ (∀ k, chooseSlot fwReason fwSvnOf 0x04 0 u.sec.nextFw u = .ok k →
      let v := onSec (fun y => { y with fw := fwOf (((nth u.sec.flash k {}).bundle).getD []) k, nextFw := none }) u
      (∀ l, (List.range 12).find? (fun l => x.badLaneDies.contains l) = some l →
        ∃ t, exec (.bootSequenceDone x) s = .next t ∧ t.dev.state = .hold ∧ t.dev.holdReason = 0x08 ∧ t.dev.holdWhere = l)
      ∧ ((List.range 12).find? (fun l => x.badLaneDies.contains l) = none →
        (∀ reason, chooseSlot cfgReason cfgSvnOf 0x09 2 none v = .error reason →
          ∃ t, exec (.bootSequenceDone x) s = .next t ∧ t.dev.state = .hold ∧ t.dev.holdReason = reason)
        ∧ (∀ j, chooseSlot cfgReason cfgSvnOf 0x09 2 none v = .ok j →
          let out := applyBundle (((nth v.sec.flash j {}).bundle).getD []) (j - 2) v
          (∀ e, out.2 = some e → ∃ t, exec (.bootSequenceDone x) s = .next t ∧ t.dev.state = .hold ∧ t.dev.holdReason = 0x10
            ∧ t.dev.holdWhere = e.1 ∧ t.dev.holdItem = e.2)
          ∧ (out.2 = none → exec (.bootSequenceDone x) s = .next (finishBoot x out.1))))))
  ∧ (∀ (s : State) (x : StartInput), let t := readMfg x s
    t.dev.mfg = true ∧ t.part = (if s.part.mfgRead = true then s.part else { s.part with mfgRead := true, off := x.disabled })
    ∧ (∀ e ∈ t.part.disabled, 4 * e.1 + e.2 < s.pwr.rgns.length → (getRgn t (4 * e.1 + e.2)).gated = true))
  ∧ (∀ (s : State) (x : StartInput),
    (failedDie (selfTest x s) = none → (finishBoot x s).dev.state = .train ∧ (finishBoot x s).flt.wdArmed = true
      ∧ (finishBoot x s).dev.startingUp = false ∧ (finishBoot x s).dev.holdReason = 0)
    ∧ (∀ d, failedDie (selfTest x s) = some d → (finishBoot x s).dev.state = .hold ∧ (finishBoot x s).dev.holdReason = 0x11
      ∧ (finishBoot x s).dev.holdWhere = d))
  ∧ (∀ (s : State) (x : StartInput), s.dev.state = .hold → s.dev.startingUp = true →
    ∃ t, exec (.holdStartUp x) s = .next t ∧ t.dev.startingUp = false
      ∧ (failedDie (selfTest x s) = none → t.dev.state = .train ∧ t.flt.wdArmed = true)
      ∧ (∀ d, failedDie (selfTest x s) = some d → t.dev.holdReason = 0x11 ∧ t.dev.holdWhere = d))

/-- Bundles (R510, R513, R518, R519, R524, R525): FW_LOAD and CFG_LOAD check a bundle in the order of the spec, a failing check
ends BAD with its reason in RESULT and nothing written; a bundle that passes goes to the slot that is not in force, or the
older, with a WRITE_SEQ above both; ACTIVATE restarts BOOT and APPLY applies the bundle in HOLD. What the security block answers
(R523, R525, R527, R528): CFG_READ and MEASURE_READ write the bytes asked for and nothing else; an SPDM message is answered but
in a HOLD that no bundle clears; IDE_KM in a session sets the stream's directions, and the completions that waited for it are
written. -/
def Obligations.BundlesAndSecurityAnswers : Prop :=
  ((∀ (s : State) (r i : Nat) (bytes : List Byte) (d : Desc), Ready s r i 0x70 d →
     let len := fld d.op 319 288
     let b := sliceB bytes 0 len
     let activate := bitAt d.op 287
     exec (.fwLoad r i bytes) s = .next (
       if onlyBits d.op [(383, 320), (319, 288), (287, 287)] = false ∨ fld d.op 383 320 % 64 ≠ 0 then answer d 0x09 0 s
       else if activate = true ∧ (s.dev.state ≠ .hold ∨ hardHold s = true) then answer d 0x0B 0 s
       else if 2 ^ 24 - 4096 < len then answer d 0x08 0 s
       else match fwReason s b with
         | some x => answer d 0x09 x s
         | none =>
           let k := if s.sec.fw.slot = 0 then 1 else 0
           let t := writeFlash k (b.take (fwTotal b)) s
           answer d 0x00 0 (if activate = true then restart k r i t else t)))
   ∧ (∀ (s : State) (r i : Nat) (bytes : List Byte) (d : Desc), Ready s r i 0x71 d →
     let len := fld d.op 319 288
     let b := sliceB bytes 0 len
     let write := bitAt d.op 287
     let apply := bitAt d.op 286
     exec (.cfgLoad r i bytes) s = .next (
       if onlyBits d.op [(383, 320), (319, 288), (287, 286)] = false ∨ fld d.op 383 320 % 64 ≠ 0 then answer d 0x09 0 s
       else if apply = true ∧ (s.dev.state ≠ .hold ∨ hardHold s = true) then answer d 0x0B 0 s
       else if 2 ^ 23 - 4096 < len then answer d 0x08 0 s
       else match cfgReason s b with
         | some x => answer d 0x09 x s
         | none =>
           let k := olderSlot s
           let t := if write = true then writeFlash k (b.take (cfgTotal b)) s else s
           if apply = false then answer d 0x00 0 t
           else
             let out := applyBundle b (if write = true then k - 2 else 2) t
             match out.2 with
             | some e => answer d 0x09 0x10 (setHold 0x10 e.1 e.2 out.1)
             | none => answer d 0x00 0 (onDev (fun y => { y with startingUp := true }) (setHold 0 0 0 out.1))))
   ∧ (∀ (s : State) (k : Nat) (b : List Byte), s.sec.flash.length = 4 → k < 4 →
     let t := writeFlash k b s
     (nth t.sec.flash k {}).bundle = some b
     ∧ (∀ j, j < 4 → j / 2 = k / 2 → (nth s.sec.flash j {}).seq < (nth t.sec.flash k {}).seq)
     ∧ (∀ j, j ≠ k → nth t.sec.flash j {} = nth s.sec.flash j {}) ∧ t = { s with sec := t.sec })
   ∧ (∀ (s : State) (slot r i : Nat), s.dev.state ≠ .cliff → let t := restart slot r i s
     t.dev.state = .boot ∧ t.dev.prev = s.dev.state ∧ t.sec.nextFw = some slot ∧ t.sec.flash = s.sec.flash ∧ t.part = s.part))
  ∧ ((∀ (s : State) (r i : Nat) (d : Desc), Ready s r i 0x72 d →
     let src := fld d.op 223 222
     let b := if src = 0 then s.sec.cfg.bundle else ((nth s.sec.flash (src + 1) {}).bundle).getD []
     exec (.cfgRead r i) s = .next (
       if onlyBits d.op [(383, 320), (319, 288), (287, 224), (223, 222)] = false ∨ fld d.op 383 320 % 64 ≠ 0 ∨ src = 3 then answer d 0x09 0 s
       else if b.isEmpty = true ∨ b.length < fld d.op 287 224 + fld d.op 319 288 then answer d 0x08 0 s
       else answer d 0x00 b.length (hostWrite d.func (fld d.op 383 320) (sliceB b (fld d.op 287 224) (fld d.op 319 288)) s)))
   ∧ (∀ (s : State) (r i : Nat) (d : Desc), Ready s r i 0x73 d →
     let what := fld d.op 287 286
     let body := (measBlocks s).flatten ++ bytesLE 32 (fld d.op 285 30)
     let out := if what = 0 then body ++ aliasSign s (sha body) else aliasChain s
     let used := [(383, 320), (319, 288), (287, 286)] ++ (if what = 0 then [(285, 30)] else [])
     exec (.measureRead r i) s = .next (
       if onlyBits d.op used = false ∨ fld d.op 383 320 % 64 ≠ 0 ∨ 1 < what then answer d 0x09 0 s
       else if fld d.op 319 288 < out.length then answer d 0x08 0 s
       else answer d 0x00 out.length (hostWrite d.func (fld d.op 383 320) out s)))
   ∧ (∀ (s : State) (pf : Nat) (msg : List Byte), regsLive s = true → isPf s pf = true →
     exec (.spdmMessage pf msg) s = .next (
       if hardHold s = true then s
       else onHost (fun h => { h with doe := h.doe ++ [Config.spdmAnswer (measBlocks s).flatten msg] }) s))
   ∧ (∀ (s : State) (pf : Nat) (tx rx : Bool), regsLive s = true → isPf s pf = true →
     exec (.ideKm pf false tx rx) s = .next s
     ∧ (∃ t, exec (.ideKm pf true tx rx) s = .next t ∧ mgetD t.host.ideActive (linkOfFn s pf) (false, false) = (tx, rx)
         ∧ t = { s with host := t.host, obs := t.obs }
         ∧ (s.host.heldCpl = [] → t = onHost (fun h => { h with ideActive := mput h.ideActive (linkOfFn s pf) (tx, rx) }) s)
         ∧ (s.sec.cfg.requireIde = false → t.host.heldCpl = []))))

/-- Field maps (the conventions of R14, R56, R421): fields joined most significant first read back each at its place, whatever
the fields around it; a field that is replaced reads back as written and leaves the fields beside it; a number written as bytes
reads back in either byte order. -/
def Obligations.PackedFieldsReadBack : Prop :=
  (∀ (n w v : Nat) (before after : List (Nat × Nat)),
    let above := sumOf before (·.1)
    let below := sumOf after (·.1)
    0 < w → n = above + w + below →
    fld (pack n (before ++ (w, v) :: after)) (w + below - 1) below = v % 2 ^ w)
  ∧ (∀ (n hi lo v : Nat) (x : BitVec n), lo ≤ hi → hi < n →
    fld (setFld x hi lo v) hi lo = v % 2 ^ (hi + 1 - lo)
    ∧ (∀ h l, l ≤ h → h < n → h < lo ∨ hi < l → fld (setFld x hi lo v) h l = fld x h l))
  ∧ (∀ n v : Nat, leAt (bytesLE n v) 0 n = v % 256 ^ n ∧ beAt (bytesBE n v) 0 n = v % 256 ^ n)
end

