-- ==== Sys2Proof/Laws/Cipher.lean ====
section
/-! SUPPORT. Lengths of the ciphers, and that the key stream undoes itself. -/

namespace Sys2Proof.Machine

theorem bytesLE_length (n v : Nat) : (bytesLE n v).length = n := by
  induction n generalizing v with
  | zero => rfl
  | succ n ih => simp [bytesLE, ih]

@[simp] theorem bytesBE_length (n v : Nat) : (bytesBE n v).length = n := by simp [bytesBE, bytesLE_length]

@[simp] theorem gcmTag_length (key iv aad ct : List Byte) : (gcmTag key iv aad ct).length = 16 := by simp [gcmTag]

@[simp] theorem gcmStream_length (key iv : List Byte) (n : Nat) : (gcmStream key iv n).length = n := by
  have h (g : Nat → Nat) (l : List Nat) : (l.flatMap (fun i => bytesBE 16 (g i))).length = 16 * l.length := by
    induction l with
    | nil => rfl
    | cons a l ih => simp [ih]; omega
  unfold gcmStream
  dsimp only
  rw [List.length_take, h]
  simp
  omega

@[simp] theorem gcmCrypt_length (key iv d : List Byte) : (gcmCrypt key iv d).length = d.length := by simp [gcmCrypt]

/-- Combining twice with one stream gives the bytes back. -/
theorem zipWith_xor_twice (d k : List Byte) (h : d.length = k.length) :
    List.zipWith (· ^^^ ·) (List.zipWith (· ^^^ ·) d k) k = d := by
  induction d generalizing k with
  | nil => simp
  | cons a d ih =>
    cases k with
    | nil => simp at h
    | cons b k => simp at h; simp [ih k h, BitVec.xor_assoc]

/-- Encrypting and decrypting under one key and IV gives the plaintext back (R359). -/
theorem gcmCrypt_gcmCrypt (key iv d : List Byte) : gcmCrypt key iv (gcmCrypt key iv d) = d := by
  have h : (gcmCrypt key iv d).length = d.length := gcmCrypt_length key iv d
  unfold gcmCrypt at *
  rw [h]
  exact zipWith_xor_twice _ _ (by simp)

end Sys2Proof.Machine
end

