-- ==== Sys2Proof/Laws/HostOnly.lean ====
section
/-! SUPPORT. The fields that interrupts, events, counters and completions leave as they were: everything but the host
interface and the counters. -/

namespace Sys2Proof.Machine

variable (s : State)

/-- `t` differs from `s` in the host interface and the counters alone. -/
def HostOnly (s t : State) : Prop := t = { s with host := t.host, obs := t.obs }

theorem HostOnly.refl (s : State) : HostOnly s s := rfl

theorem HostOnly.trans {s t u : State} (h : HostOnly s t) (k : HostOnly t u) : HostOnly s u := by
  unfold HostOnly at *
  rw [k, h]

theorem hostOnly_onHost (f : HostIf → HostIf) : HostOnly s (onHost f s) := rfl
theorem hostOnly_onRing (r : Nat) (f : Ring → Ring) : HostOnly s (onRing r f s) := rfl
theorem hostOnly_onFunc (n : Nat) (f : Func → Func) : HostOnly s (onFunc n f s) := rfl
theorem hostOnly_countRaw (k : CKey) (n : Nat) : HostOnly s (countRaw k n s) := rfl
theorem hostOnly_hostWrite (fn a : Nat) (b : List Byte) : HostOnly s (hostWrite fn a b s) := rfl

theorem hostOnly_onlyIf {f : State → State} (c : Bool) (h : HostOnly s (f s)) : HostOnly s (onlyIf c f s) := by
  unfold onlyIf
  split
  · exact h
  · exact rfl

theorem hostOnly_forAll {α : Type} {f : α → State → State} (h : ∀ x u, HostOnly u (f x u)) :
    ∀ (l : List α) (s : State), HostOnly s (forAll l f s)
  | [], s => HostOnly.refl s
  | x :: r, s => (h x s).trans (hostOnly_forAll h r (f x s))

theorem hostOnly_sendVector (f v : Nat) : HostOnly s (sendVector f v s) := by
  unfold sendVector
  split
  · exact rfl
  · split <;> exact rfl

theorem hostOnly_entriesWritten (r n : Nat) (b : Bool) : HostOnly s (entriesWritten r n b s) := by
  unfold entriesWritten
  dsimp only
  split
  · exact hostOnly_sendVector _ _ _
  · exact rfl

theorem hostOnly_writeEvent (r c : Nat) (d : List Byte) (m : List (List Byte)) : HostOnly s (writeEvent r c d m s) := by
  unfold writeEvent
  exact (hostOnly_forAll (fun _ _ => hostOnly_hostWrite _ _ _ _) _ _).trans
    ((hostOnly_onRing _ r _).trans (hostOnly_entriesWritten _ _ _ _))

theorem hostOnly_postTo (o : Option Nat) (n c : Nat) (d : List Byte) (m : List (List Byte)) :
    HostOnly s (postTo o n c d m s) := by
  unfold postTo
  split
  · exact rfl
  · split
    · exact rfl
    · dsimp only
      split
      · exact rfl
      · split
        · exact rfl
        · split
          · exact rfl
          · exact hostOnly_writeEvent _ _ _ _ _

theorem hostOnly_postDev (c : Nat) (d : List Byte) : HostOnly s (postDev c d s) := hostOnly_postTo _ _ _ _ _ _
theorem hostOnly_postFn (n c : Nat) (d : List Byte) : HostOnly s (postFn n c d s) := hostOnly_postTo _ _ _ _ _ _

theorem hostOnly_countN (k : CKey) (n : Nat) : HostOnly s (countN k n s) := by
  unfold countN
  dsimp only
  split
  · exact (hostOnly_countRaw s k n).trans (hostOnly_postDev _ _ _)
  · exact rfl

theorem hostOnly_count (k : CKey) : HostOnly s (count k s) := hostOnly_countN s k 1

theorem hostOnly_complete (d : Desc) (a b : Nat) (x y : Bool) : HostOnly s (complete d a b x y s) := by
  unfold complete
  split
  · exact rfl
  · dsimp only
    split
    · exact rfl
    · refine HostOnly.trans (t := onlyIf (a == stABORTED) (countRaw (kRing d.ring 1) 1) (onRing (ringLink (getRing s d.ring))
        (fun g => { g with out := g.out - 1 }) (onRing d.ring (fun g => { g with out := g.out - 1 }) (onHost (fun h => { h with
          accepted := h.accepted.filter (fun e => !(e.ring == d.ring && e.idx == d.idx)) }) s)))) ?_ ?_
      · exact ((hostOnly_onHost s _).trans ((hostOnly_onRing _ _ _).trans (hostOnly_onRing _ _ _))).trans
          (hostOnly_onlyIf _ _ (hostOnly_countRaw _ _ _))
      · split
        · exact rfl
        · exact (hostOnly_hostWrite _ _ _ _).trans (hostOnly_entriesWritten _ _ _ _)

theorem hostOnly_finishDesc (i : Nat × Nat) (a b : Nat) : HostOnly s (finishDesc i a b s) := by
  unfold finishDesc
  split
  · exact hostOnly_complete _ _ _ _ _ _
  · exact rfl

theorem hostOnly_settleDesc (d : Desc) (b : List Byte) (r : Res) : HostOnly s (settleDesc d b r s) := by
  unfold settleDesc
  split
  · exact hostOnly_complete _ _ _ _ _ _
  · exact rfl


/-! ## sendVector -/

@[simp] theorem sendVector_pending (f v : Nat) : (sendVector f v s).pending = s.pending := by rw [hostOnly_sendVector s f v]
@[simp] theorem sendVector_dev (f v : Nat) : (sendVector f v s).dev = s.dev := by rw [hostOnly_sendVector s f v]
@[simp] theorem sendVector_part (f v : Nat) : (sendVector f v s).part = s.part := by rw [hostOnly_sendVector s f v]
@[simp] theorem sendVector_tide (f v : Nat) : (sendVector f v s).tide = s.tide := by rw [hostOnly_sendVector s f v]
@[simp] theorem sendVector_stop (f v : Nat) : (sendVector f v s).stop = s.stop := by rw [hostOnly_sendVector s f v]
@[simp] theorem sendVector_launches (f v : Nat) : (sendVector f v s).launches = s.launches := by rw [hostOnly_sendVector s f v]
@[simp] theorem sendVector_groups (f v : Nat) : (sendVector f v s).groups = s.groups := by rw [hostOnly_sendVector s f v]
@[simp] theorem sendVector_emb (f v : Nat) : (sendVector f v s).emb = s.emb := by rw [hostOnly_sendVector s f v]
@[simp] theorem sendVector_mem (f v : Nat) : (sendVector f v s).mem = s.mem := by rw [hostOnly_sendVector s f v]
@[simp] theorem sendVector_route (f v : Nat) : (sendVector f v s).route = s.route := by rw [hostOnly_sendVector s f v]
@[simp] theorem sendVector_shoal (f v : Nat) : (sendVector f v s).shoal = s.shoal := by rw [hostOnly_sendVector s f v]
@[simp] theorem sendVector_qents (f v : Nat) : (sendVector f v s).qents = s.qents := by rw [hostOnly_sendVector s f v]
@[simp] theorem sendVector_policers (f v : Nat) : (sendVector f v s).policers = s.policers := by rw [hostOnly_sendVector s f v]
@[simp] theorem sendVector_net (f v : Nat) : (sendVector f v s).net = s.net := by rw [hostOnly_sendVector s f v]
@[simp] theorem sendVector_flt (f v : Nat) : (sendVector f v s).flt = s.flt := by rw [hostOnly_sendVector s f v]
@[simp] theorem sendVector_sec (f v : Nat) : (sendVector f v s).sec = s.sec := by rw [hostOnly_sendVector s f v]
@[simp] theorem sendVector_pwr (f v : Nat) : (sendVector f v s).pwr = s.pwr := by rw [hostOnly_sendVector s f v]
@[simp] theorem sendVector_restoring (f v : Nat) : (sendVector f v s).restoring = s.restoring := by rw [hostOnly_sendVector s f v]

/-! ## entriesWritten -/

@[simp] theorem entriesWritten_pending (r n : Nat) (b : Bool) : (entriesWritten r n b s).pending = s.pending := by rw [hostOnly_entriesWritten s r n b]
@[simp] theorem entriesWritten_dev (r n : Nat) (b : Bool) : (entriesWritten r n b s).dev = s.dev := by rw [hostOnly_entriesWritten s r n b]
@[simp] theorem entriesWritten_part (r n : Nat) (b : Bool) : (entriesWritten r n b s).part = s.part := by rw [hostOnly_entriesWritten s r n b]
@[simp] theorem entriesWritten_tide (r n : Nat) (b : Bool) : (entriesWritten r n b s).tide = s.tide := by rw [hostOnly_entriesWritten s r n b]
@[simp] theorem entriesWritten_stop (r n : Nat) (b : Bool) : (entriesWritten r n b s).stop = s.stop := by rw [hostOnly_entriesWritten s r n b]
@[simp] theorem entriesWritten_launches (r n : Nat) (b : Bool) : (entriesWritten r n b s).launches = s.launches := by rw [hostOnly_entriesWritten s r n b]
@[simp] theorem entriesWritten_groups (r n : Nat) (b : Bool) : (entriesWritten r n b s).groups = s.groups := by rw [hostOnly_entriesWritten s r n b]
@[simp] theorem entriesWritten_emb (r n : Nat) (b : Bool) : (entriesWritten r n b s).emb = s.emb := by rw [hostOnly_entriesWritten s r n b]
@[simp] theorem entriesWritten_mem (r n : Nat) (b : Bool) : (entriesWritten r n b s).mem = s.mem := by rw [hostOnly_entriesWritten s r n b]
@[simp] theorem entriesWritten_route (r n : Nat) (b : Bool) : (entriesWritten r n b s).route = s.route := by rw [hostOnly_entriesWritten s r n b]
@[simp] theorem entriesWritten_shoal (r n : Nat) (b : Bool) : (entriesWritten r n b s).shoal = s.shoal := by rw [hostOnly_entriesWritten s r n b]
@[simp] theorem entriesWritten_qents (r n : Nat) (b : Bool) : (entriesWritten r n b s).qents = s.qents := by rw [hostOnly_entriesWritten s r n b]
@[simp] theorem entriesWritten_policers (r n : Nat) (b : Bool) : (entriesWritten r n b s).policers = s.policers := by rw [hostOnly_entriesWritten s r n b]
@[simp] theorem entriesWritten_net (r n : Nat) (b : Bool) : (entriesWritten r n b s).net = s.net := by rw [hostOnly_entriesWritten s r n b]
@[simp] theorem entriesWritten_flt (r n : Nat) (b : Bool) : (entriesWritten r n b s).flt = s.flt := by rw [hostOnly_entriesWritten s r n b]
@[simp] theorem entriesWritten_sec (r n : Nat) (b : Bool) : (entriesWritten r n b s).sec = s.sec := by rw [hostOnly_entriesWritten s r n b]
@[simp] theorem entriesWritten_pwr (r n : Nat) (b : Bool) : (entriesWritten r n b s).pwr = s.pwr := by rw [hostOnly_entriesWritten s r n b]
@[simp] theorem entriesWritten_restoring (r n : Nat) (b : Bool) : (entriesWritten r n b s).restoring = s.restoring := by rw [hostOnly_entriesWritten s r n b]

/-! ## writeEvent -/

@[simp] theorem writeEvent_pending (r c : Nat) (d : List Byte) (m : List (List Byte)) : (writeEvent r c d m s).pending = s.pending := by rw [hostOnly_writeEvent s r c d m]
@[simp] theorem writeEvent_dev (r c : Nat) (d : List Byte) (m : List (List Byte)) : (writeEvent r c d m s).dev = s.dev := by rw [hostOnly_writeEvent s r c d m]
@[simp] theorem writeEvent_part (r c : Nat) (d : List Byte) (m : List (List Byte)) : (writeEvent r c d m s).part = s.part := by rw [hostOnly_writeEvent s r c d m]
@[simp] theorem writeEvent_tide (r c : Nat) (d : List Byte) (m : List (List Byte)) : (writeEvent r c d m s).tide = s.tide := by rw [hostOnly_writeEvent s r c d m]
@[simp] theorem writeEvent_stop (r c : Nat) (d : List Byte) (m : List (List Byte)) : (writeEvent r c d m s).stop = s.stop := by rw [hostOnly_writeEvent s r c d m]
@[simp] theorem writeEvent_launches (r c : Nat) (d : List Byte) (m : List (List Byte)) : (writeEvent r c d m s).launches = s.launches := by rw [hostOnly_writeEvent s r c d m]
@[simp] theorem writeEvent_groups (r c : Nat) (d : List Byte) (m : List (List Byte)) : (writeEvent r c d m s).groups = s.groups := by rw [hostOnly_writeEvent s r c d m]
@[simp] theorem writeEvent_emb (r c : Nat) (d : List Byte) (m : List (List Byte)) : (writeEvent r c d m s).emb = s.emb := by rw [hostOnly_writeEvent s r c d m]
@[simp] theorem writeEvent_mem (r c : Nat) (d : List Byte) (m : List (List Byte)) : (writeEvent r c d m s).mem = s.mem := by rw [hostOnly_writeEvent s r c d m]
@[simp] theorem writeEvent_route (r c : Nat) (d : List Byte) (m : List (List Byte)) : (writeEvent r c d m s).route = s.route := by rw [hostOnly_writeEvent s r c d m]
@[simp] theorem writeEvent_shoal (r c : Nat) (d : List Byte) (m : List (List Byte)) : (writeEvent r c d m s).shoal = s.shoal := by rw [hostOnly_writeEvent s r c d m]
@[simp] theorem writeEvent_qents (r c : Nat) (d : List Byte) (m : List (List Byte)) : (writeEvent r c d m s).qents = s.qents := by rw [hostOnly_writeEvent s r c d m]
@[simp] theorem writeEvent_policers (r c : Nat) (d : List Byte) (m : List (List Byte)) : (writeEvent r c d m s).policers = s.policers := by rw [hostOnly_writeEvent s r c d m]
@[simp] theorem writeEvent_net (r c : Nat) (d : List Byte) (m : List (List Byte)) : (writeEvent r c d m s).net = s.net := by rw [hostOnly_writeEvent s r c d m]
@[simp] theorem writeEvent_flt (r c : Nat) (d : List Byte) (m : List (List Byte)) : (writeEvent r c d m s).flt = s.flt := by rw [hostOnly_writeEvent s r c d m]
@[simp] theorem writeEvent_sec (r c : Nat) (d : List Byte) (m : List (List Byte)) : (writeEvent r c d m s).sec = s.sec := by rw [hostOnly_writeEvent s r c d m]
@[simp] theorem writeEvent_pwr (r c : Nat) (d : List Byte) (m : List (List Byte)) : (writeEvent r c d m s).pwr = s.pwr := by rw [hostOnly_writeEvent s r c d m]
@[simp] theorem writeEvent_restoring (r c : Nat) (d : List Byte) (m : List (List Byte)) : (writeEvent r c d m s).restoring = s.restoring := by rw [hostOnly_writeEvent s r c d m]

/-! ## postTo -/

@[simp] theorem postTo_pending (o : Option Nat) (n c : Nat) (d : List Byte) (m : List (List Byte)) : (postTo o n c d m s).pending = s.pending := by rw [hostOnly_postTo s o n c d m]
@[simp] theorem postTo_dev (o : Option Nat) (n c : Nat) (d : List Byte) (m : List (List Byte)) : (postTo o n c d m s).dev = s.dev := by rw [hostOnly_postTo s o n c d m]
@[simp] theorem postTo_part (o : Option Nat) (n c : Nat) (d : List Byte) (m : List (List Byte)) : (postTo o n c d m s).part = s.part := by rw [hostOnly_postTo s o n c d m]
@[simp] theorem postTo_tide (o : Option Nat) (n c : Nat) (d : List Byte) (m : List (List Byte)) : (postTo o n c d m s).tide = s.tide := by rw [hostOnly_postTo s o n c d m]
@[simp] theorem postTo_stop (o : Option Nat) (n c : Nat) (d : List Byte) (m : List (List Byte)) : (postTo o n c d m s).stop = s.stop := by rw [hostOnly_postTo s o n c d m]
@[simp] theorem postTo_launches (o : Option Nat) (n c : Nat) (d : List Byte) (m : List (List Byte)) : (postTo o n c d m s).launches = s.launches := by rw [hostOnly_postTo s o n c d m]
@[simp] theorem postTo_groups (o : Option Nat) (n c : Nat) (d : List Byte) (m : List (List Byte)) : (postTo o n c d m s).groups = s.groups := by rw [hostOnly_postTo s o n c d m]
@[simp] theorem postTo_emb (o : Option Nat) (n c : Nat) (d : List Byte) (m : List (List Byte)) : (postTo o n c d m s).emb = s.emb := by rw [hostOnly_postTo s o n c d m]
@[simp] theorem postTo_mem (o : Option Nat) (n c : Nat) (d : List Byte) (m : List (List Byte)) : (postTo o n c d m s).mem = s.mem := by rw [hostOnly_postTo s o n c d m]
@[simp] theorem postTo_route (o : Option Nat) (n c : Nat) (d : List Byte) (m : List (List Byte)) : (postTo o n c d m s).route = s.route := by rw [hostOnly_postTo s o n c d m]
@[simp] theorem postTo_shoal (o : Option Nat) (n c : Nat) (d : List Byte) (m : List (List Byte)) : (postTo o n c d m s).shoal = s.shoal := by rw [hostOnly_postTo s o n c d m]
@[simp] theorem postTo_qents (o : Option Nat) (n c : Nat) (d : List Byte) (m : List (List Byte)) : (postTo o n c d m s).qents = s.qents := by rw [hostOnly_postTo s o n c d m]
@[simp] theorem postTo_policers (o : Option Nat) (n c : Nat) (d : List Byte) (m : List (List Byte)) : (postTo o n c d m s).policers = s.policers := by rw [hostOnly_postTo s o n c d m]
@[simp] theorem postTo_net (o : Option Nat) (n c : Nat) (d : List Byte) (m : List (List Byte)) : (postTo o n c d m s).net = s.net := by rw [hostOnly_postTo s o n c d m]
@[simp] theorem postTo_flt (o : Option Nat) (n c : Nat) (d : List Byte) (m : List (List Byte)) : (postTo o n c d m s).flt = s.flt := by rw [hostOnly_postTo s o n c d m]
@[simp] theorem postTo_sec (o : Option Nat) (n c : Nat) (d : List Byte) (m : List (List Byte)) : (postTo o n c d m s).sec = s.sec := by rw [hostOnly_postTo s o n c d m]
@[simp] theorem postTo_pwr (o : Option Nat) (n c : Nat) (d : List Byte) (m : List (List Byte)) : (postTo o n c d m s).pwr = s.pwr := by rw [hostOnly_postTo s o n c d m]
@[simp] theorem postTo_restoring (o : Option Nat) (n c : Nat) (d : List Byte) (m : List (List Byte)) : (postTo o n c d m s).restoring = s.restoring := by rw [hostOnly_postTo s o n c d m]

/-! ## postDev -/

@[simp] theorem postDev_pending (c : Nat) (d : List Byte) : (postDev c d s).pending = s.pending := by rw [hostOnly_postDev s c d]
@[simp] theorem postDev_dev (c : Nat) (d : List Byte) : (postDev c d s).dev = s.dev := by rw [hostOnly_postDev s c d]
@[simp] theorem postDev_part (c : Nat) (d : List Byte) : (postDev c d s).part = s.part := by rw [hostOnly_postDev s c d]
@[simp] theorem postDev_tide (c : Nat) (d : List Byte) : (postDev c d s).tide = s.tide := by rw [hostOnly_postDev s c d]
@[simp] theorem postDev_stop (c : Nat) (d : List Byte) : (postDev c d s).stop = s.stop := by rw [hostOnly_postDev s c d]
@[simp] theorem postDev_launches (c : Nat) (d : List Byte) : (postDev c d s).launches = s.launches := by rw [hostOnly_postDev s c d]
@[simp] theorem postDev_groups (c : Nat) (d : List Byte) : (postDev c d s).groups = s.groups := by rw [hostOnly_postDev s c d]
@[simp] theorem postDev_emb (c : Nat) (d : List Byte) : (postDev c d s).emb = s.emb := by rw [hostOnly_postDev s c d]
@[simp] theorem postDev_mem (c : Nat) (d : List Byte) : (postDev c d s).mem = s.mem := by rw [hostOnly_postDev s c d]
@[simp] theorem postDev_route (c : Nat) (d : List Byte) : (postDev c d s).route = s.route := by rw [hostOnly_postDev s c d]
@[simp] theorem postDev_shoal (c : Nat) (d : List Byte) : (postDev c d s).shoal = s.shoal := by rw [hostOnly_postDev s c d]
@[simp] theorem postDev_qents (c : Nat) (d : List Byte) : (postDev c d s).qents = s.qents := by rw [hostOnly_postDev s c d]
@[simp] theorem postDev_policers (c : Nat) (d : List Byte) : (postDev c d s).policers = s.policers := by rw [hostOnly_postDev s c d]
@[simp] theorem postDev_net (c : Nat) (d : List Byte) : (postDev c d s).net = s.net := by rw [hostOnly_postDev s c d]
@[simp] theorem postDev_flt (c : Nat) (d : List Byte) : (postDev c d s).flt = s.flt := by rw [hostOnly_postDev s c d]
@[simp] theorem postDev_sec (c : Nat) (d : List Byte) : (postDev c d s).sec = s.sec := by rw [hostOnly_postDev s c d]
@[simp] theorem postDev_pwr (c : Nat) (d : List Byte) : (postDev c d s).pwr = s.pwr := by rw [hostOnly_postDev s c d]
@[simp] theorem postDev_restoring (c : Nat) (d : List Byte) : (postDev c d s).restoring = s.restoring := by rw [hostOnly_postDev s c d]

/-! ## postFn -/

@[simp] theorem postFn_pending (n c : Nat) (d : List Byte) : (postFn n c d s).pending = s.pending := by rw [hostOnly_postFn s n c d]
@[simp] theorem postFn_dev (n c : Nat) (d : List Byte) : (postFn n c d s).dev = s.dev := by rw [hostOnly_postFn s n c d]
@[simp] theorem postFn_part (n c : Nat) (d : List Byte) : (postFn n c d s).part = s.part := by rw [hostOnly_postFn s n c d]
@[simp] theorem postFn_tide (n c : Nat) (d : List Byte) : (postFn n c d s).tide = s.tide := by rw [hostOnly_postFn s n c d]
@[simp] theorem postFn_stop (n c : Nat) (d : List Byte) : (postFn n c d s).stop = s.stop := by rw [hostOnly_postFn s n c d]
@[simp] theorem postFn_launches (n c : Nat) (d : List Byte) : (postFn n c d s).launches = s.launches := by rw [hostOnly_postFn s n c d]
@[simp] theorem postFn_groups (n c : Nat) (d : List Byte) : (postFn n c d s).groups = s.groups := by rw [hostOnly_postFn s n c d]
@[simp] theorem postFn_emb (n c : Nat) (d : List Byte) : (postFn n c d s).emb = s.emb := by rw [hostOnly_postFn s n c d]
@[simp] theorem postFn_mem (n c : Nat) (d : List Byte) : (postFn n c d s).mem = s.mem := by rw [hostOnly_postFn s n c d]
@[simp] theorem postFn_route (n c : Nat) (d : List Byte) : (postFn n c d s).route = s.route := by rw [hostOnly_postFn s n c d]
@[simp] theorem postFn_shoal (n c : Nat) (d : List Byte) : (postFn n c d s).shoal = s.shoal := by rw [hostOnly_postFn s n c d]
@[simp] theorem postFn_qents (n c : Nat) (d : List Byte) : (postFn n c d s).qents = s.qents := by rw [hostOnly_postFn s n c d]
@[simp] theorem postFn_policers (n c : Nat) (d : List Byte) : (postFn n c d s).policers = s.policers := by rw [hostOnly_postFn s n c d]
@[simp] theorem postFn_net (n c : Nat) (d : List Byte) : (postFn n c d s).net = s.net := by rw [hostOnly_postFn s n c d]
@[simp] theorem postFn_flt (n c : Nat) (d : List Byte) : (postFn n c d s).flt = s.flt := by rw [hostOnly_postFn s n c d]
@[simp] theorem postFn_sec (n c : Nat) (d : List Byte) : (postFn n c d s).sec = s.sec := by rw [hostOnly_postFn s n c d]
@[simp] theorem postFn_pwr (n c : Nat) (d : List Byte) : (postFn n c d s).pwr = s.pwr := by rw [hostOnly_postFn s n c d]
@[simp] theorem postFn_restoring (n c : Nat) (d : List Byte) : (postFn n c d s).restoring = s.restoring := by rw [hostOnly_postFn s n c d]

/-! ## countN -/

@[simp] theorem countN_pending (k : CKey) (n : Nat) : (countN k n s).pending = s.pending := by rw [hostOnly_countN s k n]
@[simp] theorem countN_dev (k : CKey) (n : Nat) : (countN k n s).dev = s.dev := by rw [hostOnly_countN s k n]
@[simp] theorem countN_part (k : CKey) (n : Nat) : (countN k n s).part = s.part := by rw [hostOnly_countN s k n]
@[simp] theorem countN_tide (k : CKey) (n : Nat) : (countN k n s).tide = s.tide := by rw [hostOnly_countN s k n]
@[simp] theorem countN_stop (k : CKey) (n : Nat) : (countN k n s).stop = s.stop := by rw [hostOnly_countN s k n]
@[simp] theorem countN_launches (k : CKey) (n : Nat) : (countN k n s).launches = s.launches := by rw [hostOnly_countN s k n]
@[simp] theorem countN_groups (k : CKey) (n : Nat) : (countN k n s).groups = s.groups := by rw [hostOnly_countN s k n]
@[simp] theorem countN_emb (k : CKey) (n : Nat) : (countN k n s).emb = s.emb := by rw [hostOnly_countN s k n]
@[simp] theorem countN_mem (k : CKey) (n : Nat) : (countN k n s).mem = s.mem := by rw [hostOnly_countN s k n]
@[simp] theorem countN_route (k : CKey) (n : Nat) : (countN k n s).route = s.route := by rw [hostOnly_countN s k n]
@[simp] theorem countN_shoal (k : CKey) (n : Nat) : (countN k n s).shoal = s.shoal := by rw [hostOnly_countN s k n]
@[simp] theorem countN_qents (k : CKey) (n : Nat) : (countN k n s).qents = s.qents := by rw [hostOnly_countN s k n]
@[simp] theorem countN_policers (k : CKey) (n : Nat) : (countN k n s).policers = s.policers := by rw [hostOnly_countN s k n]
@[simp] theorem countN_net (k : CKey) (n : Nat) : (countN k n s).net = s.net := by rw [hostOnly_countN s k n]
@[simp] theorem countN_flt (k : CKey) (n : Nat) : (countN k n s).flt = s.flt := by rw [hostOnly_countN s k n]
@[simp] theorem countN_sec (k : CKey) (n : Nat) : (countN k n s).sec = s.sec := by rw [hostOnly_countN s k n]
@[simp] theorem countN_pwr (k : CKey) (n : Nat) : (countN k n s).pwr = s.pwr := by rw [hostOnly_countN s k n]
@[simp] theorem countN_restoring (k : CKey) (n : Nat) : (countN k n s).restoring = s.restoring := by rw [hostOnly_countN s k n]

/-! ## count -/

@[simp] theorem count_pending (k : CKey) : (count k s).pending = s.pending := by rw [hostOnly_count s k]
@[simp] theorem count_dev (k : CKey) : (count k s).dev = s.dev := by rw [hostOnly_count s k]
@[simp] theorem count_part (k : CKey) : (count k s).part = s.part := by rw [hostOnly_count s k]
@[simp] theorem count_tide (k : CKey) : (count k s).tide = s.tide := by rw [hostOnly_count s k]
@[simp] theorem count_stop (k : CKey) : (count k s).stop = s.stop := by rw [hostOnly_count s k]
@[simp] theorem count_launches (k : CKey) : (count k s).launches = s.launches := by rw [hostOnly_count s k]
@[simp] theorem count_groups (k : CKey) : (count k s).groups = s.groups := by rw [hostOnly_count s k]
@[simp] theorem count_emb (k : CKey) : (count k s).emb = s.emb := by rw [hostOnly_count s k]
@[simp] theorem count_mem (k : CKey) : (count k s).mem = s.mem := by rw [hostOnly_count s k]
@[simp] theorem count_route (k : CKey) : (count k s).route = s.route := by rw [hostOnly_count s k]
@[simp] theorem count_shoal (k : CKey) : (count k s).shoal = s.shoal := by rw [hostOnly_count s k]
@[simp] theorem count_qents (k : CKey) : (count k s).qents = s.qents := by rw [hostOnly_count s k]
@[simp] theorem count_policers (k : CKey) : (count k s).policers = s.policers := by rw [hostOnly_count s k]
@[simp] theorem count_net (k : CKey) : (count k s).net = s.net := by rw [hostOnly_count s k]
@[simp] theorem count_flt (k : CKey) : (count k s).flt = s.flt := by rw [hostOnly_count s k]
@[simp] theorem count_sec (k : CKey) : (count k s).sec = s.sec := by rw [hostOnly_count s k]
@[simp] theorem count_pwr (k : CKey) : (count k s).pwr = s.pwr := by rw [hostOnly_count s k]
@[simp] theorem count_restoring (k : CKey) : (count k s).restoring = s.restoring := by rw [hostOnly_count s k]

/-! ## complete -/

@[simp] theorem complete_pending (d : Desc) (a b : Nat) (x y : Bool) : (complete d a b x y s).pending = s.pending := by rw [hostOnly_complete s d a b x y]
@[simp] theorem complete_dev (d : Desc) (a b : Nat) (x y : Bool) : (complete d a b x y s).dev = s.dev := by rw [hostOnly_complete s d a b x y]
@[simp] theorem complete_part (d : Desc) (a b : Nat) (x y : Bool) : (complete d a b x y s).part = s.part := by rw [hostOnly_complete s d a b x y]
@[simp] theorem complete_tide (d : Desc) (a b : Nat) (x y : Bool) : (complete d a b x y s).tide = s.tide := by rw [hostOnly_complete s d a b x y]
@[simp] theorem complete_stop (d : Desc) (a b : Nat) (x y : Bool) : (complete d a b x y s).stop = s.stop := by rw [hostOnly_complete s d a b x y]
@[simp] theorem complete_launches (d : Desc) (a b : Nat) (x y : Bool) : (complete d a b x y s).launches = s.launches := by rw [hostOnly_complete s d a b x y]
@[simp] theorem complete_groups (d : Desc) (a b : Nat) (x y : Bool) : (complete d a b x y s).groups = s.groups := by rw [hostOnly_complete s d a b x y]
@[simp] theorem complete_emb (d : Desc) (a b : Nat) (x y : Bool) : (complete d a b x y s).emb = s.emb := by rw [hostOnly_complete s d a b x y]
@[simp] theorem complete_mem (d : Desc) (a b : Nat) (x y : Bool) : (complete d a b x y s).mem = s.mem := by rw [hostOnly_complete s d a b x y]
@[simp] theorem complete_route (d : Desc) (a b : Nat) (x y : Bool) : (complete d a b x y s).route = s.route := by rw [hostOnly_complete s d a b x y]
@[simp] theorem complete_shoal (d : Desc) (a b : Nat) (x y : Bool) : (complete d a b x y s).shoal = s.shoal := by rw [hostOnly_complete s d a b x y]
@[simp] theorem complete_qents (d : Desc) (a b : Nat) (x y : Bool) : (complete d a b x y s).qents = s.qents := by rw [hostOnly_complete s d a b x y]
@[simp] theorem complete_policers (d : Desc) (a b : Nat) (x y : Bool) : (complete d a b x y s).policers = s.policers := by rw [hostOnly_complete s d a b x y]
@[simp] theorem complete_net (d : Desc) (a b : Nat) (x y : Bool) : (complete d a b x y s).net = s.net := by rw [hostOnly_complete s d a b x y]
@[simp] theorem complete_flt (d : Desc) (a b : Nat) (x y : Bool) : (complete d a b x y s).flt = s.flt := by rw [hostOnly_complete s d a b x y]
@[simp] theorem complete_sec (d : Desc) (a b : Nat) (x y : Bool) : (complete d a b x y s).sec = s.sec := by rw [hostOnly_complete s d a b x y]
@[simp] theorem complete_pwr (d : Desc) (a b : Nat) (x y : Bool) : (complete d a b x y s).pwr = s.pwr := by rw [hostOnly_complete s d a b x y]
@[simp] theorem complete_restoring (d : Desc) (a b : Nat) (x y : Bool) : (complete d a b x y s).restoring = s.restoring := by rw [hostOnly_complete s d a b x y]

/-! ## finishDesc -/

@[simp] theorem finishDesc_pending (i : Nat × Nat) (a b : Nat) : (finishDesc i a b s).pending = s.pending := by rw [hostOnly_finishDesc s i a b]
@[simp] theorem finishDesc_dev (i : Nat × Nat) (a b : Nat) : (finishDesc i a b s).dev = s.dev := by rw [hostOnly_finishDesc s i a b]
@[simp] theorem finishDesc_part (i : Nat × Nat) (a b : Nat) : (finishDesc i a b s).part = s.part := by rw [hostOnly_finishDesc s i a b]
@[simp] theorem finishDesc_tide (i : Nat × Nat) (a b : Nat) : (finishDesc i a b s).tide = s.tide := by rw [hostOnly_finishDesc s i a b]
@[simp] theorem finishDesc_stop (i : Nat × Nat) (a b : Nat) : (finishDesc i a b s).stop = s.stop := by rw [hostOnly_finishDesc s i a b]
@[simp] theorem finishDesc_launches (i : Nat × Nat) (a b : Nat) : (finishDesc i a b s).launches = s.launches := by rw [hostOnly_finishDesc s i a b]
@[simp] theorem finishDesc_groups (i : Nat × Nat) (a b : Nat) : (finishDesc i a b s).groups = s.groups := by rw [hostOnly_finishDesc s i a b]
@[simp] theorem finishDesc_emb (i : Nat × Nat) (a b : Nat) : (finishDesc i a b s).emb = s.emb := by rw [hostOnly_finishDesc s i a b]
@[simp] theorem finishDesc_mem (i : Nat × Nat) (a b : Nat) : (finishDesc i a b s).mem = s.mem := by rw [hostOnly_finishDesc s i a b]
@[simp] theorem finishDesc_route (i : Nat × Nat) (a b : Nat) : (finishDesc i a b s).route = s.route := by rw [hostOnly_finishDesc s i a b]
@[simp] theorem finishDesc_shoal (i : Nat × Nat) (a b : Nat) : (finishDesc i a b s).shoal = s.shoal := by rw [hostOnly_finishDesc s i a b]
@[simp] theorem finishDesc_qents (i : Nat × Nat) (a b : Nat) : (finishDesc i a b s).qents = s.qents := by rw [hostOnly_finishDesc s i a b]
@[simp] theorem finishDesc_policers (i : Nat × Nat) (a b : Nat) : (finishDesc i a b s).policers = s.policers := by rw [hostOnly_finishDesc s i a b]
@[simp] theorem finishDesc_net (i : Nat × Nat) (a b : Nat) : (finishDesc i a b s).net = s.net := by rw [hostOnly_finishDesc s i a b]
@[simp] theorem finishDesc_flt (i : Nat × Nat) (a b : Nat) : (finishDesc i a b s).flt = s.flt := by rw [hostOnly_finishDesc s i a b]
@[simp] theorem finishDesc_sec (i : Nat × Nat) (a b : Nat) : (finishDesc i a b s).sec = s.sec := by rw [hostOnly_finishDesc s i a b]
@[simp] theorem finishDesc_pwr (i : Nat × Nat) (a b : Nat) : (finishDesc i a b s).pwr = s.pwr := by rw [hostOnly_finishDesc s i a b]
@[simp] theorem finishDesc_restoring (i : Nat × Nat) (a b : Nat) : (finishDesc i a b s).restoring = s.restoring := by rw [hostOnly_finishDesc s i a b]

/-! ## settleDesc -/

@[simp] theorem settleDesc_pending (d : Desc) (b : List Byte) (r : Res) : (settleDesc d b r s).pending = s.pending := by rw [hostOnly_settleDesc s d b r]
@[simp] theorem settleDesc_dev (d : Desc) (b : List Byte) (r : Res) : (settleDesc d b r s).dev = s.dev := by rw [hostOnly_settleDesc s d b r]
@[simp] theorem settleDesc_part (d : Desc) (b : List Byte) (r : Res) : (settleDesc d b r s).part = s.part := by rw [hostOnly_settleDesc s d b r]
@[simp] theorem settleDesc_tide (d : Desc) (b : List Byte) (r : Res) : (settleDesc d b r s).tide = s.tide := by rw [hostOnly_settleDesc s d b r]
@[simp] theorem settleDesc_stop (d : Desc) (b : List Byte) (r : Res) : (settleDesc d b r s).stop = s.stop := by rw [hostOnly_settleDesc s d b r]
@[simp] theorem settleDesc_launches (d : Desc) (b : List Byte) (r : Res) : (settleDesc d b r s).launches = s.launches := by rw [hostOnly_settleDesc s d b r]
@[simp] theorem settleDesc_groups (d : Desc) (b : List Byte) (r : Res) : (settleDesc d b r s).groups = s.groups := by rw [hostOnly_settleDesc s d b r]
@[simp] theorem settleDesc_emb (d : Desc) (b : List Byte) (r : Res) : (settleDesc d b r s).emb = s.emb := by rw [hostOnly_settleDesc s d b r]
@[simp] theorem settleDesc_mem (d : Desc) (b : List Byte) (r : Res) : (settleDesc d b r s).mem = s.mem := by rw [hostOnly_settleDesc s d b r]
@[simp] theorem settleDesc_route (d : Desc) (b : List Byte) (r : Res) : (settleDesc d b r s).route = s.route := by rw [hostOnly_settleDesc s d b r]
@[simp] theorem settleDesc_shoal (d : Desc) (b : List Byte) (r : Res) : (settleDesc d b r s).shoal = s.shoal := by rw [hostOnly_settleDesc s d b r]
@[simp] theorem settleDesc_qents (d : Desc) (b : List Byte) (r : Res) : (settleDesc d b r s).qents = s.qents := by rw [hostOnly_settleDesc s d b r]
@[simp] theorem settleDesc_policers (d : Desc) (b : List Byte) (r : Res) : (settleDesc d b r s).policers = s.policers := by rw [hostOnly_settleDesc s d b r]
@[simp] theorem settleDesc_net (d : Desc) (b : List Byte) (r : Res) : (settleDesc d b r s).net = s.net := by rw [hostOnly_settleDesc s d b r]
@[simp] theorem settleDesc_flt (d : Desc) (b : List Byte) (r : Res) : (settleDesc d b r s).flt = s.flt := by rw [hostOnly_settleDesc s d b r]
@[simp] theorem settleDesc_sec (d : Desc) (b : List Byte) (r : Res) : (settleDesc d b r s).sec = s.sec := by rw [hostOnly_settleDesc s d b r]
@[simp] theorem settleDesc_pwr (d : Desc) (b : List Byte) (r : Res) : (settleDesc d b r s).pwr = s.pwr := by rw [hostOnly_settleDesc s d b r]
@[simp] theorem settleDesc_restoring (d : Desc) (b : List Byte) (r : Res) : (settleDesc d b r s).restoring = s.restoring := by rw [hostOnly_settleDesc s d b r]

end Sys2Proof.Machine
end

