-- ==== Sys2Proof/Laws/Memory.lean ====
section
/-! SUPPORT. The laws of the byte memory and of the maps by number: a read after a write, every other place left
alone, and the canonical form kept. -/

namespace Sys2Proof.Machine

/-! ## Reads after writes -/

theorem memRead_memInsert_same (m : Memory) (a : Nat) (v : Byte) : memRead (memInsert m a v) a = v := by
  induction m with
  | nil => simp [memInsert, memRead]
  | cons e r ih =>
    obtain ⟨k, w⟩ := e
    simp only [memInsert]
    split
    · simp [memRead]
    · split <;> simp_all [memRead]

theorem memRead_memInsert_ne (m : Memory) (a b : Nat) (v : Byte) (h : a ≠ b) :
    memRead (memInsert m a v) b = memRead m b := by
  induction m with
  | nil => simp [memInsert, memRead, h]
  | cons e r ih =>
    obtain ⟨k, w⟩ := e
    simp only [memInsert]
    split
    · simp [memRead, h]
    · split <;> simp_all [memRead]

theorem memRead_erase_same (m : Memory) (a : Nat) : memRead (m.filter (fun e => e.1 != a)) a = blank := by
  induction m with
  | nil => rfl
  | cons e r ih =>
    obtain ⟨k, w⟩ := e
    by_cases hk : k = a
    · simp only [List.filter_cons, hk, bne_self_eq_false, Bool.false_eq_true, if_false]; exact ih
    · simp only [List.filter_cons, bne_iff_ne, ne_eq, hk, not_false_eq_true, if_true, memRead, if_false]; exact ih

theorem memRead_erase_ne (m : Memory) (a b : Nat) (h : a ≠ b) :
    memRead (m.filter (fun e => e.1 != a)) b = memRead m b := by
  induction m with
  | nil => rfl
  | cons e r ih =>
    obtain ⟨k, w⟩ := e
    by_cases hk : k = a
    · subst hk; simp only [List.filter_cons, bne_self_eq_false, Bool.false_eq_true, if_false, memRead, h]; exact ih
    · simp only [List.filter_cons, bne_iff_ne, ne_eq, hk, not_false_eq_true, if_true, memRead]; split
      · rfl
      · exact ih

/-- A byte written is the byte read. -/
@[simp] theorem memRead_memWrite_same (m : Memory) (a : Nat) (v : Byte) : memRead (memWrite m a v) a = v := by
  unfold memWrite
  split
  · rename_i h; rw [memRead_erase_same, h]
  · exact memRead_memInsert_same m a v

/-- Every other byte stands. -/
theorem memRead_memWrite_ne (m : Memory) (a b : Nat) (v : Byte) (h : a ≠ b) :
    memRead (memWrite m a v) b = memRead m b := by
  unfold memWrite
  split
  · exact memRead_erase_ne m a b h
  · exact memRead_memInsert_ne m a b v h

/-- A byte outside the bytes written stands. -/
theorem memRead_memWriteN_outside (l : List Byte) :
    ∀ (m : Memory) (a b : Nat), b < a ∨ a + l.length ≤ b → memRead (memWriteN m a l) b = memRead m b := by
  induction l with
  | nil => intro m a b _; rfl
  | cons x r ih =>
    intro m a b h
    simp only [List.length_cons] at h
    rw [memWriteN, ih _ _ _ (by omega), memRead_memWrite_ne _ _ _ _ (by omega)]

/-- Byte `i` of the bytes written. -/
theorem memRead_memWriteN_inside (l : List Byte) :
    ∀ (m : Memory) (a i : Nat) (h : i < l.length), memRead (memWriteN m a l) (a + i) = l[i] := by
  induction l with
  | nil => intro m a i h; simp at h
  | cons x r ih =>
    intro m a i h
    cases i with
    | zero =>
      rw [memWriteN, memRead_memWriteN_outside _ _ _ _ (by omega)]
      simp
    | succ j =>
      have e : a + (j + 1) = a + 1 + j := by omega
      rw [memWriteN, e, ih _ _ _ (by simpa using h)]
      simp

/-- The bytes written are the bytes read. -/
theorem memReadN_memWriteN (m : Memory) (a : Nat) (l : List Byte) : memReadN (memWriteN m a l) a l.length = l := by
  apply List.ext_getElem
  · simp [memReadN]
  · intro i h₁ h₂
    simp only [memReadN, List.getElem_map, List.getElem_range]
    exact memRead_memWriteN_inside l m a i h₂

/-- Bytes outside the bytes written stand. -/
theorem memReadN_memWriteN_outside (m : Memory) (a b n : Nat) (l : List Byte) (h : b + n ≤ a ∨ a + l.length ≤ b) :
    memReadN (memWriteN m a l) b n = memReadN m b n := by
  simp only [memReadN]
  refine List.map_congr_left fun i hi => ?_
  have := List.mem_range.mp hi
  exact memRead_memWriteN_outside l m a _ (by omega)

/-! ## The canonical form -/

/-- An entry may stand before a canonical memory: no address of the memory is as low. -/
def memBelow (k : Nat) (m : Memory) : Prop := ∀ e ∈ m, k < e.1

theorem memWf_cons (k : Nat) (v : Byte) (m : Memory) :
    memWf ((k, v) :: m) = true ↔ v ≠ blank ∧ memBelow k m ∧ memWf m = true := by
  induction m generalizing k v with
  | nil => simp [memWf, memBelow]
  | cons e r ih =>
    obtain ⟨k', v'⟩ := e
    simp only [memWf, Bool.and_eq_true, bne_iff_ne, decide_eq_true_eq]
    constructor
    · rintro ⟨⟨h1, h2⟩, h3⟩
      refine ⟨h1, ?_, h3⟩
      have hb := ((ih k' v').mp h3).2.1
      intro e he
      rcases List.mem_cons.mp he with rfl | he
      · exact h2
      · exact Nat.lt_trans h2 (hb e he)
    · rintro ⟨h1, h2, h3⟩
      exact ⟨⟨h1, h2 _ (List.mem_cons_self ..)⟩, h3⟩

theorem memBelow_memInsert {k : Nat} {m : Memory} (a : Nat) (v : Byte) (hk : k < a) (h : memBelow k m) :
    memBelow k (memInsert m a v) := by
  induction m with
  | nil => intro e he; simp only [memInsert, List.mem_singleton] at he; subst he; exact hk
  | cons x r ih =>
    obtain ⟨k', w⟩ := x
    have hr : memBelow k r := fun e he => h e (List.mem_cons_of_mem _ he)
    have hx : k < k' := h _ (List.mem_cons_self ..)
    simp only [memInsert]
    split
    · intro e he
      rcases List.mem_cons.mp he with rfl | he
      · exact hk
      · exact h e he
    · split
      · intro e he
        rcases List.mem_cons.mp he with rfl | he
        · exact hk
        · exact hr e he
      · intro e he
        rcases List.mem_cons.mp he with rfl | he
        · exact hx
        · exact ih hr e he

theorem memWf_memInsert (m : Memory) (a : Nat) (v : Byte) (hv : v ≠ blank) (h : memWf m = true) :
    memWf (memInsert m a v) = true := by
  induction m with
  | nil => simpa [memInsert, memWf] using hv
  | cons x r ih =>
    obtain ⟨k, w⟩ := x
    obtain ⟨h1, h2, h3⟩ := (memWf_cons k w r).mp h
    simp only [memInsert]
    split
    · rename_i hlt
      refine (memWf_cons ..).mpr ⟨hv, ?_, h⟩
      intro e he
      rcases List.mem_cons.mp he with rfl | he
      · exact hlt
      · exact Nat.lt_trans hlt (h2 e he)
    · split
      · rename_i hk; subst hk
        exact (memWf_cons ..).mpr ⟨hv, h2, h3⟩
      · rename_i h4 h5
        exact (memWf_cons ..).mpr ⟨h1, memBelow_memInsert a v (by omega) h2, ih h3⟩

theorem memWf_filter (m : Memory) (f : Host.Cell → Bool) (h : memWf m = true) : memWf (m.filter f) = true := by
  induction m with
  | nil => rfl
  | cons x r ih =>
    obtain ⟨k, w⟩ := x
    obtain ⟨h1, h2, h3⟩ := (memWf_cons k w r).mp h
    rw [List.filter_cons]
    split
    · exact (memWf_cons ..).mpr ⟨h1, fun e he => h2 e (List.mem_of_mem_filter he), ih h3⟩
    · exact ih h3

/-- A write keeps the canonical form. -/
theorem memWf_memWrite (m : Memory) (a : Nat) (v : Byte) (h : memWf m = true) : memWf (memWrite m a v) = true := by
  unfold memWrite
  split
  · exact memWf_filter m _ h
  · exact memWf_memInsert m a v (by assumption) h

/-- Writes keep the canonical form. -/
theorem memWf_memWriteN (l : List Byte) : ∀ (m : Memory) (a : Nat), memWf m = true → memWf (memWriteN m a l) = true := by
  induction l with
  | nil => intro m a h; exact h
  | cons x r ih => intro m a h; exact ih _ _ (memWf_memWrite m a x h)

/-- Two canonical memories that read the same everywhere are the same data. -/
theorem memWf_ext : ∀ (m n : Memory), memWf m = true → memWf n = true → (∀ a, memRead m a = memRead n a) → m = n := by
  intro m
  have low : ∀ (r : Memory) (k : Nat), memBelow k r → memRead r k = blank := by
    intro r
    induction r with
    | nil => intro k _; rfl
    | cons e r ih =>
      intro k h
      obtain ⟨k', v⟩ := e
      have hk := h _ (List.mem_cons_self ..)
      rw [memRead, if_neg (by simp only at hk; omega)]
      exact ih k (fun e he => h e (List.mem_cons_of_mem _ he))
  induction m with
  | nil =>
    intro n _ hn h
    cases n with
    | nil => rfl
    | cons e r =>
      obtain ⟨k, v⟩ := e
      have := h k
      rw [memRead, memRead, if_pos rfl] at this
      exact absurd this.symm ((memWf_cons ..).mp hn).1
  | cons e r ih =>
    intro n hm hn h
    obtain ⟨k, v⟩ := e
    obtain ⟨a1, a2, a3⟩ := (memWf_cons ..).mp hm
    cases n with
    | nil =>
      have := h k
      rw [memRead.eq_2, if_pos rfl] at this
      exact absurd this a1
    | cons e' r' =>
      obtain ⟨k', v'⟩ := e'
      obtain ⟨b1, b2, b3⟩ := (memWf_cons ..).mp hn
      have hk : k = k' := by
        rcases Nat.lt_trichotomy k k' with hlt | heq | hlt
        · have := h k
          rw [memRead, if_pos rfl, memRead, if_neg (by omega),
            low r' k (fun e he => Nat.lt_trans hlt (b2 e he))] at this
          exact absurd this a1
        · exact heq
        · have := h k'
          rw [memRead, if_neg (by omega), memRead, if_pos rfl,
            low r k' (fun e he => Nat.lt_trans hlt (a2 e he))] at this
          exact absurd this.symm b1
      subst hk
      have hv : v = v' := by have := h k; rwa [memRead, if_pos rfl, memRead, if_pos rfl] at this
      subst hv
      rw [ih r' a3 b3 ?_]
      intro a
      by_cases hka : k = a
      · subst hka; rw [low r k a2, low r' k b2]
      · have := h a
        rwa [memRead, if_neg hka, memRead, if_neg hka] at this

/-- Every memory is canonical after reset. -/
theorem reset_memoriesOk : memoriesOk State.reset = true := rfl

/-! ## Maps by number -/

@[simp] theorem mget_mput_same {α : Type} (m : Map α) (a : Nat) (v : α) : mget (mput m a v) a = some v := by
  induction m with
  | nil => simp [mput, mget]
  | cons e r ih =>
    obtain ⟨k, w⟩ := e
    simp only [mput]
    split
    · simp [mget]
    · split <;> simp_all [mget]

theorem mget_mput_ne {α : Type} (m : Map α) (a b : Nat) (v : α) (h : a ≠ b) : mget (mput m a v) b = mget m b := by
  induction m with
  | nil => simp [mput, mget, h]
  | cons e r ih =>
    obtain ⟨k, w⟩ := e
    simp only [mput]
    split
    · simp [mget, h]
    · split <;> simp_all [mget]

@[simp] theorem mgetD_mput_same {α : Type} (m : Map α) (a : Nat) (v d : α) : mgetD (mput m a v) a d = v := by
  simp [mgetD]

theorem mgetD_mput_ne {α : Type} (m : Map α) (a b : Nat) (v d : α) (h : a ≠ b) :
    mgetD (mput m a v) b d = mgetD m b d := by
  simp [mgetD, mget_mput_ne _ _ _ _ h]

@[simp] theorem mget_mmod_same {α : Type} (m : Map α) (a : Nat) (f : α → α) : mget (mmod m a f) a = (mget m a).map f := by
  induction m with
  | nil => rfl
  | cons e r ih =>
    obtain ⟨k, w⟩ := e
    by_cases hk : k = a
    · simp [mmod, mget, hk]
    · have : mmod ((k, w) :: r) a f = (k, w) :: mmod r a f := by simp [mmod, hk]
      rw [this, mget, mget, if_neg hk, if_neg hk, ih]

theorem mget_mmod_ne {α : Type} (m : Map α) (a b : Nat) (f : α → α) (h : a ≠ b) : mget (mmod m a f) b = mget m b := by
  induction m with
  | nil => rfl
  | cons e r ih =>
    obtain ⟨k, w⟩ := e
    by_cases hk : k = a
    · subst hk
      have : mmod ((k, w) :: r) k f = (k, f w) :: mmod r k f := by simp [mmod]
      rw [this, mget, mget, if_neg h, if_neg h, ih]
    · have : mmod ((k, w) :: r) a f = (k, w) :: mmod r a f := by simp [mmod, hk]
      rw [this, mget, mget, ih]

@[simp] theorem mget_mdel_same {α : Type} (m : Map α) (a : Nat) : mget (mdel m a) a = none := by
  induction m with
  | nil => rfl
  | cons e r ih =>
    obtain ⟨k, w⟩ := e
    by_cases hk : k = a
    · simp only [mdel, List.filter_cons, hk, bne_self_eq_false, Bool.false_eq_true, if_false]; exact ih
    · simp only [mdel, List.filter_cons, bne_iff_ne, ne_eq, hk, not_false_eq_true, if_true, mget, if_false]; exact ih

theorem mget_mdel_ne {α : Type} (m : Map α) (a b : Nat) (h : a ≠ b) : mget (mdel m a) b = mget m b := by
  induction m with
  | nil => rfl
  | cons e r ih =>
    obtain ⟨k, w⟩ := e
    by_cases hk : k = a
    · subst hk; simp only [mdel, List.filter_cons, bne_self_eq_false, Bool.false_eq_true, if_false, mget, h]; exact ih
    · simp only [mdel, List.filter_cons, bne_iff_ne, ne_eq, hk, not_false_eq_true, if_true, mget]; split
      · rfl
      · exact ih

end Sys2Proof.Machine
end

