-- ==== Sys2Proof/Laws/Ops.lean ====
section
/-! SUPPORT. One lemma for what each shared operation can do: rings and functions by number, the taking and the
completing of a descriptor, the freeing of packets, the fault collector, and the memories' canonical form. -/

namespace Sys2Proof.Machine

/-! ## Repetition -/

/-- What every step keeps, the whole repetition keeps. -/
theorem forAll_keeps {α : Type} {P : State → Prop} {f : α → State → State} (h : ∀ x u, P u → P (f x u)) :
    ∀ (l : List α) (s : State), P s → P (forAll l f s)
  | [], _, hs => hs
  | x :: r, s, hs => forAll_keeps h r (f x s) (h x s hs)

/-- What a step does not change, its repetition does not change. -/
theorem forAll_same {α β : Type} {g : State → β} {f : α → State → State} (h : ∀ x u, g (f x u) = g u) (l : List α) (s : State) :
    g (forAll l f s) = g s := by
  induction l generalizing s with
  | nil => rfl
  | cons x r ih => exact (ih (f x s)).trans (h x s)

theorem onlyIf_same {β : Type} {g : State → β} {f : State → State} (c : Bool) (s : State) (h : g (f s) = g s) :
    g (onlyIf c f s) = g s := by
  unfold onlyIf
  split
  · exact h
  · rfl

@[simp] theorem onlyIf_true (f : State → State) (s : State) : onlyIf true f s = f s := rfl
@[simp] theorem onlyIf_false (f : State → State) (s : State) : onlyIf false f s = s := rfl

/-! ## Rings, functions, ports, lanes, groups and tables by number -/

@[simp] theorem getRing_onRing_same (s : State) (r : Nat) (f : Ring → Ring) : getRing (onRing r f s) r = f (getRing s r) := by
  simp [getRing, onRing, onHost]

theorem getRing_onRing_ne (s : State) (r q : Nat) (f : Ring → Ring) (h : r ≠ q) : getRing (onRing r f s) q = getRing s q := by
  simp [getRing, onRing, onHost, mgetD_mput_ne _ _ _ _ _ h]

@[simp] theorem getFunc_onRing (s : State) (r n : Nat) (f : Ring → Ring) : getFunc (onRing r f s) n = getFunc s n := rfl
@[simp] theorem getRing_onFunc (s : State) (r n : Nat) (f : Func → Func) : getRing (onFunc n f s) r = getRing s r := rfl

@[simp] theorem getFunc_onFunc_same (s : State) (n : Nat) (f : Func → Func) : getFunc (onFunc n f s) n = f (getFunc s n) := by
  simp [getFunc, onFunc, onHost]

theorem getFunc_onFunc_ne (s : State) (n q : Nat) (f : Func → Func) (h : n ≠ q) : getFunc (onFunc n f s) q = getFunc s q := by
  simp [getFunc, onFunc, onHost, mgetD_mput_ne _ _ _ _ _ h]

@[simp] theorem getPort_onPort_same (s : State) (n : Nat) (f : Port → Port) : getPort (onPort n f s) n = f (getPort s n) := by
  simp [getPort, onPort, onNet]

theorem getPort_onPort_ne (s : State) (n q : Nat) (f : Port → Port) (h : n ≠ q) : getPort (onPort n f s) q = getPort s q := by
  simp [getPort, onPort, onNet, mgetD_mput_ne _ _ _ _ _ h]

@[simp] theorem getLane_onLane_same (s : State) (n : Nat) (f : Lane → Lane) : getLane (onLane n f s) n = f (getLane s n) := by
  simp [getLane, onLane, onNet]

theorem getLane_onLane_ne (s : State) (n q : Nat) (f : Lane → Lane) (h : n ≠ q) : getLane (onLane n f s) q = getLane s q := by
  simp [getLane, onLane, onNet, mgetD_mput_ne _ _ _ _ _ h]

@[simp] theorem getPort_onLane (s : State) (n p : Nat) (f : Lane → Lane) : getPort (onLane n f s) p = getPort s p := rfl
@[simp] theorem getLane_onPort (s : State) (n l : Nat) (f : Port → Port) : getLane (onPort n f s) l = getLane s l := rfl

@[simp] theorem getGroup_onGroup_same (s : State) (g : Nat) (f : Group → Group) :
    getGroup (onGroup g f s) g = (getGroup s g).map f := by
  simp [getGroup, onGroup]

theorem getGroup_onGroup_ne (s : State) (g q : Nat) (f : Group → Group) (h : g ≠ q) :
    getGroup (onGroup g f s) q = getGroup s q := by
  simp [getGroup, onGroup, mget_mmod_ne _ _ _ _ h]

@[simp] theorem getTable_onTable_same (s : State) (t : Nat) (f : Table → Table) :
    getTable (onTable t f s) t = (getTable s t).map f := by
  simp [getTable, onTable]

theorem getTable_onTable_ne (s : State) (t q : Nat) (f : Table → Table) (h : t ≠ q) :
    getTable (onTable t f s) q = getTable s q := by
  simp [getTable, onTable, mget_mmod_ne _ _ _ _ h]

/-! ## Descriptors -/

/-- A descriptor whose turn has come is taken, and settled as its work says (R420). -/
theorem runDesc_ready {s : State} {r i op : Nat} {d : Desc} (h : Ready s r i op d) (w : Work) (x : List Byte) :
    runDesc op w r i x s = settleDesc d x (w ⟨r, i, d.func, true⟩ d.op x s).2 (w ⟨r, i, d.func, true⟩ d.op x s).1 := by
  obtain ⟨h1, h2, h3, h4, h5, h6, h7⟩ := h
  have h8 : ¬ (s.dev.state = .stopped ∧ ¬ stoppedOpcode op = true) := fun h => h.2 (h7 h.1)
  unfold runDesc
  rw [h1]
  simp only [h2, h3, h4, h5, h6, ne_eq, not_false_eq_true, and_self, if_true]
  rw [if_neg h8]

/-- Nothing is taken in CLIFF (R423). -/
theorem runDesc_cliff {s : State} (h : s.dev.state = .cliff) (op r i : Nat) (w : Work) (x : List Byte) : runDesc op w r i x s = s := by
  unfold runDesc
  split
  · rfl
  · simp [h]

theorem complete_cliff {s : State} (h : s.dev.state = .cliff) (d : Desc) (a b : Nat) (x y : Bool) : complete d a b x y s = s := by
  simp [complete, h]

theorem postTo_cliff {s : State} (h : s.dev.state = .cliff) (o : Option Nat) (n c : Nat) (d : List Byte) (m : List (List Byte)) :
    postTo o n c d m s = s := by
  simp [postTo, h]

theorem sendVector_accepted (f v : Nat) (s : State) : (sendVector f v s).host.accepted = s.host.accepted := by
  unfold sendVector
  split
  · rfl
  · split <;> rfl

theorem entriesWritten_accepted (r n : Nat) (b : Bool) (s : State) : (entriesWritten r n b s).host.accepted = s.host.accepted := by
  unfold entriesWritten
  dsimp only
  split
  · exact sendVector_accepted _ _ _
  · rfl

theorem hostWrite_accepted (fn a : Nat) (b : List Byte) (s : State) : (hostWrite fn a b s).host.accepted = s.host.accepted := rfl

theorem writeEvent_accepted (r c : Nat) (d : List Byte) (m : List (List Byte)) (s : State) :
    (writeEvent r c d m s).host.accepted = s.host.accepted := by
  unfold writeEvent
  rw [entriesWritten_accepted]
  exact forAll_same (g := fun u : State => u.host.accepted) (f := fun e : Nat × List Byte => hostWrite (ringFunc (getRing s r)) (entryAddr (getRing s r) ((getRing s r).pi + e.1)) (sliceB e.2 0 32))
    (fun _ _ => rfl) _ s

theorem postTo_accepted (o : Option Nat) (n c : Nat) (d : List Byte) (m : List (List Byte)) (s : State) :
    (postTo o n c d m s).host.accepted = s.host.accepted := by
  unfold postTo
  split
  · rfl
  · split
    · rfl
    · dsimp only
      split
      · rfl
      · split
        · rfl
        · split
          · rfl
          · exact writeEvent_accepted _ _ _ _ _

/-- Events and counters leave the accepted descriptors. -/
@[simp] theorem postDev_accepted (c : Nat) (d : List Byte) (s : State) : (postDev c d s).host.accepted = s.host.accepted :=
  postTo_accepted _ _ _ _ _ _
@[simp] theorem postFn_accepted (n c : Nat) (d : List Byte) (s : State) : (postFn n c d s).host.accepted = s.host.accepted :=
  postTo_accepted _ _ _ _ _ _

@[simp] theorem countN_accepted (k : CKey) (n : Nat) (s : State) : (countN k n s).host.accepted = s.host.accepted := by
  unfold countN
  dsimp only
  split
  · exact postDev_accepted _ _ _
  · rfl

@[simp] theorem count_accepted (k : CKey) (s : State) : (count k s).host.accepted = s.host.accepted := countN_accepted _ _ _

/-- A completed descriptor is accepted no longer, and every other one stands (R421, R423). -/
theorem complete_accepted {s : State} (h : s.dev.state ≠ .cliff) (d : Desc) (a b : Nat) (x y : Bool) :
    (complete d a b x y s).host.accepted = s.host.accepted.filter (fun e => !(e.ring == d.ring && e.idx == d.idx)) := by
  unfold complete
  rw [if_neg h]
  dsimp only
  split
  · rfl
  · split
    · unfold onlyIf; split <;> rfl
    · rw [entriesWritten_accepted, hostWrite_accepted]
      unfold onlyIf
      split <;> rfl

theorem complete_findDesc {s : State} (h : s.dev.state ≠ .cliff) (d : Desc) (a b : Nat) (x y : Bool) :
    findDesc (complete d a b x y s) d.ring d.idx = none := by
  unfold findDesc
  rw [complete_accepted h, List.find?_eq_none]
  intro e he
  have := (List.mem_filter.mp he).2
  simp only [Bool.not_eq_true', Bool.and_eq_false_iff] at this
  simp only [Bool.and_eq_true, not_and]
  rcases this with h | h <;> simp [h]

/-! ## The Shoal -/

theorem freeOwn_frame (d b : Nat) (s : State) : freeOwn d b s = { s with shoal := (freeOwn d b s).shoal } := by
  unfold freeOwn
  split
  · rfl
  · split <;> rfl

/-- Freeing packets changes the Shoal alone (R305). -/
theorem freeStored_frame (d b : Nat) (s : State) : freeStored d b s = { s with shoal := (freeStored d b s).shoal } := by
  unfold freeStored
  split
  · exact freeOwn_frame _ _ _
  · dsimp only
    split
    · rw [freeOwn_frame]
      rfl
    · rfl

theorem freeAll_frame : ∀ (l : List (Nat × Nat)) (s : State), freeAll l s = { s with shoal := (freeAll l s).shoal }
  | [], _ => rfl
  | e :: r, s => by
    have h := freeAll_frame r (freeStored e.1 e.2 s)
    have k := freeStored_frame e.1 e.2 s
    show freeAll r (freeStored e.1 e.2 s) = { s with shoal := (freeAll r (freeStored e.1 e.2 s)).shoal }
    rw [h, k]

/-! ## The fault collector -/

/-- `t` differs from `s` in the host interface, the counters and the collector alone. -/
def FltOnly (s t : State) : Prop := t = { s with host := t.host, obs := t.obs, flt := t.flt }

theorem FltOnly.trans {s t u : State} (h : FltOnly s t) (k : FltOnly t u) : FltOnly s u := by
  unfold FltOnly at *
  rw [k, h]

theorem HostOnly.fltOnly {s t : State} (h : HostOnly s t) : FltOnly s t := by
  unfold HostOnly at h
  unfold FltOnly
  rw [h]

theorem fltOnly_onFlt (s : State) (f : Flt → Flt) : FltOnly s (onFlt f s) := rfl

theorem fltOnly_post (s : State) (g : Flt → Flt) (b : Bool) (c : Nat) (d : List Byte) :
    FltOnly s (onlyIf b (postDev c d) (onFlt g s)) :=
  (fltOnly_onFlt s g).trans (hostOnly_onlyIf _ b (hostOnly_postDev _ c d)).fltOnly

theorem rateCount_fltOnly (f : FaultRec) (s : State) : FltOnly s (rateCount f s) := by
  unfold rateCount
  dsimp only
  split <;> exact fltOnly_post _ _ _ _ _

/-- A record of no Cliff changes the collector, the counters and the event rings alone (R480). -/
theorem collect_fltOnly (f : FaultRec) (s : State) (h : classOf f.source ≠ some .cliff) : FltOnly s (collect f s) := by
  unfold collect
  split
  · exact rfl
  · rename_i c hc
    split
    · exact rfl
    · dsimp only
      have h1 (g : Flt → Flt) : FltOnly s (onFlt g (count (kFault (1024 * locDie f.loc + locUnit f.loc) f.source) s)) :=
        (hostOnly_count s _).fltOnly.trans (fltOnly_onFlt _ _)
      have h2 (u : State) (b : Bool) (x : Nat) (d : List Byte) : FltOnly u (onlyIf b (postDev x d) u) :=
        (hostOnly_onlyIf u b (hostOnly_postDev u x d)).fltOnly
      have h3 (u : State) : onlyIf (c == .cliff) (enterCliff f) u = u := by
        have : (c == FClass.cliff) = false := by cases c <;> first | rfl | exact absurd hc h
        rw [this]
        rfl
      rw [h3]
      cases c with
      | cliff => exact absurd hc h
      | ripple => exact ((h1 _).trans (rateCount_fltOnly _ _)).trans (h2 _ _ _ _)
      | swell => exact (((h1 _).trans (h2 _ _ _ _)).trans (rateCount_fltOnly _ _)).trans (h2 _ _ _ _)
      | storm => exact (((h1 _).trans (hostOnly_postDev _ _ _).fltOnly).trans (rateCount_fltOnly _ _)).trans (h2 _ _ _ _)

/-! ## The memories -/

/-- What a map holds after an entry is set. -/
theorem mem_mput {α : Type} {k : Nat} {v : α} : ∀ {m : Map α} {e : Nat × α}, e ∈ mput m k v → e = (k, v) ∨ e ∈ m
  | [], e, h => by simpa [mput] using h
  | (a, w) :: r, e, h => by
    simp only [mput] at h
    split at h
    · rcases List.mem_cons.mp h with h | h
      · exact .inl h
      · exact .inr h
    · split at h
      · rcases List.mem_cons.mp h with h | h
        · exact .inl h
        · exact .inr (List.mem_cons_of_mem _ h)
      · rcases List.mem_cons.mp h with h | h
        · exact .inr (h ▸ List.mem_cons_self ..)
        · exact (mem_mput h).imp id (List.mem_cons_of_mem _)

/-- The host memory of every function is canonical when all that are listed are. -/
theorem memWf_mgetD {m : Map Memory} (k : Nat) (h : ∀ e ∈ m, memWf e.2 = true) : memWf (mgetD m k []) = true := by
  have key : ∀ (m : Map Memory), (∀ e ∈ m, memWf e.2 = true) → memWf ((mget m k).getD []) = true := by
    intro m
    induction m with
    | nil => exact fun _ => rfl
    | cons e r ih =>
      intro h
      simp only [mget]
      split
      · exact h e (List.mem_cons_self ..)
      · exact ih (fun x hx => h x (List.mem_cons_of_mem _ hx))
  exact key m h

theorem memoriesOk_hostWrite (fn a : Nat) (b : List Byte) (s : State) (h : memoriesOk s = true) : memoriesOk (hostWrite fn a b s) = true := by
  simp only [memoriesOk, Bool.and_eq_true, List.all_eq_true] at *
  refine ⟨⟨fun e he => ?_, h.1.2⟩, h.2⟩
  rcases mem_mput (show e ∈ mput s.host.mem fn _ from he) with rfl | he
  · exact memWf_memWriteN b _ a (memWf_mgetD fn h.1.1)
  · exact h.1.1 e he

theorem memoriesOk_putRegion (ridx off : Nat) (d : List Byte) (s : State) (h : memoriesOk s = true) :
    memoriesOk (putRegion ridx off d s) = true := by
  simp only [memoriesOk, Bool.and_eq_true, List.all_eq_true] at *
  refine ⟨⟨h.1.1, ?_⟩, h.2⟩
  intro e he
  obtain ⟨x, hx, rfl⟩ := List.mem_map.mp (show e ∈ s.mem.regions.map _ from he)
  have := h.1.2 x hx
  split
  · exact memWf_memWriteN d _ off this
  · exact this

/-- A table's row spaces are canonical. -/
def spacesOk (t : Table) : Bool := memWf t.space0 && memWf t.space1 && memWf t.space2 && memWf t.space3

theorem spacesOk_spaceOf (t : Table) (sp : Nat) (h : spacesOk t = true) : memWf (spaceOf t sp) = true := by
  simp only [spacesOk, Bool.and_eq_true] at h
  obtain ⟨⟨⟨a, b⟩, c⟩, d⟩ := h
  unfold spaceOf
  split <;> assumption

theorem spacesOk_setSpace (t : Table) (sp : Nat) (m : Memory) (hm : memWf m = true) (h : spacesOk t = true) :
    spacesOk (setSpace sp m t) = true := by
  simp only [spacesOk, Bool.and_eq_true] at *
  unfold setSpace
  split <;> simp_all

/-- Writing a row keeps the canonical form. -/
theorem spacesOk_putRow (sp row : Nat) (b : List Byte) (t : Table) (h : spacesOk t = true) : spacesOk (putRow sp row b t) = true :=
  spacesOk_setSpace t sp _ (memWf_memWriteN _ _ _ (spacesOk_spaceOf t sp h)) h

theorem memoriesOk_onTable (t : Nat) (f : Table → Table) (s : State) (h : memoriesOk s = true)
    (hf : ∀ x, spacesOk x = true → spacesOk (f x) = true) : memoriesOk (onTable t f s) = true := by
  simp only [memoriesOk, Bool.and_eq_true, List.all_eq_true] at h ⊢
  refine ⟨h.1, ?_⟩
  intro e he
  obtain ⟨x, hx, rfl⟩ := List.mem_map.mp (show e ∈ s.emb.tables.map _ from he)
  have hk : spacesOk x.2 = true := by simp only [spacesOk, Bool.and_eq_true]; exact h.2 x hx
  split
  · have := hf _ hk
    simpa only [spacesOk, Bool.and_eq_true] using this
  · exact h.2 x hx

end Sys2Proof.Machine
end

