-- ==== Sys2Proof/Laws/Units.lean ====
section
/-! SUPPORT. What the updates of one unit leave alone: stored packets, quarters, chunks, calls, homes, regions; and the
small lemmas of parity, of a lane's levels and of the route to a commit. -/

namespace Sys2Proof.Machine

variable (s : State)

/-! ## sendOn -/

@[simp] theorem sendOn_pending (k : Packet) : (sendOn k s).pending = s.pending := rfl
@[simp] theorem sendOn_dev (k : Packet) : (sendOn k s).dev = s.dev := rfl
@[simp] theorem sendOn_part (k : Packet) : (sendOn k s).part = s.part := rfl
@[simp] theorem sendOn_host (k : Packet) : (sendOn k s).host = s.host := rfl
@[simp] theorem sendOn_tide (k : Packet) : (sendOn k s).tide = s.tide := rfl
@[simp] theorem sendOn_stop (k : Packet) : (sendOn k s).stop = s.stop := rfl
@[simp] theorem sendOn_launches (k : Packet) : (sendOn k s).launches = s.launches := rfl
@[simp] theorem sendOn_groups (k : Packet) : (sendOn k s).groups = s.groups := rfl
@[simp] theorem sendOn_emb (k : Packet) : (sendOn k s).emb = s.emb := rfl
@[simp] theorem sendOn_mem (k : Packet) : (sendOn k s).mem = s.mem := rfl
@[simp] theorem sendOn_shoal (k : Packet) : (sendOn k s).shoal = s.shoal := rfl
@[simp] theorem sendOn_qents (k : Packet) : (sendOn k s).qents = s.qents := rfl
@[simp] theorem sendOn_policers (k : Packet) : (sendOn k s).policers = s.policers := rfl
@[simp] theorem sendOn_net (k : Packet) : (sendOn k s).net = s.net := rfl
@[simp] theorem sendOn_flt (k : Packet) : (sendOn k s).flt = s.flt := rfl
@[simp] theorem sendOn_sec (k : Packet) : (sendOn k s).sec = s.sec := rfl
@[simp] theorem sendOn_pwr (k : Packet) : (sendOn k s).pwr = s.pwr := rfl
@[simp] theorem sendOn_obs (k : Packet) : (sendOn k s).obs = s.obs := rfl
@[simp] theorem sendOn_restoring (k : Packet) : (sendOn k s).restoring = s.restoring := rfl

/-! ## onStored -/

@[simp] theorem onStored_pending (d b : Nat) (f : Stored → Stored) : (onStored d b f s).pending = s.pending := rfl
@[simp] theorem onStored_dev (d b : Nat) (f : Stored → Stored) : (onStored d b f s).dev = s.dev := rfl
@[simp] theorem onStored_part (d b : Nat) (f : Stored → Stored) : (onStored d b f s).part = s.part := rfl
@[simp] theorem onStored_host (d b : Nat) (f : Stored → Stored) : (onStored d b f s).host = s.host := rfl
@[simp] theorem onStored_tide (d b : Nat) (f : Stored → Stored) : (onStored d b f s).tide = s.tide := rfl
@[simp] theorem onStored_stop (d b : Nat) (f : Stored → Stored) : (onStored d b f s).stop = s.stop := rfl
@[simp] theorem onStored_launches (d b : Nat) (f : Stored → Stored) : (onStored d b f s).launches = s.launches := rfl
@[simp] theorem onStored_groups (d b : Nat) (f : Stored → Stored) : (onStored d b f s).groups = s.groups := rfl
@[simp] theorem onStored_emb (d b : Nat) (f : Stored → Stored) : (onStored d b f s).emb = s.emb := rfl
@[simp] theorem onStored_mem (d b : Nat) (f : Stored → Stored) : (onStored d b f s).mem = s.mem := rfl
@[simp] theorem onStored_route (d b : Nat) (f : Stored → Stored) : (onStored d b f s).route = s.route := rfl
@[simp] theorem onStored_qents (d b : Nat) (f : Stored → Stored) : (onStored d b f s).qents = s.qents := rfl
@[simp] theorem onStored_policers (d b : Nat) (f : Stored → Stored) : (onStored d b f s).policers = s.policers := rfl
@[simp] theorem onStored_net (d b : Nat) (f : Stored → Stored) : (onStored d b f s).net = s.net := rfl
@[simp] theorem onStored_flt (d b : Nat) (f : Stored → Stored) : (onStored d b f s).flt = s.flt := rfl
@[simp] theorem onStored_sec (d b : Nat) (f : Stored → Stored) : (onStored d b f s).sec = s.sec := rfl
@[simp] theorem onStored_pwr (d b : Nat) (f : Stored → Stored) : (onStored d b f s).pwr = s.pwr := rfl
@[simp] theorem onStored_obs (d b : Nat) (f : Stored → Stored) : (onStored d b f s).obs = s.obs := rfl
@[simp] theorem onStored_restoring (d b : Nat) (f : Stored → Stored) : (onStored d b f s).restoring = s.restoring := rfl

/-! ## setStored -/

@[simp] theorem setStored_pending (d b : Nat) (f : Packet → Packet) : (setStored d b f s).pending = s.pending := rfl
@[simp] theorem setStored_dev (d b : Nat) (f : Packet → Packet) : (setStored d b f s).dev = s.dev := rfl
@[simp] theorem setStored_part (d b : Nat) (f : Packet → Packet) : (setStored d b f s).part = s.part := rfl
@[simp] theorem setStored_host (d b : Nat) (f : Packet → Packet) : (setStored d b f s).host = s.host := rfl
@[simp] theorem setStored_tide (d b : Nat) (f : Packet → Packet) : (setStored d b f s).tide = s.tide := rfl
@[simp] theorem setStored_stop (d b : Nat) (f : Packet → Packet) : (setStored d b f s).stop = s.stop := rfl
@[simp] theorem setStored_launches (d b : Nat) (f : Packet → Packet) : (setStored d b f s).launches = s.launches := rfl
@[simp] theorem setStored_groups (d b : Nat) (f : Packet → Packet) : (setStored d b f s).groups = s.groups := rfl
@[simp] theorem setStored_emb (d b : Nat) (f : Packet → Packet) : (setStored d b f s).emb = s.emb := rfl
@[simp] theorem setStored_mem (d b : Nat) (f : Packet → Packet) : (setStored d b f s).mem = s.mem := rfl
@[simp] theorem setStored_route (d b : Nat) (f : Packet → Packet) : (setStored d b f s).route = s.route := rfl
@[simp] theorem setStored_qents (d b : Nat) (f : Packet → Packet) : (setStored d b f s).qents = s.qents := rfl
@[simp] theorem setStored_policers (d b : Nat) (f : Packet → Packet) : (setStored d b f s).policers = s.policers := rfl
@[simp] theorem setStored_net (d b : Nat) (f : Packet → Packet) : (setStored d b f s).net = s.net := rfl
@[simp] theorem setStored_flt (d b : Nat) (f : Packet → Packet) : (setStored d b f s).flt = s.flt := rfl
@[simp] theorem setStored_sec (d b : Nat) (f : Packet → Packet) : (setStored d b f s).sec = s.sec := rfl
@[simp] theorem setStored_pwr (d b : Nat) (f : Packet → Packet) : (setStored d b f s).pwr = s.pwr := rfl
@[simp] theorem setStored_obs (d b : Nat) (f : Packet → Packet) : (setStored d b f s).obs = s.obs := rfl
@[simp] theorem setStored_restoring (d b : Nat) (f : Packet → Packet) : (setStored d b f s).restoring = s.restoring := rfl

/-! ## onQuarter -/

@[simp] theorem onQuarter_pending (d q : Nat) (f : Quarter → Quarter) : (onQuarter d q f s).pending = s.pending := rfl
@[simp] theorem onQuarter_dev (d q : Nat) (f : Quarter → Quarter) : (onQuarter d q f s).dev = s.dev := rfl
@[simp] theorem onQuarter_part (d q : Nat) (f : Quarter → Quarter) : (onQuarter d q f s).part = s.part := rfl
@[simp] theorem onQuarter_host (d q : Nat) (f : Quarter → Quarter) : (onQuarter d q f s).host = s.host := rfl
@[simp] theorem onQuarter_tide (d q : Nat) (f : Quarter → Quarter) : (onQuarter d q f s).tide = s.tide := rfl
@[simp] theorem onQuarter_stop (d q : Nat) (f : Quarter → Quarter) : (onQuarter d q f s).stop = s.stop := rfl
@[simp] theorem onQuarter_launches (d q : Nat) (f : Quarter → Quarter) : (onQuarter d q f s).launches = s.launches := rfl
@[simp] theorem onQuarter_groups (d q : Nat) (f : Quarter → Quarter) : (onQuarter d q f s).groups = s.groups := rfl
@[simp] theorem onQuarter_emb (d q : Nat) (f : Quarter → Quarter) : (onQuarter d q f s).emb = s.emb := rfl
@[simp] theorem onQuarter_mem (d q : Nat) (f : Quarter → Quarter) : (onQuarter d q f s).mem = s.mem := rfl
@[simp] theorem onQuarter_route (d q : Nat) (f : Quarter → Quarter) : (onQuarter d q f s).route = s.route := rfl
@[simp] theorem onQuarter_qents (d q : Nat) (f : Quarter → Quarter) : (onQuarter d q f s).qents = s.qents := rfl
@[simp] theorem onQuarter_policers (d q : Nat) (f : Quarter → Quarter) : (onQuarter d q f s).policers = s.policers := rfl
@[simp] theorem onQuarter_net (d q : Nat) (f : Quarter → Quarter) : (onQuarter d q f s).net = s.net := rfl
@[simp] theorem onQuarter_flt (d q : Nat) (f : Quarter → Quarter) : (onQuarter d q f s).flt = s.flt := rfl
@[simp] theorem onQuarter_sec (d q : Nat) (f : Quarter → Quarter) : (onQuarter d q f s).sec = s.sec := rfl
@[simp] theorem onQuarter_pwr (d q : Nat) (f : Quarter → Quarter) : (onQuarter d q f s).pwr = s.pwr := rfl
@[simp] theorem onQuarter_obs (d q : Nat) (f : Quarter → Quarter) : (onQuarter d q f s).obs = s.obs := rfl
@[simp] theorem onQuarter_restoring (d q : Nat) (f : Quarter → Quarter) : (onQuarter d q f s).restoring = s.restoring := rfl

/-! ## onChunk -/

@[simp] theorem onChunk_pending (g e n c : Nat) (f : Chunk → Chunk) : (onChunk g e n c f s).pending = s.pending := rfl
@[simp] theorem onChunk_dev (g e n c : Nat) (f : Chunk → Chunk) : (onChunk g e n c f s).dev = s.dev := rfl
@[simp] theorem onChunk_part (g e n c : Nat) (f : Chunk → Chunk) : (onChunk g e n c f s).part = s.part := rfl
@[simp] theorem onChunk_host (g e n c : Nat) (f : Chunk → Chunk) : (onChunk g e n c f s).host = s.host := rfl
@[simp] theorem onChunk_tide (g e n c : Nat) (f : Chunk → Chunk) : (onChunk g e n c f s).tide = s.tide := rfl
@[simp] theorem onChunk_stop (g e n c : Nat) (f : Chunk → Chunk) : (onChunk g e n c f s).stop = s.stop := rfl
@[simp] theorem onChunk_launches (g e n c : Nat) (f : Chunk → Chunk) : (onChunk g e n c f s).launches = s.launches := rfl
@[simp] theorem onChunk_emb (g e n c : Nat) (f : Chunk → Chunk) : (onChunk g e n c f s).emb = s.emb := rfl
@[simp] theorem onChunk_mem (g e n c : Nat) (f : Chunk → Chunk) : (onChunk g e n c f s).mem = s.mem := rfl
@[simp] theorem onChunk_route (g e n c : Nat) (f : Chunk → Chunk) : (onChunk g e n c f s).route = s.route := rfl
@[simp] theorem onChunk_shoal (g e n c : Nat) (f : Chunk → Chunk) : (onChunk g e n c f s).shoal = s.shoal := rfl
@[simp] theorem onChunk_qents (g e n c : Nat) (f : Chunk → Chunk) : (onChunk g e n c f s).qents = s.qents := rfl
@[simp] theorem onChunk_policers (g e n c : Nat) (f : Chunk → Chunk) : (onChunk g e n c f s).policers = s.policers := rfl
@[simp] theorem onChunk_net (g e n c : Nat) (f : Chunk → Chunk) : (onChunk g e n c f s).net = s.net := rfl
@[simp] theorem onChunk_flt (g e n c : Nat) (f : Chunk → Chunk) : (onChunk g e n c f s).flt = s.flt := rfl
@[simp] theorem onChunk_sec (g e n c : Nat) (f : Chunk → Chunk) : (onChunk g e n c f s).sec = s.sec := rfl
@[simp] theorem onChunk_pwr (g e n c : Nat) (f : Chunk → Chunk) : (onChunk g e n c f s).pwr = s.pwr := rfl
@[simp] theorem onChunk_obs (g e n c : Nat) (f : Chunk → Chunk) : (onChunk g e n c f s).obs = s.obs := rfl
@[simp] theorem onChunk_restoring (g e n c : Nat) (f : Chunk → Chunk) : (onChunk g e n c f s).restoring = s.restoring := rfl

/-! ## onCall -/

@[simp] theorem onCall_pending (g e n : Nat) (f : Call → Call) : (onCall g e n f s).pending = s.pending := rfl
@[simp] theorem onCall_dev (g e n : Nat) (f : Call → Call) : (onCall g e n f s).dev = s.dev := rfl
@[simp] theorem onCall_part (g e n : Nat) (f : Call → Call) : (onCall g e n f s).part = s.part := rfl
@[simp] theorem onCall_host (g e n : Nat) (f : Call → Call) : (onCall g e n f s).host = s.host := rfl
@[simp] theorem onCall_tide (g e n : Nat) (f : Call → Call) : (onCall g e n f s).tide = s.tide := rfl
@[simp] theorem onCall_stop (g e n : Nat) (f : Call → Call) : (onCall g e n f s).stop = s.stop := rfl
@[simp] theorem onCall_launches (g e n : Nat) (f : Call → Call) : (onCall g e n f s).launches = s.launches := rfl
@[simp] theorem onCall_emb (g e n : Nat) (f : Call → Call) : (onCall g e n f s).emb = s.emb := rfl
@[simp] theorem onCall_mem (g e n : Nat) (f : Call → Call) : (onCall g e n f s).mem = s.mem := rfl
@[simp] theorem onCall_route (g e n : Nat) (f : Call → Call) : (onCall g e n f s).route = s.route := rfl
@[simp] theorem onCall_shoal (g e n : Nat) (f : Call → Call) : (onCall g e n f s).shoal = s.shoal := rfl
@[simp] theorem onCall_qents (g e n : Nat) (f : Call → Call) : (onCall g e n f s).qents = s.qents := rfl
@[simp] theorem onCall_policers (g e n : Nat) (f : Call → Call) : (onCall g e n f s).policers = s.policers := rfl
@[simp] theorem onCall_net (g e n : Nat) (f : Call → Call) : (onCall g e n f s).net = s.net := rfl
@[simp] theorem onCall_flt (g e n : Nat) (f : Call → Call) : (onCall g e n f s).flt = s.flt := rfl
@[simp] theorem onCall_sec (g e n : Nat) (f : Call → Call) : (onCall g e n f s).sec = s.sec := rfl
@[simp] theorem onCall_pwr (g e n : Nat) (f : Call → Call) : (onCall g e n f s).pwr = s.pwr := rfl
@[simp] theorem onCall_obs (g e n : Nat) (f : Call → Call) : (onCall g e n f s).obs = s.obs := rfl
@[simp] theorem onCall_restoring (g e n : Nat) (f : Call → Call) : (onCall g e n f s).restoring = s.restoring := rfl

/-! ## onHome -/

@[simp] theorem onHome_pending (h : HomeBag) (f : HomeBag → HomeBag) : (onHome h f s).pending = s.pending := rfl
@[simp] theorem onHome_dev (h : HomeBag) (f : HomeBag → HomeBag) : (onHome h f s).dev = s.dev := rfl
@[simp] theorem onHome_part (h : HomeBag) (f : HomeBag → HomeBag) : (onHome h f s).part = s.part := rfl
@[simp] theorem onHome_host (h : HomeBag) (f : HomeBag → HomeBag) : (onHome h f s).host = s.host := rfl
@[simp] theorem onHome_tide (h : HomeBag) (f : HomeBag → HomeBag) : (onHome h f s).tide = s.tide := rfl
@[simp] theorem onHome_stop (h : HomeBag) (f : HomeBag → HomeBag) : (onHome h f s).stop = s.stop := rfl
@[simp] theorem onHome_launches (h : HomeBag) (f : HomeBag → HomeBag) : (onHome h f s).launches = s.launches := rfl
@[simp] theorem onHome_groups (h : HomeBag) (f : HomeBag → HomeBag) : (onHome h f s).groups = s.groups := rfl
@[simp] theorem onHome_mem (h : HomeBag) (f : HomeBag → HomeBag) : (onHome h f s).mem = s.mem := rfl
@[simp] theorem onHome_route (h : HomeBag) (f : HomeBag → HomeBag) : (onHome h f s).route = s.route := rfl
@[simp] theorem onHome_shoal (h : HomeBag) (f : HomeBag → HomeBag) : (onHome h f s).shoal = s.shoal := rfl
@[simp] theorem onHome_qents (h : HomeBag) (f : HomeBag → HomeBag) : (onHome h f s).qents = s.qents := rfl
@[simp] theorem onHome_policers (h : HomeBag) (f : HomeBag → HomeBag) : (onHome h f s).policers = s.policers := rfl
@[simp] theorem onHome_net (h : HomeBag) (f : HomeBag → HomeBag) : (onHome h f s).net = s.net := rfl
@[simp] theorem onHome_flt (h : HomeBag) (f : HomeBag → HomeBag) : (onHome h f s).flt = s.flt := rfl
@[simp] theorem onHome_sec (h : HomeBag) (f : HomeBag → HomeBag) : (onHome h f s).sec = s.sec := rfl
@[simp] theorem onHome_pwr (h : HomeBag) (f : HomeBag → HomeBag) : (onHome h f s).pwr = s.pwr := rfl
@[simp] theorem onHome_obs (h : HomeBag) (f : HomeBag → HomeBag) : (onHome h f s).obs = s.obs := rfl
@[simp] theorem onHome_restoring (h : HomeBag) (f : HomeBag → HomeBag) : (onHome h f s).restoring = s.restoring := rfl

/-! ## onBagWin -/

@[simp] theorem onBagWin_pending (t n : Nat) (f : BagWin → BagWin) : (onBagWin t n f s).pending = s.pending := rfl
@[simp] theorem onBagWin_dev (t n : Nat) (f : BagWin → BagWin) : (onBagWin t n f s).dev = s.dev := rfl
@[simp] theorem onBagWin_part (t n : Nat) (f : BagWin → BagWin) : (onBagWin t n f s).part = s.part := rfl
@[simp] theorem onBagWin_host (t n : Nat) (f : BagWin → BagWin) : (onBagWin t n f s).host = s.host := rfl
@[simp] theorem onBagWin_tide (t n : Nat) (f : BagWin → BagWin) : (onBagWin t n f s).tide = s.tide := rfl
@[simp] theorem onBagWin_stop (t n : Nat) (f : BagWin → BagWin) : (onBagWin t n f s).stop = s.stop := rfl
@[simp] theorem onBagWin_launches (t n : Nat) (f : BagWin → BagWin) : (onBagWin t n f s).launches = s.launches := rfl
@[simp] theorem onBagWin_groups (t n : Nat) (f : BagWin → BagWin) : (onBagWin t n f s).groups = s.groups := rfl
@[simp] theorem onBagWin_mem (t n : Nat) (f : BagWin → BagWin) : (onBagWin t n f s).mem = s.mem := rfl
@[simp] theorem onBagWin_route (t n : Nat) (f : BagWin → BagWin) : (onBagWin t n f s).route = s.route := rfl
@[simp] theorem onBagWin_shoal (t n : Nat) (f : BagWin → BagWin) : (onBagWin t n f s).shoal = s.shoal := rfl
@[simp] theorem onBagWin_qents (t n : Nat) (f : BagWin → BagWin) : (onBagWin t n f s).qents = s.qents := rfl
@[simp] theorem onBagWin_policers (t n : Nat) (f : BagWin → BagWin) : (onBagWin t n f s).policers = s.policers := rfl
@[simp] theorem onBagWin_net (t n : Nat) (f : BagWin → BagWin) : (onBagWin t n f s).net = s.net := rfl
@[simp] theorem onBagWin_flt (t n : Nat) (f : BagWin → BagWin) : (onBagWin t n f s).flt = s.flt := rfl
@[simp] theorem onBagWin_sec (t n : Nat) (f : BagWin → BagWin) : (onBagWin t n f s).sec = s.sec := rfl
@[simp] theorem onBagWin_pwr (t n : Nat) (f : BagWin → BagWin) : (onBagWin t n f s).pwr = s.pwr := rfl
@[simp] theorem onBagWin_obs (t n : Nat) (f : BagWin → BagWin) : (onBagWin t n f s).obs = s.obs := rfl
@[simp] theorem onBagWin_restoring (t n : Nat) (f : BagWin → BagWin) : (onBagWin t n f s).restoring = s.restoring := rfl

/-! ## onRgn -/

@[simp] theorem onRgn_pending (r : Nat) (f : Rgn → Rgn) : (onRgn r f s).pending = s.pending := rfl
@[simp] theorem onRgn_dev (r : Nat) (f : Rgn → Rgn) : (onRgn r f s).dev = s.dev := rfl
@[simp] theorem onRgn_part (r : Nat) (f : Rgn → Rgn) : (onRgn r f s).part = s.part := rfl
@[simp] theorem onRgn_host (r : Nat) (f : Rgn → Rgn) : (onRgn r f s).host = s.host := rfl
@[simp] theorem onRgn_tide (r : Nat) (f : Rgn → Rgn) : (onRgn r f s).tide = s.tide := rfl
@[simp] theorem onRgn_stop (r : Nat) (f : Rgn → Rgn) : (onRgn r f s).stop = s.stop := rfl
@[simp] theorem onRgn_launches (r : Nat) (f : Rgn → Rgn) : (onRgn r f s).launches = s.launches := rfl
@[simp] theorem onRgn_groups (r : Nat) (f : Rgn → Rgn) : (onRgn r f s).groups = s.groups := rfl
@[simp] theorem onRgn_emb (r : Nat) (f : Rgn → Rgn) : (onRgn r f s).emb = s.emb := rfl
@[simp] theorem onRgn_mem (r : Nat) (f : Rgn → Rgn) : (onRgn r f s).mem = s.mem := rfl
@[simp] theorem onRgn_route (r : Nat) (f : Rgn → Rgn) : (onRgn r f s).route = s.route := rfl
@[simp] theorem onRgn_shoal (r : Nat) (f : Rgn → Rgn) : (onRgn r f s).shoal = s.shoal := rfl
@[simp] theorem onRgn_qents (r : Nat) (f : Rgn → Rgn) : (onRgn r f s).qents = s.qents := rfl
@[simp] theorem onRgn_policers (r : Nat) (f : Rgn → Rgn) : (onRgn r f s).policers = s.policers := rfl
@[simp] theorem onRgn_net (r : Nat) (f : Rgn → Rgn) : (onRgn r f s).net = s.net := rfl
@[simp] theorem onRgn_flt (r : Nat) (f : Rgn → Rgn) : (onRgn r f s).flt = s.flt := rfl
@[simp] theorem onRgn_sec (r : Nat) (f : Rgn → Rgn) : (onRgn r f s).sec = s.sec := rfl
@[simp] theorem onRgn_obs (r : Nat) (f : Rgn → Rgn) : (onRgn r f s).obs = s.obs := rfl
@[simp] theorem onRgn_restoring (r : Nat) (f : Rgn → Rgn) : (onRgn r f s).restoring = s.restoring := rfl

/-! ## onTrace -/

@[simp] theorem onTrace_pending (d : Nat) (f : Trace → Trace) : (onTrace d f s).pending = s.pending := rfl
@[simp] theorem onTrace_dev (d : Nat) (f : Trace → Trace) : (onTrace d f s).dev = s.dev := rfl
@[simp] theorem onTrace_part (d : Nat) (f : Trace → Trace) : (onTrace d f s).part = s.part := rfl
@[simp] theorem onTrace_host (d : Nat) (f : Trace → Trace) : (onTrace d f s).host = s.host := rfl
@[simp] theorem onTrace_tide (d : Nat) (f : Trace → Trace) : (onTrace d f s).tide = s.tide := rfl
@[simp] theorem onTrace_stop (d : Nat) (f : Trace → Trace) : (onTrace d f s).stop = s.stop := rfl
@[simp] theorem onTrace_launches (d : Nat) (f : Trace → Trace) : (onTrace d f s).launches = s.launches := rfl
@[simp] theorem onTrace_groups (d : Nat) (f : Trace → Trace) : (onTrace d f s).groups = s.groups := rfl
@[simp] theorem onTrace_emb (d : Nat) (f : Trace → Trace) : (onTrace d f s).emb = s.emb := rfl
@[simp] theorem onTrace_mem (d : Nat) (f : Trace → Trace) : (onTrace d f s).mem = s.mem := rfl
@[simp] theorem onTrace_route (d : Nat) (f : Trace → Trace) : (onTrace d f s).route = s.route := rfl
@[simp] theorem onTrace_shoal (d : Nat) (f : Trace → Trace) : (onTrace d f s).shoal = s.shoal := rfl
@[simp] theorem onTrace_qents (d : Nat) (f : Trace → Trace) : (onTrace d f s).qents = s.qents := rfl
@[simp] theorem onTrace_policers (d : Nat) (f : Trace → Trace) : (onTrace d f s).policers = s.policers := rfl
@[simp] theorem onTrace_net (d : Nat) (f : Trace → Trace) : (onTrace d f s).net = s.net := rfl
@[simp] theorem onTrace_flt (d : Nat) (f : Trace → Trace) : (onTrace d f s).flt = s.flt := rfl
@[simp] theorem onTrace_sec (d : Nat) (f : Trace → Trace) : (onTrace d f s).sec = s.sec := rfl
@[simp] theorem onTrace_pwr (d : Nat) (f : Trace → Trace) : (onTrace d f s).pwr = s.pwr := rfl
@[simp] theorem onTrace_restoring (d : Nat) (f : Trace → Trace) : (onTrace d f s).restoring = s.restoring := rfl

/-! ## Stored packets let go (R305) -/

theorem dropOwner_frame (d b o : Nat) : dropOwner d b o s = { s with shoal := (dropOwner d b o s).shoal } := by
  unfold dropOwner
  split
  · rfl
  · split
    · exact freeStored_frame d b s
    · rfl

theorem releaseStored_frame (d b : Nat) : releaseStored d b s = { s with shoal := (releaseStored d b s).shoal } := by
  unfold releaseStored
  split
  · rfl
  · split
    · exact freeStored_frame d b s
    · rfl

theorem letGoOne_frame (d b : Nat) : letGoOne d b s = { s with shoal := (letGoOne d b s).shoal } := by
  unfold letGoOne
  split
  · rfl
  · dsimp only
    split
    · exact freeStored_frame d b s
    · rfl

/-! ## Parity (R475) -/

@[simp] theorem bareBytes_genParity (l : List Byte) : bareBytes (genParity l) = l := by
  induction l with
  | nil => rfl
  | cons b r ih => simpa [bareBytes, genParity] using ih

@[simp] theorem parityGood_genParity (l : List Byte) : parityGood (genParity l) = true := by
  simp [parityGood, genParity, List.all_map]

@[simp] theorem genParity_length (l : List Byte) : (genParity l).length = l.length := by simp [genParity]
@[simp] theorem bareBytes_length (l : List (Byte × Bool)) : (bareBytes l).length = l.length := by simp [bareBytes]
@[simp] theorem bareBytes_append (l m : List (Byte × Bool)) : bareBytes (l ++ m) = bareBytes l ++ bareBytes m := by simp [bareBytes]

/-! ## Levels of a lane (R370, R371) -/

@[simp] theorem levelBits_grayLevel (a b : Bool) : levelBits (grayLevel a b) = [a, b] := by cases a <;> cases b <;> rfl

theorem grayLevel_lt (a b : Bool) : grayLevel a b < 4 := by cases a <;> cases b <;> decide

@[simp] theorem precode_length : ∀ (b : Nat) (l : List Nat), (precode b l).length = l.length
  | _, [] => rfl
  | b, a :: r => by simp [precode, precode_length]

@[simp] theorem unprecode_length : ∀ (b : Nat) (l : List Nat), (unprecode b l).length = l.length
  | _, [] => rfl
  | b, a :: r => by simp [unprecode, unprecode_length]

/-! ## Commits that wait (R268, R272) -/

/-- What a work that advances a tag can do: end as it ended without DONE, or take effect and advance the tag. -/
theorem thenBump_cases (bump : BitVec 384 → State → State) (w : Work) (cx : Cx) (op : BitVec 384) (d : List Byte) :
    thenBump bump w cx op d s = w cx op d s ∨ thenBump bump w cx op d s = (bump op (w cx op d s).1, (w cx op d s).2) := by
  unfold thenBump
  dsimp only
  split
  · split
    · exact .inl rfl
    · exact .inr rfl
  · exact .inr rfl

/-- What a descriptor's write under a tag can do: stay untaken or wait, with the state as it was, end as its work ended without
DONE, or take effect, advance the tag and be noted. -/
theorem withTag_cases (key : BitVec 384 → Nat × Nat) (behind must : State → BitVec 384 → Bool) (bump : BitVec 384 → State → State)
    (w : Work) (cx : Cx) (op : BitVec 384) (d : List Byte) (h : cx.host = true) :
    withTag key behind must bump w cx op d s = (s, .wait .waiting)
    ∨ withTag key behind must bump w cx op d s = (s, .wait .commitWait)
    ∨ withTag key behind must bump w cx op d s = w cx op d s
    ∨ withTag key behind must bump w cx op d s = (noteWrote (key op) cx.ring (bump op (w cx op d s).1), (w cx op d s).2) := by
  have hb := thenBump_cases s (fun op s => noteWrote (key op) cx.ring (bump op s)) w cx op d
  unfold withTag
  simp only [h, not_true_eq_false, if_false]
  split
  · exact .inl rfl
  · split
    · exact .inr (.inl rfl)
    · split
      · split
        · exact .inr (.inr (.inl rfl))
        · split
          · exact .inr (.inl rfl)
          · exact .inr (.inr hb)
      · split
        · exact .inr (.inl rfl)
        · exact .inr (.inr hb)

/-! ## The lanes' bit streams -/

/-- A flit on its lane touches the lanes alone. -/
theorem laneSend_frame (p slot : Nat) (f : List Byte) : laneSend p slot f s = { s with net := { s.net with lanes := (laneSend p slot f s).net.lanes } } := rfl

theorem laneReceive_frame (p slot : Nat) (fecOk : Bool) :
    laneReceive p slot fecOk s = { s with net := { s.net with lanes := (laneReceive p slot fecOk s).net.lanes } } := by
  unfold laneReceive
  dsimp only
  split <;> rfl

/-- What a link message of its own does: it waits behind held flits that go out again, or it leaves in a LINKCTL flit at once. -/
theorem sendLinkMsg_cases (p : Nat) (m : List Byte) :
    sendLinkMsg p m s = onLink p (fun l => { l with msgs := l.msgs ++ [m] }) s
    ∨ sendLinkMsg p m s = emitFlit p 2 0xFF false (((getPort s p).link.nextFsn + 4095) % 4096) (ctlPayload p s.tide.now [m]) s := by
  unfold sendLinkMsg
  dsimp only
  split
  · exact .inl rfl
  · exact .inr rfl

/-- Where no message of its type waits, taking one changes nothing. -/
theorem takeMsg_none (p mtype : Nat) (h : (getPort s p).link.rxMsgs = []) : takeMsg p mtype s = s := by
  simp [takeMsg, h]

end Sys2Proof.Machine
end

