-- ==== Sys2Proof/WellFormed.lean ====
section
/-! DEFINITION. The commands whose operands lie in the ranges the spec gives them: ring, function, port,
lane, die and region numbers (R5, R6, R20 to R24, R405, R410), the widths of header fields (R237) and of the
identifiers that descriptors and packets carry. -/

namespace Sys2Proof

/-- A number below a bound. -/
def lt (n b : Nat) : Bool := decide (n < b)

/-- No number, or one below a bound. -/
def optLt (o : Option Nat) (b : Nat) : Bool :=
  match o with
  | none => true
  | some n => lt n b

/-- A packet's body is a 16-byte control body or at most 8,192 payload bytes (R238). -/
def packetOk (p : Packet) : Bool :=
  if (p.hdr.toNat >>> 122) % 4 = 0 then p.body.length == 16 else lt 0 p.body.length && lt p.body.length 8193

/-- What a start-up finds names dies, buffers and cells that exist (R20, R24, R280). -/
def startOk (x : StartInput) : Bool :=
  x.badLaneDies.all (fun n => lt n 12) && x.badBuffers.all (fun b => lt b.1 4 && lt b.2 655360) &&
    x.badCells.all (fun c => lt c.1 4 && lt c.2.1 12 && lt c.2.2 528) && x.margins.all (fun m => lt m.1 16)

/-- The operands of a command lie in their ranges. -/
def WellFormed (c : Instr) : Bool :=
  match c with
  | .nop r i => lt r 8192 && lt i (2 ^ 32)
  | .tideLaunch r i => lt r 8192 && lt i (2 ^ 32)
  | .stopAt r i => lt r 8192 && lt i (2 ^ 32)
  | .stopResume r i => lt r 8192 && lt i (2 ^ 32)
  | .stateSave r i => lt r 8192 && lt i (2 ^ 32)
  | .stateRestore r i _ => lt r 8192 && lt i (2 ^ 32)
  | .snapshotAt r i => lt r 8192 && lt i (2 ^ 32)
  | .counterReset r i => lt r 8192 && lt i (2 ^ 32)
  | .telemetryDrain r i => lt r 8192 && lt i (2 ^ 32)
  | .traceSet r i => lt r 8192 && lt i (2 ^ 32)
  | .traceDrain r i => lt r 8192 && lt i (2 ^ 32)
  | .groupInstall r i _ => lt r 8192 && lt i (2 ^ 32)
  | .groupExtents r i _ => lt r 8192 && lt i (2 ^ 32)
  | .groupEvict r i => lt r 8192 && lt i (2 ^ 32)
  | .groupQuiesce r i => lt r 8192 && lt i (2 ^ 32)
  | .groupResume r i => lt r 8192 && lt i (2 ^ 32)
  | .groupRenew r i => lt r 8192 && lt i (2 ^ 32)
  | .groupDestroy r i => lt r 8192 && lt i (2 ^ 32)
  | .groupQuery r i => lt r 8192 && lt i (2 ^ 32)
  | .accumSet r i => lt r 8192 && lt i (2 ^ 32)
  | .tableInstall r i _ => lt r 8192 && lt i (2 ^ 32)
  | .tableWrite r i _ => lt r 8192 && lt i (2 ^ 32)
  | .tableRead r i => lt r 8192 && lt i (2 ^ 32)
  | .tableApply r i => lt r 8192 && lt i (2 ^ 32)
  | .tableSet r i _ => lt r 8192 && lt i (2 ^ 32)
  | .tableQuiesce r i => lt r 8192 && lt i (2 ^ 32)
  | .tableResume r i => lt r 8192 && lt i (2 ^ 32)
  | .tableDestroy r i => lt r 8192 && lt i (2 ^ 32)
  | .shardMap r i _ => lt r 8192 && lt i (2 ^ 32)
  | .tableQuery r i => lt r 8192 && lt i (2 ^ 32)
  | .coveCreate r i => lt r 8192 && lt i (2 ^ 32)
  | .coveDestroy r i => lt r 8192 && lt i (2 ^ 32)
  | .portBind r i => lt r 8192 && lt i (2 ^ 32)
  | .portUnbind r i => lt r 8192 && lt i (2 ^ 32)
  | .windowAdd r i _ => lt r 8192 && lt i (2 ^ 32)
  | .windowRemove r i => lt r 8192 && lt i (2 ^ 32)
  | .regionExport r i _ => lt r 8192 && lt i (2 ^ 32)
  | .regionRelease r i => lt r 8192 && lt i (2 ^ 32)
  | .jobClass r i => lt r 8192 && lt i (2 ^ 32)
  | .jobPort r i => lt r 8192 && lt i (2 ^ 32)
  | .jobPortUnbind r i => lt r 8192 && lt i (2 ^ 32)
  | .routeWrite r i _ => lt r 8192 && lt i (2 ^ 32)
  | .routeRead r i => lt r 8192 && lt i (2 ^ 32)
  | .routeConfig r i => lt r 8192 && lt i (2 ^ 32)
  | .epochDrain r i => lt r 8192 && lt i (2 ^ 32)
  | .soundingSet r i => lt r 8192 && lt i (2 ^ 32)
  | .shoalSet r i => lt r 8192 && lt i (2 ^ 32)
  | .datelineSet r i => lt r 8192 && lt i (2 ^ 32)
  | .schedSet r i => lt r 8192 && lt i (2 ^ 32)
  | .queueSet r i => lt r 8192 && lt i (2 ^ 32)
  | .policeSet r i => lt r 8192 && lt i (2 ^ 32)
  | .fwLoad r i _ => lt r 8192 && lt i (2 ^ 32)
  | .cfgLoad r i _ => lt r 8192 && lt i (2 ^ 32)
  | .cfgRead r i => lt r 8192 && lt i (2 ^ 32)
  | .measureRead r i => lt r 8192 && lt i (2 ^ 32)
  | .descriptorArrival ring _ _ => lt ring 8192
  | .doorbellPoll line _ bytes => lt line (2 ^ 64) && (bytes.length == 64)
  | .interruptModeration ring => lt ring 8192
  | .msixUnmask func vector => lt func 64 && lt vector 2048
  | .ringEnable writer ring => lt writer 64 && lt ring 8192
  | .ringDisable writer ring => lt writer 64 && lt ring 8192
  | .ringDrained ring => lt ring 8192
  | .functionDisable writer func => lt writer 64 && lt func 64
  | .functionEnable writer func => lt writer 64 && lt func 64
  | .funcDrained func => lt func 64
  | .functionLevelReset func kind => lt func 64 && lt kind 4
  | .latTolWrite writer func _ => lt writer 64 && lt func 64
  | .dbwBudgetWrite _ => true
  | .registerWrite writer bar off _ => lt writer 64 && lt bar 3 && lt off (2 ^ 26)
  | .barBadAccess _ => true
  | .tideNowRead => true
  | .devEnterRead => true
  | .tideSetWrite _ => true
  | .tideRoleWrite _ => true
  | .go => true
  | .swReset _ => true
  | .lastCliffClear => true
  | .fltForceSet k _ => lt k 2
  | .fltForceClr k _ => lt k 2
  | .forcedDetection source object => lt source 64 && lt object.object (2 ^ 24) && lt object.site (2 ^ 32)
  | .lnGrpCfgWrite group _ => lt group 48
  | .portEnable port => lt port 768
  | .portDisable port => lt port 768
  | .lnCtlWrite lane _ => lt lane 768
  | .lnTapsWrite lane _ => lt lane 768
  | .prbsCheckerEnable lane => lt lane 768
  | .lnInjWrite lane _ => lt lane 768
  | .eyeScanStart lane => lt lane 768
  | .eyeScanDone lane err cnt _ => lt lane 768 && lt err (2 ^ 64) && lt cnt (2 ^ 64)
  | .pwrReplanWrite _ => true
  | .sidebandRead off => lt off (2 ^ 26)
  | .spdmMessage pf _ => lt pf 64
  | .ideKm pf _ _ _ => lt pf 64
  | .contribution port p => lt port 768 && packetOk p
  | .partialPiece port p => lt port 768 && packetOk p
  | .resultPiece port p => lt port 768 && packetOk p
  | .join port p => lt port 768 && packetOk p
  | .leave port p => lt port 768 && packetOk p
  | .renew port p => lt port 768 && packetOk p
  | .epochNotice port p => lt port 768 && packetOk p
  | .planReady port p => lt port 768 && packetOk p
  | .groupCmd port p => lt port 768 && packetOk p
  | .groupCmdAck port p => lt port 768 && packetOk p
  | .groupCmdResend group port seq => lt group (2 ^ 24) && lt port 768 && lt seq 65536
  | .planReadyResend group => lt group (2 ^ 24)
  | .groupStorm port p => lt port 768 && packetOk p
  | .expUp port p => lt port 768 && packetOk p
  | .expDown port p => lt port 768 && packetOk p
  | .sealPkt port p => lt port 768 && packetOk p
  | .revoke port p => lt port 768 && packetOk p
  | .pack port p => lt port 768 && packetOk p
  | .rack port p => lt port 768 && packetOk p
  | .nak port p => lt port 768 && packetOk p
  | .missing port p => lt port 768 && packetOk p
  | .chunkWaitTimeout group epoch call chunk => lt group (2 ^ 24) && lt epoch 65536 && lt call (2 ^ 24) && lt chunk (2 ^ 24)
  | .rackWaitTimeout group epoch call chunk => lt group (2 ^ 24) && lt epoch 65536 && lt call (2 ^ 24) && lt chunk (2 ^ 24)
  | .partialResendTimeout group epoch call chunk => lt group (2 ^ 24) && lt epoch 65536 && lt call (2 ^ 24) && lt chunk (2 ^ 24)
  | .chunkBitmapExpiry group epoch call chunk => lt group (2 ^ 24) && lt epoch 65536 && lt call (2 ^ 24) && lt chunk (2 ^ 24)
  | .bag port p => lt port 768 && packetOk p
  | .splitBag port p => lt port 768 && packetOk p
  | .grad port p => lt port 768 && packetOk p
  | .splitGrad port p => lt port 768 && packetOk p
  | .subBag port p => lt port 768 && packetOk p
  | .subGrad port p => lt port 768 && packetOk p
  | .subPooled port p => lt port 768 && packetOk p
  | .expUpE port p => lt port 768 && packetOk p
  | .expDownE port p => lt port 768 && packetOk p
  | .gradAck port p => lt port 768 && packetOk p
  | .embFail port p => lt port 768 && packetOk p
  | .applyReq port p => lt port 768 && packetOk p
  | .subBagTimeout src ltid step bag shard => lt src (2 ^ 18) && lt ltid 65536 && lt step (2 ^ 32) && lt bag (2 ^ 32) && lt shard 65536
  | .tableApplyTidemark table => lt table 65536
  | .rockpoolDecay => true
  | .memRequestAdmit port p => lt port 768 && packetOk p
  | .memRequestPerform port p => lt port 768 && packetOk p
  | .memResponse port p => lt port 768 && packetOk p
  | .memRequestTimeout port tag => lt port 768 && lt tag 65536
  | .packetIngress port p => lt port 768 && packetOk p
  | .reseqArrival port p => lt port 1028 && packetOk p
  | .reseqBaseTimeout die src dst ovc => lt die 4 && lt src (2 ^ 18) && lt dst (2 ^ 18) && lt ovc 7
  | .reseqGapTimeout die src dst ovc => lt die 4 && lt src (2 ^ 18) && lt dst (2 ^ 18) && lt ovc 7
  | .reseqEntryFree die src dst ovc => lt die 4 && lt src (2 ^ 18) && lt dst (2 ^ 18) && lt ovc 7
  | .dispatch port vc => lt port 1028 && lt vc 8
  | .escMove port vc => lt port 768 && lt vc 8
  | .egressTurn port => lt port 768
  | .jobSlotFree port slot => lt port 772 && lt slot 14
  | .ownerRelease die buffer owner => lt die 4 && lt buffer 655360 && lt owner (2 ^ 24)
  | .beachcomberAudit die => lt die 4
  | .quarterRebuild die quarter => lt die 4 && lt quarter 4
  | .ethernetFrame port _ _ => lt port 768
  | .mgmtFrameSend port _ => optLt port 768
  | .macAgeOut mac => lt mac (2 ^ 48)
  | .flitReceive port slot _ flit => lt port 768 && lt slot 64 && (flit.length == 256)
  | .flitClose port => lt port 768
  | .nakvRepeat port => lt port 768
  | .portDownDeclare port cause => lt port 768 && lt cause 256
  | .portDownCommit port => lt port 768
  | .portUpCommit port => lt port 768
  | .keyPhaseChange port => lt port 768
  | .tideSync port sent arrived => lt port 768 && lt sent (2 ^ 64) && lt arrived (2 ^ 64)
  | .tideEcho port sent arrived => lt port 768 && lt sent (2 ^ 64) && lt arrived (2 ^ 64)
  | .tideSyncSend port => lt port 768
  | .linkDown port cause => lt port 768 && lt cause 256
  | .neapEnter port tag => lt port 768 && lt tag 65536
  | .neapReply port tag code => lt port 768 && lt tag 65536 && lt code 256
  | .lowEnter port tag => lt port 768 && lt tag 65536
  | .lowReply port tag code => lt port 768 && lt tag 65536 && lt code 256
  | .lanePowerRequestRetry port => lt port 768
  | .idleStateDecision _ unit => lt unit 1024
  | .neapWake port => lt port 768
  | .lowWaterWake port => lt port 768
  | .regionGateOpen region => lt region 16
  | .signalDetect port => lt port 768
  | .trainingFrame port lane _ _ _ _ => lt port 768 && lt lane 768
  | .trainingCountdownEnd port => lt port 768
  | .trainingPhaseFail port => lt port 768
  | .trainingRetryPause port => lt port 768
  | .laneLockLoss lane => lt lane 768
  | .hello port p => lt port 768 && packetOk p
  | .cert port p => lt port 768 && packetOk p
  | .proof port p => lt port 768 && packetOk p
  | .finish port p => lt port 768 && packetOk p
  | .abort port p => lt port 768 && packetOk p
  | .measReq port p => lt port 768 && packetOk p
  | .measRsp port p => lt port 768 && packetOk p
  | .keyingTimeout port => lt port 768
  | .linkRunSwitch port _ => lt port 768
  | .launchAck port p => lt port 768 && packetOk p
  | .launchDeadline launch => lt launch (2 ^ 24)
  | .stopCutTidemark => true
  | .stopMark port p => lt port 768 && packetOk p
  | .stopSettle => true
  | .resume port p => lt port 768 && packetOk p
  | .resumeTidemark => true
  | .snapshotCapture window => lt window 16
  | .counterResetTidemark => true
  | .tideSyncInEdge => true
  | .tideSyncInMissing => true
  | .tideParentLoss => true
  | .faultRecord f => (lt f.source 64 && lt f.object (2 ^ 24) && lt f.tide (2 ^ 64) && lt f.site (2 ^ 32))
  | .cliffNotice port p => lt port 768 && packetOk p
  | .cliffNoticeHoldEnd port => lt port 768
  | .regionStall region => lt region 16
  | .checkerSelfTest _ => true
  | .watchdogExpiry => true
  | .watchdogRefresh => true
  | .droopCrossing region => lt region 16
  | .ebbRelease region => lt region 16
  | .erosionMeasure region _ life => lt region 16 && lt life 65536
  | .erosionReplan die margins => lt die 4 && margins.all (fun m => lt m.1 16)
  | .thermalSample sensor _ => lt sensor 4096
  | .railFault rail => lt rail 4096
  | .clockLoss clock => lt clock 64
  | .resetAssert => true
  | .resetRelease _ _ => true
  | .pcieDomain1Reset => true
  | .pcieUncorrectable link => lt link 2
  | .powerCycle => true
  | .bootSequenceDone x => startOk x
  | .holdStartUp x => startOk x
  | .groupDestroyDone group => lt group (2 ^ 24)
  | .groupQuiesced group => lt group (2 ^ 24)
  | .tableQuiesced table => lt table 65536
  | .tableDestroyDone table => lt table 65536
  | .regionReleaseDone region => lt region 16
  | .windowRemoveDone window => lt window (2 ^ 17)
  | .portUnbindDone port => lt port 768
  | .epochDrainDone r i => lt r 8192 && lt i (2 ^ 32)
  | .tableCommitWaitEnd tsel index => lt tsel 16 && lt index 65536
  | .railsInRange => true
  | .referenceClockStart clock => lt clock 64
  | .disableSquelch port => lt port 768
  | .boundaryScanInstruction code => lt code 256
  | .subGradResendTimeout src ltid step bag shard => lt src (2 ^ 18) && lt ltid 65536 && lt step (2 ^ 32) && lt bag (2 ^ 32) && lt shard 65536
  | .errorInjectionInterval lane => lt lane 768
  | .prbsCheckerLock lane => lt lane 768
  | .traceTimeRecord => true
  | .ebbHeavyWindow region => lt region 16

end Sys2Proof
end

