-- ==== Sys2Proof/Tests/Slice0.lean ====
section
/-! SUPPORT. Checks of the model on fixed values: the examples the spec works out, ill-formed commands that are refused,
and for each statement states and operands that meet its hypotheses. -/

namespace Sys2Proof.Tests

open Sys2Proof Sys2Proof.Machine
set_option Elab.async false

/-! ## Small states -/

/-- `n` bytes of zeros. -/
def zeros (n : Nat) : List Byte := List.replicate n 0

def okPkt : Packet := { hdr := 0, body := zeros 16 }
def badPkt : Packet := { hdr := 0, body := [] }
def okRec : FaultRec := ⟨1, 0, 0, 0, false, 0, true⟩
def okStart : StartInput := ⟨true, true, true, true, true, [], [], [], [], none⟩

/-- The state a command leaves. -/
def after (c : Instr) (s : State) : State :=
  match exec c s with
  | .next t => t
  | _ => s

/-- The machine in RUN. -/
def up : State := { State.reset with dev := { state := .run } }

/-- Ring 1 is an ACTIVE submission ring of PF0, bound to completion ring 2; ring 3 is an event ring. Each has 64 entries. -/
def subRing : Ring := { cfg := pack 32 [(2, 1), (5, 6), (6, 0), (13, 2), (6, 0)], state := .active, out := 1, pi := 1, fetch := 1 }
def cplRing : Ring := { cfg := pack 32 [(2, 2), (5, 6), (6, 0), (13, 5), (6, 0)], baseLo := 0x1000, state := .active, out := 1 }
def evtRing : Ring := { cfg := pack 32 [(2, 3), (5, 6), (6, 0), (13, 6), (6, 0)], baseLo := 0x2000, state := .active }

def withRings (s : State) : State := onHost (fun h => { h with rings := [(1, subRing), (2, cplRing), (3, evtRing)] }) s

/-- A descriptor of ring 1 at index 0. -/
def descOf (o : Nat) (op : BitVec 384) : Desc :=
  { ring := 1, idx := 0, func := 0, opcode := o, fence := false, user := 7, op := op }

/-- A state in which that descriptor is accepted and its turn has come. -/
def ready (o : Nat) (op : BitVec 384) (s : State) : State := onHost (fun h => { h with accepted := [descOf o op] }) (withRings s)

/-- The status of the completion that ring 2 took first: byte 12 of the entry (R421). -/
def firstStatus (s : State) : Nat := fld (BitVec.ofNat 256 (ofLE (memReadN (hostMem s 0) 0x1000 32))) 127 120

/-- The RESULT of that completion. -/
def firstResult (s : State) : Nat := fld (BitVec.ofNat 256 (ofLE (memReadN (hostMem s 0) 0x1000 32))) 191 128

/-! ## Well-formed commands -/

/-- Each check on its own refuses a term that breaks it alone: an operand at its bound, a packet without its body, a wrong
length. -/
theorem test_illFormed_1 : (
  [.nop 8192 0, .nop 0 (2 ^ 32), .tideLaunch 8192 0, .tideLaunch 0 (2 ^ 32), .stopAt 8192 0, .stopAt 0 (2 ^ 32),
   .stopResume 8192 0, .stopResume 0 (2 ^ 32), .stateSave 8192 0, .stateSave 0 (2 ^ 32), .stateRestore 8192 0 [],
   .stateRestore 0 (2 ^ 32) [], .snapshotAt 8192 0, .snapshotAt 0 (2 ^ 32), .counterReset 8192 0, .counterReset 0 (2 ^ 32),
   .telemetryDrain 8192 0, .telemetryDrain 0 (2 ^ 32), .traceSet 8192 0, .traceSet 0 (2 ^ 32), .traceDrain 8192 0,
   .traceDrain 0 (2 ^ 32), .groupInstall 8192 0 [], .groupInstall 0 (2 ^ 32) [], .groupExtents 8192 0 [],
   .groupExtents 0 (2 ^ 32) [], .groupEvict 8192 0, .groupEvict 0 (2 ^ 32), .groupQuiesce 8192 0, .groupQuiesce 0 (2 ^ 32),
   .groupResume 8192 0, .groupResume 0 (2 ^ 32), .groupRenew 8192 0, .groupRenew 0 (2 ^ 32), .groupDestroy 8192 0,
   .groupDestroy 0 (2 ^ 32), .groupQuery 8192 0, .groupQuery 0 (2 ^ 32), .accumSet 8192 0, .accumSet 0 (2 ^ 32),
   .tableInstall 8192 0 [], .tableInstall 0 (2 ^ 32) [], .tableWrite 8192 0 [], .tableWrite 0 (2 ^ 32) [],
   .tableRead 8192 0, .tableRead 0 (2 ^ 32), .tableApply 8192 0, .tableApply 0 (2 ^ 32), .tableSet 8192 0 [],
   .tableSet 0 (2 ^ 32) [], .tableQuiesce 8192 0, .tableQuiesce 0 (2 ^ 32), .tableResume 8192 0, .tableResume 0 (2 ^ 32),
   .tableDestroy 8192 0, .tableDestroy 0 (2 ^ 32), .shardMap 8192 0 [], .shardMap 0 (2 ^ 32) [], .tableQuery 8192 0,
   .tableQuery 0 (2 ^ 32)] : List Instr).all (fun c => !WellFormed c) = true := by decide +kernel

theorem test_illFormed_2 : (
  [.coveCreate 8192 0, .coveCreate 0 (2 ^ 32), .coveDestroy 8192 0, .coveDestroy 0 (2 ^ 32), .portBind 8192 0,
   .portBind 0 (2 ^ 32), .portUnbind 8192 0, .portUnbind 0 (2 ^ 32), .windowAdd 8192 0 [], .windowAdd 0 (2 ^ 32) [],
   .windowRemove 8192 0, .windowRemove 0 (2 ^ 32), .regionExport 8192 0 [], .regionExport 0 (2 ^ 32) [],
   .regionRelease 8192 0, .regionRelease 0 (2 ^ 32), .jobClass 8192 0, .jobClass 0 (2 ^ 32), .jobPort 8192 0,
   .jobPort 0 (2 ^ 32), .jobPortUnbind 8192 0, .jobPortUnbind 0 (2 ^ 32), .routeWrite 8192 0 [], .routeWrite 0 (2 ^ 32) [],
   .routeRead 8192 0, .routeRead 0 (2 ^ 32), .routeConfig 8192 0, .routeConfig 0 (2 ^ 32), .epochDrain 8192 0,
   .epochDrain 0 (2 ^ 32), .soundingSet 8192 0, .soundingSet 0 (2 ^ 32), .shoalSet 8192 0, .shoalSet 0 (2 ^ 32),
   .datelineSet 8192 0, .datelineSet 0 (2 ^ 32), .schedSet 8192 0, .schedSet 0 (2 ^ 32), .queueSet 8192 0,
   .queueSet 0 (2 ^ 32), .policeSet 8192 0, .policeSet 0 (2 ^ 32), .fwLoad 8192 0 [], .fwLoad 0 (2 ^ 32) [],
   .cfgLoad 8192 0 [], .cfgLoad 0 (2 ^ 32) [], .cfgRead 8192 0, .cfgRead 0 (2 ^ 32), .measureRead 8192 0,
   .measureRead 0 (2 ^ 32), .descriptorArrival 8192 true 0, .doorbellPoll (2 ^ 64) true (zeros 64), .doorbellPoll 0 true [],
   .interruptModeration 8192, .msixUnmask 64 0, .msixUnmask 0 2048, .ringEnable 64 0, .ringEnable 0 8192, .ringDisable 64 0,
   .ringDisable 0 8192] : List Instr).all (fun c => !WellFormed c) = true := by decide +kernel

theorem test_illFormed_3 : (
  [.ringDrained 8192, .functionDisable 64 0, .functionDisable 0 64, .functionEnable 64 0, .functionEnable 0 64,
   .funcDrained 64, .functionLevelReset 64 0, .functionLevelReset 0 4, .latTolWrite 64 0 0, .latTolWrite 0 64 0,
   .registerWrite 64 0 0 0, .registerWrite 0 3 0 0, .registerWrite 0 0 (2 ^ 26) 0, .fltForceSet 2 0, .fltForceClr 2 0,
   .forcedDetection 64 ⟨0, 0⟩, .forcedDetection 0 ⟨(2 ^ 24), 0⟩, .forcedDetection 0 ⟨0, (2 ^ 32)⟩, .lnGrpCfgWrite 48 0,
   .portEnable 768, .portDisable 768, .lnCtlWrite 768 0, .lnTapsWrite 768 0, .prbsCheckerEnable 768, .lnInjWrite 768 0,
   .eyeScanStart 768, .eyeScanDone 768 0 0 true, .eyeScanDone 0 (2 ^ 64) 0 true, .eyeScanDone 0 0 (2 ^ 64) true,
   .sidebandRead (2 ^ 26), .spdmMessage 64 [], .ideKm 64 true true true, .contribution 768 okPkt, .contribution 0 badPkt,
   .partialPiece 768 okPkt, .partialPiece 0 badPkt, .resultPiece 768 okPkt, .resultPiece 0 badPkt, .join 768 okPkt,
   .join 0 badPkt, .leave 768 okPkt, .leave 0 badPkt, .renew 768 okPkt, .renew 0 badPkt, .epochNotice 768 okPkt,
   .epochNotice 0 badPkt, .planReady 768 okPkt, .planReady 0 badPkt, .groupCmd 768 okPkt, .groupCmd 0 badPkt,
   .groupCmdAck 768 okPkt, .groupCmdAck 0 badPkt, .groupCmdResend (2 ^ 24) 0 0, .groupCmdResend 0 768 0,
   .groupCmdResend 0 0 65536, .planReadyResend (2 ^ 24), .groupStorm 768 okPkt, .groupStorm 0 badPkt, .expUp 768 okPkt,
   .expUp 0 badPkt] : List Instr).all (fun c => !WellFormed c) = true := by decide +kernel

theorem test_illFormed_4 : (
  [.expDown 768 okPkt, .expDown 0 badPkt, .sealPkt 768 okPkt, .sealPkt 0 badPkt, .revoke 768 okPkt, .revoke 0 badPkt,
   .pack 768 okPkt, .pack 0 badPkt, .rack 768 okPkt, .rack 0 badPkt, .nak 768 okPkt, .nak 0 badPkt, .missing 768 okPkt,
   .missing 0 badPkt, .chunkWaitTimeout (2 ^ 24) 0 0 0, .chunkWaitTimeout 0 65536 0 0, .chunkWaitTimeout 0 0 (2 ^ 24) 0,
   .chunkWaitTimeout 0 0 0 (2 ^ 24), .rackWaitTimeout (2 ^ 24) 0 0 0, .rackWaitTimeout 0 65536 0 0,
   .rackWaitTimeout 0 0 (2 ^ 24) 0, .rackWaitTimeout 0 0 0 (2 ^ 24), .partialResendTimeout (2 ^ 24) 0 0 0,
   .partialResendTimeout 0 65536 0 0, .partialResendTimeout 0 0 (2 ^ 24) 0, .partialResendTimeout 0 0 0 (2 ^ 24),
   .chunkBitmapExpiry (2 ^ 24) 0 0 0, .chunkBitmapExpiry 0 65536 0 0, .chunkBitmapExpiry 0 0 (2 ^ 24) 0,
   .chunkBitmapExpiry 0 0 0 (2 ^ 24), .bag 768 okPkt, .bag 0 badPkt, .splitBag 768 okPkt, .splitBag 0 badPkt,
   .grad 768 okPkt, .grad 0 badPkt, .splitGrad 768 okPkt, .splitGrad 0 badPkt, .subBag 768 okPkt, .subBag 0 badPkt,
   .subGrad 768 okPkt, .subGrad 0 badPkt, .subPooled 768 okPkt, .subPooled 0 badPkt, .expUpE 768 okPkt, .expUpE 0 badPkt,
   .expDownE 768 okPkt, .expDownE 0 badPkt, .gradAck 768 okPkt, .gradAck 0 badPkt, .embFail 768 okPkt, .embFail 0 badPkt,
   .applyReq 768 okPkt, .applyReq 0 badPkt, .subBagTimeout (2 ^ 18) 0 0 0 0, .subBagTimeout 0 65536 0 0 0,
   .subBagTimeout 0 0 (2 ^ 32) 0 0, .subBagTimeout 0 0 0 (2 ^ 32) 0, .subBagTimeout 0 0 0 0 65536,
   .tableApplyTidemark 65536] : List Instr).all (fun c => !WellFormed c) = true := by decide +kernel

theorem test_illFormed_5 : (
  [.memRequestAdmit 768 okPkt, .memRequestAdmit 0 badPkt, .memRequestPerform 768 okPkt, .memRequestPerform 0 badPkt,
   .memResponse 768 okPkt, .memResponse 0 badPkt, .memRequestTimeout 768 0, .memRequestTimeout 0 65536,
   .packetIngress 768 okPkt, .packetIngress 0 badPkt, .reseqArrival 1028 okPkt, .reseqArrival 0 badPkt,
   .reseqBaseTimeout 4 0 0 0, .reseqBaseTimeout 0 (2 ^ 18) 0 0, .reseqBaseTimeout 0 0 (2 ^ 18) 0, .reseqBaseTimeout 0 0 0 7,
   .reseqGapTimeout 4 0 0 0, .reseqGapTimeout 0 (2 ^ 18) 0 0, .reseqGapTimeout 0 0 (2 ^ 18) 0, .reseqGapTimeout 0 0 0 7,
   .reseqEntryFree 4 0 0 0, .reseqEntryFree 0 (2 ^ 18) 0 0, .reseqEntryFree 0 0 (2 ^ 18) 0, .reseqEntryFree 0 0 0 7,
   .dispatch 1028 0, .dispatch 0 8, .escMove 768 0, .escMove 0 8, .egressTurn 768, .jobSlotFree 772 0, .jobSlotFree 0 14,
   .ownerRelease 4 0 0, .ownerRelease 0 655360 0, .ownerRelease 0 0 (2 ^ 24), .beachcomberAudit 4, .quarterRebuild 4 0,
   .quarterRebuild 0 4, .ethernetFrame 768 true [], .mgmtFrameSend (some 768) [], .macAgeOut (2 ^ 48),
   .flitReceive 768 0 true (zeros 256), .flitReceive 0 64 true (zeros 256), .flitReceive 0 0 true [], .flitClose 768,
   .nakvRepeat 768, .portDownDeclare 768 0, .portDownDeclare 0 256, .portDownCommit 768, .portUpCommit 768,
   .keyPhaseChange 768, .tideSync 768 0 0, .tideSync 0 (2 ^ 64) 0, .tideSync 0 0 (2 ^ 64), .tideEcho 768 0 0,
   .tideEcho 0 (2 ^ 64) 0, .tideEcho 0 0 (2 ^ 64), .tideSyncSend 768, .linkDown 768 0, .linkDown 0 256, .neapEnter 768 0] : List Instr).all (fun c => !WellFormed c) = true := by decide +kernel

theorem test_illFormed_6 : (
  [.neapEnter 0 65536, .neapReply 768 0 0, .neapReply 0 65536 0, .neapReply 0 0 256, .lowEnter 768 0, .lowEnter 0 65536,
   .lowReply 768 0 0, .lowReply 0 65536 0, .lowReply 0 0 256, .lanePowerRequestRetry 768, .idleStateDecision true 1024,
   .neapWake 768, .lowWaterWake 768, .regionGateOpen 16, .signalDetect 768, .trainingFrame 768 0 true 0 0 true,
   .trainingFrame 0 768 true 0 0 true, .trainingCountdownEnd 768, .trainingPhaseFail 768, .trainingRetryPause 768,
   .laneLockLoss 768, .hello 768 okPkt, .hello 0 badPkt, .cert 768 okPkt, .cert 0 badPkt, .proof 768 okPkt, .proof 0 badPkt,
   .finish 768 okPkt, .finish 0 badPkt, .abort 768 okPkt, .abort 0 badPkt, .measReq 768 okPkt, .measReq 0 badPkt,
   .measRsp 768 okPkt, .measRsp 0 badPkt, .keyingTimeout 768, .linkRunSwitch 768 true, .launchAck 768 okPkt,
   .launchAck 0 badPkt, .launchDeadline (2 ^ 24), .stopMark 768 okPkt, .stopMark 0 badPkt, .resume 768 okPkt,
   .resume 0 badPkt, .snapshotCapture 16, .faultRecord { okRec with source := 64 },
   .faultRecord { okRec with object := (2 ^ 24) }, .faultRecord { okRec with tide := (2 ^ 64) },
   .faultRecord { okRec with site := (2 ^ 32) }, .cliffNotice 768 okPkt, .cliffNotice 0 badPkt, .cliffNoticeHoldEnd 768,
   .regionStall 16, .droopCrossing 16, .ebbRelease 16, .erosionMeasure 16 0 0, .erosionMeasure 0 0 65536,
   .erosionReplan 4 [], .erosionReplan 0 [(16, 0, 0)], .thermalSample 4096 0] : List Instr).all (fun c => !WellFormed c) = true := by decide +kernel

theorem test_illFormed_7 : (
  [.railFault 4096, .clockLoss 64, .pcieUncorrectable 2, .bootSequenceDone { okStart with badLaneDies := [12] },
   .bootSequenceDone { okStart with badBuffers := [(4, 0)] },
   .bootSequenceDone { okStart with badBuffers := [(0, 655360)] },
   .bootSequenceDone { okStart with badCells := [(4, 0, 0)] }, .bootSequenceDone { okStart with badCells := [(0, 12, 0)] },
   .bootSequenceDone { okStart with badCells := [(0, 0, 528)] }, .bootSequenceDone { okStart with margins := [(16, 0, 0)] },
   .holdStartUp { okStart with badLaneDies := [12] }, .holdStartUp { okStart with badBuffers := [(4, 0)] },
   .holdStartUp { okStart with badBuffers := [(0, 655360)] }, .holdStartUp { okStart with badCells := [(4, 0, 0)] },
   .holdStartUp { okStart with badCells := [(0, 12, 0)] }, .holdStartUp { okStart with badCells := [(0, 0, 528)] },
   .holdStartUp { okStart with margins := [(16, 0, 0)] }, .groupDestroyDone (2 ^ 24), .groupQuiesced (2 ^ 24),
   .tableQuiesced 65536, .tableDestroyDone 65536, .regionReleaseDone 16, .windowRemoveDone (2 ^ 17), .portUnbindDone 768,
   .epochDrainDone 8192 0, .epochDrainDone 0 (2 ^ 32), .tableCommitWaitEnd 16 0, .tableCommitWaitEnd 0 65536,
   .referenceClockStart 64, .disableSquelch 768, .boundaryScanInstruction 256, .subGradResendTimeout (2 ^ 18) 0 0 0 0,
   .subGradResendTimeout 0 65536 0 0 0, .subGradResendTimeout 0 0 (2 ^ 32) 0 0, .subGradResendTimeout 0 0 0 (2 ^ 32) 0,
   .subGradResendTimeout 0 0 0 0 65536, .errorInjectionInterval 768, .prbsCheckerLock 768, .ebbHeavyWindow 16] : List Instr).all (fun c => !WellFormed c) = true := by decide +kernel

/-- A term of every constructor is well formed. -/
theorem test_wellFormed_1 : (
  [.nop 0 0, .tideLaunch 0 0, .stopAt 0 0, .stopResume 0 0, .stateSave 0 0, .stateRestore 0 0 [], .snapshotAt 0 0,
   .counterReset 0 0, .telemetryDrain 0 0, .traceSet 0 0, .traceDrain 0 0, .groupInstall 0 0 [], .groupExtents 0 0 [],
   .groupEvict 0 0, .groupQuiesce 0 0, .groupResume 0 0, .groupRenew 0 0, .groupDestroy 0 0, .groupQuery 0 0, .accumSet 0 0,
   .tableInstall 0 0 [], .tableWrite 0 0 [], .tableRead 0 0, .tableApply 0 0, .tableSet 0 0 [], .tableQuiesce 0 0,
   .tableResume 0 0, .tableDestroy 0 0, .shardMap 0 0 [], .tableQuery 0 0, .coveCreate 0 0, .coveDestroy 0 0, .portBind 0 0,
   .portUnbind 0 0, .windowAdd 0 0 [], .windowRemove 0 0, .regionExport 0 0 [], .regionRelease 0 0, .jobClass 0 0,
   .jobPort 0 0, .jobPortUnbind 0 0, .routeWrite 0 0 [], .routeRead 0 0, .routeConfig 0 0, .epochDrain 0 0,
   .soundingSet 0 0, .shoalSet 0 0, .datelineSet 0 0, .schedSet 0 0, .queueSet 0 0, .policeSet 0 0, .fwLoad 0 0 [],
   .cfgLoad 0 0 [], .cfgRead 0 0, .measureRead 0 0, .descriptorArrival 0 true 0, .doorbellPoll 0 true (zeros 64),
   .interruptModeration 0, .msixUnmask 0 0, .ringEnable 0 0] : List Instr).all WellFormed = true := by decide +kernel

theorem test_wellFormed_2 : (
  [.ringDisable 0 0, .ringDrained 0, .functionDisable 0 0, .functionEnable 0 0, .funcDrained 0, .functionLevelReset 0 0,
   .latTolWrite 0 0 0, .dbwBudgetWrite 0, .registerWrite 0 0 0 0, .barBadAccess true, .tideNowRead, .devEnterRead,
   .tideSetWrite 0, .tideRoleWrite 0, .go, .swReset 0, .lastCliffClear, .fltForceSet 0 0, .fltForceClr 0 0,
   .forcedDetection 0 ⟨0, 0⟩, .lnGrpCfgWrite 0 0, .portEnable 0, .portDisable 0, .lnCtlWrite 0 0, .lnTapsWrite 0 0,
   .prbsCheckerEnable 0, .lnInjWrite 0 0, .eyeScanStart 0, .eyeScanDone 0 0 0 true, .pwrReplanWrite 0, .sidebandRead 0,
   .spdmMessage 0 [], .ideKm 0 true true true, .contribution 0 okPkt, .partialPiece 0 okPkt, .resultPiece 0 okPkt,
   .join 0 okPkt, .leave 0 okPkt, .renew 0 okPkt, .epochNotice 0 okPkt, .planReady 0 okPkt, .groupCmd 0 okPkt,
   .groupCmdAck 0 okPkt, .groupCmdResend 0 0 0, .planReadyResend 0, .groupStorm 0 okPkt, .expUp 0 okPkt, .expDown 0 okPkt,
   .sealPkt 0 okPkt, .revoke 0 okPkt, .pack 0 okPkt, .rack 0 okPkt, .nak 0 okPkt, .missing 0 okPkt,
   .chunkWaitTimeout 0 0 0 0, .rackWaitTimeout 0 0 0 0, .partialResendTimeout 0 0 0 0, .chunkBitmapExpiry 0 0 0 0,
   .bag 0 okPkt, .splitBag 0 okPkt] : List Instr).all WellFormed = true := by decide +kernel

theorem test_wellFormed_3 : (
  [.grad 0 okPkt, .splitGrad 0 okPkt, .subBag 0 okPkt, .subGrad 0 okPkt, .subPooled 0 okPkt, .expUpE 0 okPkt,
   .expDownE 0 okPkt, .gradAck 0 okPkt, .embFail 0 okPkt, .applyReq 0 okPkt, .subBagTimeout 0 0 0 0 0,
   .tableApplyTidemark 0, .rockpoolDecay, .memRequestAdmit 0 okPkt, .memRequestPerform 0 okPkt, .memResponse 0 okPkt,
   .memRequestTimeout 0 0, .packetIngress 0 okPkt, .reseqArrival 0 okPkt, .reseqBaseTimeout 0 0 0 0,
   .reseqGapTimeout 0 0 0 0, .reseqEntryFree 0 0 0 0, .dispatch 0 0, .escMove 0 0, .egressTurn 0, .jobSlotFree 0 0,
   .ownerRelease 0 0 0, .beachcomberAudit 0, .quarterRebuild 0 0, .ethernetFrame 0 true [], .mgmtFrameSend none [],
   .macAgeOut 0, .flitReceive 0 0 true (zeros 256), .flitClose 0, .nakvRepeat 0, .portDownDeclare 0 0, .portDownCommit 0,
   .portUpCommit 0, .keyPhaseChange 0, .tideSync 0 0 0, .tideEcho 0 0 0, .tideSyncSend 0, .linkDown 0 0, .neapEnter 0 0,
   .neapReply 0 0 0, .lowEnter 0 0, .lowReply 0 0 0, .lanePowerRequestRetry 0, .idleStateDecision true 0, .neapWake 0,
   .lowWaterWake 0, .regionGateOpen 0, .signalDetect 0, .trainingFrame 0 0 true 0 0 true, .trainingCountdownEnd 0,
   .trainingPhaseFail 0, .trainingRetryPause 0, .laneLockLoss 0, .hello 0 okPkt, .cert 0 okPkt] : List Instr).all WellFormed = true := by decide +kernel

theorem test_wellFormed_4 : (
  [.proof 0 okPkt, .finish 0 okPkt, .abort 0 okPkt, .measReq 0 okPkt, .measRsp 0 okPkt, .keyingTimeout 0,
   .linkRunSwitch 0 true, .launchAck 0 okPkt, .launchDeadline 0, .stopCutTidemark, .stopMark 0 okPkt, .stopSettle,
   .resume 0 okPkt, .resumeTidemark, .snapshotCapture 0, .counterResetTidemark, .tideSyncInEdge, .tideSyncInMissing,
   .tideParentLoss, .faultRecord okRec, .cliffNotice 0 okPkt, .cliffNoticeHoldEnd 0, .regionStall 0, .checkerSelfTest true,
   .watchdogExpiry, .watchdogRefresh, .droopCrossing 0, .ebbRelease 0, .erosionMeasure 0 0 0, .erosionReplan 0 [],
   .thermalSample 0 0, .railFault 0, .clockLoss 0, .resetAssert, .resetRelease true true, .pcieDomain1Reset,
   .pcieUncorrectable 0, .powerCycle, .bootSequenceDone okStart, .holdStartUp okStart, .groupDestroyDone 0,
   .groupQuiesced 0, .tableQuiesced 0, .tableDestroyDone 0, .regionReleaseDone 0, .windowRemoveDone 0, .portUnbindDone 0,
   .epochDrainDone 0 0, .tableCommitWaitEnd 0 0, .railsInRange, .referenceClockStart 0, .disableSquelch 0,
   .boundaryScanInstruction 0, .subGradResendTimeout 0 0 0 0 0, .errorInjectionInterval 0, .prbsCheckerLock 0,
   .traceTimeRecord, .ebbHeavyWindow 0] : List Instr).all WellFormed = true := by decide +kernel

/-! ## The block, the host interface -/

/-- An empty queue: a nanosecond passes, running and frozen. -/
def frozenUp : State := { up with stop := { frozen := true } }
theorem test_idleStep_quiet : (List.range 4).all (fun d => (List.range 4).all (fun q => (nth (getSlice up d).quarters q {}).doneAt == none)) = true
    ∧ up.shoal.flows = [] ∧ up.groups = [] ∧ up.mem.outst = [] ∧ up.shoal.badHeld = [] ∧ up.obs.heard = [] ∧ up.route.looks = [] ∧ up.route.wrote = []
    ∧ (List.range 4).all (fun d => (getPort up (768 + d)).queues == []) = true
    ∧ endInstant up = up ∧ framesGo (getPort up 0) = false := by decide +kernel
theorem test_idleStep : up.pending = [] ∧ up.dev.state ≠ .reset ∧ frozenUp.pending = [] ∧ frozenUp.stop.frozen = true
    ∧ (match step up with | .next t => t | _ => up) = { up with tide := { now := 1 } } := by decide +kernel

/-- R421: a completion's hypotheses, and the entry it leaves. -/
theorem test_completion : up.dev.state ≠ .cliff ∧ ideOk (ready 0 0 up) 0 = true ∧ (getFunc (ready 0 0 up) 0).flr = false
    ∧ (descOf 0 0).ring ≠ ringLink (getRing (ready 0 0 up) 1)
    ∧ firstStatus (complete (descOf 0 0) 9 5 false false (ready 0 0 up)) = 9 := by decide +kernel

/-- R432, R433: an event that fits, one without room, one with no ring of its own, one during a function level reset. -/
def fullEvt : State := onRing 3 (fun g => { g with pi := 64 }) (withRings up)
def flrUp : State := onFunc 0 (fun f => { f with flr := true }) (withRings up)
theorem test_event_fits : (getRing (withRings up) 3).state = .active ∧ ringType evtRing = 3 ∧ ringFunc evtRing = 0
    ∧ (getFunc (withRings up) 0).flr = false ∧ ideOk (withRings up) 0 = true
    ∧ ahead evtRing.ci evtRing.pi + 1 ≤ ringSize evtRing
    ∧ (getRing (postTo (some 3) 0 0x20 [] [] (withRings up)) 3).pi = 1 := by decide +kernel
theorem test_event_dropped : ringSize (getRing fullEvt 3) < ahead (getRing fullEvt 3).ci (getRing fullEvt 3).pi + 1
    ∧ (getRing (postTo (some 3) 0 0x20 [] [] fullEvt) 3).lost = true
    ∧ ¬ ((getRing up 3).state = .active ∧ ringType (getRing up 3) = 3 ∧ ringFunc (getRing up 3) = 0)
    ∧ (getFunc flrUp 0).flr = true ∧ ctrVal (postTo (some 3) 0 0x20 [] [] flrUp) kHOST_CPL_DROP = 1 := by decide +kernel

/-- R417: NOP with the reserved operand bits zero, and with one set. -/
theorem test_nop : Ready (ready 0 0x2A up) 1 0 0x00 (descOf 0 0x2A)
    ∧ firstStatus (after (.nop 1 0) (ready 0 0x2A up)) = 0 ∧ firstResult (after (.nop 1 0) (ready 0 0x2A up)) = 0x2A
    ∧ firstStatus (after (.nop 1 0) (ready 0 (2 ^ 64) up)) = 9 := by decide +kernel

/-- R419: a returned descriptor read: NOP, accepted; opcode 0xFF, BAD. -/
def reading : State := onRing 1 (fun g => { g with reads := [1] }) (withRings up)
theorem test_descriptorArrival : reading.dev.state ≠ .cliff ∧ (getRing reading 1).state = .active ∧ ringType (getRing reading 1) = 1
    ∧ (getRing reading 1).stale = [] ∧ (getRing reading 1).reads ≠ [] ∧ (after (.descriptorArrival 1 true 0) reading).host.accepted.length = 1
    ∧ firstStatus (after (.descriptorArrival 1 true 0xFF) reading) = 9 := by decide +kernel

/-- R424, R427: the submission ring alone on its line; an index at the limit, one beyond it; the completion ring alone. -/
def onLine : State := onHost (fun h => { h with rings := [(1, { subRing with pi := 0, fetch := 0 }), (2, { cplRing with dbLo := 0x40, pi := 5 })] }) up
def wordOf (v : Nat) : List Byte := bytesLE 8 v ++ zeros 56
theorem test_doorbell_submission : watcherRuns onLine.dev.state = true
    ∧ onLine.host.rings.filter (fun e => e.2.state == .active && ringDoorbell e.2 / 64 == 0 / 64 && ideOk onLine (ringFunc e.2))
      = [(1, getRing onLine 1)]
    ∧ ringType (getRing onLine 1) = 1 ∧ (getRing (after (.doorbellPoll 0 true (wordOf 64)) onLine) 1).pi = 64
    ∧ (getRing (after (.doorbellPoll 0 true (wordOf 64)) onLine) 1).reads = [58]
    ∧ (getRing (after (.doorbellPoll 0 true (wordOf 65)) onLine) 1).state = .error
    ∧ (getRing (after (.doorbellPoll 0 false []) onLine) 1).err = 2 := by decide +kernel
theorem test_doorbell_consumer :
    onLine.host.rings.filter (fun e => e.2.state == .active && ringDoorbell e.2 / 64 == 64 / 64 && ideOk onLine (ringFunc e.2))
      = [(2, getRing onLine 2)]
    ∧ 2 ≤ ringType (getRing onLine 2) ∧ (getRing (after (.doorbellPoll 64 true (wordOf 5)) onLine) 2).ci = 5
    ∧ (getRing (after (.doorbellPoll 64 true (wordOf 6)) onLine) 2).err = 3 := by decide +kernel

/-- R434, R435: rings enabled, in BOOT and after it, disabled and drained. -/
def offRing (r : Nat) (st : RingState) (s : State) : State := onRing r (fun g => { g with state := st, out := 0 }) s
theorem test_ringEnable : up.dev.state ∉ [DevState.cliff, .boot, .reset] ∧ ownsRing (offRing 3 .disabled (withRings up)) 0 3 = true
    ∧ (getRing (offRing 3 .disabled (withRings up)) 3).state = .disabled
    ∧ enableOk (offRing 3 .disabled (withRings up)) evtRing = true
    ∧ (getRing (after (.ringEnable 0 3) (offRing 3 .disabled (withRings up))) 3).state = .active
    ∧ State.reset.dev.state ∈ [DevState.boot, .reset] ∧ ownsRing State.reset 0 3 = true
    ∧ (getRing (after (.ringEnable 0 3) State.reset) 3).enAtBoot = true
    ∧ (let s := after (.functionDisable 0 0) (offRing 3 .disabled (withRings up))
       (getRing (after (.ringEnable 0 3) s) 3).cfgRej = true ∧ (getRing (after (.ringEnable 0 3) s) 3).err = 0)
    := by decide +kernel
theorem test_ringDisable : ownsRing (withRings up) 0 1 = true ∧ (getRing (withRings up) 1).state = .active
    ∧ ringType subRing = 1 ∧ ringType cplRing = 2 ∧ ringType evtRing = 3
    ∧ (getRing (after (.ringDisable 0 1) (withRings up)) 1).state = .draining
    ∧ (getRing (after (.ringDisable 0 2) (withRings up)) 2).cfgRej = true
    ∧ (getRing (after (.ringDisable 0 3) (offRing 3 .error (withRings up))) 3).state = .disabled := by decide +kernel
theorem test_ringDrained : regsLive up = true ∧ (getRing (offRing 1 .draining (withRings up)) 1).state = .draining
    ∧ (getRing (offRing 1 .draining (withRings up)) 1).out = 0
    ∧ (getRing (after (.ringDrained 1) (offRing 1 .draining (withRings up))) 1).state = .disabled := by decide +kernel

/-- R414, R437, R438: a function disabled (with and without submission rings), drained, enabled and reset. -/
def fnState (n : Nat) (st : FnState) (s : State) : State := onFunc n (fun f => { f with state := st }) s
theorem test_functionDisable : (getFunc (withRings up) 0).state = .enabled
    ∧ (getFunc (after (.functionDisable 0 0) (withRings up)) 0).state = .draining
    ∧ ringsOf (withRings up) 5 1 = [] ∧ after (.functionDisable 5 5) up = onFunc 5 (fun f => { f with state := .draining, disabledAt := some up.tide.now }) up := by decide +kernel
theorem test_functionEnable : (getFunc (fnState 5 .disabled up) 5).state = .disabled
    ∧ (getFunc (after (.functionEnable 5 5) (fnState 5 .disabled up)) 5).state = .enabled := by decide +kernel
theorem test_funcDrained : (getFunc (fnState 5 .draining up) 5).state = .draining
    ∧ (ringsOf (fnState 5 .draining up) 5 1).all (fun r => (getRing (fnState 5 .draining up) r).state == .disabled) = true
    ∧ (getFunc (after (.funcDrained 5) (fnState 5 .draining up)) 5).state = .disabled := by decide +kernel
theorem test_functionLevelReset : isPf (fnState 5 .disabled up) 5 = false ∧ (getFunc (fnState 5 .disabled up) 5).state = .disabled
    ∧ (getFunc (after (.functionLevelReset 5 0) (fnState 5 .disabled up)) 5).state = .enabled
    ∧ (getFunc (after (.functionLevelReset 5 1) (fnState 5 .disabled up)) 5).state = .disabled := by decide +kernel

/-- R429, R430: an entry unsignalled for LAT_MOD, its vector unmasked and masked. -/
def waitingMsi : State := onTide (fun t => { t with now := 5000 }) (onRing 2 (fun g => { g with unsignalled := 1 }) (withRings up))
def unmaskedMsi : State := onHost (fun h => { h with unmasked := [(0, 5)] }) waitingMsi
theorem test_interruptModeration : regsLive waitingMsi = true ∧ 2 ≤ ringType (getRing waitingMsi 2) ∧ 0 < (getRing waitingMsi 2).unsignalled
    ∧ (getRing waitingMsi 2).oldest + (getFunc waitingMsi (ringFunc (getRing waitingMsi 2))).latMod ≤ waitingMsi.tide.now
    ∧ (after (.interruptModeration 2) waitingMsi).host.pendingMsi = [(0, 5)]
    ∧ (0, 5) ∈ unmaskedMsi.host.unmasked ∧ (after (.interruptModeration 2) unmaskedMsi).host.msi = [(0, 5)] := by decide +kernel
theorem test_msixUnmask : 2047 < vectorsOf 0 ∧ (0, 5) ∉ up.host.unmasked
    ∧ (0, 5) ∈ (onHost (fun h => { h with pendingMsi := [(0, 5)] }) up).host.pendingMsi
    ∧ (after (.msixUnmask 0 5) (onHost (fun h => { h with pendingMsi := [(0, 5)] }) up)).host.msi = [(0, 5)] := by decide +kernel

/-- R407, R415, R426: registers of the host interface. -/
theorem test_latTol : up.dev.state ≠ .cliff ∧ (getFunc (after (.latTolWrite 5 5 2000) up) 5).latTol = 2000
    ∧ (getFunc (after (.latTolWrite 5 5 2000) up) 5).latPoll = 1000 := by decide +kernel
theorem test_budget : 1 ≤ fld (200 : Word) 7 0 ∧ fld (200 : Word) 7 0 ≤ 200 ∧ 1 ≤ fld (1 : Word) 7 0
    ∧ (after (.dbwBudgetWrite 200) up).host.budget = 200 ∧ (after (.dbwBudgetWrite 201) up).host.budget = 40 := by decide +kernel
theorem test_msixWord : regsLive up = true ∧ 2047 < vectorsOf 0
    ∧ (after (.registerWrite 0 2 (16 * 2047 + 8) 3) up).host.msixWords = [(16 * 2047 + 8, 3)] := by decide +kernel
theorem test_barBadAccess : (after (.barBadAccess false) up).dev.badAccess = 0xFFFFFFFF
    ∧ ctrVal (after (.barBadAccess true) up) kHOST_BADACC = 1 := by decide +kernel
/-! ## Shoal, scheduling, routing, traces -/

def onDie0 (f : Slice → Slice) (s : State) : State := onSlice 0 f s

/-- R307, R308: a buffer that two audits found without owner; R300: a rebuilt quarter. -/
def lostBuf : State := onDie0 (fun x => { x with
  used := [(7, ⟨0xFFFFF, false, true⟩)], quarters := modAt x.quarters 0 (fun q => { q with bitmap := true }) }) up
theorem test_audit : lostBuf.dev.state ∈ [DevState.train, .run, .stopped] ∧ (7, ⟨0xFFFFF, false, true⟩) ∈ (getSlice lostBuf 0).used
    ∧ (nth (getSlice lostBuf 0).quarters (7 / 163840) {}).bitmap = true ∧ isOwned lostBuf 0 7 = false
    ∧ mget (getSlice (after (.beachcomberAudit 0) lostBuf) 0).used 7 = none := by decide +kernel
theorem test_rebuild : 0 < lostBuf.shoal.slices.length ∧ 3 < (getSlice lostBuf 0).quarters.length
    ∧ (nth (getSlice lostBuf 0).quarters 3 {}).failures + (if (nth (getSlice lostBuf 0).quarters 3 {}).closed.isSome = true then 1 else 0) < 2
    ∧ quarterFree (getSlice (after (.quarterRebuild 0 3) lostBuf) 0) 3 = none
    ∧ (getSlice (after (.quarterRebuild 0 0) lostBuf) 0).used = [] := by decide +kernel
/-- R298, R300: the end of a rebuild whose walk succeeds. -/
def walked : State := onQuarter 0 0 (fun x => { x with doneAt := some 0, closed := some ((listHead x 0).getD 0xFFFFF, listLen x 0) }) up
theorem test_rebuildEnds : (nth (getSlice walked 0).quarters 0 {}).doneAt = some 0 ∧ walkOk (nth (getSlice walked 0).quarters 0 {}) 0 = true
    ∧ (∀ d' ∈ List.range 4, ∀ q' ∈ List.range 4, (d', q') ≠ (0, 0) → (nth (getSlice walked d').quarters q' {}).doneAt = none)
    ∧ (nth (getSlice (settleQuarters walked) 0).quarters 0 {}).bitmap = true := by decide +kernel

/-- R290, R291: SHOAL_SET at the limits of its fields; R311: DATELINE_SET. -/
def shoalOp (esc : Nat) : BitVec 384 := pack 384 [(64, 0x4242424242060C08), (64, 0x4242424242060C08), (16, 10240), (8, 1), (16, 16), (16, 64), (20, esc), (180, 0)]
theorem test_shoalSet : Ready (ready 0x68 (shoalOp 1000) up) 1 0 0x68 (descOf 0x68 (shoalOp 1000))
    ∧ firstStatus (after (.shoalSet 1 0) (ready 0x68 (shoalOp 1000) up)) = 0
    ∧ firstStatus (after (.shoalSet 1 0) (ready 0x68 (shoalOp 999) up)) = 9 := by decide +kernel
def dateOp (p dim : Nat) : BitVec 384 := pack 384 [(10, p), (2, dim), (1, 1), (371, 0)]
theorem test_datelineSet : Ready (ready 0x69 (dateOp 4 2) up) 1 0 0x69 (descOf 0x69 (dateOp 4 2))
    ∧ (getPort (after (.datelineSet 1 0) (ready 0x69 (dateOp 4 2) up)) 4).dim = 2
    ∧ firstStatus (after (.datelineSet 1 0) (ready 0x69 (dateOp 4 3) up)) = 9
    ∧ firstStatus (after (.datelineSet 1 0) (ready 0x69 (dateOp 2 2) up)) = 9 := by decide +kernel

/-- R331 to R333: the least FLOOR, a weight, a policer of a Cove that exists. -/
def schedOp (floor : Nat) : BitVec 384 := pack 384 [(10, 4), (1, 0), (8, floor), (16, 1), (16, 1), (16, 1), (16, 1), (16, 1), (16, 1), (16, 1), (16, 1), (237, 0)]
theorem test_schedSet : Ready (ready 0x6A (schedOp 1) up) 1 0 0x6A (descOf 0x6A (schedOp 1))
    ∧ (getPort (after (.schedSet 1 0) (ready 0x6A (schedOp 1) up)) 4).sched.floor = 1
    ∧ firstStatus (after (.schedSet 1 0) (ready 0x6A (schedOp 129) up)) = 9 := by decide +kernel
def queueOp (burst : Nat) : BitVec 384 := pack 384 [(10, 4), (1, 0), (8, 1), (2, 3), (8, 2), (20, 100), (24, burst), (311, 0)]
theorem test_queueSet : Ready (ready 0x6B (queueOp 8208) up) 1 0 0x6B (descOf 0x6B (queueOp 8208))
    ∧ firstStatus (after (.queueSet 1 0) (ready 0x6B (queueOp 8207) up)) = 9 := by decide +kernel
def policeOp (job key : Nat) : BitVec 384 := pack 384 [(1, job), (16, key), (4, 15), (4, 15), (20, 0), (24, 0), (315, 0)]
theorem test_policeSet : Ready (ready 0x6C (policeOp 1 255) up) 1 0 0x6C (descOf 0x6C (policeOp 1 255))
    ∧ firstStatus (after (.policeSet 1 0) (ready 0x6C (policeOp 1 255) up)) = 0
    ∧ firstStatus (after (.policeSet 1 0) (ready 0x6C (policeOp 1 256) up)) = 9
    ∧ firstStatus (after (.policeSet 1 0) (ready 0x6C (policeOp 0 1) up)) = 9 := by decide +kernel

/-- R320, R321: port 0 runs and queue 0 holds one control packet. -/
def ctlOne : Packet := { ctlPkt vcCTRL 9 0 0 (pack 128 [(8, 0x45), (120, 0)]) with hdr := mkHdr 0 vcCTRL 9 3 0 0 false 0 }
def runPort (f : Port → Port) : State := onPort 0 (fun x => f { x with lstate := .run, link := { x.link with avail := [2, 0, 0, 0, 0, 0, 0, 0, 0] } }) up
def storedOne (a : Acct) (p : Packet) : Stored := { die := 0, bufs := [0], acct := a, port := 1024, pkt := p, owners := [], rtag := none, dest := .lport 0, par := packetParity p }
def queued : State := onShoal (fun h => { h with stored := [storedOne (.egress 0 0) ctlOne] }) (runPort (fun x => { x with queues := [(0, [(0, 0)])] }))
theorem test_egressTurn : isEthPort queued 0 = false ∧ portRun queued 0 = true ∧ queued.stop.frozen = false ∧ queued.dev.state ≠ .cliff
    ∧ queuePkts queued 0 0 = [(0, 0)] ∧ storedAt queued 0 0 = some (storedOne (.egress 0 0) ctlOne)
    ∧ (∀ k, k < 64 → (eligible queued 0 k = true ↔ k = 0))
    ∧ ctlOne.size ≤ mgetD (getPort queued 0).deficit 0 0 + quantum queued 0 0 ∧ staleAt queued 0 ctlOne = false
    ∧ (getPort queued 0).soundOut = none ∧ barred queued 0 ctlOne = false ∧ storedGood (storedOne (.egress 0 0) ctlOne) = true
    ∧ (getPort (after (.egressTurn 0) queued) 0).link.tx = [{ pkt := leaving queued 0 ctlOne, die := 0, buf := 0, queue := 0, par := parityOut queued 0 0 (leaving queued 0 ctlOne) }]
    ∧ nth (getPort (after (.egressTurn 0) queued) 0).link.avail 0 0 = 1 := by decide +kernel
def oneSlot : State := onTide (fun t => { t with now := 10000 }) (runPort (fun x => { x with slots := [(13, (1, 0))] }))
theorem test_jobSlotFree : regsLive oneSlot = true ∧ mget (getPort oneSlot 0).slots 13 = some (1, 0) ∧ slotEmpty (getPort oneSlot 0) 13 = true
    ∧ (1, 0).2 + 10000 ≤ oneSlot.tide.now ∧ (getPort (after (.jobSlotFree 0 13) oneSlot) 0).slots = [] := by decide +kernel

/-- R252, R253: a batch of one write, and of one ROUTE_CONFIG. -/
def routeOp : BitVec 384 := pack 384 [(64, 0x40), (32, 4), (2, 0), (18, 5), (19, 1), (1, 0), (248, 0)]
def configOp : BitVec 384 := pack 384 [(135, 0), (1, 0), (12, 3), (6, 1), (8, 0), (16, 1), (206, 0)]
theorem test_routeWrite : Ready (ready 0x60 routeOp up) 1 0 0x60 (descOf 0x60 routeOp) ∧ routeWriteOk routeOp = true
    ∧ up.route.batch = [] ∧ up.route.commits = [] ∧ mustWait (routeTags (ready 0x60 routeOp up)) 0 = false ∧ bitAt routeOp 248 = false
    ∧ routeOk (ready 0x60 routeOp up) (applyWrite ⟨1, 0, 0x60, routeOp, zeros 4, 0⟩ up.route) = true
    ∧ (after (.routeWrite 1 0 (zeros 4)) (ready 0x60 routeOp up)).route.tag = 1 := by decide +kernel
theorem test_routeConfig : Ready (ready 0x62 configOp up) 1 0 0x62 (descOf 0x62 configOp) ∧ routeConfigOk configOp = true ∧ bitAt configOp 248 = false
    ∧ (after (.routeConfig 1 0) (ready 0x62 configOp up)).route.selfNode = some 3 := by decide +kernel

/-- R251, R274, R275: a read, a drain that is over at once and one that waits, a sounding. -/
def drainOp : BitVec 384 := pack 384 [(178, 0), (4, 0), (16, 0), (186, 0)]
def inFlight (s : State) : State := onRoute (fun r => { r with tag := 1 }) (onShoal (fun h => { h with stored := [{ storedOne (.egress 0 0) ctlOne with owners := [ownIngress 4], rtag := some 0 }] }) s)
theorem test_routeRead : Ready (ready 0x61 routeOp up) 1 0 0x61 (descOf 0x61 routeOp)
    ∧ onlyBits routeOp [(383, 320), (319, 288), (287, 286), (285, 268), (267, 249)] = true ∧ routeRangeOk routeOp = true
    ∧ firstStatus (after (.routeRead 1 0) (ready 0x61 routeOp up)) = 0 := by decide +kernel
theorem test_epochDrain : Ready (ready 0x63 drainOp up) 1 0 0x63 (descOf 0x63 drainOp) ∧ onlyBits drainOp [(205, 202), (201, 186)] = true
    ∧ tagsOf (ready 0x63 drainOp up) 0 0 = some ([], 0) ∧ drained [] 0 0 = true
    ∧ tagsOf (inFlight (ready 0x63 drainOp up)) 0 0 = some ([some 0], 1) ∧ drained [some 0] 1 1 = false
    ∧ (findDesc (after (.epochDrain 1 0) (inFlight (ready 0x63 drainOp up))) 1 0).map (fun d => (d.stage, d.oldTag)) = some (.draining, 1) := by decide +kernel
def drainWaits : State := onHost (fun h => { h with accepted := [{ descOf 0x63 drainOp with stage := .draining }] }) (withRings up)
theorem test_epochDrainDone : regsLive drainWaits = true ∧ (findDesc drainWaits 1 0).map (·.stage) = some .draining
    ∧ tagsOf drainWaits 0 0 = some ([], 0) ∧ drained [] 0 0 = true
    ∧ (after (.epochDrainDone 1 0) drainWaits).host.accepted = [] := by decide +kernel
def soundOp : BitVec 384 := pack 384 [(198, 0), (10, 4), (1, 0), (1, 0), (1, 1), (24, 9), (8, 255), (141, 0)]
theorem test_soundingSet : Ready (ready 0x64 soundOp up) 1 0 0x64 (descOf 0x64 soundOp) ∧ isDrezhPort (ready 0x64 soundOp up) 4 = true
    ∧ onlyBits soundOp [(185, 176), (174, 174), (173, 173), (172, 149), (148, 141)] = true
    ∧ (getPort (after (.soundingSet 1 0) (ready 0x64 soundOp up)) 4).soundIn.map (·.n) = some 10 := by decide +kernel

/-- R575 to R579: a die that traces, and records drained. -/
def traceOp : BitVec 384 := pack 384 [(4, 1), (1, 1), (3, 5), (32, 1000), (4, 7), (8, 0), (12, 4), (320, 0)]
def drainTr : BitVec 384 := pack 384 [(64, 0x100), (32, 32), (2, 0), (286, 0)]
def tracing : State := onObs (fun o => { o with traces := modAt o.traces 0 (fun t => { t with en := true, records := [zeros 32, zeros 32] }) }) up
theorem test_traceSet : Ready (ready 0x13 traceOp up) 1 0 0x13 (descOf 0x13 traceOp)
    ∧ (getTrace (after (.traceSet 1 0) (ready 0x13 traceOp up)) 0).en = true := by decide +kernel
theorem test_traceDrain : Ready (ready 0x14 drainTr tracing) 1 0 0x14 (descOf 0x14 drainTr) ∧ tracing.obs.traces.length = 4
    ∧ onlyBits drainTr [(383, 320), (319, 288), (287, 286)] = true ∧ fld drainTr 319 288 % 32 = 0
    ∧ firstResult (after (.traceDrain 1 0) (ready 0x14 drainTr tracing)) = 32
    ∧ (getTrace (after (.traceDrain 1 0) (ready 0x14 drainTr tracing)) 0).records.length = 1 := by decide +kernel
theorem test_traceTimeRecord : regsLive (onTide (fun t => { t with now := 2 ^ 48 }) tracing) = true ∧ (getTrace tracing 0).en = true
    ∧ (getTrace (after .traceTimeRecord (onTide (fun t => { t with now := 2 ^ 48 }) tracing)) 0).hi = 1 := by decide +kernel
/-! ## Groups -/

/-- A root fragment with one member, port 4, rank 1, endpoint 50, on array MA0 of CD0 (R51, R52). -/
def rootFrag : Fragment := {
  hasMembers := true, isRoot := true, modes := 7, group := 9, chunkSegs := 1, cove := 1, chunkWindow := 4, accHome := 0, fmtMask := 0x28,
  w96 := false, keys := false, waitTimeout := 1000, parent := 0xFFFF, arrays := [(0, 0)], children := [], members := [(4, 1, 50)], roster := [] }
/-- The same plan at a Q7 below: its parent at port 0. -/
def leafFrag : Fragment := { rootFrag with isRoot := false, parent := 0 }
def rootGroup : Group := { entry := 0, state := .active, frag := rootFrag, now := { epoch := 1, count := 1, admitted := [(4, 1, 50)], roster := [(1, 50)] } }
def leafGroup : Group := { entry := 0, state := .active, frag := leafFrag, now := { epoch := 1, count := 1, admitted := [(4, 1, 50)] } }
def withGroup (g : Group) (s : State) : State :=
  { s with groups := [(9, g)], mem := { s.mem with coves := [1], binds := [(4, { epid := 50, cove := 1, maxOut := 64 })] } }

/-- A fragment's bytes: MAGIC, VERSION, FLAGS 3, MODES 7, group 9, CHUNK_SEGS 1, Cove 1, window 4, formats, time-out 1,000 ns (R51). -/
def fragBytes (flags parent : Nat) (children : List Nat) : List Byte :=
  bytesLE 4 0x4B515046 ++ bytesLE 2 1 ++ bytesLE 1 flags ++ bytesLE 1 7 ++ bytesLE 3 9 ++ bytesLE 1 1 ++ bytesLE 2 1 ++ bytesLE 1 4 ++ bytesLE 1 0
  ++ bytesLE 2 0x28 ++ bytesLE 1 0 ++ bytesLE 1 0 ++ bytesLE 8 1000 ++ bytesLE 2 parent ++ bytesLE 2 children.length ++ bytesLE 2 1 ++ bytesLE 2 1
  ++ bytesLE 4 0 ++ zeros 24 ++ bytesLE 2 0 ++ children.flatMap (bytesLE 2) ++ bytesLE 8 (4 * 2 ^ 54 + 1 * 2 ^ 36 + 50 * 2 ^ 18)
def installOp (len : Nat) : BitVec 384 := pack 384 [(64, 0x40), (32, len), (264, 0), (24, 9)]
def coved (n : Nat) (s : State) : State := onMem (fun m => { m with coves := [n] }) s
def rootBytes : List Byte := fragBytes 3 0xFFFF []
def parentBytes : List Byte := fragBytes 3 0xFFFF [8]
def instState (d : List Byte) : State := ready 0x20 (installOp d.length) (coved 1 up)

theorem test_groupInstall_checks : Ready (instState rootBytes) 1 0 0x20 (descOf 0x20 (installOp 74))
    ∧ installOk (installOp 74) rootBytes (instState rootBytes) = true ∧ installOk (installOp 73) rootBytes (instState rootBytes) = false
    ∧ coveAllowed (instState rootBytes) 0 1 = true ∧ coveAllowed (instState rootBytes) 5 1 = false
    ∧ getGroup (instState rootBytes) 9 = none ∧ freeEntry (instState rootBytes) = some 0
    ∧ reservationsOk { instState rootBytes with groups := [(9, installed (parseFrag rootBytes) 0 none)] } = true := by decide +kernel
theorem test_groupInstall_root : (parseFrag rootBytes).children = [] ∧ (parseFrag rootBytes).isRoot = true
    ∧ (getGroup (after (.groupInstall 1 0 rootBytes) (instState rootBytes)) 9).map (fun g => (g.state, g.now.epoch)) = some (.active, 1) := by decide +kernel
theorem test_groupInstall_children : (parseFrag parentBytes).children = [8]
    ∧ (getGroup (after (.groupInstall 1 0 parentBytes) (instState parentBytes)) 9).map (·.state) = some .installing := by decide +kernel
/-- A table of 16,384 entries, and a Shoal whose floor leaves no room. -/
def noRoom : State := onShoal (fun h => { h with cfg := { h.cfg with poolFloor := 2560 } }) (instState rootBytes)
theorem test_groupInstall_noRoom : reservationsOk { noRoom with groups := [(9, installed (parseFrag rootBytes) 0 none)] } = false
    ∧ firstStatus (after (.groupInstall 1 0 rootBytes) noRoom) = 8 := by decide +kernel

/-- R56, R76: the root's descriptors. -/
def gidOp : BitVec 384 := 9
def evictOp : BitVec 384 := pack 384 [(96, 0), (18, 1), (246, 0), (24, 9)]
def atRoot (o : Nat) (op : BitVec 384) (f : Group → Group) : State := ready o op (withGroup (f rootGroup) up)
theorem test_groupQuiesce : getGroup (atRoot 0x23 gidOp id) 9 = some rootGroup ∧ rootGroup.frag.group = fld gidOp 23 0
    ∧ coveAllowed (atRoot 0x23 gidOp id) 0 1 = true ∧ Ready (atRoot 0x23 gidOp id) 1 0 0x23 (descOf 0x23 gidOp)
    ∧ onlyBits gidOp [(23, 0)] = true ∧ rootGroup.state = .active
    ∧ (getGroup (after (.groupQuiesce 1 0) (atRoot 0x23 gidOp id)) 9).map (fun g => (g.state, g.quiescer)) = some (.quiescing, some (1, 0))
    ∧ firstStatus (after (.groupQuiesce 1 0) (atRoot 0x23 gidOp (fun g => { g with state := .quiesced }))) = 9 := by decide +kernel
theorem test_groupResume : Ready (atRoot 0x24 gidOp id) 1 0 0x24 (descOf 0x24 gidOp)
    ∧ (getGroup (after (.groupResume 1 0) (atRoot 0x24 gidOp (fun g => { g with state := .quiesced }))) 9).map (·.state) = some .active := by decide +kernel
theorem test_groupEvict : Ready (atRoot 0x22 evictOp id) 1 0 0x22 (descOf 0x22 evictOp) ∧ onlyBits evictOp [(23, 0), (287, 270)] = true
    ∧ takesChanges rootGroup = true ∧ rootGroup.now.epoch ≠ 0xFFFF ∧ rootGroup.now.roster.any (fun e => e.1 == fld evictOp 287 270) = true
    ∧ (getGroup (after (.groupEvict 1 0) (atRoot 0x22 evictOp id)) 9).map (fun g => (g.now.epoch, g.now.roster)) = some (2, []) := by decide +kernel
def lastEpoch (g : Group) : Group := { g with now := { g.now with epoch := 0xFFFF } }
theorem test_groupRenew : Ready (atRoot 0x25 gidOp id) 1 0 0x25 (descOf 0x25 gidOp)
    ∧ (getGroup (after (.groupRenew 1 0) (atRoot 0x25 gidOp id)) 9).map (fun g => (g.now.epoch, g.now.roster)) = some (2, [(1, 50)])
    ∧ firstStatus (after (.groupRenew 1 0) (atRoot 0x25 gidOp lastEpoch)) = 8 := by decide +kernel
theorem test_groupDestroy : Ready (atRoot 0x26 gidOp id) 1 0 0x26 (descOf 0x26 gidOp) ∧ rootGroup.quiescer ≠ some (1, 0)
    ∧ (getGroup (after (.groupDestroy 1 0) (atRoot 0x26 gidOp id)) 9).map (fun g => (g.state, g.destroyers)) = some (.destroying, [(1, 0)])
    ∧ (findDesc (after (.groupDestroy 1 0) (atRoot 0x26 gidOp id)) 1 0).map (·.stage) = some .draining := by decide +kernel

/-- R57, R136: a record of 64 bytes, a table of one extent, an accumulation of two passes. -/
def queryOp (len : Nat) : BitVec 384 := pack 384 [(64, 0x40), (32, len), (264, 0), (24, 9)]
theorem test_groupQuery : Ready (atRoot 0x27 (queryOp 64) id) 1 0 0x27 (descOf 0x27 (queryOp 64))
    ∧ onlyBits (queryOp 64) [(23, 0), (383, 320), (319, 288)] = true
    ∧ firstStatus (after (.groupQuery 1 0) (atRoot 0x27 (queryOp 64) id)) = 0
    ∧ firstStatus (after (.groupQuery 1 0) (atRoot 0x27 (queryOp 63) id)) = 9 := by decide +kernel
def extOp : BitVec 384 := pack 384 [(64, 0x40), (32, 8), (18, 0), (4, 15), (242, 0), (24, 9)]
theorem test_groupExtents : Ready (atRoot 0x21 extOp id) 1 0 0x21 (descOf 0x21 extOp)
    ∧ onlyBits extOp [(23, 0), (383, 320), (319, 288), (269, 266)] = true
    ∧ (getGroup (after (.groupExtents 1 0 (bytesLE 8 (2 ^ 46 + 5))) (atRoot 0x21 extOp id)) 9).map (·.extents) = some [(15, [(1, 5)])] := by decide +kernel
def accOp (n k : Nat) : BitVec 384 := pack 384 [(32, n), (16, k), (312, 0), (24, 9)]
theorem test_accumSet : Ready (atRoot 0x30 (accOp 4 1) id) 1 0 0x30 (descOf 0x30 (accOp 4 1))
    ∧ (getGroup (after (.accumSet 1 0) (atRoot 0x30 (accOp 4 1) id)) 9).map (fun g => g.pendingAccum.map (fun x => (x.1, x.2.1)))
      = some (some (1, 4))
    ∧ firstStatus (after (.accumSet 1 0) (atRoot 0x30 (accOp 65536 1) id)) = 8
    ∧ firstStatus (after (.accumSet 1 0) (atRoot 0x30 (accOp 65537 1) id)) = 9 := by decide +kernel

/-- R67, R68: requests at the root and at a Q7 below it. -/
def request (ctype epoch rank src : Nat) : Packet :=
  let b : BitVec 128 := pack 128 [(8, ctype), (24, 9), (16, epoch), (18, rank), (62, 0)]
  { hdr := mkHdr 0 vcCTRL 0 src 0 0 false 0, body := bytesBE 16 b.toNat }
theorem test_join : engineOn (withGroup rootGroup up) = true ∧ isFabric (withGroup rootGroup up) 4 = false
    ∧ refuseRequest (boundAt (withGroup rootGroup up) 4 (request 0x40 1 2 51)) 4 (some rootGroup) = none ∧ fld (request 0x40 1 2 51).ctl 119 96 = 9
    ∧ rootGroup.now.roster.any (fun m => m.2 == 51) = false ∧ rootGroup.now.roster.any (fun m => m.1 == 2) = false ∧ maxPasses rootGroup = 1
    ∧ (getGroup (after (.join 4 (request 0x40 1 2 51)) (withGroup rootGroup up)) 9).map (fun g => (g.now.epoch, g.now.count, g.now.roster))
      = some (2, 2, [(1, 50), (2, 51)]) := by decide +kernel
theorem test_leave : (1, 50) ∈ rootGroup.now.roster ∧ (request 0x41 1 1 50).src = 50
    ∧ (getGroup (after (.leave 4 (request 0x41 1 1 50)) (withGroup rootGroup up)) 9).map (fun g => (g.now.epoch, g.now.roster)) = some (2, []) := by decide +kernel
theorem test_renew : fld (request 0x43 1 1 50).ctl 95 80 = rootGroup.now.epoch
    ∧ (getGroup (after (.renew 4 (request 0x43 1 1 50)) (withGroup rootGroup up)) 9).map (fun g => (g.now.epoch, g.now.roster))
      = some (2, [(1, 50)]) := by decide +kernel
theorem test_request_forwarded : refuseRequest (boundAt (withGroup leafGroup up) 4 (request 0x40 1 2 51)) 4 (some leafGroup) = none ∧ leafGroup.frag.isRoot = false
    ∧ (after (.join 4 (request 0x40 1 2 51)) (withGroup leafGroup up)).route.outbox.length = 1 := by decide +kernel

/-- R70, R77: PLAN_READY of the first and of the last child, EPOCH_NOTICE, PLAN_READY again. -/
def treeGroup : Group := { rootGroup with state := .installing, frag := { rootFrag with children := [8, 12] }, now := { epoch := 0, roster := [(1, 50)] } }
theorem test_planReady : 8 ∈ treeGroup.frag.children ∧ 8 ∉ treeGroup.ready
    ∧ treeGroup.frag.children.all (fun c => (treeGroup.ready ++ [8]).contains c) = false
    ∧ treeGroup.frag.children.all (fun c => ([8] ++ [12]).contains c) = true
    ∧ (getGroup (after (.planReady 8 (request 0x44 0 0 60)) (withGroup treeGroup up)) 9).map (·.ready) = some [8]
    ∧ (getGroup (after (.planReady 12 (request 0x44 0 0 60)) (withGroup { treeGroup with ready := [8] } up)) 9).map (fun g => (g.state, g.now.epoch))
      = some (.active, 1) := by decide +kernel
def notice (epoch count cause : Nat) : Packet :=
  { okPkt with body := bytesBE 16 (groupBody 0x42 9 epoch noRank count 0 0 cause).toNat }
def newLeaf : Group := { leafGroup with state := .installing, readyAt := some 0, now := {} }
theorem test_epochNotice : planPort (withGroup newLeaf up) newLeaf 0 (notice 1 3 3) = newLeaf.frag.parent
    ∧ newLeaf.state = .installing ∧ 2 ≤ fld (notice 1 3 2).ctl 11 10
    ∧ (getGroup (after (.epochNotice 0 (notice 1 3 2)) (withGroup newLeaf up)) 9).map (fun g => (g.state, g.now.epoch, g.now.count)) = some (.active, 1, 3)
    ∧ takesChanges leafGroup = true := by decide +kernel
theorem test_planReadyResend : newLeaf.readyAt = some 0 ∧ 0 + 100000 ≤ (onTide (fun t => { t with now := 100000 }) (withGroup newLeaf up)).tide.now
    ∧ (after (.planReadyResend 9) (onTide (fun t => { t with now := 100000 }) (withGroup newLeaf up))).route.outbox.length = 1
    ∧ (after (.planReadyResend 9) (onTide (fun t => { t with now := 99999 }) (withGroup newLeaf up))).route.outbox.length = 0 := by decide +kernel

/-- R616: a command in order, its acknowledgement, its repeat; R488: GROUP_STORM on its way and at the root. -/
def cmdPkt (cmd seq : Nat) : Packet := { okPkt with body := bytesBE 16 (cmdBody 9 1 cmd 0 7 0 seq).toNat }
theorem test_groupCmd : 0 = leafGroup.frag.parent ∧ fld (cmdPkt 4 0).ctl 79 76 ≤ 4 ∧ leafGroup.heldCmds = [] ∧ fld (cmdPkt 0 0).ctl 42 27 = leafGroup.expectSeq
    ∧ (getGroup (after (.groupCmd 0 (cmdPkt 0 0)) (withGroup leafGroup up)) 9).map (fun g => (g.state, g.expectSeq)) = some (.quiescing, 1)
    ∧ ctrVal (after (.groupCmd 0 (cmdPkt 5 0)) (withGroup leafGroup up)) (kPort 0 iGRP_CTL_BAD) = 1 := by decide +kernel
def sentGroup : Group := { treeGroup with state := .active, sent := [⟨8, 0, 0, cmdPkt 0 0⟩] }
theorem test_groupCmdAck : (getGroup (after (.groupCmdAck 8 (cmdPkt 0 0)) (withGroup sentGroup up)) 9).map (·.sent) = some [] := by decide +kernel
theorem test_groupCmdResend : sentGroup.sent.find? (fun y => y.port == 8 && y.seq == 0) = some ⟨8, 0, 0, cmdPkt 0 0⟩
    ∧ (after (.groupCmdResend 9 8 0) (onTide (fun t => { t with now := 10000 }) (withGroup sentGroup up))).route.outbox.length = 1
    ∧ (after (.groupCmdResend 9 8 0) (onTide (fun t => { t with now := 9999 }) (withGroup sentGroup up))).route.outbox.length = 0 := by decide +kernel
def midGroup : Group := { leafGroup with frag := { leafFrag with children := [8] } }
theorem test_groupStorm : planPort (withGroup midGroup up) midGroup 8 (request 0x31 0 0 60) ∈ midGroup.frag.children
    ∧ (after (.groupStorm 8 (request 0x31 0 0 60)) (withGroup midGroup up)).route.outbox.length = 1
    ∧ sentGroup.frag.isRoot = true ∧ sentGroup.state = .active
    ∧ (getGroup (after (.groupStorm 8 (request 0x31 0 0 60)) (withGroup sentGroup up)) 9).map (·.state) = some .failed := by decide +kernel

/-- R76, R77: the ends of a group's waits. -/
def quiescing : Group := { rootGroup with state := .quiescing, quiescer := some (1, 0) }
theorem test_groupQuiesced : quiescing.state = .quiescing ∧ openCalls quiescing = []
    ∧ (getGroup (after (.groupQuiesced 9) (ready 0x23 9 (withGroup quiescing up))) 9).map (fun g => (g.state, g.quiescer)) = some (.quiesced, none)
    ∧ (getGroup (after (.groupQuiesced 9) (withGroup { quiescing with quiescer := none } up)) 9).map (·.state) = some .quiesced := by decide +kernel
def dying : Group := { rootGroup with state := .destroying, destroyTaken := true, destroyers := [(1, 0)] }
theorem test_groupDestroyDone : regsLive up = true ∧ dying.chunks = [] ∧ charge (withGroup dying up) (.group dying.entry) = 0
    ∧ getGroup (after (.groupDestroyDone 9) (ready 0x26 9 (withGroup dying up))) 9 = none
    ∧ (after (.groupDestroyDone 9) (ready 0x26 9 (withGroup dying up))).host.accepted = [] := by decide +kernel
/-- A table whose 16,384 entries are all in use. -/
def fullTable : State := { instState rootBytes with groups := (List.range 16384).reverse.map (fun e => (e + 100, { rootGroup with entry := e })) }
theorem sort_descending : ∀ n m, ((List.range n).reverse).foldl (fun acc x => insertBy id x acc) (List.range' n m) = List.range' 0 (n + m) := by
  intro n
  induction n with
  | zero => intro m; simp
  | succ n ih =>
    intro m
    rw [List.range_succ, List.reverse_append, List.foldl_append]
    have e : insertBy id n (List.range' (n + 1) m) = List.range' n (m + 1) := by
      cases m with
      | zero => rfl
      | succ m => simp [List.range'_succ, insertBy]
    simp only [List.reverse_singleton, List.foldl_cons, List.foldl_nil, e, ih]
    congr 1
    omega
theorem lowest_of_range : ∀ n k, lowestFree k (List.range' k n) = k + n := by
  intro n
  induction n with
  | zero => intro k; rfl
  | succ n ih =>
    intro k
    have := ih (k + 1)
    simp only [lowestFree, List.range'_succ, List.foldl_cons, if_true] at this ⊢
    omega
theorem test_groupInstall_full : freeEntry fullTable = none := by
  have h : (fullTable.groups.map (fun g => g.2.entry)) = (List.range 16384).reverse := by
    simp only [fullTable, List.map_map]
    exact (List.map_congr_left (fun x _ => rfl)).trans (List.map_id _)
  unfold freeEntry sortBy
  have s := sort_descending 16384 0
  simp only [List.range'_zero] at s
  rw [h, s]
  dsimp only
  rw [lowest_of_range]
  simp
/-! ## Reduction arithmetic: the examples of the spec -/

/-- Window integers meet R86's range at its end; the reserved codes come back from their bytes. -/
theorem test_window_codes : [Win.nan, .posInf, .negInf, .posSat, .negSat, .bothSat, .fin (2 ^ 63 - 4), .fin (-(2 ^ 63 - 4))].all
    (fun w => winOf false (winCode false w) == w) = true := by decide +kernel
/-- A partial of two inputs stands for them: the hypotheses of the statement on EXACT sums. -/
def sumPar : CallPar := { kind := 0, op := 0, mode := 0, wfmt := 0, estatic := 0, infmt := 3, outfmt := 3, staticE := 0, extSlot := 0 }
def inp (r : Nat) (src : Src) (d : List Byte) : Input := {
  src := src, rank := r, mism := noRank, hash := 5, job := 1, last := true, zero := false, root := noRank, port := 4, at_ := 0, data := d }
def one16 : List Byte := bytesLE 2 0x3F80
def childIn : Input := inp 2 (.child 8) (winBytes false (sumWins sumPar 0 [inp 2 (.member 2) one16, inp 3 (.member 3) one16]))
theorem test_exactSum_partial : sumWins sumPar 0 [inp 2 (.member 2) one16, inp 3 (.member 3) one16] = [.fin (2 ^ 41)]
    ∧ 2 ^ 41 ≤ 2 ^ (8 * winSize (parW96 sumPar) - 1) - 4
    ∧ sumWins sumPar 0 [childIn, inp 1 (.member 1) one16] = [.fin (3 * 2 ^ 40)] := by decide +kernel
theorem test_exactSum : childIn.src = .child 8 ∧ childIn.data = winBytes (parW96 sumPar) (sumWins sumPar 0 [inp 2 (.member 2) one16, inp 3 (.member 3) one16])
    ∧ (∀ v, Win.fin v ∈ sumWins sumPar 0 [inp 2 (.member 2) one16, inp 3 (.member 3) one16] → v.natAbs ≤ 2 ^ (8 * winSize (parW96 sumPar) - 1) - 4)
    ∧ [childIn, inp 1 (.member 1) one16].Perm ([inp 1 (.member 1) one16] ++ [childIn]) := by
  refine ⟨rfl, by decide +kernel, fun v hv => ?_, List.Perm.swap _ _ _⟩
  rw [test_exactSum_partial.1] at hv
  obtain rfl : v = 2 ^ 41 := by simpa using hv
  exact test_exactSum_partial.2.1
theorem test_orderedSum : [inp 2 (.member 2) one16, inp 1 (.member 1) one16].Perm [inp 1 (.member 1) one16, inp 2 (.member 2) one16]
    ∧ ([inp 2 (.member 2) one16, inp 1 (.member 1) one16].map (·.rank)).Nodup
    ∧ sumF32 { sumPar with mode := mORDERED } 8 [inp 2 (.member 2) one16, inp 1 (.member 1) one16] = [0x40000000] := by decide +kernel
/-- Conversion at the ends of a format: the least subnormal, -0, the greatest E4M3 value, an infinity. -/
theorem test_conversion : decodeF fmtFp32 1 ≠ .nan ∧ convF (decodeF fmtFp32 1) fmtFp32 = 1 ∧ convF (decodeF fmtBf16 0x8000) fmtBf16 = 0x8000
    ∧ convF (decodeF fmtE4M3 0x7E) fmtE4M3 = 0x7E ∧ convF (decodeF fmtFp16 0xFC00) fmtFp16 = 0xFC00 := by decide +kernel

/-! ## Chunks -/

/-- Two members, ranks 1 and 2 at ports 4 and 8; JOB 1 may use both ports. -/
def twoFrag : Fragment := { rootFrag with members := [(4, 1, 50), (8, 2, 51)] }
def two (root : Bool) (f : Group → Group) (s : State) : State :=
  let fr := if root then twoFrag else { twoFrag with isRoot := false, parent := 0 }
  { s with
    groups := [(9, f { entry := 0, state := .active, frag := fr, now := { epoch := 1, count := 2, admitted := [(4, 1, 50), (8, 2, 51)], roster := [(1, 50), (2, 51)] } })],
    mem := { s.mem with coves := [1], binds := [(4, { epid := 50, cove := 1, maxOut := 64 }), (8, { epid := 51, cove := 1, maxOut := 64 })], jobPorts := [(4, 1), (8, 1)] } }
def subPkt (par : CallPar) (phase rank piece : Nat) (last : Bool) (d : List Byte) : Packet :=
  { dataPkt vcCUP 0 1 (mkSub par 9 1 0 0 phase rank d.length (mkFlags last false false false piece) noRank 5) d with
    hdr := mkHdr 1 vcCUP 0 50 1 0 false (32 + d.length) }
def contrib (rank : Nat) : Packet := subPkt sumPar 0 rank 0 true one16
def group9 (s : State) : Group := (getGroup s 9).getD rootGroup
def chunk00 (s : State) : Option Chunk := findChunk (group9 s) 1 0 0
def collS : State := two true id up
theorem test_contribution : engineOn collS = true ∧ getGroup collS (scGroup (contrib 1).sub) = some (group9 collS)
    ∧ inputWaits 9 0 0 (deliveredAt collS 4 (contrib 1)) collS = false ∧ scResend (contrib 1).sub = false ∧ redelivering collS 4 = false
    ∧ (∀ k ∈ (group9 collS).chunks, k.slot = true)
    ∧ subCodesOk (contrib 1).sub = true ∧ scPhase (contrib 1).sub = 0 ∧ scPiece (contrib 1).sub = 0 ∧ refuseContribution collS 4 (contrib 1) = none
    ∧ findChunk (group9 collS) 1 0 0 = none ∧ isStale (group9 collS) 1 0 0 = false ∧ findCall (group9 collS) 1 0 = none ∧ reduces (parOf (contrib 1).sub) = true
    ∧ (group9 collS).passes = 1 ∧ slotsUsed (group9 collS) < (group9 collS).frag.chunkWindow
    ∧ (8, 2, 51) ∈ (rosterAt (group9 collS) 1).admitted
    ∧ (chunk00 (after (.contribution 4 (contrib 1)) collS)).map (fun k => (k.seen, k.slot, k.combined, k.inDeadline)) = some ([.member 1], true, false, some 1000)
    := by decide +kernel
def oneIn : State := after (.contribution 4 (contrib 1)) collS
theorem test_contribution_dropped : subCodesOk (subPkt sumPar 0 1 1 true one16).sub = true ∧ scPiece (subPkt sumPar 0 1 1 true one16).sub ≠ 0
    ∧ ctrVal (after (.contribution 4 (subPkt sumPar 0 1 1 true one16)) collS) (kPort 4 iPKT_MALFORMED) = 1
    ∧ refuseContribution collS 4 (contrib 2) = some (5, none) ∧ (after (.contribution 4 (contrib 2)) collS).route.outbox.length = 1
    ∧ (chunk00 oneIn).map (fun k => k.seen.contains (.member 1)) = some true
    ∧ ctrVal (after (.contribution 4 (contrib 1)) oneIn) (kGroup 0 iCOLL_DUP) = 1 := by decide +kernel
/-- R125: the pair data of an ALLTOALL goes on to its DST; R134: a RESEND waits for the re-delivery of its port. -/
def pairPkt : Packet :=
  { subPkt { sumPar with kind := 6 } 0 1 0 true one16 with body := bytesBE 32 (mkSub { sumPar with kind := 6 } 9 1 0 1 0 1 2 (mkFlags true false false false 0) noRank 5).toNat ++ one16 }
def toOther : Packet := pairPkt.setDst 51
def again : Packet := { contrib 1 with body := bytesBE 32 (mkSub sumPar 9 1 0 0 0 1 2 (mkFlags true false true false 0) noRank 5).toNat ++ one16 }
def redel : State := onShoal (fun h => { h with stored := [{ storedOne (.egress 4 2) { contrib 1 with hdr := mkHdr 0 vcCDN 50 0 1 0 false 0 } with port := 1024, again := true, owners := [ownQueue 4 2] }] })
  (onPort 4 (fun x => { x with queues := [(2, [(0, 0)])] }) collS)
theorem test_contribution_passedOn : (parOf toOther.sub).kind = 6 ∧ 0 < scChunk toOther.sub ∧ toOther.dst ≠ selfEpid collS
    ∧ refuseContribution collS 4 toOther = none ∧ (after (.contribution 4 toOther) collS).route.outbox = [toOther] := by decide +kernel
theorem test_contribution_waits : scResend again.sub = true ∧ redelivering redel 4 = true ∧ after (.contribution 4 again) redel = redel
    ∧ (let shut := onPwr (fun p => { p with rgns := modAt p.rgns 0 (fun x => { x with gated := true }) }) collS
       inputWaits 9 0 0 [] shut = true ∧ after (.contribution 4 (contrib 1)) shut = shut) := by decide +kernel
/-- Two members' ones make two at the root, which delivers it to both (R91 to R94, R120). -/
theorem test_contribution_sum : ((chunk00 (after (.contribution 8 (contrib 2)) oneIn)).map (fun k => (k.combined, k.result)))
    = some (true, [(0, bytesLE 2 0x4000)]) := by decide +kernel

/-- R115, R117: the first of two pieces of a child's partial; R120: a result piece from the parent. -/
def childG (root : Bool) (f : Group → Group) : State := two root (fun g => f { g with frag := { g.frag with children := [12], chunkSegs := 2 } }) up
def piece0 : Packet := subPkt sumPar 1 2 0 false (zeros 8)
theorem test_partialPiece : 12 ∈ (group9 (childG true id)).frag.children ∧ scPhase piece0.sub = 1 ∧ groupLive (group9 (childG true id)) = true
    ∧ subCodesOk piece0.sub = true ∧ scResend piece0.sub = false ∧ inputWaits 9 0 0 (deliveredAt (childG true id) 12 piece0) (childG true id) = false
    ∧ findChunk (group9 (childG true id)) 1 0 0 = none ∧ isStale (group9 (childG true id)) 1 0 0 = false ∧ (group9 (childG true id)).passes = 1
    ∧ endsChunk 2 (partSize (parOf piece0.sub)) 0 8 (scLast piece0.sub) = false
    ∧ (chunk00 (after (.partialPiece 12 piece0) (childG true id))).map (fun k => k.taking.map (fun t => (t.port, t.next, t.bytes.length)))
      = some [(12, 1, 8)] := by decide +kernel
def openK : Chunk := { epoch := 1, call := 0, chunk := 0, par := some sumPar, slot := true, job := 1, hash := 5 }
def withK (root : Bool) (k : Chunk) : State := childG root (fun g => { g with chunks := [k], calls := [{ epoch := 1, call := 0 }] })
def resPkt : Packet := subPkt sumPar 2 noRank 0 true (zeros 2)
theorem test_resultPiece : subCodesOk resPkt.sub = true ∧ scPhase resPkt.sub = 2 ∧ groupLive (group9 (withK false openK)) = true
    ∧ planPort (withK false openK) (group9 (withK false openK)) 0 resPkt = 0 ∧ (findCall (group9 (withK false openK)) 1 0).any (·.failed) = false
    ∧ chunk00 (withK false openK) = some openK ∧ scResend resPkt.sub = false ∧ scPiece resPkt.sub = openK.result.length
    ∧ (chunk00 (after (.resultPiece 0 resPkt) (withK false openK))).map (fun k => (k.result, k.resultWhole)) = some ([(0, zeros 2)], true) := by decide +kernel

/-- R113, R119: EXP_UP, EXP_DOWN and MISSING of a chunk whose members have not all contributed. -/
def chunkCtl (ctype low aux : Nat) : Packet := { okPkt with hdr := mkHdr 0 vcCTRL 0 0 1 0 false aux, body := bytesBE 16 (chunkBody ctype 9 1 0 0 low).toNat }
theorem test_expUp : engineOn (withK true openK) = true ∧ groupLive (group9 (withK true openK)) = true ∧ membersIn (group9 (withK true openK)) openK = false
    ∧ planPort (withK true openK) (group9 (withK true openK)) 12 (chunkCtl 0x47 (expWord (some (-3))) 0) = 12 ∧ openK.par.map reduces ≠ some false
    ∧ (chunk00 (after (.expUp 12 (chunkCtl 0x47 (expWord (some (-3))) 0)) (withK true openK))).map (·.exps) = some [(12, some (-3))]
    ∧ (chunk00 (after (.expUp 12 (chunkCtl 0x47 (expWord none) 0)) (withK true openK))).map (·.exps) = some [(12, none)] := by decide +kernel
theorem test_expDown : planPort (withK false openK) (group9 (withK false openK)) 0 (chunkCtl 0x48 (expWord (some 127)) 0) = 0 ∧ openK.exp = none
    ∧ (chunk00 (after (.expDown 0 (chunkCtl 0x48 (expWord (some 127)) 0)) (withK false openK))).map (·.exp) = some (some 127) := by decide +kernel
def lastBit : Nat := 2 ^ 17
theorem test_missing : ccLast (chunkCtl 0x4E 0 2).ctl = false ∧ ccLast (chunkCtl 0x4E lastBit 2).ctl = true ∧ ccDeliv (chunkCtl 0x4E lastBit 2).ctl = openK.deliv
    ∧ (chunk00 (after (.missing 12 (chunkCtl 0x4E 0 2)) (withK true openK))).map (·.missingIn) = some [(12, 2)]
    ∧ (chunk00 (after (.missing 12 (chunkCtl 0x4E lastBit 2)) (withK true openK))).map (·.missingRack) = some [(12, 2)] := by decide +kernel

/-- R117, R121, R127, R128, R133: PACK, RACK, SEAL, REVOKE and the end of a chunk's record. -/
def sentK : Chunk := { openK with combined := true, unacked := [{ rank := noRank, pkt := okPkt, at_ := 0 }] }
theorem test_pack : (chunkCtl 0x4B 0 noRank).aux % 2 ^ 18 = noRank ∧ sentK.unacked.any (fun x => x.rank == noRank) = true
    ∧ (group9 (withK false sentK)).chunks.all (fun x => x.slot && x.combined) = true
    ∧ (chunk00 (after (.pack 0 (chunkCtl 0x4B 0 noRank)) (withK false sentK))).map (fun k => (k.unacked, k.slot)) = some ([], false) := by decide +kernel
def outK : Chunk := { openK with combined := true, result := [(0, zeros 2)], resultWhole := true, resultAt := some 0, racked := [.member 1, .member 2] }
theorem test_rack : downSrc (group9 (withK true outK)) 1 12 = some (.child 12) ∧ Src.child 12 ∈ downSrcs (group9 (withK true outK)) outK
    ∧ downSrcs (group9 (withK true outK)) outK = [.child 12, .member 1, .member 2]
    ∧ (chunk00 (after (.rack 12 (chunkCtl 0x4C 0 0)) (withK true outK))).map (fun k => (k.sealDue, k.rackDeadline)) = some (true, none)
    ∧ (chunk00 (after (.rack 12 (chunkCtl 0x4C 0 0)) (withK false outK))).map (fun k => (k.rackSent, k.result)) = some (true, [])
    ∧ (chunk00 (sealNow (group9 (withK true outK)) outK (withK true outK))).map (fun k => (k.sealed, k.slot)) = some (true, false) := by decide +kernel
theorem test_sealPkt : bitAt (chunkCtl 0x49 0 0).ctl 22 = false ∧ ccDeliv (chunkCtl 0x49 0 0).ctl = outK.deliv
    ∧ (chunk00 (after (.sealPkt 0 (chunkCtl 0x49 0 0)) (withK false outK))).map (fun k => (k.sealed, k.result)) = some (true, []) := by decide +kernel
theorem test_revoke : outK.deliv < ccDeliv (chunkCtl 0x4A (2 ^ 18) 0).ctl
    ∧ (chunk00 (after (.revoke 0 (chunkCtl 0x4A (2 ^ 18) 0)) (withK false outK))).map (fun k => (k.deliv, k.racked, k.recovered)) = some (1, [], true) := by decide +kernel
def later (n : Nat) (s : State) : State := onTide (fun t => { t with now := n }) s
theorem test_chunkBitmapExpiry : chunk00 (withK true { openK with sealed := true }) = some { openK with sealed := true }
    ∧ 0 + 200000 ≤ (later 200000 (withK true { openK with sealed := true })).tide.now
    ∧ chunk00 (after (.chunkBitmapExpiry 9 1 0 0) (later 200000 (withK true { openK with sealed := true }))) = none := by decide +kernel

/-- R119, R126, R127, R131: NAKs and waits that time out. -/
theorem test_nak : (group9 (withK false outK)).frag.group = 9 ∧ ccLast (chunkCtl 0x4D lastBit 0).ctl = true ∧ ccLast (chunkCtl 0x4D 0 0).ctl = false
    ∧ downSrc (group9 (withK false outK)) 1 12 ≠ none
    ∧ (after (.nak 12 (chunkCtl 0x4D lastBit 0)) (withK false outK)).route.outbox.length = 1
    ∧ (chunk00 (after (.nak 12 (chunkCtl 0x4D lastBit 0)) (withK true outK))).map (fun k => (k.deliv, k.racked, k.recovered)) = some (1, [], true)
    ∧ (after (.nak 0 (chunkCtl 0x4D 0 0)) (withK false sentK)).route.outbox.length = 1 := by decide +kernel
theorem test_partialResendTimeout : sentK.unacked ≠ [] ∧ (∀ x ∈ sentK.unacked, x.at_ + 12000 ≤ (later 12000 (withK false sentK)).tide.now)
    ∧ (after (.partialResendTimeout 9 1 0 0) (later 12000 (withK false sentK))).route.outbox.length = 1 := by decide +kernel
def dueK : Chunk := { openK with inDeadline := some 1000 }
theorem test_chunkWaitTimeout : dueK.inDeadline = some 1000 ∧ dueK.combined = false ∧ inputsMissing (group9 (withK false dueK)) dueK = true
    ∧ callFailed (group9 (after (.chunkWaitTimeout 9 1 0 0) (later 1000 (withK true dueK)))) 1 0 = true
    ∧ (after (.chunkWaitTimeout 9 1 0 0) (later 1000 (withK false dueK))).route.outbox.length = 1 := by decide +kernel
def rackK : Chunk := { outK with racked := [.member 1], rackDeadline := some 1000 }
theorem test_rackWaitTimeout : rackK.rackDeadline = some 1000 ∧ Src.member 2 ∈ downSrcs (group9 (withK true rackK)) rackK ∧ Src.member 2 ∉ rackK.racked
    ∧ callFailed (group9 (after (.rackWaitTimeout 9 1 0 0) (later 1000 (withK true rackK)))) 1 0 = true
    ∧ (after (.rackWaitTimeout 9 1 0 0) (later 1000 (withK false rackK))).route.outbox.length = 1 := by decide +kernel
/-! ## Embedding tables -/

/-- Table 3 on CD0: four fp32 rows of 16 elements, SGD at learning rate 1, two shadow rows, owner 50. Row 1 stands on the odd
stack (R147). -/
def tabRec : TableRec := {
  table := 3, cove := 1, rfmt := 5, imode := 0, dim := 16, die := 0, paMask := 1, rows := 4, seed := 0, shadowRows := 2, gw96 := false,
  master := false, opt := 1, rpShare := 4, gradE := 0, owner := some 50, firstStep := 1, lr := 0x3F800000, mu := 0, beta1 := 0, beta2 := 0,
  eps := 0, wd := 0, p1 := 0, p2 := 0 }
def tab0 : Table := { info := tabRec, state := .loading, applied := 0, bytes := tableHbm tabRec }
def tabOn : Table := { tab0 with state := .active, space0 := [(2 ^ 52 + 2, 0x80), (2 ^ 52 + 3, 0x3F)] }
def withTab (t : Table) (s : State) : State :=
  { s with
    emb := { s.emb with tables := [(3, t)] },
    mem := { s.mem with coves := [1], binds := [(4, { epid := 50, cove := 1, maxOut := 64 })], jobPorts := [(4, 1)] } }
def tab3 (s : State) : Table := (getTable s 3).getD tab0
def tabOp (len : Nat) : BitVec 384 := pack 384 [(64, 0x40), (32, len), (272, 0), (16, 3)]
def rowOp (first n sp : Nat) : BitVec 384 := pack 384 [(64, 0x40), (32, 64 * n), (96, 0), (40, first), (32, n), (2, sp), (102, 0), (16, 3)]

/-- R143, R179: a record that installs, one of another table, one of a Cove that does not exist. -/
def recState : State := ready 0x38 (tabOp 128) (coved 1 up)
theorem test_tableInstall : Ready recState 1 0 0x38 (descOf 0x38 (tabOp 128)) ∧ onlyBits (tabOp 128) [(383, 320), (319, 288), (15, 0)] = true
    ∧ recOf (recBytes tabRec 0) = tabRec ∧ recOk recState tabRec (recBytes tabRec 0) = true ∧ recState.mem.coves.contains 1 = true
    ∧ coveAllowed recState 0 1 = true ∧ coveAllowed recState 5 1 = false ∧ getTable recState 3 = none ∧ tableMust recState (tabOp 128) = false
    ∧ hbmFits (onEmb (fun e => { e with tables := mput e.tables 3 tab0 }) recState) = true
    ∧ getTable (after (.tableInstall 1 0 (recBytes tabRec 0)) recState) 3 = some tab0 := by decide +kernel
def hugeRec : TableRec := { tabRec with rows := 2 ^ 40 }
theorem test_tableInstall_refused : firstStatus (after (.tableInstall 1 0 (recBytes { tabRec with table := 4 } 0)) recState) = 9
    ∧ recOk recState hugeRec (recBytes hugeRec 0) = true
    ∧ firstStatus (after (.tableInstall 1 0 (recBytes hugeRec 0)) recState) = 8 := by decide +kernel
/-- R158, R159: one shard of four rows at endpoint 0. -/
def mapBytes : List Byte := bytesLE 4 0x4B51534D ++ bytesLE 2 7 ++ bytesLE 1 0 ++ bytesLE 1 0 ++ bytesLE 2 16 ++ bytesLE 2 1 ++ bytesLE 2 1
  ++ bytesLE 2 0 ++ bytesLE 8 4 ++ bytesLE 8 0 ++ bytesLE 8 0 ++ bytesLE 4 9 ++ bytesLE 2 3 ++ bytesLE 2 0
def mapOp : BitVec 384 := pack 384 [(64, 0x40), (32, 48), (288, 0)]
def mapState : State := onRoute (fun r => { r with eps := [(9, 0x80000000), (0, 0x80000000)] }) (ready 0x40 mapOp (coved 1 up))
theorem test_shardMap : Ready mapState 1 0 0x40 (descOf 0x40 mapOp) ∧ mapMust mapState 7 = false ∧ leAt mapBytes 4 2 = 7
    ∧ mapOk mapState mapBytes 48 = true ∧ firstStatus (after (.shardMap 1 0 mapBytes) mapState) = 0
    ∧ (after (.shardMap 1 0 mapBytes) mapState).emb.maps.map (fun e => (e.1, e.2.shards)) = [(7, [(0, 9, 3)])]
    ∧ firstStatus (after (.shardMap 1 0 (zeros 48)) mapState) = 9 := by decide +kernel

/-- R165, R180: rows move in LOADING. -/
def oneRow : List Byte := bytesLE 4 0x3F800000 ++ zeros 60
theorem test_tableWrite : getTable (ready 0x39 (rowOp 1 1 0) (withTab tab0 up)) 3 = some tab0
    ∧ Ready (ready 0x39 (rowOp 1 1 0) (withTab tab0 up)) 1 0 0x39 (descOf 0x39 (rowOp 1 1 0))
    ∧ onlyBits (rowOp 1 1 0) [(15, 0), (383, 320), (319, 288), (191, 152), (151, 120), (119, 118)] = true
    ∧ atRest tab0 = true ∧ atRest tabOn = false ∧ rowsOk tab0 (rowOp 3 1 0) = true ∧ rowsOk tab0 (rowOp 4 1 0) = false ∧ rowsOk tab0 (rowOp 1 1 1) = false
    ∧ rowBytes (tab3 (after (.tableWrite 1 0 oneRow) (ready 0x39 (rowOp 1 1 0) (withTab tab0 up)))) 0 1 = oneRow
    ∧ firstStatus (after (.tableWrite 1 0 oneRow) (ready 0x39 (rowOp 1 1 0) (withTab tabOn up))) = 11 := by decide +kernel
theorem test_tableRead : Ready (ready 0x3A (rowOp 1 1 0) (withTab tab0 up)) 1 0 0x3A (descOf 0x3A (rowOp 1 1 0))
    ∧ memReadN (hostMem (after (.tableRead 1 0) (ready 0x3A (rowOp 1 1 0) (withTab { tabOn with state := .quiesced } up))) 0) 0x40 64
      = [0, 0, 0x80, 0x3F] ++ zeros 60
    ∧ firstStatus (after (.tableRead 1 0) (ready 0x3A (rowOp 4 1 0) (withTab tab0 up))) = 9 := by decide +kernel
theorem test_tableQuery : Ready (ready 0x41 (tabOp 128) (withTab tab0 up)) 1 0 0x41 (descOf 0x41 (tabOp 128))
    ∧ onlyBits (tabOp 128) [(15, 0), (383, 320), (319, 288)] = true
    ∧ memReadN (hostMem (after (.tableQuery 1 0) (ready 0x41 (tabOp 128) (withTab { tab0 with applied := 7 } up))) 0) 0x40 128 = recBytes tabRec 7
    ∧ firstStatus (after (.tableQuery 1 0) (ready 0x41 (tabOp 127) (withTab tab0 up))) = 9 := by decide +kernel

/-- R178, R182. -/
def tabIdOp : BitVec 384 := 3
theorem test_tableSet : Ready (ready 0x3C (tabOp 128) (withTab tab0 up)) 1 0 0x3C (descOf 0x3C (tabOp 128))
    ∧ tableMust (ready 0x3C (tabOp 128) (withTab tab0 up)) (tabOp 128) = false
    ∧ ((tab3 (after (.tableSet 1 0 (recBytes { tabRec with lr := 0x40000000, rows := 9 } 0)) (ready 0x3C (tabOp 128) (withTab tab0 up)))).info.lr,
       (tab3 (after (.tableSet 1 0 (recBytes { tabRec with lr := 0x40000000, rows := 9 } 0)) (ready 0x3C (tabOp 128) (withTab tab0 up)))).info.rows)
      = (0x40000000, 4)
    ∧ firstStatus (after (.tableSet 1 0 (recBytes { tabRec with rpShare := 65 } 0)) (ready 0x3C (tabOp 128) (withTab tab0 up))) = 9 := by decide +kernel
theorem test_tableQuiesce : Ready (ready 0x3D tabIdOp (withTab tabOn up)) 1 0 0x3D (descOf 0x3D tabIdOp) ∧ onlyBits tabIdOp [(15, 0)] = true
    ∧ tableMust (ready 0x3D tabIdOp (withTab tabOn up)) tabIdOp = false
    ∧ tab3 (after (.tableQuiesce 1 0) (ready 0x3D tabIdOp (withTab tabOn up))) = { tabOn with state := .quiescing, quiescer := some (1, 0) }
    ∧ firstStatus (after (.tableQuiesce 1 0) (ready 0x3D tabIdOp (withTab tab0 up))) = 11 := by decide +kernel
theorem test_tableResume : Ready (ready 0x3E tabIdOp (withTab tab0 up)) 1 0 0x3E (descOf 0x3E tabIdOp) ∧ tab0.sched = none
    ∧ (tab3 (after (.tableResume 1 0) (ready 0x3E tabIdOp (withTab tab0 up)))).state = .active
    ∧ firstStatus (after (.tableResume 1 0) (ready 0x3E tabIdOp (withTab tabOn up))) = 11 := by decide +kernel
theorem test_tableDestroy : Ready (ready 0x3F tabIdOp (withTab tabOn up)) 1 0 0x3F (descOf 0x3F tabIdOp) ∧ tabOn.state ≠ .destroying
    ∧ tabOn.quiescer ≠ some (1, 0)
    ∧ tab3 (after (.tableDestroy 1 0) (ready 0x3F tabIdOp (withTab tabOn up))) = { tabOn with state := .destroying, destroyers := [(1, 0)] }
    ∧ (tab3 (after (.tableDestroy 1 0) (ready 0x3F tabIdOp (withTab { tabOn with sched := some { step := 1, mark := 0, begun := true } } up)))).sched
      = some { step := 1, mark := 0, begun := true } := by decide +kernel
def quiTab (q : Option (Nat × Nat)) : State := withTab { tabOn with state := .quiescing, quiescer := q } up
def dyingTab : State := withTab { tabOn with state := .destroying, destroyers := [(1, 0)] } up
theorem test_tableQuiesced : regsLive (quiTab none) = true ∧ tableQuiet (quiTab none) (tab3 (quiTab none)) = true
    ∧ (tab3 (quiTab (some (1, 0)))).quiescer = some (1, 0)
    ∧ (tab3 (after (.tableQuiesced 3) (quiTab (some (1, 0))))).state = .quiesced
    ∧ (tab3 (after (.tableQuiesced 3) (quiTab none))).state = .quiesced := by decide +kernel
theorem test_tableDestroyDone : tableQuiet dyingTab (tab3 dyingTab) = true ∧ (tab3 dyingTab).state = .destroying
    ∧ getTable (after (.tableDestroyDone 3) dyingTab) 3 = none := by decide +kernel

/-- R172 to R175: an apply asked for ahead of its Tidemark, and one at it. -/
def applyOp (step mark : Nat) : BitVec 384 := pack 384 [(96, 0), (32, step), (64, mark), (176, 0), (16, 3)]
theorem test_tableApply : Ready (ready 0x3B (applyOp 1 100) (withTab tabOn up)) 1 0 0x3B (descOf 0x3B (applyOp 1 100))
    ∧ onlyBits (applyOp 1 100) [(15, 0), (287, 256), (255, 192)] = true ∧ applyBad tabOn 1 = false ∧ applyBad tabOn 2 = true
    ∧ up.tide.now < fld (applyOp 1 100) 255 192
    ∧ (tab3 (after (.tableApply 1 0) (ready 0x3B (applyOp 1 100) (withTab tabOn up)))).sched = some { step := 1, mark := 100, desc := some (1, 0) }
    ∧ firstStatus (after (.tableApply 1 0) (ready 0x3B (applyOp 2 100) (withTab tabOn up))) = 9
    ∧ firstStatus (after (.tableApply 1 0) (ready 0x3B (applyOp 1 100) (withTab tab0 up))) = 11 := by decide +kernel
def applyPkt : Packet := { okPkt with hdr := mkHdr 0 vcCTRL 0 50 1 0 false 0, body := bytesBE 16 (pack 128 [(8, 0x52), (16, 3), (32, 1), (64, 100), (8, 0)]).toNat }
theorem test_applyReq : engineOn (withTab tabOn up) = true ∧ bindOf (withTab tabOn up) 4 ≠ none ∧ ecTable applyPkt.ctl = 3
    ∧ tabOn.info.owner = some applyPkt.src ∧ applyBad tabOn (ecStep applyPkt.ctl) = false ∧ (withTab tabOn up).tide.now < fld applyPkt.ctl 71 8
    ∧ (tab3 (after (.applyReq 4 applyPkt) (withTab tabOn up))).sched = some { step := 1, mark := 100, job := 1 } := by decide +kernel
def schedTab (o : Bool) : Table := { tabOn with
  overflowed := o, shadow := [(1, .fin (2 ^ 40) :: List.replicate 15 (.fin 0))], sched := some { step := 1, mark := 0 } }
def shardOne : ShardBag := { src := 60, stream := { src := 60, sub := embBits { kind := ekSUB_BAG, pool := 0, table := 3, step := 1, bag := 0, nidx := 0, ntot := 0, dim := 16 } 0 true, job := 1, next := 1, bytes := [], port := 4 }, rows := [] }
theorem test_tableApplyTidemark : paReady (withTab (schedTab false) up) 3 = true ∧ hasShardBags (withTab (schedTab false) up) 3 = false
    ∧ hasShardBags (onEmb (fun e => { e with shardBags := [shardOne] }) (withTab (schedTab false) up)) 3 = true
    ∧ (tab3 (after (.tableApplyTidemark 3) (onEmb (fun e => { e with shardBags := [shardOne] }) (withTab (schedTab false) up)))).sched
      = some { step := 1, mark := 0, begun := true, hyper := some tabRec }
    ∧ (tab3 (after (.tableApplyTidemark 3) (withTab (schedTab false) up))).applied = 1
    ∧ (tab3 (after (.tableApplyTidemark 3) (withTab (schedTab true) up))).space0 = tabOn.space0 := by decide +kernel
/-- The row's first element was 1 and the gradient is 1: at learning rate 1 the row is all zeros (R175, R176). -/
theorem test_apply_updatesRow : rowBytes (tab3 (after (.tableApplyTidemark 3) (withTab (schedTab false) up))) 0 1 = zeros 64 := by decide +kernel

/-- R149 to R156: a BAG of rows 1 and 1 in one packet. -/
def embP (h : EmbHdr) (last : Bool) (piece : Nat) (d : List Byte) : Packet :=
  { hdr := mkHdr 1 vcEMB 0 50 1 0 false (32 + d.length), body := bytesBE 32 (embBits h piece last).toNat ++ d }
def bagHdr : EmbHdr := { kind := ekBAG, pool := 0, vfmt := 5, table := 3, step := 1, bag := 0, nidx := 2, ntot := 2, dim := 16 }
def bagP (i j step : Nat) : Packet := embP { bagHdr with step := step } true 0 (bytesLE 4 i ++ bytesLE 4 j)
def serving : State := withTab tabOn up
theorem test_bag : engineOn serving = true ∧ emCodesOk (bagP 1 1 1).sub = true ∧ emKind (bagP 1 1 1).sub = ekBAG ∧ emSplit (bagP 1 1 1).sub = false
    ∧ portDenies serving 4 (bagP 1 1 1) = false ∧ (bagP 1 1 1).dst = selfEpid serving ∧ paReady serving 3 = true ∧ embFits serving 0 [] = true
    ∧ deliveredAt serving 4 (bagP 1 1 1) = [] ∧ emPiece (bagP 1 1 1).sub = 0 ∧ emLast (bagP 1 1 1).sub = true ∧ serving.emb.streams = []
    ∧ coveOf serving 4 (bagP 1 1 1) = tabOn.info.cove ∧ (bagP 1 1 1).data.length = emLen (bagP 1 1 1).sub
    ∧ admission tabOn 1 = .pass ∧ admission tabOn 0 = .refuse 0x03 ∧ admission tabOn 2 = .refuse 0x0B
    ∧ allSome ((emIndices (bagP 1 1 1).sub (bagP 1 1 1).data).map (Machine.translate 0 4 0)) = some [1, 1]
    ∧ allSome ((emIndices (bagP 1 4 1).sub (bagP 1 4 1).data).map (Machine.translate 0 4 0)) = none
    ∧ poolBag tabRec (bagP 1 1 1).sub (bagTerms tabRec [rowBytes tabOn 0 1, rowBytes tabOn 0 1] none) = 0x40000000 :: List.replicate 15 0 := by decide +kernel
/-- The last packet originated, and its status under EMB_FAIL. -/
def lastOut (s : State) : Packet := s.route.outbox.getLastD okPkt
theorem test_bag_answers : ((lastOut (after (.bag 4 (bagP 1 1 1)) serving)).data.take 4, emKind (lastOut (after (.bag 4 (bagP 1 1 1)) serving)).sub)
      = (bytesLE 4 0x40000000, ekPOOLED)
    ∧ fld (lastOut (after (.bag 4 (bagP 1 4 1)) serving)).ctl 39 32 = 9
    ∧ fld (lastOut (after (.bag 4 (bagP 1 1 0)) serving)).ctl 39 32 = 3
    ∧ fld (lastOut (after (.bag 4 (bagP 1 1 1)) (withTab tab0 up))).ctl 39 32 = 11
    ∧ fld (lastOut (after (.bag 4 (bagP 1 1 1)) (withTab { tabOn with info := { tabRec with cove := 2 } } up))).ctl 39 32 = 5
    ∧ fld (lastOut (after (.bag 4 (bagP 1 1 1)) (withTab { tabOn with info := { tabRec with dim := 32 } } up))).ctl 39 32 = 9 := by decide +kernel

/-- R166 to R170: a GRAD for rows 1 and 2, its repetition, and a shadow pool without room. -/
def gradP (k : Nat) : Packet := embP { bagHdr with kind := k } true 0 (oneRow ++ bytesLE 4 1 ++ bytesLE 4 2)
def marked : Table := { tabOn with windows := [{ src := 50, base := 1, marks := [(0, 0)] }] }
def fullPool : Table := { tabOn with info := { tabRec with shadowRows := 1 } }
theorem test_grad : emCodesOk (gradP ekGRAD).sub = true ∧ emKind (gradP ekGRAD).sub = ekGRAD ∧ (gradP ekGRAD).data.length = emLen (gradP ekGRAD).sub
    ∧ (bagWin tabOn 50).marks = [] ∧ 0 < (bagWin tabOn 50).base + 256
    ∧ (tab3 (after (.grad 4 (gradP ekGRAD)) serving)).shadow.map (fun e => (e.1, e.2.headD .nan)) = [(1, .fin (2 ^ 40)), (2, .fin (2 ^ 40))]
    ∧ (tab3 (after (.grad 4 (gradP ekGRAD)) serving)).windows = [{ src := 50, base := 1, marks := [(0, 0)] }] := by decide +kernel
theorem test_grad_again : (bagWin marked 50).marks.find? (fun m => m.1 == 0) = some (0, 0)
    ∧ (tab3 (after (.grad 4 (gradP ekGRAD)) (withTab marked up))).shadow = []
    ∧ (tab3 (after (.grad 4 (gradP ekGRAD)) (withTab fullPool up))).overflowed = true
    ∧ fld (lastOut (after (.grad 4 (gradP ekGRAD)) (withTab fullPool up))).ctl 39 32 = 8 := by decide +kernel
theorem test_subGrad : emCodesOk (gradP ekSUB_GRAD).sub = true ∧ emKind (gradP ekSUB_GRAD).sub = ekSUB_GRAD
    ∧ fld (lastOut (after (.subGrad 4 (gradP ekSUB_GRAD)) serving)).ctl 127 120 = 0x50 := by decide +kernel

/-! ## SPLIT bags -/

/-- Logical table 7: rows 0 and 1 at endpoint 9, table 3; rows 2 and 3 at endpoint 10, table 4. -/
def map7 : ShardMap := { ltid := 7, imode := 0, dim := 16, cove := 1, lrows := 4, seed := 0, shards := [(0, 9, 3), (2, 10, 4)] }
def atHome : State := onEmb (fun e => { e with maps := [(7, map7)] }) serving
def splitP (k : Nat) (d : List Byte) : Packet :=
  let b := setFld (embBits { bagHdr with kind := k, table := 7 } 0 true) 243 243 1
  { hdr := mkHdr 1 vcEMB 0 50 1 0 false (32 + d.length), body := bytesBE 32 b.toNat ++ d }
def splitBagP : Packet := splitP ekBAG (bytesLE 4 3 ++ bytesLE 4 0)
def splitGradP : Packet := splitP ekGRAD (oneRow ++ bytesLE 4 3 ++ bytesLE 4 2)
def homeOf (s : State) (grad : Bool) : Option HomeBag := findHome s 50 grad 7 1 0
theorem test_splitBag : emCodesOk splitBagP.sub = true ∧ emSplit splitBagP.sub = true ∧ emKind splitBagP.sub = ekBAG ∧ emLast splitBagP.sub = true
    ∧ engineOn atHome = true ∧ portDenies atHome 4 splitBagP = false ∧ findHome atHome 50 false (emTable splitBagP.sub) (emStep splitBagP.sub) (emBag splitBagP.sub) = none
    ∧ coveOf atHome 4 splitBagP = map7.cove ∧ splitBagP.data.length = emLen splitBagP.sub ∧ emPiece splitBagP.sub = 0
    ∧ allSome ((emIndices splitBagP.sub splitBagP.data).map (Machine.translate 0 4 0)) = some [3, 0]
    ∧ embFits atHome (splitDie atHome 4 splitBagP) (deliveredAt atHome 4 splitBagP) = true ∧ atHome.emb.streams = []
    ∧ splitBagP.dst = selfEpid atHome ∧ emDim splitBagP.sub = map7.dim ∧ emNidx splitBagP.sub ≤ 4096
    ∧ embUsed (gather (splitDie atHome 4 splitBagP) 50 1 4 splitBagP [] (takeDelivered 4 splitBagP atHome)).1 (dieOf 4) + 2 * subRoom 16 false ≤ atHome.shoal.cfg.embRes * 256
    ∧ (homeOf (after (.splitBag 4 splitBagP) atHome) false).map (fun h => h.works.map (fun w => (w.shard, w.positions))) = some [(0, [1]), (1, [0])]
    ∧ (after (.splitBag 4 splitBagP) atHome).route.outbox.map (fun p => emTable p.sub) = [3, 4] := by decide +kernel
theorem test_splitGrad : map7.shards.all (fun e => subGradRoom atHome e (emStep splitGradP.sub)) = true ∧ emCodesOk splitGradP.sub = true ∧ emKind splitGradP.sub = ekGRAD ∧ emPool splitGradP.sub ≠ poMAX
    ∧ emBag splitGradP.sub < (homeWin atHome 7 1 50).base + 256 ∧ (homeWin atHome 7 1 50).marks = [] ∧ splitGradP.data.length = emLen splitGradP.sub
    ∧ (homeOf (after (.splitGrad 4 splitGradP) atHome) true).map (fun h => h.works.map (fun w => (w.shard, w.positions))) = some [(1, [0, 1])] := by decide +kernel

/-- R160: a SUB_BAG under MAX and one under SUM; EXP_DOWN_E. -/
def subBagP (pool : Nat) : Packet := embP { bagHdr with kind := ekSUB_BAG, vfmt := 0, pool := pool } true 0 (bytesLE 4 1 ++ bytesLE 4 1)
def downE (e : Int) : Packet := { okPkt with hdr := mkHdr 0 vcEMB 0 50 1 0 false 0, body := (embCtl 0x54 3 1 0 0 (some e) false false 0 1).body }
def keeping : State := after (.subBag 4 (subBagP poSUM)) serving
theorem test_subBag : emCodesOk (subBagP poSUM).sub = true ∧ emCodesOk (subBagP poMAX).sub = true ∧ emPool (subBagP poMAX).sub = poMAX
    ∧ emKind (subBagP poSUM).sub = ekSUB_BAG ∧ emPool (subBagP poSUM).sub ≠ poMAX ∧ (subBagP poSUM).data.length = emLen (subBagP poSUM).sub
    ∧ serving.emb.shardBags = [] ∧ emKind (lastOut (after (.subBag 4 (subBagP poMAX)) serving)).sub = ekSUB_POOLED
    ∧ fld (lastOut keeping).ctl 127 120 = 0x53 ∧ keeping.emb.shardBags.map (fun x => x.rows.length) = [2] := by decide +kernel
theorem test_expDownE : engineOn keeping = true ∧ (tab3 keeping).sched = none
    ∧ keeping.emb.shardBags.any (fun x => x.src == (downE 1).src && emTable x.stream.sub == ecTable (downE 1).ctl
        && emStep x.stream.sub == ecStep (downE 1).ctl && emBag x.stream.sub == ecBag (downE 1).ctl) = true
    ∧ (after (.expDownE 4 (downE 1)) keeping).emb.shardBags = []
    ∧ (winsOf false (lastOut (after (.expDownE 4 (downE 1)) keeping)).data).headD .nan = .fin (2 ^ 40) := by decide +kernel

/-- R160 to R162, R171: the answers of the two shards. -/
def twoParts (grad : Bool) (f : SubWork → SubWork) : State :=
  let mk (k : Nat) : SubWork := { shard := k, positions := [k], subId := 5, pkts := [okPkt], sentAt := 0 }
  onEmb (fun e => { e with homes := [{
    src := 50, ltid := 7, step := 1, bag := 0, isGrad := grad, sub := splitBagP.sub, job := 1, n := 2, shards := [(0, 9, 3), (2, 10, 4)],
    works := [f (mk 0), mk 1] }] }) serving
def fromShard (src table ctype aux : Nat) : Packet :=
  { okPkt with hdr := mkHdr 0 vcCTRL 0 src 1 0 false 0, body := bytesBE 16 (pack 128 [(8, ctype), (16, table), (32, 1), (32, 5), (8, 7), (12, aux), (20, 0)]).toNat }
def homes (s : State) : List HomeBag := s.emb.homes
theorem test_expUpE : (findWork (twoParts false id) 9 3 1 5).map (fun x => x.2.shard) = some 0
    ∧ (homes (after (.expUpE 4 (fromShard 9 3 0x53 3)) (twoParts false id))).map (fun h => (h.expSent, h.works.map (·.exp))) = [(false, [some (some 3), none])]
    ∧ (homes (after (.expUpE 4 (fromShard 10 4 0x53 2)) (twoParts false (fun w => { w with exp := some (some 3) })))).map (fun h => (h.expSent, homeExp h))
      = [(true, 3)]
    ∧ (after (.expUpE 4 (fromShard 10 4 0x53 2)) (twoParts false (fun w => { w with exp := some (some 3) }))).route.outbox.length = 2 := by decide +kernel
theorem test_gradAck : (findWork (twoParts true id) 10 4 1 5).map (fun x => (x.1.isGrad, x.2.acked)) = some (true, false)
    ∧ (homes (after (.gradAck 4 (fromShard 10 4 0x50 0)) (twoParts true id))).map (fun h => h.works.map (·.acked)) = [[false, true]]
    ∧ homes (after (.gradAck 4 (fromShard 10 4 0x50 0)) (twoParts true (fun w => { w with acked := true }))) = []
    ∧ fld (lastOut (after (.gradAck 4 (fromShard 10 4 0x50 0)) (twoParts true (fun w => { w with acked := true })))).ctl 127 120 = 0x50 := by decide +kernel
theorem test_embFail : homes (after (.embFail 4 (fromShard 10 4 0x51 0)) (twoParts false id)) = []
    ∧ fld (lastOut (after (.embFail 4 (fromShard 10 4 0x51 0)) (twoParts false id))).ctl 39 32 = 7 := by decide +kernel
def pooledP (src table : Nat) : Packet :=
  let d := winBytes false (.fin (2 ^ 40) :: List.replicate 15 (.fin 0))
  { embP { bagHdr with kind := ekSUB_POOLED, vfmt := 0, table := table, bag := 5 } true 0 d with hdr := mkHdr 1 vcEMB 0 src 1 0 false (32 + d.length) }
theorem test_subPooled : subPooledOk (pooledP 10 4).sub = true ∧ emPiece (pooledP 10 4).sub = 0 ∧ emLast (pooledP 10 4).sub = true
    ∧ (findWork (twoParts false id) (pooledP 10 4).src (emTable (pooledP 10 4).sub) (emStep (pooledP 10 4).sub) (emBag (pooledP 10 4).sub)).map
      (fun x => (x.2.shard, x.2.sums)) = some (1, none)
    ∧ (pooledP 10 4).data.length = emDim splitBagP.sub * winSize (emW96 splitBagP.sub)
    ∧ (homes (after (.subPooled 4 (pooledP 10 4)) (twoParts false id))).map (fun h => h.works.map (·.sums.isSome)) = [[false, true]]
    ∧ homes (after (.subPooled 4 (pooledP 10 4)) (twoParts false (fun w => { w with sums := some (List.replicate 16 (.fin 0)) }))) = []
    ∧ emKind (lastOut (after (.subPooled 4 (pooledP 10 4)) (twoParts false (fun w => { w with sums := some (List.replicate 16 (.fin 0)) })))).sub = ekPOOLED
    := by decide +kernel
theorem test_subBagTimeout : engineOn (later 100000 (twoParts false id)) = true ∧ 0 + 100000 ≤ (later 100000 (twoParts false id)).tide.now
    ∧ (homes (after (.subBagTimeout 50 7 1 0 1) (later 100000 (twoParts false id)))).map (fun h => h.works.map (·.tries)) = [[0, 1]]
    ∧ homes (after (.subBagTimeout 50 7 1 0 0) (later 100000 (twoParts false (fun w => { w with tries := 2 })))) = []
    ∧ homes (after (.subBagTimeout 50 7 1 0 0) (later 99999 (twoParts false id))) = homes (twoParts false id) := by decide +kernel
theorem test_subGradResend : (homes (after (.subGradResendTimeout 50 7 1 0 0) (later 100000 (twoParts true (fun w => { w with tries := 2 }))))).map
    (fun h => h.works.map (·.tries)) = [[3, 0]]
    ∧ emResend (lastOut (after (.subGradResendTimeout 50 7 1 0 0) (later 100000 (twoParts true id)))).sub = true := by decide +kernel
def pooled1 : State := onEmb (fun e => { e with rockpool := [(0, ⟨1, 2, 3, 4, 15⟩)], rpDecayAt := 0 }) (later 1000000 up)
def hitsOf (s : State) : List Nat := s.emb.rockpool.map (fun x => x.2.hits)
theorem test_rockpoolDecay : pooled1.stop.frozen = false ∧ regsLive pooled1 = true ∧ hitsOf (after .rockpoolDecay pooled1) = [7]
    ∧ hitsOf (after .rockpoolDecay (after .rockpoolDecay pooled1)) = [7] := by decide +kernel
/-! ## The memory space -/

/-- A memory request of endpoint 50 on port 4 to an offset of endpoint `ep` (R195). -/
def reqBits (op len tag ep off xexp : Nat) : BitVec 256 :=
  pack 256 [(4, 1), (4, op), (1, 0), (8, 0), (9, len), (16, tag), (16, 0), (12, xexp), (32, 0), (26, 0), (18, ep), (46, off), (64, 0)]
def reqP (b : BitVec 256) (ep : Nat) (d : List Byte) : Packet :=
  { hdr := mkHdr 1 vcREQ ep 50 1 0 false (32 + d.length), body := bytesBE 32 b.toNat ++ d }
def readP : Packet := reqP (reqBits mopREAD 8 3 9 0x1000 0) 9 []
def win0 : Window := { cove := 1, lo := 0, hi := 20, base := 1, limit := 1, pr := true, pw := true, pa := true, px := true }
def atFirst : State := onRoute (fun r => { r with eps := [(9, 0x80000000)], nodes := [(0, 0)] })
  (onMem (fun m => { m with coves := [1], windows := [(0, win0)], binds := [(4, { epid := 50, cove := 1, maxOut := 1 })], jobPorts := [(4, 1)] }) up)
theorem test_admit : engineOn atFirst = true ∧ isFabric atFirst 4 = false ∧ readP.ovc = vcREQ ∧ isLocalAcct atFirst (deliveredAt atFirst 4 readP) = false
    ∧ reqDefined readP = true ∧ reqDefined (reqP (reqBits 7 8 3 9 0x1000 0) 9 []) = false
    ∧ ctrVal (after (.memRequestAdmit 4 (reqP (reqBits 7 8 3 9 0x1000 0) 9 [])) atFirst) (kPort 4 iMEM_MALFORMED) = 1 := by decide +kernel
/-- R199 to R201, R209: refusals, and the edge of a window. -/
theorem test_refuse : refuseReq (onMem (fun m => { m with binds := [] }) atFirst) 4 readP = some 5
    ∧ refuseReq atFirst 4 (reqP (reqBits mopREAD 8 3 9 0x2000 0) 9 []) = some 5 ∧ refuseReq atFirst 4 (reqP (reqBits mopREAD 8 3 9 0x10FC 0) 9 []) = some 9
    ∧ (after (.memRequestAdmit 4 (reqP (reqBits mopREAD 8 3 9 0x2000 0) 9 [])) atFirst).route.outbox.length = 1
    ∧ (after (.memRequestAdmit 4 (reqP (reqBits mopREAD 8 3 9 0x2000 0) 9 [])) atFirst).mem.outst = [] := by decide +kernel
def routable : State := onRoute (fun r => { r with selfNode := some 0 }) atFirst
theorem test_admitted : lookupDest routable 9 ≠ .noRoute ∧ refuseReq routable 4 readP = none ∧ (boundAt routable 4 readP).isSome = true
    ∧ (after (.memRequestAdmit 4 readP) (later 77 routable)).mem.outst.map (fun o => (o.port, o.tag, mmCove o.pkt.sub, mmTadm o.pkt.sub, mmAddr o.pkt.sub))
      = [(4, 3, 1, 77, 9 * 2 ^ 46 + 0x1000)]
    ∧ refuseReq (after (.memRequestAdmit 4 readP) routable) 4 (reqP (reqBits mopREAD 8 4 9 0x1000 0) 9 []) = some 8 := by decide +kernel

/-- R192, R194, R211 to R213: a region of this Q7 whose first bytes are 1, 2. -/
def reg0 : Region := { offset := 2 ^ 21, size := 2 ^ 21, die := 0, mem := [(0, 1), (1, 2)] }
def withReg (x : Region) : State := onMem (fun m => { m with regions := [(0, x)] }) up
def mine (op len off xexp : Nat) (d : List Byte) : Packet := reqP (reqBits op len 3 0 off xexp) 0 d
theorem test_perform_read : engineOn (withReg reg0) = true ∧ (mine mopREAD 8 0x200000 0 []).dst = selfEpid (withReg reg0)
    ∧ reqDefined (mine mopREAD 8 0x200000 0 []) = true ∧ behindEarlier (withReg reg0) 768 (mine mopREAD 8 0x200000 0 []) = false ∧ reqStale (withReg reg0) (mine mopREAD 8 0x200000 0 []).sub = false
    ∧ reqStale (later 400001 (withReg reg0)) (mine mopREAD 8 0x200000 0 []).sub = true ∧ hbmLost (withReg reg0) 0 = false
    ∧ mget (withReg reg0).mem.regions 0 = some reg0 ∧ regionAt (withReg reg0) (mmOff (mine mopREAD 8 0x200000 0 []).sub) = some (0, reg0)
    ∧ regionAt (withReg reg0) 0x1FFFFF = none ∧ regionAt (withReg reg0) 0x400000 = none
    ∧ (lastOut (after (.memRequestPerform 768 (mine mopREAD 8 0x200000 0 [])) (withReg reg0))).data = [1, 2, 0, 0, 0, 0, 0, 0] := by decide +kernel
def respStatus (s : State) : Nat := fld (lastOut s).sub 246 239
theorem test_perform_refusals : respStatus (after (.memRequestPerform 768 (mine mopREAD 8 0x400000 0 [])) (withReg reg0)) = 5
    ∧ respStatus (after (.memRequestPerform 768 (mine mopREAD 8 0x200000 0 [])) (withReg { reg0 with poisoned := true })) = 6
    ∧ respStatus (after (.memRequestPerform 768 (mine mopFENCE 0 0 0 [])) (withReg reg0)) = 0 := by decide +kernel
def memOf (s : State) : Memory := ((mget s.mem.regions 0).map (·.mem)).getD []
theorem test_perform_writes : memOf (after (.memRequestPerform 768 (mine mopWRITE 2 0x200001 0 [0, 9])) (withReg reg0)) = [(0, 1), (2, 9)]
    ∧ memOf (after (.memRequestPerform 768 (mine mopFADD64 8 0x200000 0 (bytesLE 8 (2 ^ 64 - 0x200)))) (withReg reg0)) = [(0, 1)]
    ∧ memOf (after (.memRequestPerform 768 (mine mopCAS64 8 0x200000 0 (bytesLE 8 0x201 ++ bytesLE 8 7))) (withReg reg0)) = [(0, 7)]
    ∧ memOf (after (.memRequestPerform 768 (mine mopSWAP64 8 0x200008 0 (bytesLE 8 5))) (withReg reg0)) = [(0, 1), (1, 2), (8, 5)] := by decide +kernel
/-- R212, R213: XADD of 1.0 at exponent 0 adds 2^40; one beyond the window saturates. -/
theorem test_perform_xadd : memOf (after (.memRequestPerform 768 (mine mopXADD 8 0x200008 0 (bytesLE 8 0x3F800000))) (withReg reg0)) = [(0, 1), (1, 2), (13, 1)]
    ∧ respStatus (after (.memRequestPerform 768 (mine mopXADD 8 0x200008 0 (bytesLE 8 0x7F7FFFFF))) (withReg reg0)) = 0x0A := by decide +kernel

/-- R215: a later request of one source to the same region waits behind an earlier WRITE. -/
def twoWaiting : State := onRoute (fun r => { r with toEngine := [(768, mine mopWRITE 2 0x200001 0 [0, 9], 4, 0), (768, mine mopFENCE 0 0 0 [], 4, 0)] }) (withReg reg0)
theorem test_behindEarlier : behindEarlier twoWaiting 768 (mine mopFENCE 0 0 0 []) = true ∧ behindEarlier twoWaiting 768 (mine mopWRITE 2 0x200001 0 [0, 9]) = false
    ∧ after (.memRequestPerform 768 (mine mopFENCE 0 0 0 [])) twoWaiting = twoWaiting := by decide +kernel

/-- R203, R219: responses and a timeout. -/
def asked : State := onMem (fun m => { m with outst := [{ port := 4, tag := 3, dst := 9, wtag := 0, ptag := 0, ctag := 0, at_ := 0, pkt := readP }] }) atFirst
def answerP (src : Nat) : Packet := { hdr := mkHdr 1 vcRSP 50 src 1 0 false 40, body := bytesBE 32 (responseBits readP.sub 0).toNat ++ zeros 8 }
theorem test_memResponse : (answerP 9).ovc = vcRSP ∧ (findOut asked 4 (mmTag (answerP 9).sub)).map (·.dst) = some (answerP 9).src ∧ mmResp (answerP 9).sub = true
    ∧ (after (.memResponse 4 (answerP 9)) asked).mem.outst = [] ∧ (after (.memResponse 4 (answerP 9)) asked).route.outbox = [answerP 9]
    ∧ ctrVal (after (.memResponse 4 (answerP 8)) asked) (kPort 4 iMEM_STRAY) = 1 ∧ ctrVal (after (.memResponse 4 (answerP 9)) atFirst) (kPort 4 iMEM_STRAY) = 1
    := by decide +kernel
theorem test_memTimeout : engineOn (later 500000 asked) = true ∧ 0 + 500000 ≤ (later 500000 asked).tide.now
    ∧ responseHere asked 4 3 { port := 4, tag := 3, dst := 9, wtag := 0, ptag := 0, ctag := 0, at_ := 0, pkt := readP } = false ∧ (after (.memRequestTimeout 4 3) (later 500001 asked)).mem.outst = [] ∧ respStatus (after (.memRequestTimeout 4 3) (later 500001 asked)) = 7
    ∧ (findOut (after (.memRequestTimeout 4 3) (later 500000 asked)) 4 3).map (·.expire) = some true ∧ (settleOuts (after (.memRequestTimeout 4 3) (later 500000 asked))).mem.outst = []
    ∧ (after (.memRequestTimeout 4 3) (later 499999 asked)).mem.outst.length = 1 := by decide +kernel

/-- R204 to R207: Coves and bindings. -/
def coveOp (c : Nat) : BitVec 384 := pack 384 [(368, 0), (16, c)]
theorem test_coveCreate : Ready (ready 0x48 (coveOp 2) (coved 1 up)) 1 0 0x48 (descOf 0x48 (coveOp 2)) ∧ coveMust (ready 0x48 (coveOp 2) (coved 1 up)) (coveOp 2) = false ∧ ringBehind (ready 0x48 (coveOp 2) (coved 1 up)) (4, 0) 1 = false ∧ coveBehind (ready 0x48 (coveOp 2) (coved 1 up)) (coveOp 2) = false
    ∧ (after (.coveCreate 1 0) (ready 0x48 (coveOp 2) (coved 1 up))).mem.coves = [1, 2]
    ∧ firstStatus (after (.coveCreate 1 0) (ready 0x48 (coveOp 1) (coved 1 up))) = 9 := by decide +kernel
theorem test_coveDestroy : Ready (ready 0x49 (coveOp 1) (coved 1 up)) 1 0 0x49 (descOf 0x49 (coveOp 1))
    ∧ (after (.coveDestroy 1 0) (ready 0x49 (coveOp 1) (coved 1 up))).mem.coves = []
    ∧ firstStatus (after (.coveDestroy 1 0) (ready 0x49 (coveOp 1) serving)) = 11
    ∧ firstStatus (after (.coveDestroy 1 0) (ready 0x49 (coveOp 2) (coved 1 up))) = 9 := by decide +kernel
def bindOp (c n : Nat) : BitVec 384 := pack 384 [(96, 0), (18, 50), (10, 4), (13, n), (231, 0), (16, c)]
def bindable (c n : Nat) : State := ready 0x4A (bindOp c n) (onPort 4 (fun x => { x with lstate := .run, peer := { x.peer with role := some 1, epid := 50 } }) (coved 1 up))
theorem test_portBind : Ready (bindable 1 4096) 1 0 0x4A (descOf 0x4A (bindOp 1 4096)) ∧ bindMust (bindable 1 4096) (bindOp 1 4096) = false ∧ bindBehind (bindable 1 4096) (bindOp 1 4096) = false
    ∧ bindOf (after (.portBind 1 0) (bindable 1 4096)) 4 = some ⟨50, 1, 4096⟩
    ∧ firstStatus (after (.portBind 1 0) (bindable 1 4097)) = 9 ∧ firstStatus (after (.portBind 1 0) (bindable 1 0)) = 9
    ∧ firstStatus (after (.portBind 1 0) (ready 0x4A (bindOp 1 1) (coved 1 up))) = 5 := by decide +kernel
theorem test_portUnbind : onlyBits (bindOp 0 1) bindFields = true ∧ portExists (bindable 0 1) 4 = true ∧ isFabric (bindable 0 1) 4 = false
    ∧ bindOf (after (.portUnbind 1 0) (ready 0x4A (bindOp 0 1) serving)) 4 = none
    ∧ outCount (ready 0x4A (bindOp 0 1) asked) 4 = 1
    ∧ (after (.portUnbind 1 0) (ready 0x4A (bindOp 0 1) asked)).mem.unbinding = [(4, 1, 0)] := by decide +kernel
def unbindWaits : State := onMem (fun m => { m with unbinding := [(4, 1, 0)] }) (onHost (fun h => { h with accepted := [{ descOf 0x4A (bindOp 0 1) with stage := .draining }] }) (withRings up))
theorem test_portUnbindDone : regsLive unbindWaits = true ∧ outCount unbindWaits 4 = 0 ∧ (after (.portUnbindDone 4) unbindWaits).host.accepted = [] := by decide +kernel

/-- R208, R210, R220: windows. -/
def winBytes0 (w : Window) : List Byte := bytesBE 32 (pack 256 [(16, w.cove), (18, w.lo), (18, w.hi), (34, w.base), (34, w.limit),
  (1, b2n w.pr), (1, b2n w.pw), (1, b2n w.pa), (1, b2n w.px), (132, 0)]).toNat
def winOp (n : Nat) : BitVec 384 := pack 384 [(64, 0x40), (32, n), (41, 0), (17, 0), (230, 0)]
def winIdOp : BitVec 384 := 0
theorem test_windowAdd : Ready (ready 0x4B (winOp 32) (coved 1 up)) 1 0 0x4B (descOf 0x4B (winOp 32)) ∧ winMust (ready 0x4B (winOp 32) (coved 1 up)) (winOp 32) = false ∧ winBehind (ready 0x4B (winOp 32) (coved 1 up)) (winOp 32) = false
    ∧ (after (.windowAdd 1 0 (winBytes0 win0)) (ready 0x4B (winOp 32) (coved 1 up))).mem.windows = [(0, win0)]
    ∧ firstStatus (after (.windowAdd 1 0 (winBytes0 win0)) (ready 0x4B (winOp 32) atFirst)) = 9
    ∧ firstStatus (after (.windowAdd 1 0 (winBytes0 { win0 with lo := 21 })) (ready 0x4B (winOp 32) (coved 1 up))) = 9 := by decide +kernel
theorem test_windowRemove : Ready (ready 0x4C winIdOp atFirst) 1 0 0x4C (descOf 0x4C winIdOp) ∧ onlyBits winIdOp [(246, 230)] = true
    ∧ mget (ready 0x4C winIdOp atFirst).mem.windows (fld winIdOp 246 230) = some win0 ∧ winMust (ready 0x4C winIdOp atFirst) winIdOp = false ∧ winBehind (ready 0x4C winIdOp atFirst) winIdOp = false
    ∧ (after (.windowRemove 1 0) (ready 0x4C winIdOp atFirst)).mem.windows = [] ∧ (after (.windowRemove 1 0) (ready 0x4C winIdOp atFirst)).mem.wtag = 1 := by decide +kernel
def removing (s : State) : State := onMem (fun m => { m with wtag := 1, removing := [(1, 0, 0, 1)] })
  (onHost (fun h => { h with accepted := [{ descOf 0x4C winIdOp with stage := .draining }] }) (withRings s))
theorem test_windowRemoveDone : regsLive (removing up) = true ∧ (after (.windowRemoveDone 0) (removing up)).host.accepted = []
    ∧ (after (.windowRemoveDone 0) (removing asked)).mem.removing = [(1, 0, 0, 1)] := by decide +kernel

/-- R190, R191, R193: regions. -/
def regOp (len off size : Nat) : BitVec 384 := pack 384 [(64, 0x40), (32, len), (58, 0), (25, off), (18, size), (2, 0), (8, 0), (177, 0)]
theorem test_regionExport : Ready (ready 0x4D (regOp 32 1 1) up) 1 0 0x4D (descOf 0x4D (regOp 32 1 1))
    ∧ (mget (after (.regionExport 1 0 (1 :: zeros 31)) (ready 0x4D (regOp 32 1 1) up)).mem.regions 0).map (fun x => (x.offset, x.size, x.mem))
      = some (2 ^ 21, 2 ^ 21, [(0, 1)])
    ∧ firstStatus (after (.regionExport 1 0 []) (ready 0x4D (regOp 0 1 0) up)) = 9
    ∧ firstStatus (after (.regionExport 1 0 []) (ready 0x4D (regOp 0 (2 ^ 25 - 1) 2) up)) = 9 := by decide +kernel
def fullHbm (s : State) : State := onMem (fun m => { m with regions := [(3, { offset := 2 ^ 40, size := 49152 * 2 ^ 21, die := 0 })] }) s
theorem test_regionExport_full : firstStatus (after (.regionExport 1 0 []) (ready 0x4D (regOp 0 1 49152) (fullHbm up))) = 8 := by decide +kernel
def regIdOp : BitVec 384 := 0
theorem test_regionRelease : Ready (ready 0x4E regIdOp (withReg reg0)) 1 0 0x4E (descOf 0x4E regIdOp) ∧ onlyBits regIdOp [(184, 177)] = true
    ∧ mget (ready 0x4E regIdOp (withReg reg0)).mem.regions (fld regIdOp 184 177) = some reg0 ∧ reg0.releasing = none
    ∧ regionAt (after (.regionRelease 1 0) (ready 0x4E regIdOp (withReg reg0))) 0x200000 = none := by decide +kernel
theorem test_regionReleaseDone : regsLive (withReg { reg0 with releasing := some (1, 0) }) = true
    ∧ (after (.regionReleaseDone 0) (withReg { reg0 with releasing := some (1, 0) })).mem.regions = [] := by decide +kernel

/-- R230, R231: jobs; R272: a commit that waited for its tag. -/
def jobOp (cls cap j : Nat) : BitVec 384 := pack 384 [(11, 0), (1, cls), (10, cap), (354, 0), (8, j)]
def portJobOp (unb j : Nat) : BitVec 384 := pack 384 [(10, 4), (1, unb), (365, 0), (8, j)]
def withJobs (s : State) : State := onMem (fun m => { m with jobs := [(1, (false, 640)), (2, (true, 640)), (3, (false, 640))] }) s
theorem test_jobClass : Ready (ready 0x58 (jobOp 1 640 1) (withJobs serving)) 1 0 0x58 (descOf 0x58 (jobOp 1 640 1))
    ∧ mget (after (.jobClass 1 0) (ready 0x58 (jobOp 1 640 1) (withJobs serving))).mem.jobs 1 = some (true, 640)
    ∧ firstStatus (after (.jobClass 1 0) (ready 0x58 (jobOp 1 641 1) (withJobs serving))) = 9
    ∧ firstStatus (after (.jobClass 1 0) (ready 0x58 (jobOp 1 640 1) (onMem (fun m => { m with jobPorts := [(4, 1), (4, 2)] }) (withJobs serving)))) = 8 := by decide +kernel
theorem test_jobPort : Ready (ready 0x59 (portJobOp 0 2) (withJobs serving)) 1 0 0x59 (descOf 0x59 (portJobOp 0 2)) ∧ bindMust (ready 0x59 (portJobOp 0 2) (withJobs serving)) (portJobOp 0 2) = false ∧ bindBehind (ready 0x59 (portJobOp 0 2) (withJobs serving)) (portJobOp 0 2) = false
    ∧ (after (.jobPort 1 0) (ready 0x59 (portJobOp 0 2) (withJobs serving))).mem.jobPorts = [(4, 1), (4, 2)]
    ∧ firstStatus (after (.jobPort 1 0) (ready 0x59 (portJobOp 0 3) (withJobs serving))) = 8
    ∧ firstStatus (after (.jobPort 1 0) (ready 0x59 (portJobOp 0 4) (withJobs serving))) = 9 := by decide +kernel
theorem test_jobPortUnbind : bitAt (portJobOp 1 1) 373 = true ∧ bitAt (portJobOp 0 2) 373 = false
    ∧ (after (.jobPortUnbind 1 0) (ready 0x59 (portJobOp 1 1) (withJobs serving))).mem.jobPorts = [] := by decide +kernel
def commitWaits (tags : List (Option Nat)) : State :=
  onShoal (fun h => { h with stored := tags.map (fun t => { storedOne (.egress 0 0) ctlOne with owners := [ownIngress 4], ctag := t }) })
    (onHost (fun h => { h with accepted := [{ descOf 0x48 (coveOp 2) with stage := .commitWait }] }) (withRings up))
theorem test_commitWaitEnd : (commitWaits []).host.accepted.find? (fun e => e.stage == .commitWait && (e.opcode == 0x48 || e.opcode == 0x49))
      = some { descOf 0x48 (coveOp 2) with stage := .commitWait }
    ∧ mustWait (coveTags (commitWaits [])) 0 = false ∧ mustWait (coveTags (commitWaits [some 1])) 0 = true
    ∧ (after (.tableCommitWaitEnd 4 0) (commitWaits [])).mem.coves = [2]
    ∧ (after (.tableCommitWaitEnd 4 0) (commitWaits [some 1])).host.accepted.length = 1 := by decide +kernel

/-! ## The path of a packet -/

/-- Die 0's free store in service. -/
def inService (s : State) : State := onSlice 0 (fun x => { x with quarters := x.quarters.map (fun q => { q with bitmap := true }) }) s
def asQ7 (x : Port) : Port := { x with peer := { x.peer with role := some 0 } }
def xferTo (dst seq : Nat) : Packet := { hdr := mkHdr 1 vcXFER dst 60 1 seq false 8, body := zeros 8 }
def fabIn : State := inService (runPort asQ7)
theorem test_ingress_fabric : linksOn fabIn = true ∧ isDrezhPort fabIn 0 = true ∧ portRun fabIn 0 = true ∧ isFabric fabIn 0 = true
    ∧ (xferTo 9 0).wellFormed = true ∧ badPkt.wellFormed = false ∧ portControl true (xferTo 9 0) = false
    ∧ (allocN (acctKey (.ingress 0 vcXFER)) (xferTo 9 0).bufs (getSlice fabIn 0)).map (fun x => x.1) = some [0] ∧ storedAt fabIn 0 0 = none
    ∧ mgetD (getPort (after (.packetIngress 0 (xferTo 9 0)) fabIn) 0).ingress vcXFER [] = [(0, 0)]
    ∧ ctrVal (after (.packetIngress 0 badPkt) fabIn) (kPort 0 iPKT_MALFORMED) = 1 := by decide +kernel
def peerCtl (ct : Nat) : Packet := ctlPkt vcCTRL 0 0 0 (pack 128 [(8, ct), (120, 0)])
theorem test_ingress_control : (peerCtl 0x20).wellFormed = true ∧ portControl true (peerCtl 0x20) = true
    ∧ (after (.packetIngress 0 (peerCtl 0x20)) fabIn).route.toEngine.length = 1 := by decide +kernel
/-- R284: a packet goes behind those that its account holds. -/
def oneThere : State := onPort 0 (fun x => { x with ingress := [(vcXFER, [(0, 9)])] }) fabIn
theorem test_ingress_behind : (getPort oneThere 0).soundIn = none ∧ mgetD (getPort oneThere 0).ingress (classOn oneThere 0 (xferTo 9 0)) [] ≠ []
    ∧ (allocN (acctKey (.ingress 0 vcXFER)) (xferTo 9 0).bufs (getSlice oneThere 0)).map (fun x => x.1) = some [0] ∧ storedAt oneThere 0 0 = none
    ∧ mgetD (getPort (after (.packetIngress 0 (xferTo 9 0)) oneThere) 0).ingress vcXFER [] = [(0, 9), (0, 0)] := by decide +kernel
def attIn : State := inService (runPort id)
theorem test_ingress_attached : isFabric attIn 0 = false ∧ ((xferTo 9 0).setHops 1).wellFormed = true ∧ ((xferTo 9 0).setHops 1).hops ≠ 0
    ∧ ctrVal (after (.packetIngress 0 ((xferTo 9 0).setHops 1)) attIn) (kPort 0 iPKT_MALFORMED) = 1
    ∧ bindOf attIn 0 = none ∧ (xferTo 9 0).ptype ≠ 0 ∧ engineAtPort true (xferTo 9 0) = false ∧ (xferTo 9 0).vc ≠ vcESC ∧ (xferTo 9 0).gap = false
    ∧ ctrVal (after (.packetIngress 0 (xferTo 9 0)) attIn) (kPort 0 iPORT_UNBOUND) = 1
    ∧ ctrVal (after (.packetIngress 0 (xferTo 9 0)) (onMem (fun m => { m with binds := [(0, ⟨60, 1, 1⟩)] }) attIn)) (kPort 0 iJOB_DENY) = 1 := by decide +kernel

/-- R262 to R264: at EXP, ahead of it within the window, again, and on the wrap. -/
def itemOf (seq : Nat) : RItem := (seq, 0, xferTo 0 seq, 4, 0)
def flow0 (exp : Nat) (held : List RItem) : Flow := { entry := 0, src := 60, dst := 0, ovc := 3, run := true, exp := exp, held := held, timer := none, lastAt := 0 }
theorem test_runArrive : ahead (2 ^ 32 - 1) 0 = 1 ∧ ahead 0 511 ≤ 511
    ∧ ((runArrive 0 (itemOf (2 ^ 32 - 1)) { flow := flow0 (2 ^ 32 - 1) [itemOf 0] }).out.map (fun x => x.1.1),
       (runArrive 0 (itemOf (2 ^ 32 - 1)) { flow := flow0 (2 ^ 32 - 1) [itemOf 0] }).flow.exp) = ([2 ^ 32 - 1, 0], 1)
    ∧ (runArrive 0 (itemOf 511) { flow := flow0 0 [] }).flow.held.length = 1
    ∧ (runArrive 0 (itemOf 5) { flow := flow0 0 [itemOf 5] }).drop.length = 1 := by decide +kernel
def grantTo (seq : Nat) : Packet := { ctlPkt vcCTRL 0 1 0 (pack 128 [(8, 0x40), (120, 0)]) with hdr := mkHdr 0 vcCTRL 0 60 1 seq false 0 }
def flowCtl (f : Flow → Flow) : Flow := f { entry := 0, src := 60, dst := 0, ovc := 0, run := true, exp := 7, held := [], timer := none, lastAt := 0 }
def atSelf (f : Flow → Flow) : State := onShoal (fun h => { h with flows := [(0, flowCtl f)] }) (onRoute (fun r => { r with eps := [(0, 0xC0000000)] }) fabIn)
def flowOf (s : State) : Option Flow := findFlow s 0 60 0 0
theorem test_reseqArrival : engineOn (atSelf id) = true ∧ lookupDest (atSelf id) (grantTo 7).dst = .here ∧ (∀ c, c < 9 → ingressHead (atSelf id) 0 c = none)
    ∧ consumes (decide (768 ≤ 0) || isFabric (atSelf id) 0) (grantTo 7) = true ∧ flowOf (atSelf id) = some (flowCtl id) ∧ (grantTo 7).src % 4 = 0
    ∧ (grantTo 7).fseq = 7 ∧ (atSelf id).route.direct = [] ∧ storedAt (atSelf id) 4 0 = none
    ∧ (after (.reseqArrival 0 (grantTo 7)) (atSelf id)).route.toEngine = [(0, grantTo 7, 4, 0)]
    ∧ (flowOf (after (.reseqArrival 0 (grantTo 7)) (atSelf id))).map (·.exp) = some 8 := by decide +kernel
/-- The exact end of a wait only marks the entry, for an arrival of that instant goes first (R264). -/
def heldFlow (run : Bool) (f : Flow) : Flow := { f with run := run, held := [(9, 0, grantTo 9, 4, 0)], timer := some 0 }
theorem test_reseqTimeouts : engineOn (later 50000 (atSelf (heldFlow true))) = true ∧ (flowOf (after (.reseqBaseTimeout 0 60 0 0) (later 2000 (atSelf (heldFlow false))))).map (fun f => (f.run, f.expire)) = some (false, true)
    ∧ (flowOf (after (.reseqBaseTimeout 0 60 0 0) (later 2001 (atSelf (heldFlow false))))).map (fun f => (f.run, f.exp, f.held.length)) = some (true, 10, 0)
    := by decide +kernel
theorem test_reseqGapTimeout : (flowOf (after (.reseqGapTimeout 0 60 0 0) (later 50001 (atSelf (heldFlow true))))).map (fun f => (f.exp, f.held.length)) = some (10, 0)
    ∧ lastDest (atSelf (heldFlow true)) (9, 0, grantTo 9, 4, 0) = .here
    ∧ goodAt (atSelf (heldFlow true)) 4 0 = true ∧ (flowOf (after (.reseqGapTimeout 0 60 0 0) (later 50000 (atSelf (heldFlow true))))).map (·.expire) = some true
    ∧ (after (.reseqGapTimeout 0 60 0 0) (later 50001 (atSelf (heldFlow true)))).route.toEngine = [(0, (grantTo 9).setGap true, 4, 0)]
    ∧ (flowOf (after (.reseqGapTimeout 0 60 0 0) (later 49999 (atSelf (heldFlow true))))).map (·.exp) = some 7 := by decide +kernel
theorem test_reseqEntryFree : (flowOf (after (.reseqEntryFree 0 60 0 0) (later 150000 (atSelf id)))).map (·.expire) = some true
    ∧ flowOf (after (.reseqEntryFree 0 60 0 0) (later 150001 (atSelf id))) = none
    ∧ flowOf (after (.reseqEntryFree 0 60 0 0) (later 149999 (atSelf id))) = some (flowCtl id) := by decide +kernel

/-- R255, R257, R288, R312 to R314: one packet at the head of an ingress account of port 1. -/
def nodeTo0 : BitVec 512 := pack 512 [(1, 1), (1, 0), (5, 1), (4, 0), (10, 0), (10, 0), (2, 0), (479, 0)]
def headX (d : Dest) (cap : RouteCap := ⟨[], 5, 0, 0⟩) : Stored := { die := 0, bufs := [0], acct := .ingress 1 3, port := 1, pkt := xferTo 9 0, owners := [ownIngress 1], rtag := some 0, dest := d, par := packetParity (xferTo 9 0), cap := cap }
def oneHead (limit : Nat) (d : Dest) : State :=
  onPort 1 (fun x => { x with ingress := [(3, [(0, 0)])] }) (onShoal (fun h => { h with stored := [headX d ⟨[], limit, 0, 0⟩] }) fabIn)
theorem test_dispatch_drops : ingressHead (oneHead 5 .noRoute) 1 3 = some (headX .noRoute)
    ∧ ctrVal (after (.dispatch 1 3) (oneHead 5 .noRoute)) (kPort 1 iROUTE_NONE) = 1 ∧ (after (.dispatch 1 3) (oneHead 5 .noRoute)).shoal.stored = []
    ∧ isFabric (oneHead 0 (.via 0 nodeTo0)) 0 = true ∧ ctrVal (after (.dispatch 1 3) (oneHead 0 (.via 0 nodeTo0))) (kPort 1 iROUTE_LOOP) = 1 := by decide +kernel
theorem test_dispatch : (choosePort (oneHead 5 (.via 0 nodeTo0)) ⟨[], 5, 0, 0⟩ 0 0 nodeTo0 (xferTo 9 0)).map (·.1) = some 0
    ∧ canMove (oneHead 5 (.via 0 nodeTo0)) (headX (.via 0 nodeTo0)) (egressAcct (oneHead 5 (.via 0 nodeTo0)) 0 (xferTo 9 0)) = true
    ∧ (queueFor (oneHead 5 (.via 0 nodeTo0)) 0 (xferTo 9 0)).map (·.1) = some 9
    ∧ queuePkts (after (.dispatch 1 3) (oneHead 5 (.via 0 nodeTo0))) 0 9 = [(0, 0)]
    ∧ (getPort (after (.dispatch 1 3) (oneHead 5 (.via 0 nodeTo0))) 1).ingress = [(3, [])] := by decide +kernel
/-- Every job slot of port 0 is taken by another job, so only ESC takes the packet. -/
def noSlots : State := onPort 0 (fun x => { x with slots := (List.range 14).map (fun j => (j, (j + 2, 0))) }) (later 500000 (oneHead 5 (.via 0 nodeTo0)))
theorem test_escMove : 0 + noSlots.shoal.cfg.escWait ≤ noSlots.tide.now ∧ allBlocked noSlots (headX (.via 0 nodeTo0)) nodeTo0 = true ∧ allowedSet noSlots ⟨[], 5, 0, 0⟩ nodeTo0 = [0]
    ∧ chooseEsc noSlots ⟨[], 5, 0, 0⟩ nodeTo0 ((xferTo 9 0).setVc vcESC) = some 0
    ∧ queuePkts (after (.escMove 1 3) noSlots) 0 3 = [(0, 0)]
    ∧ (storedAt (after (.escMove 1 3) noSlots) 0 0).map (fun x => x.pkt.vc) = some vcESC := by decide +kernel

/-- R305: releases by the only owner, by one of two, and by one not named. -/
def owned (l : List Nat) : State := onShoal (fun h => { h with stored := [{ headX .here with owners := l }] }) up
theorem test_ownerRelease : regsLive (owned [5]) = true ∧ storedAt (owned [5]) 0 0 = some { headX .here with owners := [5] }
    ∧ (after (.ownerRelease 0 0 5) (owned [5])).shoal.stored = []
    ∧ (after (.ownerRelease 0 0 5) (owned [5, 6])).shoal.stored.map (·.owners) = [[6]]
    ∧ (after (.ownerRelease 0 0 7) (owned [5, 6])).shoal.stored.map (·.owners) = [[5, 6]]
    ∧ (after (.ownerRelease 0 0 7) (owned [5, 6])).flt.lastSrc = 0x25 := by decide +kernel

/-- R366 to R369: frames on an Ethernet-mode port. -/
def ethIn : State := inService (onLane 0 (fun l => { l with ctl := setFld l.ctl 28 28 1 }) (runPort id))
def frame (dst typ n : Nat) : List Byte :=
  let b := bytesBE 6 dst ++ bytesBE 6 0x020000000007 ++ bytesBE 2 typ ++ zeros (n - 18)
  b ++ bytesLE 4 (fcsOf b)
/-- The CRC-32 of IEEE 802.3 of the nine digits, its published check value. -/
theorem test_fcs : fcsOf ("123456789".toList.map (fun c => BitVec.ofNat 8 c.toNat)) = 0xCBF43926 := by decide +kernel
theorem test_ethernetFrame : linksOn ethIn = true ∧ isEthPort ethIn 0 = true ∧ portRun ethIn 0 = true
    ∧ ctrVal (after (.ethernetFrame 0 true (frame 1 0x800 63)) ethIn) (kPort 0 iETH_BAD) = 1
    ∧ ctrVal (after (.ethernetFrame 0 true (frame 1 0x8808 64)) ethIn) (kPort 0 iETH_CTL) = 1
    ∧ acctCan ethIn (.ethIn 0) 0 1 = true ∧ isGroupMac (frameDst (frame (2 ^ 40) 0x800 64)) = true ∧ (bridge ethIn (some 0) (2 ^ 40)).1 = []
    ∧ (after (.ethernetFrame 0 true (frame (2 ^ 40) 0x800 64)) ethIn).net.mgmtIn.length = 1
    ∧ (after (.ethernetFrame 0 true (frame (2 ^ 40) 0x800 64)) ethIn).net.macs = [(0x020000000007, (0, 0))] := by decide +kernel
def crowded : State := onShoal (fun h => { h with stored := [{ headX .here with acct := .ethIn 0, bufs := List.replicate 40 0 }], cfg := { h.cfg with shareCap := 0 } }) ethIn
theorem test_ethernet_drop : acctCan crowded (.ethIn 0) 0 1 = false
    ∧ ctrVal (after (.ethernetFrame 0 true (frame (2 ^ 40) 0x800 64)) crowded) (kPort 0 iETH_DROP) = 1 := by decide +kernel
def knowsMac (at_ : Nat) : State := later 300000000000 (onNet (fun n => { n with macs := [(5, (0, at_))] }) ethIn)
theorem test_mgmtFrame : (after (.mgmtFrameSend (some 0) (frame 5 0x800 64)) ethIn).net.ethOut = [(0, 0, 0)]
    ∧ isGroupMac (frameDst (frame 5 0x800 64)) = false ∧ mget (knowsMac 0).net.macs (frameDst (frame 5 0x800 64)) = some (0, 0) := by decide +kernel
theorem test_macAgeOut : regsLive (knowsMac 0) = true ∧ 0 + 300000000000 ≤ (knowsMac 0).tide.now
    ∧ (after (.macAgeOut 5) (knowsMac 0)).net.macs = [] ∧ (after (.macAgeOut 5) (knowsMac 1)).net.macs.length = 1 := by decide +kernel

/-! ## Drezh links -/

def linkUp0 (f : Link → Link) : State := runPort (fun x => { x with link := f { x.link with issued := List.replicate 9 0 } })
def hdr1 (fsn sop : Nat) : BitVec 160 := mkFlitHdr 1 0 false false fsn 0xFFF sop (List.replicate 9 0)
def dataFlit (fsn : Nat) : List Byte := sealFlit {} false (hdr1 fsn 0) (storedBytes ctlOne ++ zeros 192)
/-- The keys of the two ends agree: the hypotheses under which a flit of RUN opens. -/
theorem test_seal : (zeros 224).length = 224 ∧ flKph (hdr1 0 0) = 0 ∧ ({} : Link).keyRxNo % 2 = 0 ∧ ({} : Link).keyRx = ({} : Link).keyTx
    ∧ (dataFlit 0).length = 256 ∧ openFlit {} 5 (dataFlit 0) = some (genParity (storedBytes ctlOne ++ zeros 192), {}) := by decide +kernel
theorem test_crc32c : crc32c ((List.range 9).map (fun i => BitVec.ofNat 8 (49 + i))) = 0xE3069283 := by decide +kernel
theorem test_flit_bad : linkRuns (linkUp0 id) 0 = true ∧ leAt (dataFlit 0 |>.set 7 1) 252 4 ≠ crc32c ((dataFlit 0 |>.set 7 1).take 252)
    ∧ (after (.flitReceive 0 3 true (dataFlit 0 |>.set 7 1)) (linkUp0 id)).flt.ripple = true
    ∧ (getPort (after (.flitReceive 0 3 false (dataFlit 0)) (linkUp0 id)) 0).link.nakvDue = true := by decide +kernel
theorem test_flit_data : leAt (dataFlit 0) 252 4 = crc32c ((dataFlit 0).take 252) ∧ flType (flitHdr (dataFlit 0)) = 1
    ∧ fld (flitHdr (dataFlit 0)) 152 149 = 0 ∧ fld (flitHdr (dataFlit 0)) 116 108 = 0 ∧ flFsn (flitHdr (dataFlit 0)) = (getPort (linkUp0 id) 0).link.expect
    ∧ flBadp (flitHdr (dataFlit 0)) = false
    ∧ (getPort (after (.flitReceive 0 3 true (dataFlit 0)) (linkUp0 id)) 0).link.rxPkts = [ctlOne]
    ∧ (getPort (after (.flitReceive 0 3 true (dataFlit 0)) (linkUp0 id)) 0).link.expect = 1 := by decide +kernel
theorem test_flit_sequence : flFsn (flitHdr (dataFlit 1)) = 1 ∧ (getPort (linkUp0 id) 0).link.expect = 0
    ∧ (getPort (after (.flitReceive 0 3 true (dataFlit 1)) (linkUp0 id)) 0).link.rxPkts = []
    ∧ (getPort (after (.flitReceive 0 3 true (dataFlit 1)) (linkUp0 id)) 0).link.waitingFor = true
    ∧ (getPort (after (.flitReceive 0 3 true (dataFlit 4095)) (linkUp0 (fun l => { l with expect := 4095 }))) 0).link.expect = 0 := by decide +kernel
def lastFlit (s : State) : List Byte := (getPort s 0).link.sent.getLastD []
theorem test_flitClose : (getPort (linkUp0 id) 0).link.issued.length = 9 ∧ (getPort (linkUp0 id) 0).link.resend = []
    ∧ (getPort (linkUp0 id) 0).link.msgs = [] ∧ (getPort (linkUp0 id) 0).link.tx = []
    ∧ (lastFlit (after (.flitClose 0) (linkUp0 id))).length = 256 ∧ flFsn (flitHdr (lastFlit (after (.flitClose 0) (linkUp0 id)))) = 4095
    ∧ flType (flitHdr (lastFlit (after (.flitClose 0) (linkUp0 (fun l => { l with msgs := [linkMsg 4 [] []] }))))) = 2 := by decide +kernel
def replaying : State := linkUp0 (fun l => { l with
  nextFsn := 8, resend := [7], replay := [{ fsn := 7, sop := 3, badp := false, payload := genParity (zeros 224), at_ := 0 }], waitingFor := true, nakvAt := 0 })
theorem test_replay : nextResend (getPort replaying 0).link
      = some { fsn := 7, sop := 3, badp := false, payload := genParity (zeros 224), at_ := 0 }
    ∧ parityGood (genParity (zeros 224)) = true ∧ flFsn (flitHdr (lastFlit (after (.flitClose 0) replaying))) = 7 ∧ flSop (flitHdr (lastFlit (after (.flitClose 0) replaying))) = 3 := by decide +kernel
theorem test_nakvRepeat : (getPort (later 1000 replaying) 0).link.waitingFor = true ∧ 0 + 1000 ≤ (later 1000 replaying).tide.now
    ∧ (getPort (after (.nakvRepeat 0) (later 1000 replaying)) 0).link.nakvDue = true
    ∧ (getPort (after (.nakvRepeat 0) (later 999 replaying)) 0).link.nakvDue = false := by decide +kernel
theorem test_keyPhaseChange : (getPort (runPort (fun x => { x with peer := { x.peer with runTx := true } })) 0).peer.runTx = true
    ∧ (getPort (after (.keyPhaseChange 0) (runPort (fun x => { x with peer := { x.peer with runTx := true } }))) 0).link.keyTxNo = 1 := by decide +kernel
theorem test_tideSyncSend : portRun (linkUp0 id) 0 = true
    ∧ (getPort (after (.tideSyncSend 0) (later 9 (linkUp0 id))) 0).link.msgs.map (fun m => m.take 16) = [[1, 0, 0, 0, 0, 0, 0, 0, 9, 0, 0, 0, 0, 0, 0, 0]] := by decide +kernel

/-- R336: a lane has read another header than it expected. -/
def badPair : State := onLane 1 (fun y => { y with pairHdr := 1 }) (linkUp0 id)

/-- R258 to R260, R352, R378, R391, R493: ports that go down. -/
theorem test_portDown : linksOn (linkUp0 id) = true ∧ isDrezhPort (linkUp0 id) 0 = true ∧ (getPort (later 1500 (linkUp0 id)) 0).link.goodAt + 1500 ≤ (later 1500 (linkUp0 id)).tide.now
    ∧ (getPort (after (.portDownDeclare 0 0) (later 1500 (linkUp0 id))) 0).declared = some 1500
    ∧ (getPort (after (.portDownDeclare 0 0) (later 1499 (linkUp0 id))) 0).declared = none
    ∧ (getPort (after (.portDownDeclare 0 1) badPair) 0).declared = some 0 ∧ pairBad badPair 0 = true
    ∧ (getPort (after (.portDownDeclare 0 1) (linkUp0 id)) 0).declared = none
    ∧ (getPort (after (.linkDown 0 3) (linkUp0 id)) 0).lstate = .down
    ∧ portOfLane (linkUp0 id) 3 = 0 ∧ isEthPort (linkUp0 id) 0 = false ∧ (getPort (after (.laneLockLoss 3) (linkUp0 id)) 0).declared = some 0 := by decide +kernel
def declaredDown : State := onPort 0 (fun x => { asQ7 x with declared := some 0, lstate := .down }) queued
theorem test_portDownCommit : regsLive declaredDown = true ∧ (getPort declaredDown 0).declared = some 0 ∧ isFabric declaredDown 0 = true ∧ declaredDown.stop.frozen = false
    ∧ (getPort (after (.portDownCommit 0) declaredDown) 0).masked = true ∧ (getPort (after (.portDownCommit 0) declaredDown) 0).queues = []
    ∧ (after (.portDownCommit 0) declaredDown).route.reentry = [(0, 0)] := by decide +kernel
theorem test_portUpCommit : linkUp (runPort (fun x => { x with masked := true })) 0 = true
    ∧ (getPort (runPort (fun x => { x with masked := true })) 0).declared = none
    ∧ (getPort (after (.portUpCommit 0) (runPort (fun x => { x with masked := true }))) 0).masked = false := by decide +kernel
theorem test_cliffNotice : (peerCtl 0x30).ptype = 0 ∧ (peerCtl 0x30).ctype = 0x30 ∧ isFabric fabIn 0 = true ∧ linkUp fabIn 0 = true
    ∧ (getPort (after (.cliffNotice 0 (peerCtl 0x30)) fabIn) 0).cliffHold = some 0 ∧ (getPort (after (.cliffNotice 0 (peerCtl 0x30)) fabIn) 0).lstate = .down := by decide +kernel
def heldDown : State := later 1000000 (onPort 0 (fun x => { x with cliffHold := some 0, disableAt := some 1000 }) up)
theorem test_holdEnd : regsLive heldDown = true ∧ 0 + 1000000 ≤ heldDown.tide.now ∧ (getPort (after (.cliffNoticeHoldEnd 0) heldDown) 0).cliffHold = none := by decide +kernel
theorem test_disableSquelch : (getPort heldDown 0).disableAt = some 1000 ∧ bitAt (getLane heldDown 0).ctl 31 = false
    ∧ (getPort (after (.disableSquelch 0) heldDown) 0).disableAt = none ∧ (getPort (after (.disableSquelch 0) heldDown) 0).squelched = true := by decide +kernel

/-! ## Lanes -/

def modeOf (s : State) (g : Nat) : Nat := (mgetD s.net.groups g {}).mode
theorem test_lnGrpCfg : modeOf (after (.lnGrpCfgWrite 0 1) up) 0 = 1 ∧ modeOf (after (.lnGrpCfgWrite 0 3) up) 0 = 2 ∧ groupIdle up 0 = true
    ∧ modeOf (after (.lnGrpCfgWrite 0 1) (linkUp0 id)) 0 = 2 := by decide +kernel
def testLane : State := onLane 2 (fun l => { l with ctl := setFld l.ctl 21 20 2 }) up
theorem test_portEnable : portExists up 0 = true ∧ (getPort up 0).peer.held = false ∧ (getPort up 0).cliffHold = none ∧ up.flt.deadDies = []
    ∧ portLanes up 0 = [0, 1, 2, 3] ∧ (∀ l ∈ portLanes up 0, fld (getLane up l).ctl 21 20 = 0)
    ∧ ((getPort (after (.portEnable 0) up) 0).lstate, (getPort (after (.portEnable 0) up) 0).rate) = (.detect, 2)
    ∧ fld (getLane testLane 2).ctl 21 20 ≠ 0 ∧ (getPort (after (.portEnable 0) testLane) 0).lstate = .test := by decide +kernel
def enabled0 : State := onLane 0 (fun l => { l with ctl := setFld l.ctl 31 31 1 }) (linkUp0 id)
theorem test_portDisable : bitAt (getLane enabled0 0).ctl 31 = true ∧ (getPort (after (.portDisable 0) enabled0) 0).disableAt = some 1000
    ∧ linkRuns enabled0 0 = true ∧ (getPort (after (.portDisable 0) enabled0) 0).link.sent.length = 1 := by decide +kernel
theorem test_lnCtl : portOfLane up 2 = 0 ∧ (getLane (after (.lnCtlWrite 0 0x21400000) up) 0).ctl = 0x21400000
    ∧ (getLane (after (.lnCtlWrite 0 0x61400000) up) 0).cfgRej = true ∧ bitAt (0x21400000 : Word) 31 = false
    ∧ (getLane (after (.lnCtlWrite 0 0x21400000) (linkUp0 id)) 0).cfgRej = true := by decide +kernel
theorem test_lnTaps : fld (getLane testLane 2).ctl 21 20 ≠ 0 ∧ tapsOk (tapsOfWord 0x0003FC0) = false ∧ tapsOk (tapsOfWord 0xFC0) = true
    ∧ (getLane (after (.lnTapsWrite 2 0xCC0) testLane) 2).testTaps = [0, 0, 0, 51, 0] ∧ (getLane (after (.lnTapsWrite 2 0x3FC0) testLane) 2).cfgRej = true := by decide +kernel
/-- The worked example of spec/12_serdes_lanes.md: the bits 1 0 0 1 1 1 0 0, their levels, the symbols sent and what the far end recovers. -/
theorem test_symbols : grayMap [true, false, false, true, true, true, false, false] = [3, 1, 2, 0] ∧ precode 0 [3, 1, 2, 0] = [3, 2, 0, 0]
    ∧ unprecode 0 [3, 2, 0, 0] = [3, 1, 2, 0] ∧ grayUnmap [3, 1, 2, 0] = [true, false, false, true, true, true, false, false] := by decide +kernel
theorem test_prbs : bitAt (getLane up 0).prbs 30 = false ∧ bitAt (getLane (after (.prbsCheckerEnable 0) up) 0).prbs 30 = true
    ∧ bitAt (getLane (after (.prbsCheckerLock 0) (onPort 0 (fun x => { x with lstate := .test }) (after (.prbsCheckerEnable 0) up))) 0).prbs 21 = true := by decide +kernel
def gapOver (s : State) : State := onLane 0 (fun y => { y with injLeft := 0 }) s
def scanning : State := after (.eyeScanStart 0) (linkUp0 id)
theorem test_inject : injLive (after (.lnInjWrite 0 0x80000100) (linkUp0 id)) 0 = true
    ∧ (getLane (after (.lnInjWrite 0 0x80000102) (linkUp0 id)) 0).injLeft = 4
    ∧ (getLane (after (.errorInjectionInterval 0) (gapOver (after (.lnInjWrite 0 0x80000100) (linkUp0 id)))) 0).inj = 0x00000100
    ∧ (getLane (after (.errorInjectionInterval 0) (gapOver (after (.lnInjWrite 0 0x80000201) (linkUp0 id)))) 0).inj = 0x80000201
    ∧ (getLane (after (.errorInjectionInterval 0) (gapOver (after (.lnInjWrite 0 0x80000201) (linkUp0 id)))) 0).injLeft = 2
    ∧ (getLane (after (.errorInjectionInterval 0) (after (.lnInjWrite 0 0x80000100) (linkUp0 id))) 0).injDone = 0 := by decide +kernel
theorem test_eyeScan : bitAt (getLane (linkUp0 id) 0).eyeCtl 31 = false ∧ eyeRuns (linkUp0 id) 0 = true
    ∧ bitAt (getLane scanning 0).eyeCtl 31 = true ∧ (after (.eyeScanStart 0) up) = up
    ∧ (getLane (after (.eyeScanDone 0 3 9 false) (onLane 0 (fun y => { y with eyeCnt := 2 ^ 20 }) scanning)) 0).eyeCtl = 0x00001400
    ∧ (getLane (after (.eyeScanDone 0 3 9 false) scanning) 0).eyeCtl = 0x80001400
    ∧ eyeRuns (onPort 0 (fun x => { x with lstate := .down }) scanning) 0 = false
    ∧ (getLane (after (.eyeScanDone 0 3 9 true) (onPort 0 (fun x => { x with lstate := .down }) scanning)) 0).eyeCtl = 0x00001480 := by decide +kernel

/-- R384, R385: presets, a step, a step out of range. -/
theorem test_tapRequest : tapRequest 0x0C000000 [0, 0, 0, 63, 0] = ([-2, 4, -14, 39, -4], [1, 1, 1, 1, 1])
    ∧ tapRequest 0x00080000 [0, 0, 0, 63, 0] = ([0, 0, 0, 62, 0], [0, 0, 0, 1, 0])
    ∧ tapRequest 0x00040000 [0, 0, 0, 63, 0] = ([0, 0, 0, 63, 0], [0, 0, 0, 2, 0]) := by decide +kernel
def inPhase (l : LState) (f : Port → Port) : State := onPort 0 (fun x => f { x with lstate := l, rate := 2 }) up
theorem test_signalDetect : (getPort (after (.signalDetect 0) (inPhase .detect id)) 0).signal = true
    ∧ (getPort (after (.signalDetect 0) (onLane 0 (fun l => { l with ctl := setFld l.ctl 28 28 1 }) (inPhase .detect id))) 0).lstate = .run := by decide +kernel
theorem test_trainingFrame : bitAt (getLane (inPhase .coeff id) 1).ctl 24 = true
    ∧ (getLane (after (.trainingFrame 0 1 true 0x18000000 0 false) (inPhase .coeff id)) 1).taps = [0, 0, -8, 51, -4]
    ∧ (getLane (after (.trainingFrame 0 1 true 0x18000000 0x80 false) (inPhase .coeff id)) 1).taps = [0, 0, 0, 63, 0]
    ∧ (getLane (after (.trainingFrame 0 1 true 0x08000000 0 false) (inPhase .coeff id)) 1).taps = [0, 0, 0, 63, 0] := by decide +kernel
def counted (l : LState) (n : Nat) (f : Port → Port) : State :=
  (List.range 4).foldl (fun s k => onLane k (fun y => { y with farCount := some n }) s) (inPhase l (fun x => f { x with countdown := some 0 }))
theorem test_countdownEnd : (getPort (counted .detect 1 (fun x => { x with agreed := 1 })) 0).countdown = some 0
    ∧ farCounted (counted .detect 1 (fun x => { x with agreed := 1 })) 0 = true
    ∧ (getPort (after (.trainingCountdownEnd 0) (counted .detect 1 (fun x => { x with agreed := 1 }))) 0).rate = 1
    ∧ (getPort (after (.trainingCountdownEnd 0) (counted .detect 2 (fun x => { x with agreed := 1 }))) 0).rate = 2
    ∧ (getPort (counted .align 1 id) 0).lstate = .align ∧ farCounted (counted .align 1 id) 0 = true := by decide +kernel
theorem test_phaseFail : rateBit 2 = 1 ∧ coeffBudget 2 = 600000
    ∧ (getPort (after (.trainingPhaseFail 0) (later 600000 (inPhase .coeff id))) 0).failed = 1
    ∧ (getPort (after (.trainingPhaseFail 0) (later 599999 (inPhase .coeff id))) 0).failed = 0
    ∧ (getPort (after (.trainingPhaseFail 0) (onLane 2 (fun y => { y with noMarker := 10 }) (inPhase .align id))) 0).failed = 1
    ∧ (getPort (after (.trainingPhaseFail 0) (later 600000 (inPhase .coeff (fun x => { x with failed := 6 })))) 0).retryAt = some 1600000 := by decide +kernel
theorem test_retryPause : (getPort (after (.trainingRetryPause 0) (later 5 (inPhase .detect (fun x => { x with retryAt := some 5 })))) 0).retryAt = none
    ∧ (getPort (after (.trainingRetryPause 0) (later 4 (inPhase .detect (fun x => { x with retryAt := some 5 })))) 0).retryAt = some 5 := by decide +kernel

/-- R392 to R396, R547 to R550: a quiet port, one with a request of its own, and one that is busy. -/
theorem test_neapEnter : linkRuns (linkUp0 id) 0 = true ∧ portQuiet (linkUp0 id) 0 = true ∧ mayQuiet (linkUp0 id) 0 1 = true
    ∧ (getPort (after (.neapEnter 0 9) (linkUp0 id)) 0).lstate = .neap ∧ (getPort (after (.neapEnter 0 9) replaying) 0).lstate = .run
    ∧ (getPort (after (.lowEnter 0 9) (runPort (fun x => { x with reqKind := 1 }))) 0).lstate = .neap
    ∧ (getPort (after (.lowEnter 0 9) (linkUp0 id)) 0).lstate = .lowWater := by decide +kernel
def asking (k tries : Nat) : State := later 2000 (runPort (fun x => { x with reqKind := k, reqTag := 9, reqTries := tries }))
theorem test_neapReply : (getPort (after (.neapReply 0 9 0) (asking 1 1)) 0).lstate = .neap ∧ (getPort (after (.neapReply 0 9 1) (asking 1 1)) 0).reqKind = 0
    ∧ (getPort (after (.lowReply 0 9 0) (asking 2 1)) 0).lstate = .lowWater ∧ (getPort (after (.lowReply 0 8 0) (asking 2 1)) 0).lstate = .run := by decide +kernel
theorem test_powerRetry : (getPort (asking 1 2) 0).reqAt + 2000 ≤ (asking 1 2).tide.now ∧ (getPort (after (.lanePowerRequestRetry 0) (asking 1 2)) 0).reqTries = 3
    ∧ (getPort (after (.lanePowerRequestRetry 0) (asking 1 3)) 0).reqKind = 0 := by decide +kernel
def idling : State := onPwr (fun p => { p with lmin := 2000 }) (later 1000000 (linkUp0 id))
theorem test_idlePort : isAttach idling 0 = false ∧ neapExit (getPort idling 0).rate ≤ idling.pwr.lmin
    ∧ (getPort idling 0).link.dataAt + max 1000 (10 * neapExit (getPort idling 0).rate) ≤ idling.tide.now
    ∧ (getPort (after (.idleStateDecision false 0) idling) 0).reqKind = 1 := by decide +kernel
theorem test_wakes : (getPort (after (.neapWake 0) (inPhase .neap id)) 0).lstate = .run ∧ (getPort (after (.lowWaterWake 0) (inPhase .lowWater id)) 0).lstate = .down := by decide +kernel
def rgn0 (f : Rgn → Rgn) : State := onRgn 0 f idling
theorem test_regionGate : 0 < idling.pwr.rgns.length ∧ 0 ∉ usedRegions idling ∧ (getRgn idling 0).idleAt + 1000000 ≤ idling.tide.now
    ∧ (getRgn (rgn0 (fun x => { x with gated := false })) 0).gated = false
    ∧ (getRgn (after (.idleStateDecision true 0) (rgn0 (fun x => { x with gated := false }))) 0).gated = true
    ∧ (getRgn (after (.regionGateOpen 0) (rgn0 (fun x => { x with gated := true, opening := true }))) 0).gated = false := by decide +kernel
/-- R4: a region that the part disables stays closed. -/
def disabledRgn : State := { rgn0 (fun x => { x with gated := true, opening := true }) with part := { up.part with mfgRead := true, off := some (0, 0, 0, 0) } }
theorem test_regionDisabled : (0, 0) ∉ (rgn0 id).part.disabled ∧ (0, 0) ∈ disabledRgn.part.disabled
    ∧ (getRgn (after (.regionGateOpen 0) disabledRgn) 0).gated = true := by decide +kernel
theorem test_ebb : (getRgn (after (.droopCrossing 0) idling) 0).ebb = true
    ∧ (getRgn (after (.ebbRelease 0) (rgn0 (fun x => { x with ebb := true, ebbLast := 999000 }))) 0).ebb = false
    ∧ (getRgn (after (.ebbRelease 0) (rgn0 (fun x => { x with ebb := true, ebbLast := 999001 }))) 0).ebb = true
    ∧ 100000 < ebbInWindow (later 1100001 (rgn0 (fun x => { x with ebb := true, ebbAt := 1000000 }))) 0
    ∧ (getRgn (after (.ebbHeavyWindow 0) (later 1100001 (rgn0 (fun x => { x with ebb := true, ebbAt := 1000000 })))) 0).heavyAt = some 1 := by decide +kernel

/-- R552 to R556, R559. -/
def worn : State := onPwr (fun p => { p with vofs := [40, 0, 0, 0] }) (onRgn 0 (fun x => { x with pace := 16 }) up)
theorem test_erosion : (getRgn (after (.erosionMeasure 0 79 876) up) 0).pace = 1 ∧ (getRgn (after (.erosionMeasure 0 80 876) up) 0).pace = 0
    ∧ nth worn.pwr.vofs 0 0 = 40 ∧ (getRgn worn 0).pace = 16 ∧ regionArrays worn 0 = [(0, 0), (0, 1), (0, 8)]
    ∧ (after (.erosionMeasure 0 (-1) 876) worn).flt.storm = true
    ∧ (∀ a ∈ regionArrays worn 0, a ∈ (after (.erosionMeasure 0 (-1) 876) worn).part.retired) := by decide +kernel
theorem test_replan : up.pwr.vofs.length = 4 ∧ (after (.erosionReplan 0 [(0, 90, 1)]) (onRgn 0 (fun x => { x with pace := 3 }) up)).pwr.vofs = [15, 0, 0, 0]
    ∧ (after (.erosionReplan 0 []) (onPwr (fun p => { p with replanArmed := true, replanLo := 5 }) (later 5 up))).pwr.replanArmed = false
    ∧ (after (.pwrReplanWrite 1) up).pwr.replanArmed = true ∧ (after (.pwrReplanWrite 0) up).pwr.replanArmed = false := by decide +kernel
theorem test_thermal : (after (.thermalSample 28 400) up).pwr.thermWarn = true ∧ (after (.thermalSample 28 399) up).pwr.thermWarn = false
    ∧ (after (.thermalSample 3 460) up).dev.state = .cliff ∧ (after (.thermalSample 3 460) up).flt.cliffSrc = 0x37
    ∧ (after (.thermalSample 3 460) up).pwr.thermWarn = true ∧ (after (.thermalSample 3 459) up).dev.state = .run := by decide +kernel


/-- R551, R553, R554: a second measurement or re-plan of the instant changes nothing; R546, R562: a closed gate and a throttle are
counted by the nanosecond; R493: signal at a port held by CLIFF_NOTICE starts its millisecond again. -/
theorem test_measure_and_replan_wait : measureDue (after (.erosionMeasure 0 79 876) up) 0 = false
    ∧ (getRgn (after (.erosionMeasure 0 79 876) (after (.erosionMeasure 0 79 876) up)) 0).pace = 1
    ∧ (getRgn (after (.erosionMeasure 0 79 876) (later 100000000 (after (.erosionMeasure 0 79 876) up))) 0).pace = 2
    ∧ replanOver (onRgn 0 (fun x => { x with pace := 3 }) up) 0 = true
    ∧ replanOver (after (.erosionReplan 0 []) (onRgn 0 (fun x => { x with pace := 3 }) up)) 0 = false := by decide +kernel
theorem test_region_counters : ctrVal (regionNs 0 (rgn0 (fun x => { x with gated := true, ebb := true }))) (kRegion 0 iGATED_NS) = 1
    ∧ ctrVal (regionNs 0 (rgn0 (fun x => { x with gated := true, ebb := true }))) (kRegion 0 iEBB_TIME) = 1
    ∧ ctrVal (regionNs 0 (rgn0 (fun x => { x with gated := true }))) (kRegion 0 iEBB_TIME) = 0 := by decide +kernel
theorem test_hold_restarts : (getPort (after (.signalDetect 0) (later 7 (inPhase .down (fun x => { x with cliffHold := some 3 })))) 0).cliffHold = some 7 := by
  decide +kernel
/-! ## The peer exchange -/

/-- The last segment of a message, and a port that holds the segments before it. -/
def lastSeg (m : List Byte) : Nat := ceilDiv m.length 12 - 1
def segP (ctype : Nat) (m : List Byte) : Packet := ctlPkt vcCTRL 0 0 0 (segBody ctype (lastSeg m) (lastSeg m) (sliceB m (12 * lastSeg m) 12))
def holding (ctype : Nat) (m : List Byte) (e : Peer) : Peer :=
  { e with segs := if lastSeg m = 0 then none else some (ctype, lastSeg m, m.take (12 * lastSeg m)) }
/-- Port 0 is enabled: a port that goes down begins training again. -/
def portOn (s : State) : State := onLane 0 (fun l => { l with ctl := setFld l.ctl 31 31 1 }) s
def keyed (ctype : Nat) (m : List Byte) (f : Peer → Peer) : State := portOn (inPhase .keying (fun x => { x with peer := holding ctype m (f x.peer) }))
def wholeIn (s : State) (ctype : Nat) (m : List Byte) : Bool :=
  linkRuns s 0 && (segP ctype m).ctype == ctype && ((takeSegment 0 ctype (segP ctype m) (takeDelivered 0 (segP ctype m) s)).map (·.2)) == some (some m)

def helloOf (role nonce : Nat) : List Byte := peerMsg (bytesLE 1 1 ++ bytesLE 1 role ++ bytesLE 3 60 ++ zeros 9 ++ bytesBE 32 nonce ++ zeros 32)
def helloIn (role nonce : Nat) : State := keyed 0x20 (helloOf role nonce) id
theorem test_hello : (helloOf 0 5).length = 80 ∧ wholeIn (helloIn 0 5) 0x20 (helloOf 0 5) = true ∧ helloNonce (helloOf 0 5) = 5 ∧ helloEpid (helloOf 0 5) = 60
    ∧ (getPort (after (.hello 0 (segP 0x20 (helloOf 0 5))) (helloIn 0 5)) 0).peer.hello = helloOf 0 5
    ∧ (getPort (after (.hello 0 (segP 0x20 (helloOf 2 5))) (helloIn 2 5)) 0).lstate = .detect := by decide +kernel
theorem test_hello_order : takeSegment 0 0x20 (segP 0x20 (helloOf 0 5)) (takeDelivered 0 (segP 0x20 (helloOf 0 5)) (portOn (inPhase .keying id))) = none
    ∧ (getPort (after (.hello 0 (segP 0x20 (helloOf 0 5))) (portOn (inPhase .keying id))) 0).lstate = .detect
    ∧ (getPort (after (.hello 0 (segP 0x20 (helloOf 0 0))) (helloIn 0 0)) 0).lstate = .detect := by decide +kernel
def certM : List Byte := peerMsg (zeros 20)
/-- An endpoint whose chain no trust anchor in force can end in: cause 2 (R530, R533). -/
def certIn : State := keyed 0x21 certM (fun e => { e with hello := helloOf 1 5 })
theorem test_cert : wholeIn certIn 0x21 certM = true ∧ certM.length ≤ 8194 ∧ certCause certIn (helloOf 1 5) (certM.drop 2) = some 2
    ∧ (getPort (after (.cert 0 (segP 0x21 certM)) certIn) 0).lstate = .detect
    ∧ (getPort (after (.cert 0 (segP 0x21 certM)) certIn) 0).peer.aborts = [0] := by decide +kernel
def proofM : List Byte := peerMsg (zeros 64)
theorem test_proof : proofM.length = 66 ∧ wholeIn (keyed 0x22 proofM (fun e => { e with hello := helloOf 0 5, cert := certM })) 0x22 proofM = true := by decide +kernel
def finishM : List Byte := peerMsg (bytesLE 4 300 ++ zeros 64)
theorem test_finish : finishM.length = 70 ∧ leAt finishM 2 4 = 300
    ∧ wholeIn (keyed 0x23 finishM (fun e => { e with proof := proofM })) 0x23 finishM = true := by decide +kernel
def abortM : List Byte := peerMsg [4]
theorem test_abort : wholeIn (keyed 0x24 abortM id) 0x24 abortM = true
    ∧ (getPort (after (.abort 0 (segP 0x24 abortM)) (keyed 0x24 abortM id)) 0).lstate = .detect
    ∧ (getPort (after (.abort 0 (segP 0x24 abortM)) (keyed 0x24 abortM (fun e => { e with aborts := [0, 0] }))) 0).lstate = .down := by decide +kernel
def keyingLate (n : Nat) : State := later n (inPhase .keying (fun x => { x with peer := { x.peer with aborts := [5, 6] } }))
theorem test_keyingTimeout : linkRuns (keyingLate 5000000) 0 = true ∧ (getPort (keyingLate 5000000) 0).peer.startAt + 5000000 ≤ (keyingLate 5000000).tide.now
    ∧ (getPort (after (.keyingTimeout 0) (keyingLate 5000000)) 0).lstate = .down ∧ (getPort (after (.keyingTimeout 0) (keyingLate 5000000)) 0).peer.held = true
    ∧ (getPort (after (.keyingTimeout 0) (keyingLate 4999999)) 0).lstate = .keying := by decide +kernel
def endOne : Peer := { myHello := helloOf 0 5, hello := helloOf 0 9, myCert := certM, cert := proofM }
def endTwo : Peer := { myHello := helloOf 0 9, hello := helloOf 0 5, myCert := proofM, cert := certM }
theorem test_twoEnds : helloNonce endOne.myHello ≠ helloNonce endOne.hello ∧ isEndA endOne = true ∧ isEndA endTwo = false := by decide +kernel
def msg20 : List Byte := peerMsg (zeros 17 ++ [7])
theorem test_segments : 3 ≤ msg20.length ∧ leAt msg20 0 2 = msg20.length ∧ (getPort up 0).peer.segs = none ∧ lastSeg msg20 = 1
    ∧ (((takeSegment 0 0x20 (ctlPkt vcCTRL 0 0 0 (segBody 0x20 0 1 (sliceB msg20 0 12))) up).bind
        (fun a => takeSegment 0 0x20 (segP 0x20 msg20) a.1)).map (·.2)) = some (some msg20) := by decide +kernel
def switching (f : Peer → Peer) : State := inPhase .keying (fun x => { x with
  peer := f { x.peer with switchTx := some 3, switchRx := some 3 }, link := { x.link with slotTx := 60, slotRx := 60 } })
theorem test_linkRunSwitch : linkRuns (switching id) 0 = true ∧ 5 * portWidth (switching id) 0 * 3 = 60 ∧ finishWaits (getPort (switching id) 0).link = false
    ∧ ((getPort (after (.linkRunSwitch 0 true) (switching id)) 0).lstate, (getPort (after (.linkRunSwitch 0 true) (switching id)) 0).link.slotTx) = (.keying, 0)
    ∧ ((getPort (after (.linkRunSwitch 0 false) (switching id)) 0).peer.runRx, (getPort (after (.linkRunSwitch 0 false) (switching id)) 0).link.slotRx) = (true, 0)
    ∧ (getPort (after (.linkRunSwitch 0 true) (switching (fun e => { e with runRx := true, hello := helloOf 0 5 }))) 0).lstate = .run
    ∧ (getPort (after (.linkRunSwitch 0 false) (switching (fun e => { e with runTx := true, hello := helloOf 1 5 }))) 0).peer.role = some 1 := by decide +kernel
def measM : List Byte := peerMsg (zeros 32 ++ bytesLE 2 6)
def measIn (ctype : Nat) (m : List Byte) : State := runPort (fun x => { x with peer := holding ctype m x.peer })
theorem test_measReq : measM.length = 36 ∧ portRun (measIn 0x25 measM) 0 = true ∧ wholeIn (measIn 0x25 measM) 0x25 measM = true
    ∧ (getPort (measIn 0x25 measM) 0).link.tx = [] := by decide +kernel
theorem test_measRsp : wholeIn (measIn 0x26 measM) 0x26 measM = true
    ∧ (getPort (after (.measRsp 0 (segP 0x26 measM)) (measIn 0x26 measM)) 0).peer.measured = measM := by decide +kernel
/-! ## Tide, launches, stops, images -/

/-- Port 0 leads to a Q7 that is the first parent of this SLAVE. -/
def slave (f : Tide → Tide) : State := onTide (fun t => f { t with role := 2, parents := [0, 0x3FF, 0x3FF], src := 0, tstate := .acquire, now := 1000 }) (runPort asQ7)
def master (f : Tide → Tide) : State := onTide (fun t => f { t with role := 1, pinSrc := true, tstate := .acquire, now := 400 }) up
theorem test_tideReads : regsLive up = true ∧ (after .tideNowRead (later (2 ^ 33 + 5) up)).tide.nowHi = 2
    ∧ (after .devEnterRead (onDev (fun d => { d with enterTide := 2 ^ 32 }) up)).dev.enterHi = 1 := by decide +kernel
theorem test_tideSet : regsLive up = true ∧ up.dev.state ≠ .boot
    ∧ (after (.tideSetWrite 1) (slave id)).tide.setRej = true ∧ (after (.tideSetWrite 0) (later 5 up)).tide.setRej = true
    ∧ (after (.tideSetWrite 0) (master (fun t => { t with setLo := 1000001 }))).tide.setRej = true
    ∧ (after (.tideSetWrite 0) (master (fun t => { t with setLo := 1000000 }))).tide.pendingSet = some 1000000
    ∧ ((after (.tideSetWrite 1) (later 5 up)).tide.now, (after (.tideSetWrite 1) (later 5 up)).flt.wdAt) = (2 ^ 32, 2 ^ 32 - 5) := by decide +kernel
theorem test_tideSet_ports : (mget (runPort id).net.ports 0).map (fun x => x.lstate) = some .run
    ∧ (getPort (after (.tideSetWrite 1) (runPort id)) 0).link.goodAt = 2 ^ 32 := by decide +kernel
theorem test_tideRole : (after (.tideRoleWrite 0x80000000) up).tide.tstate = .holdover ∧ (after (.tideRoleWrite 0x80000000) (slave id)).tide.tstate = .acquire
    ∧ ((after (.tideRoleWrite 0xC0000000) (master id)).tide.role, (after (.tideRoleWrite 0xC0000000) (master id)).tide.pinSrc) = (1, false)
    ∧ (after (.tideRoleWrite 0x70000000) up).tide.outEn = true ∧ (after (.tideRoleWrite 0) (slave id)).tide.tstate = .free := by decide +kernel
/-- R449: high for 100 ns from a millisecond. -/
def ticking (n : Nat) (f : Tide → Tide) : State := onTide (fun t => f { t with outEn := true, now := n }) up
theorem test_tideSyncOut : tideSyncOut (ticking 2000000 id) = true ∧ tideSyncOut (ticking 2000099 id) = true ∧ tideSyncOut (ticking 2000100 id) = false
    ∧ tideSyncOut (ticking 1999999 id) = false ∧ tideSyncOut (ticking 2000050 (fun t => { t with outEn := false })) = false
    ∧ tideSyncOut (ticking 2000050 (fun t => { t with outAt := 2000001 })) = false := by decide +kernel
theorem test_tideParentLoss : linksOn (slave id) = true ∧ parentOf (slave id) = 0 ∧ (after .tideParentLoss (slave (fun t => { t with tstate := .holdover }))).tide.tstate = .acquire
    ∧ (after .tideParentLoss (slave (fun t => { t with parents := [4, 0x3FF, 0x3FF] }))).tide.tstate = .holdover := by decide +kernel

/-- R443, R444: up 50 ns and down 30 ns give θ of 10 ns; 5,000 ns and 30 ns step the counter by 2,485 ns. -/
def halfUp (at2 : Nat) : State := slave (fun t => { t with up := some (100, at2, 900) })
theorem test_tideSync : linkRuns (halfUp 150) 0 = true ∧ portRun (halfUp 150) 0 = true ∧ parentPort (halfUp 150) = some 0 ∧ parentOf (halfUp 150) = (halfUp 150).tide.src
    ∧ (halfUp 150).tide.up = some (100, 150, 900) ∧ 900 ≤ (halfUp 150).tide.now ∧ (halfUp 150).tide.now ≤ 900 + 20000
    ∧ ((after (.tideSync 0 200 230) (halfUp 150)).tide.theta, (after (.tideSync 0 200 230) (halfUp 150)).tide.now) = (160, 1000)
    ∧ (after (.tideSync 0 200 230) (halfUp 5100)).tide.now = 1000 + 2485
    ∧ (getPort (after (.tideSync 0 200 230) (halfUp 150)) 0).link.msgs = [linkMsg 2 (bytesLE 8 200) (bytesLE 8 230)] := by decide +kernel
def halfDown (f : Tide → Tide) : State := slave (fun t => f { t with down := some (200, 230, 900) })
theorem test_tideEcho : (halfDown id).tide.down = some (200, 230, 900)
    ∧ (after (.tideEcho 0 100 150) (halfDown id)).tide.theta = 160 ∧ (after (.tideEcho 0 100 150) (slave id)).tide.up = some (100, 150, 1000)
    ∧ (after (.tideEcho 0 100 130) (halfDown (fun t => { t with good := 15 }))).tide.tstate = .locked
    ∧ (after (.tideEcho 0 100 330) (halfDown (fun t => { t with tstate := .locked, bad := 3 }))).tide.tstate = .acquire := by decide +kernel
theorem test_tideEdge : regsLive (master id) = true ∧ (after .tideSyncInEdge (master id)).tide.theta = -6400
    ∧ ((after .tideSyncInEdge (master (fun t => { t with pendingSet := some 1000000 }))).tide.now,
       (after .tideSyncInEdge (master (fun t => { t with pendingSet := some 1000000 }))).tide.pendingSet) = (1000000, none) := by decide +kernel
theorem test_tideMissing : (after .tideSyncInMissing (master (fun t => { t with missing := 2 }))).tide.tstate = .holdover
    ∧ (after .tideSyncInMissing (master (fun t => { t with missing := 1 }))).tide.tstate = .acquire := by decide +kernel

/-- R452 to R454: JOB 1 is bound to port 0 alone, which runs. -/
def jobbed (s : State) : State := { s with mem := { s.mem with binds := [(0, { epid := 50, cove := 1, maxOut := 64 })], jobPorts := [(0, 1)] } }
def launchOp (job : Nat) : BitVec 384 := pack 384 [(64, 500), (24, 7), (8, job), (32, 0), (256, 0)]
def launchS (job : Nat) : State := ready 0x08 (launchOp job) (jobbed (runPort id))
theorem test_tideLaunch : Ready (launchS 1) 1 0 0x08 (descOf 0x08 (launchOp 1)) ∧ launchPorts (launchS 1) 1 = [0] ∧ linkUp (launchS 1) 0 = true
    ∧ (after (.tideLaunch 1 0) (launchS 1)).launches = [{ id := 7, mark := 500, ports := [0], desc := (1, 0) }]
    ∧ firstStatus (after (.tideLaunch 1 0) (launchS 2)) = 9 ∧ firstStatus (after (.tideLaunch 1 0) (launchS 0)) = 9 := by decide +kernel
def ackP (id st : Nat) : Packet := ctlPkt vcCTRL 0 0 0 (pack 128 [(8, 0x02), (24, id), (64, 0), (8, st), (24, 0)])
def launched : State := { launchS 1 with launches := [{ id := 7, mark := 500, ports := [0], desc := (1, 0) }] }
theorem test_launchAck : engineOn launched = true ∧ (ackP 7 0).ptype = 0 ∧ (ackP 7 0).ctype = 0x02
    ∧ (firstStatus (after (.launchAck 0 (ackP 7 0)) launched), firstResult (after (.launchAck 0 (ackP 7 0)) launched)) = (0, 1)
    ∧ (firstStatus (after (.launchAck 0 (ackP 7 5)) launched), firstResult (after (.launchAck 0 (ackP 7 5)) launched)) = (7, 2 ^ 32 + 1)
    ∧ ctrVal (after (.launchAck 0 (ackP 8 0)) launched) kLAUNCH_STRAY = 1 := by decide +kernel
theorem test_launchDeadline : (later 10500 launched).launches.find? (fun x => x.id == 7 && decide (x.mark + 10000 ≤ (later 10500 launched).tide.now))
      = some { id := 7, mark := 500, ports := [0], desc := (1, 0) }
    ∧ (after (.launchDeadline 7) (later 10500 launched)).launches = [] ∧ (after (.launchDeadline 7) (later 10499 launched)).launches.length = 1 := by decide +kernel

def stopOp (id : Nat) : BitVec 384 := pack 384 [(64, 500), (16, id), (304, 0)]
def stopReady (o id : Nat) (f : Stop → Stop) : State := onStop f (ready o (stopOp id) (runPort asQ7))
theorem test_stopAt : Ready (stopReady 0x09 3 id) 1 0 0x09 (descOf 0x09 (stopOp 3))
    ∧ ((after (.stopAt 1 0) (stopReady 0x09 3 id)).stop.sstate, (after (.stopAt 1 0) (stopReady 0x09 3 id)).stop.mark) = (.armed, 500)
    ∧ firstStatus (after (.stopAt 1 0) (stopReady 0x09 0 id)) = 9
    ∧ firstStatus (after (.stopAt 1 0) (stopReady 0x09 3 (fun t => { t with sstate := .armed }))) = 11 := by decide +kernel
def armed : State := later 500 (stopReady 0x09 3 (fun t => { t with sstate := .armed, stopId := 3, mark := 500, armedBy := some (1, 0) }))
theorem test_stopCut : appliesDue armed 500 = [] ∧ armed.dev.state = .run ∧ armed.stop.mark ≤ armed.tide.now ∧ runPorts armed = [0]
    ∧ ((after .stopCutTidemark armed).stop.sstate, (after .stopCutTidemark armed).stop.frozen) = (.cut, true)
    ∧ (after .stopCutTidemark (later 499 armed)).stop.sstate = .armed := by decide +kernel
def markP (ct id at0 n : Nat) : Packet := ctlPkt vcCTRL 0 0 0 (pack 128 [(8, ct), (16, id), (64, at0), (32, n), (8, 0)])
theorem test_stopMark : appliesDue fabIn 500 = [] ∧ regsLive fabIn = true ∧ engineOn fabIn = true ∧ fabIn.stop.sstate = .idle ∧ (markP 8 3 500 2).ptype = 0 ∧ (markP 8 3 500 2).ctype = 0x08
    ∧ linkUp fabIn 0 = true ∧ (after (.stopMark 0 (markP 8 3 500 2)) fabIn).stop.ports = [{ port := 0, gotMark := true, pktsField := 2 }]
    ∧ (after (.stopMark 0 (markP 8 3 500 2)) fabIn).stop.mark = 500 := by decide +kernel
def cutAt0 (n : Nat) : State := stopReady 0x09 3 (fun t => { t with
  sstate := .cut, stopId := 3, mark := 500, frozen := true, armedBy := some (1, 0), ports := [{ port := 0, gotMark := true, pktsField := n }] })
theorem test_stopSettle : (cutAt0 0).stop.sstate = .cut ∧ (cutAt0 0).dev.state = .run ∧ ((cutAt0 0).stop.ports.filter (fun e => !portDrained (cutAt0 0) e)).length = 0
    ∧ ((after .stopSettle (cutAt0 0)).stop.sstate, (after .stopSettle (cutAt0 0)).dev.state) = (.settled, .stopped)
    ∧ ((after .stopSettle (cutAt0 1)).stop.sstate, firstStatus (after .stopSettle (cutAt0 1))) = (.failed, 6)
    ∧ (after .stopSettle (later 100000 (onStop (fun t => { t with ports := [{ port := 0 }] }) (cutAt0 0)))).stop.sstate = .failed := by decide +kernel

def settledAs (id : Nat) (f : Stop → Stop) : State :=
  onDev (fun d => { d with state := .stopped }) (stopReady 0x0A id (fun t => f { t with sstate := .settled, stopId := 3, mark := 500, frozen := true }))
theorem test_stopResume : Ready (settledAs 3 id) 1 0 0x0A (descOf 0x0A (stopOp 3)) ∧ stopHolds (settledAs 3 id) 3 = true ∧ stopHolds (settledAs 4 id) 4 = false
    ∧ ((after (.stopResume 1 0) (settledAs 3 id)).stop.resumeAt, (after (.stopResume 1 0) (settledAs 3 id)).stop.resumed) = (some 500, [0])
    ∧ firstStatus (after (.stopResume 1 0) (settledAs 4 id)) = 11
    ∧ firstResult (after (.stopResume 1 0) (settledAs 4 (fun t => { t with lastDone := some (4, 77) }))) = 77 := by decide +kernel
theorem test_resume : linkUp (settledAs 3 id) 0 = true ∧ (settledAs 3 id).stop.resumeAt = none ∧ runPorts (settledAs 3 id) = [0]
    ∧ (after (.resume 0 (markP 9 3 900 0)) (settledAs 3 id)).stop.resumeAt = some 900
    ∧ (after (.resume 0 (markP 9 4 900 0)) (settledAs 3 id)).stop = (settledAs 3 id).stop := by decide +kernel
def resuming : State := later 900 { settledAs 3 (fun t => { t with resumeAt := some 900, resumeTaken := 600, resumers := [(1, 0, 0)], cutAt := 500 }) with
  launches := [{ id := 7, mark := 550, ports := [0], desc := (1, 9) }] }
theorem test_resumeTidemark : stopHolds resuming resuming.stop.stopId = true ∧ 900 ≤ resuming.tide.now ∧ resuming.flt.deferred = [] ∧ resuming.stop.before ≠ .cliff
    ∧ ((after .resumeTidemark resuming).stop.sstate, (after .resumeTidemark resuming).dev.state) = (.idle, .run)
    ∧ (after .resumeTidemark resuming).launches.map (·.mark) = [950] ∧ (after .resumeTidemark resuming).host.accepted = []
    ∧ (after .resumeTidemark (later 899 resuming)).stop.sstate = .settled := by decide +kernel

def saveOp (off len : Nat) : BitVec 384 := pack 384 [(64, 0x40), (32, len), (64, off), (16, 3), (208, 0)]
def saving (key : Option (List Byte)) (st : SState) : State :=
  onStop (fun t => { t with sstate := st, stopId := 3 }) (onSec (fun x => { x with cfg := { x.cfg with saveKey := key } }) (ready 0x0B (saveOp 0 64) up))
theorem test_stateSave : Ready (saving none .settled) 1 0 0x0B (descOf 0x0B (saveOp 0 64)) ∧ firstStatus (after (.stateSave 1 0) (saving none .settled)) = 8
    ∧ firstStatus (after (.stateSave 1 0) (saving (some (zeros 32)) .failed)) = 6 ∧ firstStatus (after (.stateSave 1 0) (saving (some (zeros 32)) .idle)) = 11
    ∧ onlyBits (saveOp 0 64) [(383, 320), (319, 288), (287, 224), (223, 208)] = true := by decide +kernel
def restOp (off len : Nat) : BitVec 384 := pack 384 [(64, 0x40), (32, len), (64, off), (224, 0)]
def restoringS (key : Option (List Byte)) (off : Nat) : State := onSec (fun x => { x with cfg := { x.cfg with saveKey := key } })
  (onDev (fun d => { d with state := .train }) (ready 0x0C (restOp off 16) up))
theorem test_stateRestore : Ready (restoringS none 0) 1 0 0x0C (descOf 0x0C (restOp 0 16)) ∧ restoreOk (restoringS none 0) = true
    ∧ firstStatus (after (.stateRestore 1 0 (zeros 16)) (restoringS none 0)) = 8 ∧ firstStatus (after (.stateRestore 1 0 (zeros 16)) (restoringS (some []) 1)) = 9
    ∧ (after (.stateRestore 1 0 (zeros 16)) (restoringS (some (zeros 32)) 0)).restoring = zeros 16
    ∧ restoreOk (ready 0x0C (restOp 0 16) up) = false ∧ firstStatus (after (.stateRestore 1 0 (zeros 16)) (ready 0x0C (restOp 0 16) up)) = 11 := by decide +kernel
/-- An image without its magic. One that is committed needs an answer of the opaque `Config.sectionsRead`. -/
theorem test_commitImage : (commitImage (zeros 32) { up with restoring := zeros 256 }).2 = 9
    ∧ (commitImage (zeros 32) { up with restoring := zeros 256 }).1.restoring = [] := by decide +kernel

/-! ## Snapshots and counters -/

def snapOp (scope cnt : Nat) : BitVec 384 := pack 384 [(64, 500), (4, 2), (4, scope), (32, 0), (32, cnt), (248, 0)]
def snap0 : Snap := { window := 2, scope := 0, first := 0, count := 1, mark := 500, desc := (1, 0) }
theorem test_snapshotAt : Ready (ready 0x10 (snapOp 0 1) up) 1 0 0x10 (descOf 0x10 (snapOp 0 1))
    ∧ ((after (.snapshotAt 1 0) (ready 0x10 (snapOp 0 1) up)).obs.snaps, (getWindow (after (.snapshotAt 1 0) (ready 0x10 (snapOp 0 1) up)) 2).state) = ([snap0], 1)
    ∧ firstStatus (after (.snapshotAt 1 0) (ready 0x10 (snapOp 0 2) up)) = 9 ∧ firstStatus (after (.snapshotAt 1 0) (ready 0x10 (snapOp 11 25600) up)) = 8
    ∧ firstStatus (after (.snapshotAt 1 0) (onWindow 2 (fun w => { w with pend := true }) (ready 0x10 (snapOp 0 1) up))) = 11 := by decide +kernel
def snapped : State := later 500 (onObs (fun o => { o with snaps := [snap0] }) (ready 0x10 (snapOp 0 1) up))
theorem test_snapshotCapture : regsLive snapped = true ∧ snapped.obs.snaps.find? (fun y => y.window == 2) = some snap0 ∧ markDue snapped snap0 = true
    ∧ ((getWindow (after (.snapshotCapture 2) snapped) 2).state, (getWindow (after (.snapshotCapture 2) snapped) 2).seq) = (3, 1)
    ∧ (getWindow (after (.snapshotCapture 2) snapped) 2).records.length = 88
    ∧ (getWindow (after (.snapshotCapture 2) (later 499 snapped)) 2).state = 0 := by decide +kernel
def resetOp (mark : Nat) : BitVec 384 := pack 384 [(64, mark), (4, 0), (4, 4), (32, 3), (32, 2), (248, 0)]
def resetOne : Snap := { window := 0, scope := 4, first := 3, count := 2, mark := 500, desc := (1, 0) }
def resetArmed : State := later 500 (onObs (fun o => { o with resets := [resetOne], ctrs := [((4, 3, 0), { val := 5 })] }) (ready 0x11 (resetOp 500) up))
theorem test_counterReset : Ready (ready 0x11 (resetOp 0) up) 1 0 0x11 (descOf 0x11 (resetOp 0))
    ∧ firstStatus (after (.counterReset 1 0) (ready 0x11 (resetOp 0) up)) = 0 ∧ (after (.counterReset 1 0) (ready 0x11 (resetOp 500) up)).obs.resets = [resetOne]
    ∧ firstStatus (after (.counterReset 1 0) (ready 0x11 (resetOp 0 ||| 1) up)) = 9 := by decide +kernel
theorem test_counterResetTidemark : resetArmed.obs.resets = [resetOne] ∧ markDue resetArmed resetOne = true ∧ resetArmed.obs.snaps = []
    ∧ (after .counterResetTidemark resetArmed).obs.ctrs.find? (fun e => e.1 == (4, 3, 0)) ≠ some ((4, 3, 0), { val := 5 })
    ∧ (genOf (after .counterResetTidemark resetArmed).obs (4, 3), genOf (after .counterResetTidemark resetArmed).obs (4, 5)) = (1, 0) := by decide +kernel
def drainOf (len seq : Nat) : BitVec 384 := pack 384 [(64, 0x40), (32, len), (32, 0), (4, 2), (64, seq), (188, 0)]
def readyWin (len seq : Nat) : State := onWindow 2 (fun w => { w with state := 3, seq := 1, records := zeros 88 }) (ready 0x12 (drainOf len seq) up)
theorem test_telemetryDrain : Ready (readyWin 152 1) 1 0 0x12 (descOf 0x12 (drainOf 152 1))
    ∧ firstStatus (after (.telemetryDrain 1 0) (readyWin 152 1)) = 0 ∧ firstStatus (after (.telemetryDrain 1 0) (readyWin 153 1)) = 8
    ∧ firstStatus (after (.telemetryDrain 1 0) (readyWin 152 2)) = 11
    ∧ memReadN (hostMem (after (.telemetryDrain 1 0) (readyWin 152 1)) 0) 0x40 4 = bytesLE 4 0x4B51534E := by decide +kernel
/-! ## Faults -/

/-- R25: cell 5 of MA0 of CD0 fails, and spare 512 takes over; R477: a Ripple, a Storm, a Cliff, and a reserved source. -/
def cell5 : Word := mkLoc 0 0 5
theorem test_faultRecord_cell : regsLive up = true ∧ up.stop.frozen = false ∧ (locDie cell5, locUnit cell5, locSub cell5) = (0, 0, 5) ∧ arrayEnabled up 0 0 = true
    ∧ nextSpare up 0 0 = some 512 ∧ (after (.faultRecord ⟨0x10, cell5, 0, 0, false, 0, true⟩) up).part.cellMap = [(0, 0, 5, 512)]
    ∧ (after (.faultRecord ⟨0x10, cell5, 0, 0, false, 0, true⟩) up).flt.swell = true
    ∧ (after (.faultRecord ⟨0x10, cell5, 0, 0, false, 0, true⟩) (onStop (fun t => { t with frozen := true }) up)).flt.deferred.length = 1 := by decide +kernel
theorem test_faultRecord_class : classOf 0x01 = some .ripple ∧ classOf 0x10 = some .swell ∧ classOf 0x21 = some .storm ∧ classOf 0x31 = some .cliff ∧ classOf 0x0F = none
    ∧ (after (.faultRecord ⟨0x01, mkLoc 4 0 0, 0, 0, false, 0, true⟩) up).flt.ripple = true
    ∧ ((after (.faultRecord ⟨0x31, mkLoc 0 1 0, 0, 9, false, 0, true⟩) up).dev.state, (after (.faultRecord ⟨0x31, mkLoc 0 1 0, 0, 9, false, 0, true⟩) up).flt.mramCliff)
      = (.cliff, some (0x31, mkLoc 0 1 0, 9))
    ∧ (after (.faultRecord ⟨0x31, mkLoc 0 1 0, 0, 9, true, 0, true⟩) up).flt.mramCliff = none ∧ after (.faultRecord ⟨0x0F, 0, 0, 0, false, 0, true⟩) up = up := by decide +kernel
def watched : State := onFlt (fun f => { f with wdArmed := true }) (later 10000000 up)
theorem test_watchdog : watched.flt.wdArmed = true ∧ watched.flt.wdAt + 10000000 ≤ watched.tide.now ∧ (after .watchdogExpiry watched).flt.cliffSrc = 0x33
    ∧ (after .watchdogExpiry (later 9999999 watched)).dev.state = .run ∧ (after .watchdogRefresh watched).flt.wdAt = 10000000
    ∧ (after (.checkerSelfTest true) up).dev.state = .run ∧ (after (.checkerSelfTest false) up).flt.cliffSrc = 0x32 := by decide +kernel
theorem test_supplies : (after (.railFault 42) up).flt.cliffLoc = mkLoc 17 0 0 ∧ (after (.railFault 42) up).dev.railsOut = [42]
    ∧ (after (.clockLoss 3) up).flt.deadDies = [3] ∧ (after (.clockLoss 12) up).flt.lastSrc = 0x27 ∧ hbmLost (after (.clockLoss 15) up) 1 = true
    ∧ (after (.clockLoss 18) up).flt.cliffSrc = 0x35 := by decide +kernel
theorem test_pcie_stall : (after (.pcieUncorrectable 1) up).flt.lastSrc = 0x27
    ∧ (after (.regionStall 15) up).flt.stalls = [(15, 0)] ∧ (getRgn (after (.regionStall 15) up) 15).opening = true
    ∧ (after (.regionStall 15) (after (.regionStall 15) up)).flt.lastSrc = 0x1B
    ∧ (after (.regionStall 15) (after (.regionStall 15) up)).part.retired = [(3, 6), (3, 7), (3, 11)] := by decide +kernel

/-- R499 to R502. -/
def forcing (loc : Word) : State := onFlt (fun f => { f with injEn := true, forceLoc := loc }) up
theorem test_forceSet : (forcing cell5).dev.state ≠ .boot ∧ (0x10000 : Word).toNat = 2 ^ 16 ∧ namesUnit (forcing cell5) 0x10 cell5 = true ∧ isCondition 0x10 = false
    ∧ (after (.fltForceSet 0 0x10000) (forcing cell5)).flt.armed = [(0x10, cell5)] ∧ after (.fltForceSet 0 0x10000) up = up
    ∧ isCondition 0x20 = true ∧ (after (.fltForceSet 1 1) (forcing (mkLoc 0 0 0))).part.retired = [(0, 0)]
    ∧ (after (.fltForceSet 1 0x20000) (forcing (mkLoc 0 1 0))).dev.state = .run := by decide +kernel
theorem test_forceSet_cliff : namesUnit (forcing (mkLoc 0 1 0)) 0x31 (mkLoc 0 1 0) = true
    ∧ (after (.fltForceSet 1 0x20000) (onFlt (fun f => { f with cliffEn := true }) (forcing (mkLoc 0 1 0)))).dev.state = .cliff := by decide +kernel
def armedOn (src : Nat) (w : Word) (s : State) : State := onFlt (fun f => { f with armed := [(src, w)] }) s
theorem test_forceClr : (after (.fltForceClr 0 0x10000) (armedOn 0x10 cell5 up)).flt.armed = []
    ∧ (after (.fltForceClr 1 0x10000) (armedOn 0x10 cell5 up)).flt.armed.length = 1 := by decide +kernel
theorem test_forcedDetection : mget (armedOn 0x10 cell5 up).flt.armed 0x10 = some cell5
    ∧ ((after (.forcedDetection 0x10 ⟨0, 0⟩) (armedOn 0x10 cell5 up)).flt.armed, (after (.forcedDetection 0x10 ⟨0, 0⟩) (armedOn 0x10 cell5 up)).part.repairLog) = ([], [])
    ∧ laneState (armedOn 3 (mkLoc 4 1 0) (runPort id)) 1 = .run ∧ (getLane (after (.forcedDetection 3 ⟨0, 0⟩) (armedOn 3 (mkLoc 4 1 0) (runPort id))) 1).injForce = some (3, mkLoc 4 1 0)
    ∧ (after (.flitClose 0) (onLink 0 (fun l => { l with slotTx := 1, issued := List.replicate 9 0 }) (after (.forcedDetection 3 ⟨0, 0⟩) (armedOn 3 (mkLoc 4 1 0) (runPort id))))).flt.armed = []
    ∧ (after (.flitClose 0) (onLink 0 (fun l => { l with slotTx := 2, issued := List.replicate 9 0 }) (after (.forcedDetection 3 ⟨0, 0⟩) (armedOn 3 (mkLoc 4 1 0) (runPort id))))).flt.armed.length = 1
    ∧ laneState (armedOn 3 (mkLoc 4 1 0) up) 1 ≠ .run ∧ (after (.forcedDetection 3 ⟨0, 0⟩) (armedOn 3 (mkLoc 4 1 0) up)).flt.armed.length = 1 := by decide +kernel
/-- A detection in the very instant of the clear is still forced (R499). -/
def clearedNow : State := after (.fltForceClr 0 0x10000) (armedOn 0x10 cell5 up)
theorem test_forced_in_instant : mget clearedNow.flt.armed 0x10 = none ∧ (clearedNow.flt.cleared.find? (fun e => e.1 == 0x10 && e.2.2 == clearedNow.tide.now)).map (·.2.1) = some cell5
    ∧ (after (.forcedDetection 0x10 ⟨0, 0⟩) clearedNow).flt.swell = true ∧ (after (.forcedDetection 0x10 ⟨0, 0⟩) (later 1 clearedNow)).flt.swell = false := by decide +kernel
theorem test_lastCliffClear : up.flt.lastCliffAt ≠ some up.tide.now ∧ (after .lastCliffClear (onFlt (fun f => { f with lastCliff := true, cliffSrc := 0x31, mramCliff := some (0x31, 0, 0) }) up)).flt.mramCliff = none
    ∧ (after .lastCliffClear (onFlt (fun f => { f with mramCliff := some (0x31, 0, 0) }) up)).flt.mramCliff = some (0x31, 0, 0) := by decide +kernel
def inCliff : State := { onDev (fun d => { d with state := .cliff }) up with pending := [.go] }
theorem test_cliff : inCliff.dev.state = .cliff ∧ Instr.powerCycle ∉ inCliff.pending ∧ after .go inCliff = inCliff
    ∧ (match step inCliff with | .next t => t.dev.state | _ => .run) = .cliff := by decide +kernel
/-! ## Reset, start-up, security -/

def inReset (f : Dev → Dev) : State := onDev (fun d => f { d with state := .reset, resetLow := true }) State.reset
theorem test_resetAssert : ((after .resetAssert up).dev.state, (after .resetAssert up).dev.prev, (after .resetAssert up).dev.resetLow) = (.reset, .run, true)
    ∧ (after .resetAssert (withGroup rootGroup up)).groups = [] ∧ (after .resetAssert (inReset (fun d => { d with resetLow := false }))).dev.resetLow = true := by decide +kernel
theorem test_resetRelease : (inReset id).dev.railsOut = [] ∧ 18 ∉ (inReset id).dev.clocksAbsent ∧ 19 ∉ (inReset id).dev.clocksAbsent
    ∧ ((after (.resetRelease true false) (inReset id)).dev.state, (after (.resetRelease true false) (inReset id)).dev.bifur) = (.boot, true)
    ∧ (after (.resetRelease true false) (inReset (fun d => { d with clocksAbsent := [18] }))).dev.state = .reset := by decide +kernel
theorem test_swReset : fld (0xA5800000 : Word) 31 24 = 0xA5 ∧ bitAt (0xA5800000 : Word) 23 = true ∧ up.dev.resetLow = false
    ∧ ((after (.swReset 0xA5800000) up).dev.state, (after (.swReset 0xA5800000) up).dev.prev) = (.boot, .reset)
    ∧ (after (.swReset 0xA5000000) up).dev.state = .run ∧ (after (.swReset 0x80800000) up).dev.state = .run := by decide +kernel
theorem test_supplyBack : (after .railsInRange (inReset (fun d => { d with resetLow := false, railsOut := [3] }))).dev.state = .boot
    ∧ (after .railsInRange (inReset (fun d => { d with railsOut := [3] }))).dev.state = .reset
    ∧ (after (.referenceClockStart 18) (inReset (fun d => { d with resetLow := false, clocksAbsent := [18] }))).dev.state = .boot
    ∧ (after (.referenceClockStart 18) (inReset (fun d => { d with resetLow := false, clocksAbsent := [18, 19] }))).dev.state = .reset := by decide +kernel
theorem test_powerCycle : (after .powerCycle inCliff).dev.state = .reset
    ∧ (after .powerCycle (onPart (fun p => { p with retired := [(0, 0)], repairLog := [(1, 2, 3)] }) up)).part = { repairLog := [(1, 2, 3)] } := by decide +kernel

theorem test_sideband : (after (.sidebandRead 0) up).dev.sideband = 0x4B513700 ∧ (after (.sidebandRead 0x10000) inCliff).dev.sideband.toNat / 2 ^ 28 = devCode .cliff
    ∧ inCliff.flt.lastSrc < 256 ∧ (after (.sidebandRead 0x800034) up).dev.sideband = 0 := by decide +kernel
theorem test_boundaryScan : (after (.boundaryScanInstruction 3) up).dev.tap = 1 ∧ (after (.boundaryScanInstruction 3) (inReset id)).dev.tap = 3
    ∧ (after (.boundaryScanInstruction 2) up).dev.tap = 2 ∧ (after (.boundaryScanInstruction 6) up).dev.tap = 1 := by decide +kernel
theorem test_domain1 : after .pcieDomain1Reset (withRings up) = withRings up
    ∧ (getRing (after .pcieDomain1Reset (onDev (fun d => { d with bifur := true }) (withRings up))) 1).state = .active := by decide +kernel

/-- R503, R506, R510: the first step of BOOT that fails. A bundle that passes needs an answer of the opaque signature check. -/
def bootOf (x : StartInput) (s : State) : Nat := (after (.bootSequenceDone x) s).dev.holdReason
theorem test_boot_fails : State.reset.dev.state = .boot ∧ bootOf { okStart with pufOk := false } State.reset = 1 ∧ bootOf { okStart with mfgOk := false } State.reset = 2
    ∧ bootOf { okStart with mramOk := false } State.reset = 3 ∧ bootOf okStart State.reset = 4
    ∧ (after (.bootSequenceDone okStart) State.reset).dev.state = .hold ∧ (after (.bootSequenceDone okStart) State.reset).flt.wdArmed = true := by decide +kernel
def flashed : State := onSec (fun x => { x with flash := [{ seq := 1, bundle := some (zeros 64) }, {}, {}, {}] }) State.reset
theorem test_boot_badFirmware : bootOf okStart flashed = 8 ∧ (after (.bootSequenceDone okStart) flashed).sec.fw.slot = 2 := by decide +kernel
def bStart : StartInput := { okStart with disabled := some (0, 2, 0, 0) }
/-- R3, R4: the first read of the manufacturing record names the regions that stay gated, and no later one changes them. -/
theorem test_readMfg : (readMfg bStart State.reset).part.disabled = [(0, 0), (1, 2), (2, 0), (3, 0)]
    ∧ (getRgn (readMfg bStart State.reset) 6).gated = true
    ∧ (readMfg okStart (readMfg bStart State.reset)).part.disabled = [(0, 0), (1, 2), (2, 0), (3, 0)]
    ∧ arrayEnabled (readMfg bStart State.reset) 1 4 = false := by decide +kernel
def noPool (s : State) : State := onShoal (fun h => { h with cfg := { h.cfg with poolFloor := 2560 } }) s
theorem test_selfTest : failedDie (selfTest okStart up) = none ∧ failedDie (selfTest okStart (noPool up)) = some 0
    ∧ (finishBoot okStart State.reset).dev.state = .train ∧ (finishBoot okStart (noPool State.reset)).dev.holdReason = 0x11 := by decide +kernel
def startingHold : State := onDev (fun d => { d with state := .hold, startingUp := true }) State.reset
theorem test_holdStartUp : startingHold.dev.state = .hold ∧ startingHold.dev.startingUp = true ∧ (after (.holdStartUp okStart) startingHold).dev.state = .train
    ∧ ((after (.holdStartUp okStart) (noPool startingHold)).dev.state, (after (.holdStartUp okStart) (noPool startingHold)).dev.holdReason) = (.hold, 0x11) := by decide +kernel

def fwOp (addr len act : Nat) : BitVec 384 := pack 384 [(64, addr), (32, len), (1, act), (287, 0)]
def fwState (addr len act : Nat) : State := ready 0x70 (fwOp addr len act) up
theorem test_fwLoad : Ready (fwState 0x40 64 0) 1 0 0x70 (descOf 0x70 (fwOp 0x40 64 0)) ∧ fwReason up (zeros 64) = some 8
    ∧ (firstStatus (after (.fwLoad 1 0 (zeros 64)) (fwState 0x40 64 0)), firstResult (after (.fwLoad 1 0 (zeros 64)) (fwState 0x40 64 0))) = (9, 8)
    ∧ firstStatus (after (.fwLoad 1 0 (zeros 64)) (fwState 0x40 64 1)) = 11 ∧ firstStatus (after (.fwLoad 1 0 (zeros 64)) (fwState 0x41 64 0)) = 9
    ∧ firstStatus (after (.fwLoad 1 0 []) (fwState 0x40 (2 ^ 24) 0)) = 8 := by decide +kernel
def cfgOp (len flags : Nat) : BitVec 384 := pack 384 [(64, 0x40), (32, len), (2, flags), (286, 0)]
theorem test_cfgLoad : Ready (ready 0x71 (cfgOp 64 2) up) 1 0 0x71 (descOf 0x71 (cfgOp 64 2)) ∧ cfgReason up (zeros 64) = some 13
    ∧ (firstStatus (after (.cfgLoad 1 0 (zeros 64)) (ready 0x71 (cfgOp 64 2) up)), firstResult (after (.cfgLoad 1 0 (zeros 64)) (ready 0x71 (cfgOp 64 2) up))) = (9, 13)
    ∧ firstStatus (after (.cfgLoad 1 0 (zeros 64)) (ready 0x71 (cfgOp 64 1) up)) = 11
    ∧ firstStatus (after (.cfgLoad 1 0 []) (ready 0x71 (cfgOp (2 ^ 23) 2) up)) = 8 := by decide +kernel
theorem test_flash : up.sec.flash.length = 4 ∧ (writeFlash 3 (zeros 8) (writeFlash 2 (zeros 9) up)).sec.flash.map (fun x => x.seq) = [0, 0, 1, 2]
    ∧ olderSlot (writeFlash 3 (zeros 8) (writeFlash 2 (zeros 9) up)) = 2
    ∧ ((restart 1 1 0 (withRings up)).dev.state, (restart 1 1 0 (withRings up)).sec.nextFw) = (.boot, some 1) := by decide +kernel

def cfgReadOp (len off src : Nat) : BitVec 384 := pack 384 [(64, 0x40), (32, len), (64, off), (2, src), (222, 0)]
def bundled (len off src : Nat) : State := onSec (fun x => { x with cfg := { x.cfg with bundle := List.replicate 100 7 } }) (ready 0x72 (cfgReadOp len off src) up)
theorem test_cfgRead : Ready (bundled 60 40 0) 1 0 0x72 (descOf 0x72 (cfgReadOp 60 40 0))
    ∧ (firstStatus (after (.cfgRead 1 0) (bundled 60 40 0)), firstResult (after (.cfgRead 1 0) (bundled 60 40 0))) = (0, 100)
    ∧ memReadN (hostMem (after (.cfgRead 1 0) (bundled 60 40 0)) 0) 0x78 5 = [7, 7, 7, 7, 0]
    ∧ firstStatus (after (.cfgRead 1 0) (bundled 61 40 0)) = 8 ∧ firstStatus (after (.cfgRead 1 0) (bundled 1 0 1)) = 8
    ∧ firstStatus (after (.cfgRead 1 0) (bundled 1 0 3)) = 9 := by decide +kernel
def measOp (len what : Nat) : BitVec 384 := pack 384 [(64, 0x40), (32, len), (2, what), (286, 0)]
theorem test_measureRead : Ready (ready 0x73 (measOp 64 0) up) 1 0 0x73 (descOf 0x73 (measOp 64 0)) ∧ firstStatus (after (.measureRead 1 0) (ready 0x73 (measOp 64 2) up)) = 9
    ∧ firstStatus (after (.measureRead 1 0) (ready 0x73 (measOp 64 0) up)) = 8 := by decide +kernel
def mfgHold : State := onDev (fun d => { d with state := .hold, holdReason := 2 }) up
theorem test_spdm : regsLive up = true ∧ isPf up 0 = true ∧ (after (.spdmMessage 0 []) up).host.doe.length = 1
    ∧ hardHold mfgHold = true ∧ (after (.spdmMessage 0 []) mfgHold).host.doe = [] := by decide +kernel
def heldBack : State := onHost (fun h => { h with heldCpl := [(descOf 0 0, 9, 5, false, false)] }) (onSec (fun x => { x with cfg := { x.cfg with requireIde := true } }) (ready 0 0 up))
theorem test_ideKm : mgetD (after (.ideKm 0 true true false) up).host.ideActive (linkOfFn up 0) (false, false) = (true, false)
    ∧ after (.ideKm 0 false true true) up = up ∧ (after (.ideKm 0 true true true) heldBack).host.heldCpl = [] := by decide +kernel

/-- Fields of a packed word, and one replaced. -/
theorem test_packedFields : fld (pack 8 ([(3, 5)] ++ (2, 1) :: [(3, 6)])) 4 3 = 1 ∧ 8 = 3 + 2 + 3
    ∧ fld (setFld (0xFF : BitVec 8) 4 3 1) 4 3 = 1 ∧ fld (setFld (0xFF : BitVec 8) 4 3 1) 7 5 = 7
    ∧ bytesLE 2 0x3F80 = [0x80, 0x3F] ∧ bytesBE 2 0x3F80 = [0x3F, 0x80] := by decide +kernel
/-! ## Rules stated word for word -/

theorem test_maskedVector : (0, 5) ∉ up.host.unmasked ∧ (sendVector 0 5 (sendVector 0 5 up)).host.pendingMsi = [(0, 5)] ∧ (sendVector 0 5 up).host.msi = [] := by
  decide +kernel
/-- R500: FORCE_SET of 0x31 with INJ_EN and without CLIFF_EN, and the POLICY that sets both. -/
theorem test_policy : up.flt.injEn = false ∧ (forcing 0).flt.cliffEn = false ∧ (0x20000 : Word).toNat = 2 ^ 17
    ∧ (applyPolicy (bytesLE 8 3) up).map (fun t => (t.flt.injEn, t.flt.cliffEn)) = some (true, true) ∧ (applyPolicy (bytesLE 8 2) up).isNone = true := by decide +kernel
def training (f : Tide → Tide) : State := onTide f (onDev (fun d => { d with state := .train }) State.reset)
def svns (s : State) : State := onSec (fun x => { x with fwSvn := 5, cfgSvn := 1, fw := { x.fw with svn := 3 }, cfg := { x.cfg with svn := 4 } }) s
theorem test_go : regsLive (training id) = true ∧ (training id).stop.frozen = false ∧ (after .go (training id)).dev.state = .run
    ∧ ((after .go (svns (training id))).sec.fwSvn, (after .go (svns (training id))).sec.cfgSvn) = (5, 4)
    ∧ (after .go up).dev.goRej = true ∧ (after .go (training (fun t => { t with role := 2, tstate := .acquire }))).dev.goRej = true
    ∧ (after .go (training (fun t => { t with role := 2, tstate := .locked }))).dev.state = .run := by decide +kernel
/-! ## Lanes, queues of LOCAL, and rules of one instant -/

/-- R381, R397: the generator's bits are sums of the bits that the polynomial names. -/
theorem test_prbs_bits : (prbsRun (prbsTaps 2) 4 0x1FFF).1 = [false, true, true, false] ∧ (prbsRun (prbsTaps 0) 8 0x7F).1 = [false, false, false, false, false, false, true, false]
    ∧ fieldLevels 0x80000001 = [3, 3, 0, 0] ++ (List.replicate 30 [0, 0, 3, 3]).flatten ++ [3, 3, 0, 0] ∧ laneMarker.length = 64 := by decide +kernel
/-- R388: the lanes of a port found in reversed order. -/
theorem test_reversed : laneIn (runPort id) 0 1 = 0 + 1 % portWidth (runPort id) 0
    ∧ laneIn (onPort 0 (fun x => { x with reversed := true }) (runPort id)) 0 0 = portWidth (runPort id) 0 - 1 := by decide +kernel
/-- R402: an eye scan of a port that leaves RUN is ABORTED. -/
theorem test_endEyes : (getLane (endEyes 0 (onLane 0 (fun y => { y with eyeCtl := 0x80000000 }) (runPort id))) 0).eyeCtl = 0x80
    ∧ (getLane (endEyes 0 (onLane 0 (fun y => { y with eyeCtl := 0x80000000 }) up)) 0).eyeCtl = 0x80000000 := by decide +kernel
/-- R429, R439: an entry of the message's own instant is covered by it. -/
theorem test_covered : (getRing (entriesWritten 2 1 true (onHost (fun h => { h with unmasked := [(0, 5)] }) (withRings up))) 2).unsignalled = 0
    ∧ (getRing (entriesWritten 2 1 false (entriesWritten 2 1 true (onHost (fun h => { h with unmasked := [(0, 5)] }) (withRings up)))) 2).unsignalled = 0
    ∧ (getRing (entriesWritten 2 1 false (later 9 (entriesWritten 2 1 true (onHost (fun h => { h with unmasked := [(0, 5)] }) (withRings up))))) 2).unsignalled = 1 := by decide +kernel
/-- R499: a forced 0x01 spoils the next codeword of the lane it names. -/
theorem test_forced_lane : (getLane (after (.forcedDetection 1 ⟨0, 0⟩) (armedOn 1 (mkLoc 4 0 0) (runPort id))) 0).injSym = some (false, 1) := by decide +kernel
/-- R407: a write that is not aligned is a bad access. -/
theorem test_unaligned : ctrVal (after (.registerWrite 0 0 2 0) up) kHOST_BADACC = 1 := by decide +kernel
/-- R317, R564: a packet for an engine stands in a queue of LOCAL until the engine has taken it. -/
def headLocal : State := onShoal (fun h => { h with stored := [headX .here] }) fabIn
theorem test_local : ((getPort (toLocal 0 (xferTo 9 0) (0, 0) headLocal) 768).queues.map (·.2)).flatten = [(0, 0)]
    ∧ ((getPort (settleLocal 0 (takeDelivered 0 (xferTo 9 0) (toLocal 0 (xferTo 9 0) (0, 0) headLocal))) 768).queues.map (·.2)).flatten = [] := by decide +kernel
/-- R303, R304. -/
theorem test_owner_names : ownEmb 7 = ownEmb (7 + 2 ^ 20) ∧ ownersFull up 0 = false := by decide +kernel
/-- R288, R317: of two packets that wait for the engines in one ingress account, the first goes first. -/
def twoWait : State := onRoute (fun r => { r with toEngine := [(1, xferTo 9 0, 0, 0), (1, xferTo 9 1, 0, 1)] })
  (onShoal (fun h => { h with stored := [{ headX .here with acct := .ingress 1 3 }, { headX .here with bufs := [1], acct := .ingress 1 3 }] }) fabIn)
theorem test_line : engineFor twoWait 1 (xferTo 9 0) = true ∧ engineFor twoWait 1 (xferTo 9 1) = false
    ∧ engineFor (takeDelivered 1 (xferTo 9 0) twoWait) 1 (xferTo 9 1) = true := by decide +kernel
/-- R233: PRIMARY before FILL, and FILL once 31 PRIMARY steps have passed it. -/
def classed (n : Nat) : State := setTurn 3 n (onMem (fun m => { m with jobs := [(1, (false, 1)), (2, (true, 1))] }) up)
theorem test_classes : classWaits (classed 30) 3 2 (fun _ => true) = true ∧ classWaits (classed 31) 3 2 (fun _ => true) = false
    ∧ classWaits (classed 31) 3 1 (fun _ => true) = true ∧ turnOfArray (noteTurn 3 1 true (classed 30)) 3 = 31
    ∧ turnOfArray (noteTurn 3 2 true (classed 31)) 3 = 0 := by decide +kernel
/-- R265: two packets of a RUN entry in one instant, the later one in sequence an overrun: the earlier is delivered first. -/
def reordered : ROut := takeLate 0 { flowCtl id with held := [], run := true, exp := 5, late := [(600, 0, xferTo 9 600, 4, 0), (5, 0, xferTo 9 5, 4, 0)] }
theorem test_late : reordered.out.map (fun x => (x.1.1, x.2)) = [(5, false), (600, true)] ∧ disrupts { flowCtl id with run := true, exp := 5 } (xferTo 9 600) = true
    ∧ disrupts { flowCtl id with run := true, exp := 5 } (xferTo 9 516) = false := by decide +kernel
/-- R275: a packet of the instant of SOUNDING_SET counts under the new setting. -/
theorem test_heard : (getPort (endInstant (onPort 0 (fun x => { x with soundIn := some { n := 2, svcs := 255 } })
    (hear (heardIn fabIn 0 (xferTo 9 0) .noRoute [] false) fabIn))) 0).soundIn.map (·.count) = some 1 := by decide +kernel

/-! ## Ciphers, codeword pairs and training frames -/

/-- The GCM specification's test case 14, AES-256. -/
theorem test_gcm : ofBE (gcmTag (zeros 32) (zeros 12) [] (gcmCrypt (zeros 32) (zeros 12) (zeros 16))) = 0xd0d1c8a799996bf0265b98b5d48ab919 := by decide +kernel

/-- FIPS 180-4: the digest of "abc". -/
theorem test_sha512 : ofBE (sha (ascii "abc")) = 0xddaf35a193617abacc417349ae20413112e6fa4e89a97ea20a9eeee64b55d39a2192992a274fc1a836ba3c23a3feebbd454d4423643ce80e2a9ac94fa54ca49f := by decide +kernel

/-- RFC 7748, section 5.2. -/
theorem test_x25519 : ofBE (x25519 (bytesBE 32 0xa546e36bf0527c9d3b16154b82465edd62144c0ac1fc5a18506a2244ba449ac4)
    (bytesBE 32 0xe6db6867583030db3594c1a424b15f7c726624ec26b3353b10a903a6d0ab1c4c))
    = 0xc3da55379de9c6908e94ea4df28d084f32eccf03491c71f754b4075577a28552 := by decide +kernel

/-- RFC 8032, section 7.1, test 1. -/
theorem test_ed25519 : edVerify (bytesBE 32 0xd75a980182b10ab7d54bfed3c964073a0ee172f3daa62325af021a68f707511a) []
    (bytesBE 64 0xe5564300c360ac729086e2cc806e828a84877f1eb8e5d974d873e065224901555fb8821590a33bacc61e39701cf9b46bd25bf5f0595bbe24655141438e7a100b)
    = true := by decide +kernel

/-- R335: a pair is 10,880 bits, and one bit apart in a message changes the parity. -/
theorem test_rs : rsGenerator.length = 30 ∧ (rsParity [1]).length = 30 ∧ rsParity [1] = rsGenerator ∧ rsParity [0, 0] = List.replicate 30 0 := by decide +kernel

/-- R361: NONE ends the messages of a flit, and a reserved MTYPE is none. -/
theorem test_msgsIn : msgsIn [linkMsg 3 [] [], linkMsg 9 [] [], linkMsg 4 [7] [], linkMsg 0 [] [], linkMsg 5 [] []] = [linkMsg 3 [] [], linkMsg 4 [7] []]
    ∧ (getPort (after (.neapEnter 0 7) (linkUp0 (fun l => { l with rxMsgs := [linkMsg 3 [] [], linkMsg 4 [7] []] }))) 0).link.rxMsgs = [linkMsg 3 [] []] := by decide +kernel

/-- R346: a codeword that FEC cannot correct fails the pair's later flits. -/
def failedPair : State := onLane 3 (fun y => { y with pairOk := false }) (linkUp0 id)
theorem test_pairFec : (getPort (after (.flitReceive 0 7 true (dataFlit 0)) failedPair) 0).link.expect = 0
    ∧ (getPort (after (.flitReceive 0 7 true (dataFlit 0)) (linkUp0 id)) 0).link.expect = 1
    ∧ (getPort (after (.flitReceive 0 3 true (dataFlit 0)) failedPair) 0).link.expect = 1 := by decide +kernel

/-- R350, R378: LINK_DOWN waits behind a rewind. -/
theorem test_downWaits : ((getPort (after (.portDisable 0) (onLane 0 (fun y => { y with ctl := setFld y.ctl 31 31 1 }) replaying)) 0).link.msgs).length = 1
    ∧ (getPort (after (.portDisable 0) (onLane 0 (fun y => { y with ctl := setFld y.ctl 31 31 1 }) replaying)) 0).link.sent = [] := by decide +kernel

/-- R381, R387: frames begin on every lane at once, and the first of a countdown carries COUNT 16. -/
theorem test_frames : (getPort (trainNs 0 (inPhase .coeff id)) 0).framePos = 0 ∧ (getLane (trainNs 0 (inPhase .coeff id)) 3).line.length = 4096
    ∧ (getPort (trainNs 0 (inPhase .align (fun x => { x with countdown := some 16 }))) 0).countOn = true
    ∧ (getPort (trainNs 0 (trainNs 0 (inPhase .align (fun x => { x with countdown := some 16 })))) 0).framePos = 28
    ∧ (getPort (trainNs 0 (inPhase .align (fun x => { x with countdown := some 1, countOn := true, framePos := 4090 }))) 0).countdown = some 0
    ∧ fld (statusSent (inPhase .align (fun x => { x with countdown := some 16 })) 0 1) 7 0 = 0x90 := by decide +kernel

/-- R377: a lane with TX_INV puts the other polarity on the line. -/
theorem test_txInv : (driveLine { ctl := setFld (0 : Word) 25 25 1 } [3, 3, 0, 1]).line = [0, 0, 3, 2] ∧ (driveLine {} [3, 1]).line = [3, 1] := by decide +kernel

/-- R394: a request is not sent again while something waits to be sent. -/
theorem test_noRetry : (getPort (after (.lanePowerRequestRetry 0) (later 2000 (onPort 0 (fun x => { x with reqKind := 1, reqTries := 1 }) replaying))) 0).reqKind = 0
    ∧ (getPort (after (.lanePowerRequestRetry 0) (later 2000 (onPort 0 (fun x => { x with reqKind := 1, reqTries := 1 }) (linkUp0 id)))) 0).reqTries = 2 := by decide +kernel

end Sys2Proof.Tests
end

/-! ## Packed fields and byte strings (R14, R56, R421)

Fields are compared bit by bit: `testBit_fld` and `testBit_setFld` say where each bit of a field comes from. -/

section
namespace Sys2Proof.Machine

/-! ## Bit by bit -/

/-- Bit `i` of field [hi:lo] is bit `lo + i` of the whole. -/
theorem testBit_fld {n : Nat} (w : BitVec n) (hi lo i : Nat) :
    (fld w hi lo).testBit i = (decide (i < hi + 1 - lo) && w.toNat.testBit (lo + i)) := by
  simp [fld, Nat.testBit_mod_two_pow, Nat.testBit_shiftRight]

/-- A number around its bits [hi:lo]: what is above them, the field, what is below. -/
theorem toNat_eq_around_fld {n : Nat} (x : BitVec n) {hi lo : Nat} (h : lo ≤ hi) :
    x.toNat = x.toNat / 2 ^ (hi + 1) * 2 ^ (hi + 1) + fld x hi lo * 2 ^ lo + x.toNat % 2 ^ lo := by
  have hw : 2 ^ (hi + 1) = 2 ^ lo * 2 ^ (hi + 1 - lo) := by rw [← pow_add]; congr 1; omega
  have hlow := Nat.mod_add_div x.toNat (2 ^ lo)
  have hhigh := Nat.mod_add_div (x.toNat / 2 ^ lo) (2 ^ (hi + 1 - lo))
  rw [fld, Nat.shiftRight_eq_div_pow, hw, ← Nat.div_div_eq_div_mul]
  conv_lhs => rw [← hlow, ← hhigh]
  ring

/-- Replacing field [hi:lo] leaves what is above it and what is below it. -/
theorem toNat_setFld {n : Nat} (x : BitVec n) {hi lo : Nat} (v : Nat) (h : lo ≤ hi) :
    (setFld x hi lo v).toNat
      = (2 ^ lo * (2 ^ (hi + 1 - lo) * (x.toNat / 2 ^ (hi + 1)) + v % 2 ^ (hi + 1 - lo)) + x.toNat % 2 ^ lo) % 2 ^ n := by
  have hw : 2 ^ (hi + 1) = 2 ^ lo * 2 ^ (hi + 1 - lo) := by rw [← pow_add]; congr 1; omega
  have hx := toNat_eq_around_fld x h
  simp only [setFld, BitVec.toNat_ofNat, Nat.shiftLeft_eq]
  congr 1
  rw [Nat.mul_add, ← Nat.mul_assoc, ← hw, Nat.mul_comm (2 ^ (hi + 1)), Nat.mul_comm (2 ^ lo)]
  omega

/-- The bits of a bit field with field [hi:lo] replaced: inside the field those of the value, outside those that stood. -/
theorem testBit_setFld {n : Nat} (x : BitVec n) {hi lo : Nat} (v i : Nat) (h : lo ≤ hi) (hn : hi < n) :
    (setFld x hi lo v).toNat.testBit i = if lo ≤ i ∧ i ≤ hi then v.testBit (i - lo) else x.toNat.testBit i := by
  rw [toNat_setFld x v h, Nat.testBit_mod_two_pow,
    Nat.testBit_two_pow_mul_add _ (Nat.mod_lt _ (Nat.two_pow_pos lo)),
    Nat.testBit_two_pow_mul_add _ (Nat.mod_lt _ (Nat.two_pow_pos (hi + 1 - lo))),
    Nat.testBit_mod_two_pow, Nat.testBit_mod_two_pow, Nat.testBit_div_two_pow]
  by_cases hlow : i < lo
  · simp [hlow, show i < n by omega]
  · by_cases hin : i ≤ hi
    · simp [hlow, show i < n by omega, show i - lo < hi + 1 - lo by omega, show lo ≤ i by omega, hin]
    · rw [if_neg hlow, if_neg (by omega), if_neg (by omega), show i - lo - (hi + 1 - lo) + (hi + 1) = i by omega]
      by_cases hin' : i < n
      · simp [hin']
      · simp [hin', Nat.testBit_lt_two_pow (x.isLt.trans_le (Nat.pow_le_pow_right (by omega) (Nat.le_of_not_lt hin')))]

/-- A replaced field reads back the value, cut to the field's width. -/
theorem fld_setFld_same {n : Nat} (x : BitVec n) {hi lo : Nat} (v : Nat) (h : lo ≤ hi) (hn : hi < n) :
    fld (setFld x hi lo v) hi lo = v % 2 ^ (hi + 1 - lo) := by
  refine Nat.eq_of_testBit_eq fun i => ?_
  rw [testBit_fld, testBit_setFld x v _ h hn, Nat.testBit_mod_two_pow]
  by_cases hi' : i < hi + 1 - lo
  · simp [hi', show lo + i ≤ hi by omega]
  · simp [hi']

/-- A field on either side of the replaced one reads as before. -/
theorem fld_setFld_apart {n : Nat} (x : BitVec n) {hi lo h l : Nat} (v : Nat) (hw : lo ≤ hi) (hn : hi < n)
    (apart : h < lo ∨ hi < l) : fld (setFld x hi lo v) h l = fld x h l := by
  refine Nat.eq_of_testBit_eq fun i => ?_
  rw [testBit_fld, testBit_fld, testBit_setFld x v _ hw hn]
  by_cases hi' : i < h + 1 - l
  · rw [if_neg (by omega)]
  · simp [hi']

/-! ## Joined fields -/

theorem sumOf_foldl {α : Type} (f : α → Nat) (l : List α) (n : Nat) :
    l.foldl (fun n x => n + f x) n = n + sumOf l f := by
  induction l generalizing n with
  | nil => rfl
  | cons x r ih => simp only [sumOf, List.foldl_cons, ih (n + f x), ih (0 + f x)]; omega

@[simp] theorem sumOf_nil {α : Type} (f : α → Nat) : sumOf [] f = 0 := rfl

@[simp] theorem sumOf_cons {α : Type} (f : α → Nat) (x : α) (r : List α) : sumOf (x :: r) f = f x + sumOf r f := by
  simp [sumOf, List.foldl_cons, sumOf_foldl f r (f x)]

/-- Fields joined after `acc` stand below it. -/
theorem packNat_eq (l : List (Nat × Nat)) (acc : Nat) :
    packNat l acc = 2 ^ sumOf l (·.1) * acc + packNat l 0 := by
  induction l generalizing acc with
  | nil => simp [packNat]
  | cons e r ih =>
    simp only [packNat, sumOf_cons, ih (acc * 2 ^ e.1 + _), ih (0 * 2 ^ e.1 + _), pow_add]
    ring

/-- Joined fields fill their widths. -/
theorem packNat_lt (l : List (Nat × Nat)) : packNat l 0 < 2 ^ sumOf l (·.1) := by
  induction l with
  | nil => simp [packNat]
  | cons e r ih =>
    rw [packNat, packNat_eq, sumOf_cons, pow_add, Nat.zero_mul, Nat.zero_add]
    exact Nat.mul_add_lt_mul_of_lt_of_lt (Nat.mod_lt _ (Nat.two_pow_pos _)) ih

theorem packNat_append (a b : List (Nat × Nat)) (acc : Nat) : packNat (a ++ b) acc = packNat b (packNat a acc) := by
  induction a generalizing acc with
  | nil => rfl
  | cons e r ih => exact ih _

/-- A joined field reads back at its place, whatever stands above and below it. -/
theorem fld_pack (n w v : Nat) (before after : List (Nat × Nat)) (hw : 0 < w)
    (hn : n = sumOf before (·.1) + w + sumOf after (·.1)) :
    fld (pack n (before ++ (w, v) :: after)) (w + sumOf after (·.1) - 1) (sumOf after (·.1)) = v % 2 ^ w := by
  refine Nat.eq_of_testBit_eq fun i => ?_
  rw [testBit_fld, pack, BitVec.toNat_ofNat, packNat_append, packNat, packNat_eq, Nat.mul_comm _ (2 ^ w),
    Nat.testBit_mod_two_pow, Nat.testBit_two_pow_mul_add _ (packNat_lt after), if_neg (by omega), Nat.add_sub_cancel_left,
    Nat.testBit_two_pow_mul_add _ (Nat.mod_lt _ (Nat.two_pow_pos w)), Nat.testBit_mod_two_pow]
  by_cases hi : i < w
  · simp [hi, show i < w + sumOf after (·.1) - 1 + 1 - sumOf after (·.1) by omega, show sumOf after (·.1) + i < n by omega]
  · simp [hi, show ¬ i < w + sumOf after (·.1) - 1 + 1 - sumOf after (·.1) by omega]

/-! ## Byte strings -/

theorem ofLE_bytesLE (n v : Nat) : ofLE (bytesLE n v) = v % 256 ^ n := by
  induction n generalizing v with
  | zero => simp [bytesLE, ofLE, Nat.mod_one]
  | succ n ih => rw [bytesLE, ofLE, ih, pow_succ', Nat.mod_mul]; rfl

theorem ofBE_bytesBE (n v : Nat) : ofBE (bytesBE n v) = v % 256 ^ n := by
  rw [ofBE, bytesBE, List.reverse_reverse, ofLE_bytesLE]

/-- A slice as long as the string is the string. -/
theorem sliceB_whole (l : List Byte) (n : Nat) (h : l.length = n) : sliceB l 0 n = l := by
  subst h; simp [sliceB]

/-- Settles O60: joined and replaced fields bit by bit, byte strings by induction on the number of bytes. -/
theorem packedFieldsReadBack : Obligations.PackedFieldsReadBack := by
  unfold Obligations.PackedFieldsReadBack
  refine ⟨fun n w v before after hw hn => fld_pack n w v before after hw hn, fun n hi lo v x h hn =>
    ⟨fld_setFld_same x v h hn, fun _ _ _ _ apart => fld_setFld_apart x v h hn apart⟩, fun n v => ⟨?_, ?_⟩⟩
  · rw [leAt, sliceB_whole _ n (bytesLE_length n v), ofLE_bytesLE]
  · rw [beAt, sliceB_whole _ n (bytesBE_length n v), ofBE_bytesBE]

end Sys2Proof.Machine
end

/-! ## BOOT and start-up (R3, R4, R302, R503, R506, R510, R518, R585, R586) -/

section
namespace Sys2Proof.Machine

/-! ## Regions by number -/

@[simp] theorem modAt_length {α : Type} (l : List α) (i : Nat) (f : α → α) : (modAt l i f).length = l.length := by
  unfold modAt
  split <;> simp

theorem nth_modAt_same {α : Type} (l : List α) (i : Nat) (f : α → α) (d : α) (h : i < l.length) :
    nth (modAt l i f) i d = f (nth l i d) := by
  simp [modAt, nth, h]

theorem nth_modAt_ne {α : Type} (l : List α) (i j : Nat) (f : α → α) (d : α) (h : i ≠ j) :
    nth (modAt l i f) j d = nth l j d := by
  unfold modAt nth
  split
  · rw [List.getElem?_set_ne h]
  · rfl

@[simp] theorem onRgn_rgns_length (s : State) (r : Nat) (f : Rgn → Rgn) :
    (onRgn r f s).pwr.rgns.length = s.pwr.rgns.length := modAt_length _ _ _

theorem getRgn_onRgn_same {s : State} {r : Nat} (f : Rgn → Rgn) (h : r < s.pwr.rgns.length) :
    getRgn (onRgn r f s) r = f (getRgn s r) := nth_modAt_same _ _ _ _ h

theorem getRgn_onRgn_ne (s : State) {r k : Nat} (f : Rgn → Rgn) (h : r ≠ k) : getRgn (onRgn r f s) k = getRgn s k :=
  nth_modAt_ne _ _ _ _ _ h

/-- What a change of a region keeps of every region, it keeps of each region of the state. -/
theorem getRgn_onRgn_keeps {P : Rgn → Prop} {f : Rgn → Rgn} (hf : ∀ x, P x → P (f x)) {s : State} (r : Nat) {k : Nat}
    (h : P (getRgn s k)) : P (getRgn (onRgn r f s) k) := by
  by_cases hk : r = k
  · subst hk
    by_cases hr : r < s.pwr.rgns.length
    · rw [getRgn_onRgn_same f hr]
      exact hf _ h
    · have : s.pwr.rgns[r]? = none := List.getElem?_eq_none (Nat.le_of_not_lt hr)
      simpa [getRgn, onRgn, onPwr, modAt, this] using h
  · rwa [getRgn_onRgn_ne s f hk]

/-- A change made to listed regions one after another reaches each that exists. -/
theorem getRgn_forAll_onRgn {α : Type} {P : Rgn → Prop} {f : Rgn → Rgn} (idx : α → Nat) (hf : ∀ x, P (f x)) {l : List α} {e : α}
    (he : e ∈ l) {s : State} (h : idx e < s.pwr.rgns.length) :
    P (getRgn (forAll l (fun e => onRgn (idx e) f) s) (idx e)) := by
  induction l generalizing s with
  | nil => cases he
  | cons x r ih =>
    rcases List.mem_cons.1 he with rfl | he
    · refine forAll_keeps (P := fun u => P (getRgn u (idx e))) (fun x u => getRgn_onRgn_keeps (fun y _ => hf y) (idx x)) r _ ?_
      rw [getRgn_onRgn_same f h]
      exact hf _
    · exact ih he (by rwa [onRgn_rgns_length])

/-! ## Changes of the device state -/

/-- A new rate of BEACON changes BEACON's own fields alone. -/
theorem retuneBeacon_frame (st : DevState) (now : Nat) (d : Dev) :
    ∃ r o a f u, retuneBeacon st now d = { d with bcnRate := r, bcnOld := o, bcnAt := a, bcnFree := f, bcnUp := u } := by
  unfold retuneBeacon
  repeat' split
  all_goals exact ⟨_, _, _, _, _, rfl⟩

/-- Entering a state sets STATE, PREV and the instant, and BEACON's rate; the rest of the device stands. -/
theorem enterState_dev (st : DevState) (s : State) :
    ∃ r o a f u, (enterState st s).dev = { s.dev with
      bcnRate := r, bcnOld := o, bcnAt := a, bcnFree := f, bcnUp := u,
      prev := s.dev.state, state := st, enterTide := s.tide.now } := by
  obtain ⟨r, o, a, f, u, h⟩ := retuneBeacon_frame st s.tide.now s.dev
  exact ⟨r, o, a, f, u, by simp [enterState, postStateChanged, setState, h]⟩

section
variable (st : DevState) (s : State)

@[simp] theorem enterState_state : (enterState st s).dev.state = st := by
  obtain ⟨_, _, _, _, _, h⟩ := enterState_dev st s; rw [h]
@[simp] theorem enterState_prev : (enterState st s).dev.prev = s.dev.state := by
  obtain ⟨_, _, _, _, _, h⟩ := enterState_dev st s; rw [h]
@[simp] theorem enterState_holdReason : (enterState st s).dev.holdReason = s.dev.holdReason := by
  obtain ⟨_, _, _, _, _, h⟩ := enterState_dev st s; rw [h]
@[simp] theorem enterState_holdWhere : (enterState st s).dev.holdWhere = s.dev.holdWhere := by
  obtain ⟨_, _, _, _, _, h⟩ := enterState_dev st s; rw [h]
@[simp] theorem enterState_holdItem : (enterState st s).dev.holdItem = s.dev.holdItem := by
  obtain ⟨_, _, _, _, _, h⟩ := enterState_dev st s; rw [h]
@[simp] theorem enterState_startingUp : (enterState st s).dev.startingUp = s.dev.startingUp := by
  obtain ⟨_, _, _, _, _, h⟩ := enterState_dev st s; rw [h]
@[simp] theorem enterState_mfg : (enterState st s).dev.mfg = s.dev.mfg := by
  obtain ⟨_, _, _, _, _, h⟩ := enterState_dev st s; rw [h]
@[simp] theorem enterState_part : (enterState st s).part = s.part := by simp [enterState, postStateChanged, setState]
@[simp] theorem enterState_sec : (enterState st s).sec = s.sec := by simp [enterState, postStateChanged, setState]
@[simp] theorem enterState_flt : (enterState st s).flt = s.flt := by simp [enterState, postStateChanged, setState]

end

/-! ## The enables that BOOT held back (R418) -/

/-- `t` differs from `s` in the host interface, the counters and the power registers alone. -/
def HostPwrOnly (s t : State) : Prop := t = { s with host := t.host, obs := t.obs, pwr := t.pwr }

theorem HostPwrOnly.trans {s t u : State} (h : HostPwrOnly s t) (k : HostPwrOnly t u) : HostPwrOnly s u := by
  unfold HostPwrOnly at *
  rw [k, h]

theorem HostOnly.hostPwrOnly {s t : State} (h : HostOnly s t) : HostPwrOnly s t := by
  unfold HostOnly at h
  unfold HostPwrOnly
  rw [h]

theorem hostPwrOnly_forAll {α : Type} {f : α → State → State} (h : ∀ x u, HostPwrOnly u (f x u)) :
    ∀ (l : List α) (s : State), HostPwrOnly s (forAll l f s)
  | [], _ => rfl
  | x :: r, s => (h x s).trans (hostPwrOnly_forAll h r (f x s))

theorem hostPwrOnly_onRing (r : Nat) (f : Ring → Ring) (s : State) : HostPwrOnly s (onRing r f s) :=
  (hostOnly_onRing s r f).hostPwrOnly

theorem hostPwrOnly_relines (s : State) : HostPwrOnly s (relines s) := rfl

theorem hostPwrOnly_rescale (s : State) : HostPwrOnly s (rescale s) := by
  unfold rescale
  exact ((hostOnly_onHost s _).hostPwrOnly.trans (hostPwrOnly_relines _)).trans
    (hostOnly_onlyIf _ _ (hostOnly_postDev _ _ _)).hostPwrOnly

theorem hostPwrOnly_enableRing (r : Nat) (s : State) : HostPwrOnly s (enableRing r s) := by
  unfold enableRing
  dsimp only
  split
  · split
    · unfold forgetStale
      exact ((hostOnly_onHost s _).hostPwrOnly.trans (hostPwrOnly_onRing _ _ _)).trans (hostPwrOnly_rescale _)
    · split <;> exact hostPwrOnly_onRing _ _ _
  · rfl
  · exact hostPwrOnly_onRing _ _ _

/-- The end of BOOT touches the host interface, the counters, the power registers and the watchdog, which it arms. -/
theorem bootEnds_frame (s : State) : bootEnds s = { s with
    host := (bootEnds s).host, obs := (bootEnds s).obs, pwr := (bootEnds s).pwr,
    flt := { s.flt with wdArmed := true, wdAt := s.tide.now } } := by
  have h (l m : List Nat) : HostPwrOnly s (forAll m enableRing (forAll l enableRing s)) :=
    (hostPwrOnly_forAll hostPwrOnly_enableRing l s).trans (hostPwrOnly_forAll hostPwrOnly_enableRing m _)
  unfold bootEnds
  dsimp only [onFlt]
  rw [h]

@[simp] theorem bootEnds_dev (s : State) : (bootEnds s).dev = s.dev := by rw [bootEnds_frame]
@[simp] theorem bootEnds_part (s : State) : (bootEnds s).part = s.part := by rw [bootEnds_frame]
@[simp] theorem bootEnds_sec (s : State) : (bootEnds s).sec = s.sec := by rw [bootEnds_frame]
@[simp] theorem bootEnds_wdArmed (s : State) : (bootEnds s).flt.wdArmed = true := by rw [bootEnds_frame]

/-! ## HOLD -/

section
variable (reason place item : Nat) (s : State)

@[simp] theorem enterHold_state : (enterHold reason place item s).dev.state = .hold := by simp [enterHold]
@[simp] theorem enterHold_prev : (enterHold reason place item s).dev.prev = s.dev.state := by simp [enterHold, setHold]
@[simp] theorem enterHold_holdReason : (enterHold reason place item s).dev.holdReason = reason := by simp [enterHold, setHold]
@[simp] theorem enterHold_holdWhere : (enterHold reason place item s).dev.holdWhere = place := by simp [enterHold, setHold]
@[simp] theorem enterHold_holdItem : (enterHold reason place item s).dev.holdItem = item := by simp [enterHold, setHold]
@[simp] theorem enterHold_mfg : (enterHold reason place item s).dev.mfg = s.dev.mfg := by simp [enterHold, setHold]
@[simp] theorem enterHold_part : (enterHold reason place item s).part = s.part := by simp [enterHold, setHold]
@[simp] theorem enterHold_sec : (enterHold reason place item s).sec = s.sec := by simp [enterHold, setHold]
@[simp] theorem enterHold_wdArmed : (enterHold reason place item s).flt.wdArmed = true := by simp [enterHold, setHold]

/-- HOLD that the boot ROM serves: the state, the reason, the watchdog, and what stands. -/
theorem holdByRom_spec :
    (holdByRom reason place s).dev.state = .hold ∧ (holdByRom reason place s).dev.prev = s.dev.state
      ∧ (holdByRom reason place s).dev.holdReason = reason ∧ (holdByRom reason place s).flt.wdArmed = true
      ∧ (holdByRom reason place s).sec.flash = s.sec.flash ∧ (holdByRom reason place s).part = s.part := by
  simp [holdByRom]

@[simp] theorem holdByRom_mfg : (holdByRom reason place s).dev.mfg = s.dev.mfg := by simp [holdByRom]

end

/-! ## TRAIN -/

/-- `t` differs from `s` in the ports and lanes alone. -/
def NetOnly (s t : State) : Prop := t = { s with net := t.net }

theorem NetOnly.trans {s t u : State} (h : NetOnly s t) (k : NetOnly t u) : NetOnly s u := by
  unfold NetOnly at *
  rw [k, h]

theorem netOnly_forAll {α : Type} {f : α → State → State} (h : ∀ x u, NetOnly u (f x u)) :
    ∀ (l : List α) (s : State), NetOnly s (forAll l f s)
  | [], _ => rfl
  | x :: r, s => (h x s).trans (netOnly_forAll h r (f x s))

theorem netOnly_onPort (p : Nat) (f : Port → Port) (s : State) : NetOnly s (onPort p f s) := rfl
theorem netOnly_onLane (l : Nat) (f : Lane → Lane) (s : State) : NetOnly s (onLane l f s) := rfl

theorem netOnly_endEyes (p : Nat) (s : State) : NetOnly s (endEyes p s) := by
  unfold endEyes
  dsimp only
  split
  · exact netOnly_forAll (fun _ _ => netOnly_onLane _ _ _) _ _
  · rfl

theorem netOnly_toDetect (p : Nat) (s : State) : NetOnly s (toDetect p s) :=
  ((netOnly_endEyes p s).trans (netOnly_onPort p _ _)).trans (netOnly_forAll (fun _ _ => netOnly_onLane _ _ _) _ _)

theorem netOnly_startPorts (s : State) : NetOnly s (startPorts s) := by
  refine netOnly_forAll (fun p u => ?_) _ s
  unfold startPort
  split
  · rfl
  · split
    · exact netOnly_onPort p _ u
    · exact netOnly_toDetect p u

@[simp] theorem setTState_dev (st : TState) (s : State) : (setTState st s).dev = s.dev := by
  unfold setTState
  split <;> simp

@[simp] theorem setTState_flt (st : TState) (s : State) : (setTState st s).flt = s.flt := by
  unfold setTState
  split <;> simp

@[simp] theorem retide_dev (s : State) : (retide s).dev = s.dev := by
  unfold retide
  dsimp only
  repeat' split
  all_goals simp

@[simp] theorem retide_flt (s : State) : (retide s).flt = s.flt := by
  unfold retide
  dsimp only
  repeat' split
  all_goals simp

@[simp] theorem postSelfTest_flt (s : State) : (postSelfTest s).flt = s.flt := by
  rw [show HostOnly s (postSelfTest s) from hostOnly_forAll (fun _ _ => hostOnly_postDev _ _ _) _ s]

/-- With every step passed the Q7 is in TRAIN, no longer starting up, with no HOLD reason; the watchdog stands. -/
theorem enterTrain_spec (s : State) :
    (enterTrain s).dev.state = .train ∧ (enterTrain s).dev.startingUp = false ∧ (enterTrain s).dev.holdReason = 0
      ∧ (enterTrain s).flt = s.flt := by
  unfold enterTrain
  dsimp only
  rw [retide_dev, retide_flt, netOnly_startPorts]
  simp

/-! ## The steps of BOOT (R585) -/

section
variable (x : StartInput) (s : State)

/-- The manufacturing record read: the part's disabled regions are fixed at the first read, and the state of the device
stands. -/
theorem readMfg_spec :
    (readMfg x s).dev = { s.dev with mfg := true }
      ∧ (readMfg x s).part = (if s.part.mfgRead = true then s.part else { s.part with mfgRead := true, off := x.disabled })
      ∧ (readMfg x s).sec = s.sec := by
  refine ⟨?_, ?_, ?_⟩
  · exact (forAll_same (g := State.dev) (f := fun e : Nat × Nat => onRgn (4 * e.1 + e.2) _) (fun _ _ => rfl) _ _)
  · exact (forAll_same (g := State.part) (f := fun e : Nat × Nat => onRgn (4 * e.1 + e.2) _) (fun _ _ => rfl) _ _)
  · exact (forAll_same (g := State.sec) (f := fun e : Nat × Nat => onRgn (4 * e.1 + e.2) _) (fun _ _ => rfl) _ _)

/-- Each disabled region stands power-gated (R4). -/
theorem readMfg_gated {e : Nat × Nat} (he : e ∈ (readMfg x s).part.disabled) (h : 4 * e.1 + e.2 < s.pwr.rgns.length) :
    (getRgn (readMfg x s) (4 * e.1 + e.2)).gated = true := by
  rw [(readMfg_spec x s).2.1] at he
  exact getRgn_forAll_onRgn (P := fun r => r.gated = true) (fun e : Nat × Nat => 4 * e.1 + e.2) (fun _ => rfl) he h

@[simp] theorem bootMram_mfg : (bootMram x s).dev.mfg = s.dev.mfg := by
  unfold bootMram
  dsimp only
  repeat' split
  all_goals rfl

variable {x s} (hb : s.dev.state = .boot)
include hb

theorem doBootSequence_pufFails (hp : x.pufOk = false) : doBootSequence x s = holdByRom hrPUF 0 s := by
  simp [doBootSequence, hb, hp]

theorem doBootSequence_mfgFails (hp : x.pufOk = true) (hm : x.mfgOk = false) : doBootSequence x s = holdByRom hrMFG 0 s := by
  simp [doBootSequence, hb, hp, hm]

theorem doBootSequence_mramFails (hp : x.pufOk = true) (hm : x.mfgOk = true) (hr : x.mramOk = false) :
    doBootSequence x s = holdByRom hrMRAM 0 (readMfg x s) := by
  simp [doBootSequence, hb, hp, hm, hr]

theorem doBootSequence_mramPasses (hp : x.pufOk = true) (hm : x.mfgOk = true) (hr : x.mramOk = true) :
    doBootSequence x s = bootFirmware x (bootMram x (readMfg x s)) := by
  simp [doBootSequence, hb, hp, hm, hr]

end

section
variable (x : StartInput) {s : State}

theorem bootFirmware_noSlot {reason : Nat} (h : chooseSlot fwReason fwSvnOf hrNO_FIRMWARE 0 s.sec.nextFw s = .error reason) :
    bootFirmware x s = holdByRom reason 0 s := by
  simp [bootFirmware, h]

/-- A firmware slot is chosen: the lane dies take its image, and the first that does not ends BOOT. -/
theorem bootFirmware_slot {k : Nat} (h : chooseSlot fwReason fwSvnOf hrNO_FIRMWARE 0 s.sec.nextFw s = .ok k) :
    let v := onSec (fun y => { y with fw := fwOf (((nth s.sec.flash k {}).bundle).getD []) k, nextFw := none }) s
    (∀ l, (List.range 12).find? (fun l => x.badLaneDies.contains l) = some l → bootFirmware x s = enterHold hrFW_IMAGE l 0 v)
    ∧ ((List.range 12).find? (fun l => x.badLaneDies.contains l) = none → bootFirmware x s = bootConfig x v) := by
  refine ⟨fun l hl => ?_, fun hl => ?_⟩ <;> simp only [bootFirmware, h, hl]

theorem bootConfig_noSlot {reason : Nat} (h : chooseSlot cfgReason cfgSvnOf hrNO_CONFIG 2 none s = .error reason) :
    bootConfig x s = enterHold reason 0 0 s := by
  simp [bootConfig, h]

/-- A configuration slot is chosen: its bundle is applied whole, or BOOT ends with the entry and the item that failed. -/
theorem bootConfig_slot {k : Nat} (h : chooseSlot cfgReason cfgSvnOf hrNO_CONFIG 2 none s = .ok k) :
    let out := applyBundle (((nth s.sec.flash k {}).bundle).getD []) (k - 2) s
    (∀ e, out.2 = some e → bootConfig x s = enterHold hrCFG_APPLY e.1 e.2 out.1)
    ∧ (out.2 = none → bootConfig x s = finishBoot x out.1) := by
  refine ⟨fun e he => ?_, fun he => ?_⟩ <;> simp only [bootConfig, h, he]

variable (s)

/-- With self-test passed, steps 5 to 7 end in TRAIN, the watchdog armed. -/
theorem enterTrain_bootEnds_spec (u : State) :
    (enterTrain (bootEnds u)).dev.state = .train ∧ (enterTrain (bootEnds u)).flt.wdArmed = true
      ∧ (enterTrain (bootEnds u)).dev.startingUp = false ∧ (enterTrain (bootEnds u)).dev.holdReason = 0 := by
  obtain ⟨hstate, hup, hreason, hflt⟩ := enterTrain_spec (bootEnds u)
  exact ⟨hstate, by rw [hflt, bootEnds_wdArmed], hup, hreason⟩

theorem finishBoot_passes (h : failedDie (selfTest x s) = none) :
    finishBoot x s = enterTrain (bootEnds (changeAndReplan x (selfTest x s))) := by
  simp [finishBoot, h]

theorem finishBoot_fails {d : Nat} (h : failedDie (selfTest x s) = some d) :
    finishBoot x s = enterHold hrSELFTEST d 0 (selfTest x s) := by
  simp [finishBoot, h]

variable {s} (hh : s.dev.state = .hold) (hu : s.dev.startingUp = true)
include hh hu

theorem doHoldStartUp_passes (h : failedDie (selfTest x s) = none) :
    doHoldStartUp x s = enterTrain (bootEnds (changeAndReplan x (selfTest x s))) := by
  simp [doHoldStartUp, hh, hu, h]

theorem doHoldStartUp_fails {d : Nat} (h : failedDie (selfTest x s) = some d) :
    doHoldStartUp x s = setHold hrSELFTEST d 0 (onDev (fun y => { y with startingUp := false }) (selfTest x s)) := by
  simp [doHoldStartUp, hh, hu, h]

end

/-! ## The clauses of O58 -/

theorem exec_bootSequenceDone (x : StartInput) (s : State) : exec (.bootSequenceDone x) s = .next (doBootSequence x s) := rfl
theorem exec_holdStartUp (x : StartInput) (s : State) : exec (.holdStartUp x) s = .next (doHoldStartUp x s) := rfl

/-- The PUF, the manufacturing record and the MRAM, in this order: the first that fails ends BOOT in HOLD. -/
theorem boot_holds_before_firmware (s : State) (x : StartInput) (reason : Nat) (hb : s.dev.state = .boot)
    (h : (x.pufOk = false ∧ reason = 0x01) ∨ (x.pufOk = true ∧ x.mfgOk = false ∧ reason = 0x02)
      ∨ (x.pufOk = true ∧ x.mfgOk = true ∧ x.mramOk = false ∧ reason = 0x03)) :
    ∃ t, exec (.bootSequenceDone x) s = .next t ∧ t.dev.state = .hold ∧ t.dev.prev = .boot ∧ t.dev.holdReason = reason
      ∧ t.flt.wdArmed = true ∧ t.sec.flash = s.sec.flash ∧ (reason ≠ 0x03 → t.part = s.part)
      ∧ (reason = 0x03 → t.part = (readMfg x s).part) := by
  refine ⟨_, exec_bootSequenceDone x s, ?_⟩
  obtain ⟨hp, rfl⟩ | ⟨hp, hm, rfl⟩ | ⟨hp, hm, hr, rfl⟩ := h
  · obtain ⟨hs, hv, hreason, hw, hf, hpart⟩ := holdByRom_spec hrPUF 0 s
    rw [doBootSequence_pufFails hb hp]
    exact ⟨hs, hv.trans hb, hreason, hw, hf, fun _ => hpart, fun h => absurd h (by decide)⟩
  · obtain ⟨hs, hv, hreason, hw, hf, hpart⟩ := holdByRom_spec hrMFG 0 s
    rw [doBootSequence_mfgFails hb hp hm]
    exact ⟨hs, hv.trans hb, hreason, hw, hf, fun _ => hpart, fun h => absurd h (by decide)⟩
  · obtain ⟨hs, hv, hreason, hw, hf, hpart⟩ := holdByRom_spec hrMRAM 0 (readMfg x s)
    obtain ⟨hdev, -, hsec⟩ := readMfg_spec x s
    rw [doBootSequence_mramFails hb hp hm hr]
    refine ⟨hs, ?_, hreason, hw, ?_, fun h => absurd rfl h, fun _ => hpart⟩
    · rw [hv, hdev]
      exact hb
    · rw [hf, hsec]

/-- Settles O58: each step of BOOT by the equation of its case, HOLD and TRAIN by `holdByRom_spec`, the lemmas of `enterHold`
and `enterTrain_spec`. -/
theorem bootEndsInHoldOrTrain : Obligations.BootEndsInHoldOrTrain := by
  unfold Obligations.BootEndsInHoldOrTrain
  refine ⟨boot_holds_before_firmware, fun s x hb hp hm hr => ?_, fun s x => ?_, fun s x => ?_, fun s x hh hu => ?_⟩
  · dsimp only
    rw [exec_bootSequenceDone, doBootSequence_mramPasses hb hp hm hr]
    refine ⟨fun reason h => ⟨_, rfl, ?_⟩, fun k hk => ⟨fun l hl => ⟨_, rfl, ?_⟩, fun hl =>
      ⟨fun reason h => ⟨_, rfl, ?_⟩, fun j hj => ⟨fun e he => ⟨_, rfl, ?_⟩, fun he => ?_⟩⟩⟩⟩
    · obtain ⟨hs, -, hreason, -⟩ := holdByRom_spec reason 0 (bootMram x (readMfg x s))
      rw [bootFirmware_noSlot x h]
      exact ⟨hs, hreason, by simp [(readMfg_spec x s).1]⟩
    · rw [(bootFirmware_slot x hk).1 l hl]
      exact ⟨enterHold_state _ _ _ _, enterHold_holdReason _ _ _ _, enterHold_holdWhere _ _ _ _⟩
    · rw [(bootFirmware_slot x hk).2 hl, bootConfig_noSlot x h]
      exact ⟨enterHold_state _ _ _ _, enterHold_holdReason _ _ _ _⟩
    · rw [(bootFirmware_slot x hk).2 hl, (bootConfig_slot x hj).1 e he]
      exact ⟨enterHold_state _ _ _ _, enterHold_holdReason _ _ _ _, enterHold_holdWhere _ _ _ _, enterHold_holdItem _ _ _ _⟩
    · rw [(bootFirmware_slot x hk).2 hl, (bootConfig_slot x hj).2 he]
  · obtain ⟨hdev, hpart, -⟩ := readMfg_spec x s
    exact ⟨by rw [hdev], hpart, fun e he h => readMfg_gated x s he h⟩
  · refine ⟨fun h => ?_, fun d h => ?_⟩
    · rw [finishBoot_passes x s h]
      exact enterTrain_bootEnds_spec _
    · rw [finishBoot_fails x s h]
      exact ⟨enterHold_state _ _ _ _, enterHold_holdReason _ _ _ _, enterHold_holdWhere _ _ _ _⟩
  · refine ⟨_, exec_holdStartUp x s, ?_⟩
    cases h : failedDie (selfTest x s) with
    | none =>
      obtain ⟨hstate, hwd, hup, -⟩ := enterTrain_bootEnds_spec (changeAndReplan x (selfTest x s))
      rw [doHoldStartUp_passes x hh hu h]
      exact ⟨hup, fun _ => ⟨hstate, hwd⟩, fun _ hd => nomatch hd⟩
    | some d =>
      rw [doHoldStartUp_fails x hh hu h]
      refine ⟨rfl, fun hn => (nomatch hn), fun d' hd => ?_⟩
      obtain rfl := Option.some.inj hd
      exact ⟨rfl, rfl⟩

end Sys2Proof.Machine
end

/-! ## Lane power states, region gates and Ebb (R392 to R396, R543 to R550, R560) -/

section
namespace Sys2Proof.Machine

/-! ## Counters that other counts and posts leave -/

theorem ctrOf_ctrSet_ne (o : Obs) {k k' : CKey} (c : Ctr) (h : k ≠ k') : ctrOf (ctrSet o k c) k' = ctrOf o k' := by
  have hset (l : List (CKey × Ctr)) :
      (l.map (fun e => if e.1 == k then (k, c) else e)).find? (fun e => e.1 == k') = l.find? (fun e => e.1 == k') := by
    induction l with
    | nil => rfl
    | cons e r ih =>
      by_cases he : e.1 = k
      · simp [he, h] at ih ⊢
        exact ih
      · simp [he, List.find?_cons] at ih ⊢
        rw [ih]
  unfold ctrOf ctrSet
  dsimp only
  split
  · rw [hset]
  · simp [List.find?_append, h]

theorem ctrOf_countRaw_ne (s : State) {k k' : CKey} (n : Nat) (h : k ≠ k') : ctrOf (countRaw k n s).obs k' = ctrOf s.obs k' :=
  ctrOf_ctrSet_ne _ _ h

@[simp] theorem sendVector_obs (f v : Nat) (s : State) : (sendVector f v s).obs = s.obs := by
  unfold sendVector
  split
  · rfl
  · split <;> rfl

/-- A counter that is neither the device's nor a ring's: posting an event leaves it (R431, R433). -/
def unpostedKey (k : CKey) : Prop := k.1 ≠ 0 ∧ k.1 ≠ 10

section
variable {k : CKey} (hk : unpostedKey k)
include hk

theorem ctrOf_entriesWritten (r n : Nat) (b : Bool) (s : State) : ctrOf (entriesWritten r n b s).obs k = ctrOf s.obs k := by
  have hring : kRing r 2 ≠ k := fun h => hk.2 (by rw [← h]; rfl)
  unfold entriesWritten
  dsimp only
  split
  · rw [sendVector_obs, ctrOf_countRaw_ne _ _ hring]; rfl
  · rw [ctrOf_countRaw_ne _ _ hring]; rfl

theorem ctrOf_writeEvent (r c : Nat) (d : List Byte) (m : List (List Byte)) (s : State) :
    ctrOf (writeEvent r c d m s).obs k = ctrOf s.obs k := by
  unfold writeEvent
  dsimp only
  rw [ctrOf_entriesWritten hk, onRing_obs]
  refine congrArg (ctrOf · k) (forAll_same (g := State.obs) (fun _ _ => ?_) _ s)
  exact hostWrite_obs _ _ _ _

theorem ctrOf_postTo (o : Option Nat) (fn c : Nat) (d : List Byte) (m : List (List Byte)) (s : State) :
    ctrOf (postTo o fn c d m s).obs k = ctrOf s.obs k := by
  have hdev (i : Nat) : ((0, 0, i) : CKey) ≠ k := fun h => hk.1 (by rw [← h])
  unfold postTo
  dsimp only
  repeat' split
  · rfl
  · exact ctrOf_countRaw_ne _ _ (hdev _)
  · exact ctrOf_countRaw_ne _ _ (hdev _)
  · exact ctrOf_countRaw_ne _ _ (hdev _)
  · exact ctrOf_countRaw_ne _ _ (hdev _)
  · exact ctrOf_writeEvent hk _ _ _ _ _

theorem ctrOf_postDev (c : Nat) (d : List Byte) (s : State) : ctrOf (postDev c d s).obs k = ctrOf s.obs k :=
  ctrOf_postTo hk _ _ _ _ _ _

theorem ctrOf_count_ne {k' : CKey} (h : k' ≠ k) (s : State) : ctrOf (count k' s).obs k = ctrOf s.obs k := by
  unfold count countN
  dsimp only
  split
  · rw [ctrOf_postDev hk, ctrOf_countRaw_ne _ _ h]
  · exact ctrOf_countRaw_ne _ _ h

end

/-! ## Ebb -/

@[simp] theorem getRgn_postDev (c : Nat) (d : List Byte) (s : State) (k : Nat) : getRgn (postDev c d s) k = getRgn s k := by
  simp [getRgn]

@[simp] theorem getRgn_count (c : CKey) (s : State) (k : Nat) : getRgn (count c s) k = getRgn s k := by simp [getRgn]

@[simp] theorem getRgn_postReplan (d b : Nat) (old : List Nat) (s : State) (k : Nat) :
    getRgn (postReplan d b old s) k = getRgn s k := by
  unfold postReplan
  dsimp only
  split <;> simp

theorem ctrOf_postReplan {c : CKey} (hc : unpostedKey c) (d b : Nat) (old : List Nat) (s : State) :
    ctrOf (postReplan d b old s).obs c = ctrOf s.obs c := by
  unfold postReplan
  dsimp only
  split
  · rfl
  · exact ctrOf_postDev hc _ _ _

/-- Pacing that comes off leaves every region's throttle. -/
@[simp] theorem applyPace_ebb (d : Nat) (s : State) (k : Nat) : (getRgn (applyPace d s) k).ebb = (getRgn s k).ebb := by
  unfold applyPace
  split
  · rfl
  · refine forAll_keeps (P := fun u => (getRgn u k).ebb = (getRgn s k).ebb) (fun r u h => ?_) _ s rfl
    refine getRgn_onRgn_keeps (P := fun x => x.ebb = (getRgn s k).ebb) ?_ r h
    exact fun _ hx => hx

@[simp] theorem applyPace_obs (d : Nat) (s : State) : (applyPace d s).obs = s.obs := by
  unfold applyPace
  split
  · rfl
  · exact forAll_same (g := State.obs) (f := fun r : Nat => onRgn r _) (fun _ _ => rfl) _ s

/-- The release of a throttled region whose supply has stayed up for 1 µs: its throttle ends, every other region's stands, and
the throttled time it has counted stands (R544, R546). -/
theorem doEbbRelease_spec {s : State} {r : Nat} (hs : regsLive s = true) (hr : r < s.pwr.rgns.length)
    (he : (getRgn s r).ebb = true) (ht : (getRgn s r).ebbLast + 1000 ≤ s.tide.now) :
    (getRgn (doEbbRelease r s) r).ebb = false
      ∧ ctrOf (doEbbRelease r s).obs (kRegion r iEBB_TIME) = ctrOf s.obs (kRegion r iEBB_TIME)
      ∧ ∀ k, k ≠ r → (getRgn (doEbbRelease r s) k).ebb = (getRgn s k).ebb := by
  have hkey : unpostedKey (kRegion r iEBB_TIME) := by simp [unpostedKey, kRegion]
  have hne : kRegion r iEBB_COUNT ≠ kRegion r iEBB_TIME := by simp [kRegion, iEBB_COUNT, iEBB_TIME]
  have hdue : due s ((getRgn s r).ebbLast + 1000) = true := by simpa [due] using ht
  unfold doEbbRelease
  dsimp only
  rw [if_neg (by simp [hs, he, hdue])]
  refine ⟨?_, ?_, fun k hk => ?_⟩
  · rw [getRgn_postReplan, applyPace_ebb, getRgn_onRgn_same _ (by simpa using hr)]
  · rw [ctrOf_postReplan hkey, applyPace_obs, onRgn_obs, ctrOf_count_ne hkey hne]
  · rw [getRgn_postReplan, applyPace_ebb, getRgn_onRgn_ne _ _ (Ne.symm hk), getRgn_count]

/-! ## Region gates and droops -/

section
variable {s : State} {r : Nat} (hs : regsLive s = true)
include hs

theorem regionIdle_closes (hg : (getRgn s r).gated = false) (hu : r ∉ usedRegions s) (hl : 2000 ≤ s.pwr.lmin)
    (hi : (getRgn s r).idleAt + 1000000 ≤ s.tide.now) :
    regionIdle r s = onRgn r (fun x => { x with gated := true, gatedAt := s.tide.now, opening := false }) s :=
  if_neg (by simp [hs, hg, hu, hl, due, hi])

theorem doGateOpen_opens (hg : (getRgn s r).gated = true) (hd : (r / 4, r % 4) ∉ s.part.disabled)
    (ho : (getRgn s r).opening = true ∨ s.pwr.lmin < 2000) :
    doGateOpen r s = onRgn r (fun x => { x with gated := false, opening := false, idleAt := s.tide.now }) s :=
  if_neg (by simp [hs, hg, hd, ho])

theorem doDroop_live : doDroop r s = onRgn r (fun x => { x with
    ebb := true, ebbAt := if x.ebb then x.ebbAt else s.tide.now, ebbLast := s.tide.now }) s :=
  if_neg (by simp [hs])

theorem doEbbHeavy_posts (hw : 100000 < ebbInWindow s r) (hh : (getRgn s r).heavyAt ≠ some (s.tide.now / 1000000)) :
    doEbbHeavy r s = postDev 0x60 (bytesLE 1 r ++ bytesLE 4 (ebbInWindow s r))
      (onRgn r (fun x => { x with heavyAt := some (s.tide.now / 1000000) }) s) :=
  if_neg (by simp [hs, hw, hh])

end

/-- A disabled region keeps its gate closed (R4). -/
theorem doGateOpen_disabled {s : State} {r : Nat} (hd : (r / 4, r % 4) ∈ s.part.disabled) : doGateOpen r s = s :=
  if_pos (by simp [hd])

/-! ## What sending a flit leaves of its port -/

theorem getPort_onLink_same (s : State) (p : Nat) (f : Link → Link) :
    getPort (onLink p f s) p = { getPort s p with link := f (getPort s p).link } := getPort_onPort_same s p _

/-- The flits a port has sent and its link state: what a flit's slot adds to, and what it leaves. -/
def sentAndState (s : State) (p : Nat) : List (List Byte) × LState := ((getPort s p).link.sent, (getPort s p).lstate)

@[simp] theorem getPort_postDev (c : Nat) (d : List Byte) (s : State) (p : Nat) : getPort (postDev c d s) p = getPort s p := by
  simp [getPort]

@[simp] theorem getPort_onFlt (f : Flt → Flt) (s : State) (p : Nat) : getPort (onFlt f s) p = getPort s p := rfl

theorem getPort_noteForced (lane : Nat) (s : State) (p : Nat) : getPort (noteForced lane s) p = getPort s p := by
  unfold noteForced
  dsimp only
  repeat' split
  all_goals simp

theorem getPort_laneSend (p slot : Nat) (f : List Byte) (s : State) (q : Nat) : getPort (laneSend p slot f s) q = getPort s q := rfl

theorem getPort_endEyes (p : Nat) (s : State) (q : Nat) : getPort (endEyes p s) q = getPort s q := by
  unfold endEyes
  dsimp only
  split
  · refine forAll_same (g := fun u => getPort u q) (fun _ _ => ?_) _ s
    exact getPort_onLane _ _ _ _
  · rfl

theorem sentAndState_issueCredits (p : Nat) (s : State) : sentAndState (issueCredits p s) p = sentAndState s p := by
  unfold issueCredits
  refine forAll_same (g := fun u => sentAndState u p) (fun c u => ?_) _ s
  simp only [sentAndState, getPort_onLink_same]

theorem sentAndState_openSlot (p : Nat) (s : State) : sentAndState (openSlot p s) p = sentAndState s p := by
  rw [← sentAndState_issueCredits p s]
  unfold openSlot sentAndState
  rw [getPort_onPort_same]
  simp only [apply_ite Port.link, apply_ite Link.sent, apply_ite Port.lstate, changeKey, ite_self]

/-- A flit that leaves stands last among those sent; the link state stands. -/
theorem sentAndState_emitFlit (p ftype sop : Nat) (badp : Bool) (fsn : Nat) (payload : List Byte) (s : State) :
    ∃ f, sentAndState (emitFlit p ftype sop badp fsn payload s) p = ((getPort s p).link.sent ++ [f], (getPort s p).lstate) := by
  have h := sentAndState_openSlot p s
  simp only [sentAndState, Prod.mk.injEq] at h
  unfold emitFlit sentAndState
  extract_lets u x run lane ln l hdr sealed crcSpoiled bitFlipped f v w
  refine ⟨f, ?_⟩
  have hw : getPort w p = getPort u p :=
    calc getPort w p = getPort (laneSend p (l.baseTx + l.slotTx) f v) p := getPort_noteForced lane _ p
      _ = getPort v p := getPort_laneSend p _ f v p
      _ = getPort u p := getPort_onLane u lane p _
  have hsent : (getPort w p).link.sent = (getPort s p).link.sent := by rw [hw]; exact h.1
  have hstate : (getPort w p).lstate = (getPort s p).lstate := by rw [hw]; exact h.2
  rw [getPort_onLink_same, hstate]
  exact congrArg (fun l => (l ++ [f], (getPort s p).lstate)) hsent

theorem sentAndState_finishPair (p n : Nat) (s : State) : sentAndState (finishPair p n s) p = sentAndState s p := by
  induction n generalizing s with
  | zero => rfl
  | succ n ih =>
    unfold finishPair
    dsimp only
    split
    · rfl
    · rw [ih, ← sentAndState_openSlot p s]
      simp only [sentAndState, getPort_onLink_same, getPort_noteForced, getPort_laneSend]

/-- The state a port goes to: 1 Neap, 2 Low water (R392). -/
theorem sentAndState_goQuiet (p kind : Nat) (s : State) :
    sentAndState (goQuiet p kind s) p = ((getPort s p).link.sent, if kind = 1 then .neap else .lowWater) := by
  have h := sentAndState_finishPair p 20 s
  simp only [sentAndState, Prod.mk.injEq] at h
  unfold goQuiet
  dsimp only
  rw [forAll_same (g := fun u => sentAndState u p) (f := fun l : Nat => onLane l _) (fun _ _ => rfl)]
  simp only [sentAndState, getPort_onPort_same, getPort_endEyes, h.1]

/-! ## What taking a message leaves -/

theorem takeMsg_frame (p mtype : Nat) (s : State) :
    takeMsg p mtype s = { s with net := { s.net with ports := (takeMsg p mtype s).net.ports } } := by
  unfold takeMsg
  split <;> rfl

theorem getPort_takeMsg (p mtype : Nat) (s : State) : ∃ r, getPort (takeMsg p mtype s) p
    = { getPort s p with link := { (getPort s p).link with rxMsgs := r } } := by
  unfold takeMsg
  split
  · exact ⟨_, getPort_onLink_same s p _⟩
  · exact ⟨(getPort s p).link.rxMsgs, rfl⟩

section
variable (p mtype : Nat) (s : State)

@[simp] theorem takeMsg_lstate : (getPort (takeMsg p mtype s) p).lstate = (getPort s p).lstate := by
  obtain ⟨r, h⟩ := getPort_takeMsg p mtype s; rw [h]
@[simp] theorem takeMsg_reqKind : (getPort (takeMsg p mtype s) p).reqKind = (getPort s p).reqKind := by
  obtain ⟨r, h⟩ := getPort_takeMsg p mtype s; rw [h]
@[simp] theorem takeMsg_reqTag : (getPort (takeMsg p mtype s) p).reqTag = (getPort s p).reqTag := by
  obtain ⟨r, h⟩ := getPort_takeMsg p mtype s; rw [h]
@[simp] theorem takeMsg_sent : (getPort (takeMsg p mtype s) p).link.sent = (getPort s p).link.sent := by
  obtain ⟨r, h⟩ := getPort_takeMsg p mtype s; rw [h]
@[simp] theorem takeMsg_msgs : (getPort (takeMsg p mtype s) p).link.msgs = (getPort s p).link.msgs := by
  obtain ⟨r, h⟩ := getPort_takeMsg p mtype s; rw [h]
@[simp] theorem takeMsg_nextResend : nextResend (getPort (takeMsg p mtype s) p).link = nextResend (getPort s p).link := by
  obtain ⟨r, h⟩ := getPort_takeMsg p mtype s; rw [h]; rfl
@[simp] theorem takeMsg_portQuiet : portQuiet (takeMsg p mtype s) p = portQuiet s p := by
  obtain ⟨r, h⟩ := getPort_takeMsg p mtype s; simp only [portQuiet, h]
@[simp] theorem takeMsg_mayQuiet (kind : Nat) : mayQuiet (takeMsg p mtype s) p kind = mayQuiet s p kind := by
  have hparent : parentPort (takeMsg p mtype s) = parentPort s := by rw [takeMsg_frame]; rfl
  obtain ⟨r, h⟩ := getPort_takeMsg p mtype s; simp only [mayQuiet, isFabric, hparent, h]
@[simp] theorem takeMsg_linkRuns : linkRuns (takeMsg p mtype s) p = linkRuns s p := by
  have hport : isDrezhPort (takeMsg p mtype s) p = isDrezhPort s p := by rw [takeMsg_frame]; rfl
  have hon : linksOn (takeMsg p mtype s) = linksOn s := by rw [takeMsg_frame]; rfl
  simp only [linkRuns, hport, hon, takeMsg_lstate]

end

/-! ## Requests and replies (R393, R394) -/

/-- A port with nothing in its replay buffer sends nothing again. -/
theorem nextResend_of_portQuiet {s : State} {p : Nat} (h : portQuiet s p = true) : nextResend (getPort s p).link = none := by
  have hempty : (getPort s p).link.replay = [] := by
    simp only [portQuiet, Bool.and_eq_true, List.isEmpty_iff] at h
    exact h.1.1.1
  simp [nextResend, hempty]

/-- Where no held flit goes out again a link message leaves at once in a flit of its own. -/
theorem sentAndState_sendLinkMsg {s : State} {p : Nat} (h : nextResend (getPort s p).link = none) (m : List Byte) :
    ∃ f, sentAndState (sendLinkMsg p m s) p = ((getPort s p).link.sent ++ [f], (getPort s p).lstate) := by
  unfold sendLinkMsg
  simp only [h, Option.isSome_none, Bool.false_eq_true, if_false]
  exact sentAndState_emitFlit _ _ _ _ _ _ _

/-- Behind held flits that go out again it waits. -/
theorem getPort_sendLinkMsg_waits {s : State} {p : Nat} (h : nextResend (getPort s p).link ≠ none) (m : List Byte) :
    getPort (sendLinkMsg p m s) p
      = { getPort s p with link := { (getPort s p).link with msgs := (getPort s p).link.msgs ++ [m] } } := by
  unfold sendLinkMsg
  simp only [Option.isSome_iff_ne_none.2 h, if_true]
  exact getPort_onLink_same s p _

section
variable {s : State} {p : Nat}

/-- A request that crosses the port's own is its acceptance. -/
theorem powerAsked_crosses (hr : linkRuns s p = true) (hl : (getPort s p).lstate = .run) (hk : (getPort s p).reqKind ≠ 0)
    (tag kind : Nat) : powerAsked p tag kind s = goQuiet p (min kind (getPort s p).reqKind) s := by
  simp [powerAsked, hr, hl, hk]

/-- A request that crosses none is answered: accepted by a quiet port that may take the state, refused otherwise. -/
theorem powerAsked_answers (hr : linkRuns s p = true) (hl : (getPort s p).lstate = .run) (hk : (getPort s p).reqKind = 0)
    (tag kind : Nat) : powerAsked p tag kind s =
      if (portQuiet s p && mayQuiet s p kind) = true then goQuiet p kind (sendPower p (if kind = 1 then 5 else 7) tag 0 s)
      else sendPower p (if kind = 1 then 5 else 7) tag 1 s := by
  simp [powerAsked, hr, hl, hk]

/-- The reply leaves in one flit, or waits as a refusal behind held flits; only an acceptance takes the port out of RUN. -/
theorem powerAsked_answered (hr : linkRuns s p = true) (hl : (getPort s p).lstate = .run) (hk : (getPort s p).reqKind = 0)
    (tag : Nat) {kind : Nat} (hkind : kind = 1 ∨ kind = 2) :
    let t := powerAsked p tag kind s
    (if nextResend (getPort s p).link = none then (getPort t p).link.sent.length = (getPort s p).link.sent.length + 1
      else (getPort t p).link.msgs = (getPort s p).link.msgs ++ [linkMsg (2 * kind + 3) (bytesLE 1 tag ++ bytesLE 1 1) []])
    ∧ (getPort t p).lstate = (if (portQuiet s p && mayQuiet s p kind) = true then (if kind = 1 then .neap else .lowWater) else .run) := by
  have hmtype : (if kind = 1 then 5 else 7) = 2 * kind + 3 := by rcases hkind with rfl | rfl <;> rfl
  dsimp only
  rw [powerAsked_answers hr hl hk, hmtype]
  by_cases hresend : nextResend (getPort s p).link = none
  · rw [if_pos hresend]
    split
    · obtain ⟨f, hf⟩ := sentAndState_sendLinkMsg hresend (linkMsg (2 * kind + 3) (bytesLE 1 tag ++ bytesLE 1 0) [])
      have hq := sentAndState_goQuiet p kind (sendPower p (2 * kind + 3) tag 0 s)
      simp only [sentAndState, Prod.mk.injEq] at hf hq
      exact ⟨by rw [hq.1, sendPower, hf.1, List.length_append]; rfl, hq.2⟩
    · obtain ⟨f, hf⟩ := sentAndState_sendLinkMsg hresend (linkMsg (2 * kind + 3) (bytesLE 1 tag ++ bytesLE 1 1) [])
      simp only [sentAndState, Prod.mk.injEq] at hf
      exact ⟨by rw [sendPower, hf.1, List.length_append]; rfl, hf.2.trans hl⟩
  · have hquiet : portQuiet s p = false := Bool.eq_false_iff.2 (fun h => hresend (nextResend_of_portQuiet h))
    rw [if_neg hresend, hquiet, Bool.false_and, if_neg Bool.false_ne_true, if_neg Bool.false_ne_true, sendPower,
      getPort_sendLinkMsg_waits hresend]
    exact ⟨rfl, hl⟩

/-- A reply that echoes the tag ends the request: the port goes quiet on an acceptance and stays in RUN on a refusal. -/
theorem powerReplied_ends (hr : linkRuns s p = true) {tag code kind : Nat} (ht : (getPort s p).reqTag = tag)
    (hk : (getPort s p).reqKind = kind) (hc : code ≤ 1) :
    powerReplied p tag code kind s = if code = 0 then goQuiet p kind s else onPort p (fun x => { x with reqKind := 0 }) s := by
  simp [powerReplied, hr, ht, hk, hc]

/-- Without a reply for 2 µs the request goes out again, at most three times and only from a quiet port. -/
theorem doPowerRetry_due (hr : linkRuns s p = true) (hk : (getPort s p).reqKind ≠ 0) (ht : (getPort s p).reqAt + 2000 ≤ s.tide.now) :
    doPowerRetry p s = if (getPort s p).reqTries < 3 ∧ portQuiet s p = true then
        askPower p (getPort s p).reqKind ((getPort s p).reqTries + 1) s
      else onPort p (fun x => { x with reqKind := 0 }) s := by
  simp [doPowerRetry, hr, hk, due, ht]

/-- A fabric port in RUN that meets the conditions of Neap asks for it (R548, R549). -/
theorem portIdle_asksNeap (hr : linkRuns s p = true) (hl : (getPort s p).lstate = .run) (hk : (getPort s p).reqKind = 0)
    (hq : portQuiet s p = true) (ha : isAttach s p = false) (hm : mayQuiet s p 1 = true)
    (hmin : neapExit (getPort s p).rate ≤ s.pwr.lmin)
    (ht : (getPort s p).link.dataAt + max 1000 (10 * neapExit (getPort s p).rate) ≤ s.tide.now) :
    portIdle p s = askPower p 1 1 s := by
  have hdue : due s ((getPort s p).link.dataAt + max 1000 (10 * neapExit (getPort s p).rate)) = true := decide_eq_true ht
  simp [portIdle, hr, hl, hk, hq, ha, hm, hmin, hdue]

theorem doNeapWake_neap (hon : linksOn s = true) (hl : (getPort s p).lstate = .neap) : doNeapWake p s =
    precodersAfresh p (onPort p (fun x => { x with lstate := .run, link := { x.link with goodAt := s.tide.now } }) s) := by
  simp [doNeapWake, hon, hl]

theorem doLowWake_lowWater (hon : linksOn s = true) (hl : (getPort s p).lstate = .lowWater) : doLowWake p s = toDetect p s := by
  simp [doLowWake, hon, hl]

end

/-! ## The commands -/

section
variable (s : State) (p r tag code : Nat)

theorem exec_neapEnter : exec (.neapEnter p tag) s = .next (powerAsked p tag 1 (takeMsg p 4 s)) := rfl
theorem exec_lowEnter : exec (.lowEnter p tag) s = .next (powerAsked p tag 2 (takeMsg p 6 s)) := rfl
theorem exec_neapReply : exec (.neapReply p tag code) s = .next (powerReplied p tag code 1 (takeMsg p 5 s)) := rfl
theorem exec_lowReply : exec (.lowReply p tag code) s = .next (powerReplied p tag code 2 (takeMsg p 7 s)) := rfl
theorem exec_lanePowerRequestRetry : exec (.lanePowerRequestRetry p) s = .next (doPowerRetry p s) := rfl
theorem exec_idleStateDecision (region : Bool) :
    exec (.idleStateDecision region p) s = .next (if region then regionIdle p s else portIdle p s) := rfl
theorem exec_neapWake : exec (.neapWake p) s = .next (doNeapWake p s) := rfl
theorem exec_lowWaterWake : exec (.lowWaterWake p) s = .next (doLowWake p s) := rfl
theorem exec_regionGateOpen : exec (.regionGateOpen r) s = .next (doGateOpen r s) := rfl
theorem exec_droopCrossing : exec (.droopCrossing r) s = .next (doDroop r s) := rfl
theorem exec_ebbRelease : exec (.ebbRelease r) s = .next (doEbbRelease r s) := rfl
theorem exec_ebbHeavyWindow : exec (.ebbHeavyWindow r) s = .next (doEbbHeavy r s) := rfl

end

/-- Settles O43: requests by whether they cross an own one (`powerAsked_crosses`, `powerAsked_answered`), the other commands by
the equation of their case. -/
theorem idleStatesAndEbb : Obligations.IdleStatesAndEbb := by
  unfold Obligations.IdleStatesAndEbb
  refine ⟨fun s p tag hr hl => ⟨fun hk => ⟨?_, ?_⟩, fun hk => ⟨⟨_, exec_neapEnter s p tag, ?_⟩, ⟨_, exec_lowEnter s p tag, ?_⟩⟩⟩,
    fun s p tag code hr ht hc => ⟨fun hk => ?_, fun hk => ?_⟩, fun s p hr hk ht => ?_, fun s p hr hl hk hq ha hm hmin ht => ?_,
    fun s p hon => ⟨fun hl => ?_, fun hl => ?_⟩, fun s r hs hlen => ?_⟩
  · rw [exec_neapEnter, powerAsked_crosses (by simpa using hr) (by simpa using hl) (by simpa using hk), takeMsg_reqKind]
  · rw [exec_lowEnter, powerAsked_crosses (by simpa using hr) (by simpa using hl) (by simpa using hk), takeMsg_reqKind]
  · simpa using powerAsked_answered (s := takeMsg p 4 s) (p := p) (by simpa using hr) (by simpa using hl) (by simpa using hk) tag (.inl rfl)
  · simpa using powerAsked_answered (s := takeMsg p 6 s) (p := p) (by simpa using hr) (by simpa using hl) (by simpa using hk) tag (.inr rfl)
  · rw [exec_neapReply, powerReplied_ends (by simpa using hr) (by simpa using ht) (by simpa using hk) hc]
  · rw [exec_lowReply, powerReplied_ends (by simpa using hr) (by simpa using ht) (by simpa using hk) hc]
  · rw [exec_lanePowerRequestRetry, doPowerRetry_due hr hk ht]
  · rw [exec_idleStateDecision, if_neg Bool.false_ne_true, portIdle_asksNeap hr hl hk hq ha hm hmin ht]
  · rw [exec_neapWake, doNeapWake_neap hon hl]
  · rw [exec_lowWaterWake, doLowWake_lowWater hon hl]
  · refine ⟨fun hg hu hl hi => ?_, fun hd => ?_, fun hg hd ho => ?_, ?_,
      fun he ht => ⟨_, exec_ebbRelease s r, doEbbRelease_spec hs hlen he ht⟩, fun hw hh => ?_⟩
    · rw [exec_idleStateDecision, if_pos rfl, regionIdle_closes hs hg hu hl hi]
    · rw [exec_regionGateOpen, doGateOpen_disabled hd]
    · rw [exec_regionGateOpen, doGateOpen_opens hs hg hd ho]
    · rw [exec_droopCrossing, doDroop_live hs]
    · rw [exec_ebbHeavyWindow, doEbbHeavy_posts hs hw hh]

end Sys2Proof.Machine
end

/-! ## The fault collector and what the Q7 itself detects (R25, R477 to R486, R497, R539, R602, R604) -/

section
namespace Sys2Proof.Machine

/-! ## Locations read back -/

section
variable {die unit sub : Nat}

theorem locDie_mkLoc (h : die < 32) : locDie (mkLoc die unit sub) = die :=
  (fld_pack 32 5 die [] [(10, unit), (10, sub), (7, 0)] (by decide) rfl).trans (Nat.mod_eq_of_lt h)

theorem locUnit_mkLoc (h : unit < 1024) : locUnit (mkLoc die unit sub) = unit :=
  (fld_pack 32 10 unit [(5, die)] [(10, sub), (7, 0)] (by decide) rfl).trans (Nat.mod_eq_of_lt h)

end

/-! ## A record counted, noted and posted (R480) -/

/-- `t` differs from `s` in the host interface, the counters and the rate windows alone, and the accepted descriptors stand. -/
def PostsOnly (s t : State) : Prop :=
  t = { s with host := t.host, obs := t.obs, flt := { s.flt with window := t.flt.window } } ∧ t.host.accepted = s.host.accepted

theorem PostsOnly.refl (s : State) : PostsOnly s s := ⟨rfl, rfl⟩

theorem PostsOnly.trans {s t u : State} (h : PostsOnly s t) (k : PostsOnly t u) : PostsOnly s u := by
  obtain ⟨h, ha⟩ := h
  obtain ⟨k, ka⟩ := k
  exact ⟨by rw [k, h], ka.trans ha⟩

theorem HostOnly.postsOnly {s t : State} (h : HostOnly s t) (ha : t.host.accepted = s.host.accepted) : PostsOnly s t :=
  ⟨by unfold HostOnly at h; rw [h], ha⟩

theorem postsOnly_count (k : CKey) (s : State) : PostsOnly s (count k s) := (hostOnly_count s k).postsOnly (count_accepted k s)

theorem postsOnly_postDev (c : Nat) (d : List Byte) (s : State) : PostsOnly s (postDev c d s) :=
  (hostOnly_postDev s c d).postsOnly (postDev_accepted c d s)

theorem postsOnly_onlyIf (b : Bool) (c : Nat) (d : List Byte) (s : State) : PostsOnly s (onlyIf b (postDev c d) s) := by
  cases b with
  | false => exact PostsOnly.refl s
  | true => exact postsOnly_postDev c d s

theorem postsOnly_rateCount (f : FaultRec) (s : State) : PostsOnly s (rateCount f s) := by
  unfold rateCount
  dsimp only
  split <;> exact PostsOnly.trans (t := onFlt _ s) ⟨rfl, rfl⟩ (postsOnly_onlyIf _ _ _ _)

/-- FLT_SUMMARY with a record of class `c` taken at `now`: its class bit with the instant it was set, and LAST_SRC. -/
def noteRecord (src : Nat) (c : FClass) (now : Nat) (t : Flt) : Flt :=
  { t with
    storm := t.storm || c == .storm, swell := t.swell || c == .swell, ripple := t.ripple || c == .ripple,
    stormAt := if c = .storm then some now else t.stormAt, swellAt := if c = .swell then some now else t.swellAt,
    rippleAt := if c = .ripple then some now else t.rippleAt,
    lastSrc := src }

theorem PostsOnly.noteRecord {s t : State} (h : PostsOnly s t) (src : Nat) (c : FClass) :
    PostsOnly (onFlt (noteRecord src c s.tide.now) s) (onFlt (noteRecord src c t.tide.now) t) := by
  obtain ⟨h, ha⟩ := h
  exact ⟨by rw [h]; rfl, ha⟩

/-- In a Q7 that runs, a record of a class is noted and posted; one of class Cliff then enters CLIFF. -/
theorem collect_of_class {s : State} {f : FaultRec} {c : FClass} (hs : regsLive s = true) (hc : classOf f.source = some c) :
    ∃ u, PostsOnly (onFlt (noteRecord f.source c s.tide.now) s) u ∧ collect f s = onlyIf (c == .cliff) (enterCliff f) u := by
  have hlive : ¬ (s.dev.state = .cliff ∨ s.dev.state = .reset) := by
    simp only [regsLive, Bool.and_eq_true, bne_iff_ne] at hs
    tauto
  have hnoted := (postsOnly_count (kFault (1024 * locDie f.loc + locUnit f.loc) f.source) s).noteRecord f.source c
  simp only [collect, hc, if_neg hlive]
  refine ⟨_, hnoted.trans (PostsOnly.trans ?_ (postsOnly_onlyIf _ _ _ _)), rfl⟩
  cases c with
  | storm => exact (postsOnly_postDev _ _ _).trans (postsOnly_rateCount f _)
  | swell => exact (postsOnly_onlyIf _ _ _ _).trans (postsOnly_rateCount f _)
  | ripple => exact postsOnly_rateCount f _
  | cliff => exact postsOnly_rateCount f _

theorem collect_reserved {f : FaultRec} (h : classOf f.source = none) (s : State) : collect f s = s := by
  simp [collect, h]

/-! ## CLIFF entered (R486, R492) -/

theorem mget_map {α β : Type} (g : α → β) (m : Map α) (k : Nat) :
    mget (m.map (fun e => (e.1, g e.2))) k = (mget m k).map g := by
  induction m with
  | nil => rfl
  | cons e r ih =>
    simp only [List.map_cons, mget]
    split
    · rfl
    · exact ih

section
variable (f : FaultRec) (s : State)

theorem enterCliff_dev : ∃ b, (enterCliff f s).dev =
    { s.dev with beaconHeld := b, prev := s.dev.state, state := .cliff, enterTide := s.tide.now } := by
  simp [enterCliff, setState, retuneBeacon, allDown, sendNotices]

theorem enterCliff_flt : ∃ n, (enterCliff f s).flt = { s.flt with
    lastCliff := false, cliffSrc := f.source, cliffLoc := f.loc, cliffTide := f.tide,
    mramCliff := if f.forced then s.flt.mramCliff else some (f.source, f.loc, f.tide), notices := n } := ⟨_, rfl⟩

theorem getPort_allDown (p : Nat) : (getPort (allDown s) p).lstate = .down := by
  simp only [getPort, allDown, onNet_net, mgetD,
    mget_map (fun x : Port => { x with lstate := .down, squelched := true, disableAt := none })]
  cases mget s.net.ports p <;> rfl

theorem enterCliff_entered : EnteredCliff s (enterCliff f s) f.source f.loc := by
  obtain ⟨b, hd⟩ := enterCliff_dev f s
  refine ⟨by rw [hd], by rw [hd], rfl, rfl, rfl, fun p => ?_, rfl, rfl, rfl, rfl⟩
  exact getPort_allDown (sendNotices f.source s) p

end

section
variable {s : State} {f : FaultRec} (hs : regsLive s = true) (hc : classOf f.source = some .cliff)
include hs hc

theorem collect_cliff : ∃ u, PostsOnly (onFlt (noteRecord f.source .cliff s.tide.now) s) u ∧ collect f s = enterCliff f u :=
  collect_of_class hs hc

theorem collect_entered : EnteredCliff s (collect f s) f.source f.loc := by
  obtain ⟨u, ⟨hu, ha⟩, h⟩ := collect_cliff hs hc
  obtain ⟨hstate, hprev, hsrc, hloc, hlast, hdown, hacc, hgroups, hmem, hemb⟩ := enterCliff_entered f u
  rw [h]
  exact ⟨hstate, hprev.trans (congrArg (·.dev.state) hu), hsrc, hloc, hlast, hdown, hacc.trans ha,
    hgroups.trans (congrArg (·.groups) hu), hmem.trans (congrArg (·.mem) hu), hemb.trans (congrArg (·.emb) hu)⟩

theorem collect_cliff_dev : ∃ b, (collect f s).dev =
    { s.dev with beaconHeld := b, prev := s.dev.state, state := .cliff, enterTide := s.tide.now } := by
  obtain ⟨u, ⟨hu, -⟩, h⟩ := collect_cliff hs hc
  obtain ⟨b, hd⟩ := enterCliff_dev f u
  exact ⟨b, by rw [h, hd, hu]; rfl⟩

end

/-- LAST_SRC and the bits of the three lower classes in FLT_SUMMARY. -/
def faultSummary (s : State) : Nat × Bool × Bool × Bool := (s.flt.lastSrc, s.flt.ripple, s.flt.swell, s.flt.storm)

section
variable {s : State} {f : FaultRec} {c : FClass} (hs : regsLive s = true) (hc : classOf f.source = some c)
include hs hc

theorem collect_faultSummary : faultSummary (collect f s) =
    (f.source, s.flt.ripple || c == .ripple, s.flt.swell || c == .swell, s.flt.storm || c == .storm) := by
  obtain ⟨u, ⟨hu, -⟩, h⟩ := collect_of_class hs hc
  have hcliff : faultSummary (enterCliff f u) = faultSummary u := rfl
  rw [h, onlyIf_same (g := faultSummary) _ u hcliff, faultSummary, hu]
  rfl

/-- A record of a lower class is noted and posted, and that is all. -/
theorem collect_postsOnly (hne : c ≠ .cliff) : PostsOnly (onFlt (noteRecord f.source c s.tide.now) s) (collect f s) := by
  obtain ⟨u, hu, h⟩ := collect_of_class hs hc
  rwa [h, beq_eq_false_iff_ne.mpr hne]

end

/-- The registers of a Cliff and the MRAM record, which a forced detection leaves as it was (R492, R502). -/
theorem collect_cliff_record {s : State} {f : FaultRec} (hs : regsLive s = true) (hc : classOf f.source = some .cliff) :
    (collect f s).flt.cliffTide = f.tide
      ∧ (collect f s).flt.mramCliff = if f.forced = true then s.flt.mramCliff else some (f.source, f.loc, f.tide) := by
  obtain ⟨u, ⟨hu, -⟩, h⟩ := collect_cliff hs hc
  obtain ⟨n, hflt⟩ := enterCliff_flt f u
  rw [h, hflt, hu]
  exact ⟨rfl, rfl⟩

/-! ## A detection at its unit (R478, R479, R481) -/

/-- Sources that have no recovery at a unit: those of class Cliff, and the reserved ones. -/
theorem unitAction_idle {f : FaultRec} (h : classOf f.source = some .cliff ∨ classOf f.source = none) (s : State) :
    unitAction f s = s := by
  unfold unitAction
  dsimp only
  split
  rotate_right
  · rfl
  all_goals
    rename_i hsrc
    rw [hsrc] at h
    exact absurd h (by decide)

/-- A source whose recovery waits for the resume is a Ripple (the Rockpool's) or a Swell. -/
theorem classOf_deferredSource {src : Nat} (h : deferredSource src = true) :
    classOf src = some .ripple ∨ classOf src = some .swell := by
  simp only [deferredSource, Bool.or_eq_true, Bool.and_eq_true, beq_iff_eq, decide_eq_true_eq] at h
  rcases h with rfl | hswell
  · exact .inl rfl
  · exact .inr (by rw [classOf, if_neg (by omega), if_pos (by omega)])

theorem deferredSource_idle {src : Nat} (h : classOf src = some .cliff ∨ classOf src = none) : deferredSource src = false := by
  by_contra hd
  rcases classOf_deferredSource (by simpa using hd) with hc | hc <;> rw [hc] at h <;> exact absurd h (by decide)

/-- The unit's part of a detection: its recovery, or the note of it while a stop has frozen the data path. -/
def actAtUnit (f : FaultRec) (s : State) : State :=
  if (s.stop.frozen && deferredSource f.source) = true then onFlt (fun t => { t with deferred := t.deferred ++ [f] }) s
  else unitAction f s

theorem actAtUnit_now {f : FaultRec} {s : State} (h : (s.stop.frozen && deferredSource f.source) = false) :
    actAtUnit f s = unitAction f s := by simp [actAtUnit, h]

theorem actAtUnit_idle {f : FaultRec} (h : classOf f.source = some .cliff ∨ classOf f.source = none) (s : State) :
    actAtUnit f s = s := by
  rw [actAtUnit_now (by rw [deferredSource_idle h, Bool.and_false]), unitAction_idle h]

theorem takeFault_live {s : State} (hs : regsLive s = true) (f : FaultRec) : takeFault f s =
    if f.good = false then collect ⟨0x34, mkLoc 16 0 0, 0, f.tide, false, 0, true⟩ (actAtUnit f s)
    else if f.source = 0x04 ∧ bridgeDead f s = true then
      collect ⟨0x31, f.loc, f.object, f.tide, f.forced, 0, true⟩ (collect f (actAtUnit f s))
    else collect f (actAtUnit f s) := by
  simp [takeFault, hs, actAtUnit]

theorem takeFault_dead {s : State} (hs : regsLive s = false) (f : FaultRec) : takeFault f s = s := by
  simp [takeFault, hs]

/-- A record whole on the fault network, of no bridge: the unit acts, then the collector takes it. -/
theorem takeFault_good {s : State} {f : FaultRec} (hs : regsLive s = true) (hg : f.good = true) (hb : f.source ≠ 0x04) :
    takeFault f s = collect f (actAtUnit f s) := by
  rw [takeFault_live hs, if_neg (by simp [hg]), if_neg (fun h => hb h.1)]

theorem takeFault_reserved {s : State} {f : FaultRec} (hs : regsLive s = true) (hg : f.good = true)
    (hc : classOf f.source = none) : takeFault f s = s := by
  have hb : f.source ≠ 0x04 := fun h => by rw [h] at hc; exact absurd hc (by decide)
  rw [takeFault_good hs hg hb, actAtUnit_idle (.inr hc), collect_reserved hc]

theorem takeFault_cliff {s : State} {f : FaultRec} (hs : regsLive s = true) (hg : f.good = true)
    (hc : classOf f.source = some .cliff) : takeFault f s = collect f s := by
  have hb : f.source ≠ 0x04 := fun h => by rw [h] at hc; exact absurd hc (by decide)
  rw [takeFault_good hs hg hb, actAtUnit_idle (.inl hc)]

/-- A whole record of class Cliff enters CLIFF. -/
theorem takeFault_entered {s : State} {f : FaultRec} (hs : regsLive s = true) (hg : f.good = true)
    (hc : classOf f.source = some .cliff) : EnteredCliff s (takeFault f s) f.source f.loc := by
  rw [takeFault_cliff hs hg hc]
  exact collect_entered hs hc

theorem takeFault_cliff_dev {s : State} {f : FaultRec} (hs : regsLive s = true) (hg : f.good = true)
    (hc : classOf f.source = some .cliff) : ∃ b, (takeFault f s).dev =
    { s.dev with beaconHeld := b, prev := s.dev.state, state := .cliff, enterTide := s.tide.now } := by
  rw [takeFault_cliff hs hg hc]
  exact collect_cliff_dev hs hc

/-! ## Spares (R25) -/

/-- The failure of a logical cell takes no spare and frees none. -/
theorem nextSpare_cellFails {s t : State} {d u cell : Nat} (hcell : cell < 512)
    (hbad : t.part.badCells = s.part.badCells ++ [(d, u, cell)])
    (hmap : t.part.cellMap = s.part.cellMap.filter (fun e => !(e.1 == d && e.2.1 == u && e.2.2.2 == cell))) :
    nextSpare t d u = nextSpare s d u := by
  refine List.find?_congr fun k hk => ?_
  obtain ⟨i, -, rfl⟩ := List.mem_map.1 hk
  have hne : i + 512 ≠ cell := by omega
  have hused : (sparesUsed t d u).contains (i + 512) = (sparesUsed s d u).contains (i + 512) := by
    rw [Bool.eq_iff_iff]
    simp only [sparesUsed, hmap, List.contains_iff_mem, List.mem_map, List.mem_filter]
    constructor
    · rintro ⟨e, ⟨⟨he, -⟩, hdu⟩, hk⟩
      exact ⟨e, ⟨he, hdu⟩, hk⟩
    · rintro ⟨e, ⟨he, hdu⟩, hk⟩
      exact ⟨e, ⟨⟨he, by simp [hk, hne]⟩, hdu⟩, hk⟩
  rw [hused, hbad]
  simp [hne]

theorem logRepair_part (d u cell : Nat) (s : State) : ∃ log waiting, (logRepair d u cell s).part =
    { s.part with repairLog := log, repairWaiting := waiting } := by
  unfold logRepair
  split
  · exact ⟨_, _, rfl⟩
  · exact ⟨_, _, postDev_part _ _ _⟩

@[simp] theorem markWork_part (d u : Nat) (s : State) : (markWork d u s).part = s.part := by
  unfold markWork
  split <;> rfl

/-- A cell below the spares that has not failed serves its own number. -/
theorem logicalOf_self {s : State} {d u cell : Nat} (hcell : cell < 512) (hgood : (d, u, cell) ∉ s.part.badCells) :
    logicalOf s d u cell = some cell := by
  simp [logicalOf, hcell, hgood]

/-- The lowest unused spare takes the place of a cell that fails. -/
theorem failCell_spare {s : State} {d u cell k : Nat} (hu : arrayEnabled s d u = true) (hcell : cell < 512)
    (hgood : (d, u, cell) ∉ s.part.badCells) (hk : nextSpare s d u = some k) (forced : Bool) (tide : Nat) :
    (d, u, cell, k) ∈ (failCell d u cell forced tide s).part.cellMap
      ∧ (d, u, cell) ∈ (failCell d u cell forced tide s).part.badCells
      ∧ (failCell d u cell forced tide s).part.retired = s.part.retired := by
  have hfails : ¬ (¬ arrayEnabled s d u = true ∨ 528 ≤ cell ∨ s.part.badCells.contains (d, u, cell) = true) := by
    simp only [hu, hgood, List.contains_iff_mem, not_true_eq_false, false_or, or_false]
    omega
  unfold failCell
  rw [if_neg hfails]
  dsimp only
  rw [logicalOf_self hcell hgood]
  dsimp only
  generalize ht : onlyIf (!forced) (logRepair d u cell) (onPart _ s) = t
  have hpart : ∃ log waiting, t.part = { s.part with
      badCells := s.part.badCells ++ [(d, u, cell)],
      cellMap := s.part.cellMap.filter (fun e => !(e.1 == d && e.2.1 == u && e.2.2.2 == cell)),
      repairLog := log, repairWaiting := waiting } := by
    subst ht
    cases forced with
    | false => exact logRepair_part d u cell _
    | true => exact ⟨_, _, rfl⟩
  obtain ⟨log, waiting, hpart⟩ := hpart
  rw [nextSpare_cellFails (s := s) hcell (by rw [hpart]) (by rw [hpart]), hk]
  simp [hpart]

/-- A record of a failed cell: the spare is in place, and the collector leaves the part as the unit did. -/
theorem takeFault_spare {s : State} {f : FaultRec} {k : Nat} (hs : regsLive s = true) (hz : s.stop.frozen = false)
    (hg : f.good = true) (hsrc : f.source = 0x10 ∨ f.source = 0x11) (hu : arrayEnabled s (locDie f.loc) (locUnit f.loc) = true)
    (hcell : locSub f.loc < 512) (hgood : (locDie f.loc, locUnit f.loc, locSub f.loc) ∉ s.part.badCells)
    (hk : nextSpare s (locDie f.loc) (locUnit f.loc) = some k) :
    (locDie f.loc, locUnit f.loc, locSub f.loc, k) ∈ (takeFault f s).part.cellMap
      ∧ (locDie f.loc, locUnit f.loc, locSub f.loc) ∈ (takeFault f s).part.badCells
      ∧ (takeFault f s).part.retired = s.part.retired := by
  have hb : f.source ≠ 0x04 := by omega
  have hc : classOf f.source ≠ some .cliff := by rcases hsrc with h | h <;> rw [h] <;> decide
  have hact : unitAction f s = failCell (locDie f.loc) (locUnit f.loc) (locSub f.loc) f.forced f.tide s := by
    rcases hsrc with h | h <;> simp only [unitAction, h]
  rw [takeFault_good hs hg hb, actAtUnit_now (by rw [hz, Bool.false_and]), hact, collect_fltOnly f _ hc]
  exact failCell_spare hu hcell hgood hk _ _

/-! ## What the Q7 itself detects (R482, R484, R497, R539, R602, R604) -/

section
variable (s : State)

theorem exec_faultRecord (f : FaultRec) : exec (.faultRecord f) s = .next (takeFault f s) := rfl
theorem exec_checkerSelfTest (ok : Bool) : exec (.checkerSelfTest ok) s =
    .next (if ok then s else takeFault ⟨0x32, mkLoc 16 0 0, 0, s.tide.now, false, 0, true⟩ s) := rfl
theorem exec_watchdogRefresh : exec .watchdogRefresh s =
    .next (if regsLive s then onFlt (fun f => { f with wdAt := s.tide.now }) s else s) := rfl
theorem exec_watchdogExpiry : exec .watchdogExpiry s =
    .next (if s.flt.wdArmed && due s (s.flt.wdAt + 10000000) then takeFault ⟨0x33, mkLoc 16 0 0, 0, s.tide.now, false, 0, true⟩ s else s) :=
  rfl
theorem exec_railFault (r : Nat) : exec (.railFault r) s = .next (doRailFault r s) := rfl
theorem exec_clockLoss (c : Nat) : exec (.clockLoss c) s = .next (doClockLoss c s) := rfl
theorem exec_pcieUncorrectable (l : Nat) : exec (.pcieUncorrectable l) s =
    .next (takeFault ⟨0x27, mkLoc 16 l 0, 0, s.tide.now, false, 0, true⟩ s) := rfl
theorem exec_regionStall (r : Nat) : exec (.regionStall r) s =
    .next (takeFault ⟨0x1B, mkLoc (r / 4) (r % 4) 0, r, s.tide.now, false, 0, true⟩ s) := rfl

end

theorem mem_addNew {α : Type} [DecidableEq α] (l : List α) (x : α) : x ∈ addNew l x := by
  unfold addNew
  split
  · assumption
  · simp

section
variable {s : State} (hs : regsLive s = true)
include hs

/-- The link's functions are reset before the Storm of an uncorrectable error is taken. -/
theorem takeFault_pcie {l : Nat} (hl : l < 2) (now : Nat) : takeFault ⟨0x27, mkLoc 16 l 0, 0, now, false, 0, true⟩ s =
    collect ⟨0x27, mkLoc 16 l 0, 0, now, false, 0, true⟩ (doFlr (32 * l) 0 (reportAer l true s)) := by
  have hu : locUnit (mkLoc 16 l 0) % 2 = l := by rw [locUnit_mkLoc (by omega)]; omega
  rw [takeFault_good hs rfl (by simp), actAtUnit_now (by simp [deferredSource])]
  simp only [unitAction, hu]

theorem takeFault_dieClock {c : Nat} (hc : c < 12) (now : Nat) :
    takeFault ⟨0x24, mkLoc (4 + c) (64 * c) 0, 0, now, false, 0, true⟩ s =
      collect ⟨0x24, mkLoc (4 + c) (64 * c) 0, 0, now, false, 0, true⟩ (dieDown c s) := by
  have hd : locDie (mkLoc (4 + c) (64 * c) 0) = 4 + c := locDie_mkLoc (by omega)
  rw [takeFault_good hs rfl (by simp), actAtUnit_now (by simp [deferredSource])]
  simp only [unitAction, hd]
  rw [if_pos (by omega), Nat.add_sub_cancel_left]

theorem takeFault_stall {r : Nat} (hr : r < 16) (now : Nat) :
    takeFault ⟨0x1B, mkLoc (r / 4) (r % 4) 0, r, now, false, 0, true⟩ s =
      collect ⟨0x1B, mkLoc (r / 4) (r % 4) 0, r, now, false, 0, true⟩ (
        if s.stop.frozen = true then
          onFlt (fun t => { t with deferred := t.deferred ++ [⟨0x1B, mkLoc (r / 4) (r % 4) 0, r, now, false, 0, true⟩] }) s
        else stallRegion r false now s) := by
  have hreg : 4 * locDie (mkLoc (r / 4) (r % 4) 0) + locUnit (mkLoc (r / 4) (r % 4) 0) = r := by
    rw [locDie_mkLoc (by omega), locUnit_mkLoc (by omega)]
    omega
  rw [takeFault_good hs rfl (by simp)]
  simp [actAtUnit, deferredSource, unitAction, hreg]

theorem doRailFault_entered (r : Nat) :
    EnteredCliff s (doRailFault r s) 0x36 (mkLoc (railDie r) 0 0) ∧ r ∈ (doRailFault r s).dev.railsOut := by
  have hu : regsLive (onDev (fun d => { d with railsOut := addNew d.railsOut r }) s) = true := hs
  refine ⟨takeFault_entered hu rfl rfl, ?_⟩
  obtain ⟨b, hdev⟩ := takeFault_cliff_dev (f := ⟨0x36, mkLoc (railDie r) 0 0, 0, s.tide.now, false, 0, true⟩) hu rfl rfl
  exact hdev ▸ mem_addNew _ _

end

/-! ## Clocks lost (R604) -/

/-- Clock `c` is noted as absent. -/
def clockGone (c : Nat) : State → State := onDev (fun d => { d with clocksAbsent := addNew d.clocksAbsent c })

section
variable {s : State} (hs : regsLive s = true) {c : Nat}
include hs

theorem regsLive_clockGone : regsLive (clockGone c s) = true := hs

theorem doClockLoss_live : doClockLoss c s =
    if c < 12 then takeFault ⟨0x24, mkLoc (4 + c) (64 * c) 0, 0, s.tide.now, false, 0, true⟩ (clockGone c s)
    else if c < 14 then takeFault ⟨0x27, mkLoc 16 (c - 12) 0, 0, s.tide.now, false, 0, true⟩ (clockGone c s)
    else if c < 18 then stacksLost (c - 14) (clockGone c s)
    else if c < 20 then takeFault ⟨0x35, mkLoc 16 0 0, 0, s.tide.now, false, 0, true⟩ (clockGone c s)
    else clockGone c s :=
  if_neg (not_not_intro (regsLive_clockGone hs))

theorem doClockLoss_die (h : c < 12) : doClockLoss c s =
    collect ⟨0x24, mkLoc (4 + c) (64 * c) 0, 0, s.tide.now, false, 0, true⟩ (dieDown c (clockGone c s)) := by
  rw [doClockLoss_live hs, if_pos h, takeFault_dieClock (regsLive_clockGone hs) h]

theorem doClockLoss_pcie (h : c = 12 ∨ c = 13) : doClockLoss c s =
    collect ⟨0x27, mkLoc 16 (c - 12) 0, 0, s.tide.now, false, 0, true⟩
      (doFlr (32 * (c - 12)) 0 (reportAer (c - 12) true (clockGone c s))) := by
  rw [doClockLoss_live hs, if_neg (by omega), if_pos (by omega), takeFault_pcie (regsLive_clockGone hs) (by omega)]

theorem doClockLoss_stacks (h : 14 ≤ c) (h' : c < 18) : doClockLoss c s = stacksLost (c - 14) (clockGone c s) := by
  rw [doClockLoss_live hs, if_neg (by omega), if_neg (by omega), if_pos h']

/-- The loss of MGMT_CLK or of the Tide reference. -/
theorem doClockLoss_entered (h : c = 18 ∨ c = 19) :
    EnteredCliff s (doClockLoss c s) 0x35 (mkLoc 16 0 0) ∧ c ∈ (doClockLoss c s).dev.clocksAbsent := by
  have hu := regsLive_clockGone hs (c := c)
  rw [doClockLoss_live hs, if_neg (by omega), if_neg (by omega), if_neg (by omega), if_pos (by omega)]
  refine ⟨takeFault_entered hu rfl rfl, ?_⟩
  obtain ⟨b, hdev⟩ := takeFault_cliff_dev (f := ⟨0x35, mkLoc 16 0 0, 0, s.tide.now, false, 0, true⟩) hu rfl rfl
  exact hdev ▸ mem_addNew _ _

end

theorem hbmLost_clockGone (s : State) {c : Nat} (h : 14 ≤ c) : hbmLost (clockGone c s) (c - 14) = true := by
  have hc : 14 + (c - 14) = c := by omega
  rw [hbmLost, hc, List.contains_iff_mem]
  exact mem_addNew _ _

/-! ## The clauses of O52 -/

/-- What a record of a class does to the collector, and a Cliff to the Q7. -/
theorem collect_spec {s : State} {f : FaultRec} {c : FClass} (hs : regsLive s = true) (hc : classOf f.source = some c) :
    let t := collect f s
    t.flt.lastSrc = f.source ∧ t.flt.ripple = (s.flt.ripple || c == .ripple) ∧ t.flt.swell = (s.flt.swell || c == .swell)
      ∧ t.flt.storm = (s.flt.storm || c == .storm)
      ∧ (c ≠ .cliff → t = { s with flt := t.flt, host := t.host, obs := t.obs } ∧ t.host.accepted = s.host.accepted
          ∧ t.flt.armed = s.flt.armed ∧ t.flt.mramCliff = s.flt.mramCliff)
      ∧ (c = .cliff → unitAction f s = s ∧ EnteredCliff s t f.source f.loc ∧ t.flt.cliffTide = f.tide
          ∧ t.flt.mramCliff = (if f.forced = true then s.flt.mramCliff else some (f.source, f.loc, f.tide))) := by
  have hsum := collect_faultSummary hs hc
  simp only [faultSummary, Prod.mk.injEq] at hsum
  obtain ⟨hsrc, hripple, hswell, hstorm⟩ := hsum
  refine ⟨hsrc, hripple, hswell, hstorm, fun hne => ?_, fun hcliff => ?_⟩
  · obtain ⟨ht, hacc⟩ := collect_postsOnly hs hc hne
    exact ⟨by rw [ht]; rfl, hacc, by rw [ht]; rfl, by rw [ht]; rfl⟩
  · subst hcliff
    exact ⟨unitAction_idle (.inl hc) s, collect_entered hs hc, collect_cliff_record hs hc⟩

/-- Settles O52: a record by `takeFault_live` and `collect_spec`, a failed cell by `failCell_spare`, and each detection of the
Q7's own by the record it makes. -/
theorem faultsAreCollected : Obligations.FaultsAreCollected := by
  unfold Obligations.FaultsAreCollected
  refine ⟨⟨fun s f hs => ?_, fun s f c hs hc => collect_spec hs hc, fun s f h => ?_,
      fun s f k hs hz hg hsrc hu hcell hgood hk => ⟨_, exec_faultRecord s f, takeFault_spare hs hz hg ?_ hu hcell hgood hk⟩⟩,
    fun s hs => ⟨?_, ⟨_, exec_checkerSelfTest s false, takeFault_entered hs rfl rfl⟩, ?_, fun hw ht => ?_, fun h => ?_,
      fun r => ⟨_, exec_railFault s r, doRailFault_entered hs r⟩, fun c => ⟨fun hc => ?_, fun hc => ?_,
        fun hc hc' => ⟨?_, hbmLost_clockGone s hc⟩, fun hc => ⟨_, exec_clockLoss s c, doClockLoss_entered hs hc⟩⟩,
      fun l hl => ?_, fun r hr => ?_⟩⟩
  · rw [exec_faultRecord, takeFault_live hs]
    rfl
  · rw [exec_faultRecord]
    rcases h with ⟨hc, hg⟩ | hs
    · cases hs : regsLive s with
      | false => rw [takeFault_dead hs]
      | true => rw [takeFault_reserved hs hg hc]
    · rw [takeFault_dead hs]
  · exact hsrc.imp And.left And.left
  · rw [exec_checkerSelfTest, if_pos rfl]
  · rw [exec_watchdogRefresh, if_pos hs]
  · refine ⟨_, exec_watchdogExpiry s, ?_⟩
    rw [hw, due, decide_eq_true ht]
    exact takeFault_entered hs rfl rfl
  · have hnot : ¬ (s.flt.wdArmed && due s (s.flt.wdAt + 10000000)) = true := by
      rcases h with h | h <;> simp [due, h]
    rw [exec_watchdogExpiry, if_neg hnot]
  · rw [exec_clockLoss, doClockLoss_die hs hc]
    rfl
  · rw [exec_clockLoss, doClockLoss_pcie hs hc]
    rfl
  · rw [exec_clockLoss, doClockLoss_stacks hs hc hc']
    rfl
  · rw [exec_pcieUncorrectable, takeFault_pcie hs hl]
  · rw [exec_regionStall, takeFault_stall hs hr]

end Sys2Proof.Machine
end

/-! ## Sorting by a key, and what depends on no order of arrival (R72, R104) -/

section
namespace Sys2Proof.Machine

/-- Two elements of different keys take the same places whichever is inserted first. -/
theorem insertBy_comm {α : Type} (key : α → Nat) {x y : α} (h : key x ≠ key y) (l : List α) :
    insertBy key y (insertBy key x l) = insertBy key x (insertBy key y l) := by
  induction l with
  | nil =>
    rcases Nat.lt_or_gt_of_ne h with hlt | hlt <;> simp [insertBy, hlt, Nat.lt_asymm hlt]
  | cons z r ih =>
    by_cases hx : key x < key z <;> by_cases hy : key y < key z
    · rcases Nat.lt_or_gt_of_ne h with hlt | hlt <;> simp [insertBy, hx, hy, hlt, Nat.lt_asymm hlt]
    · have hxy : key x < key y := by omega
      simp [insertBy, hx, hy, Nat.lt_asymm hxy]
    · have hyx : key y < key x := by omega
      simp [insertBy, hx, hy, Nat.lt_asymm hyx]
    · simp [insertBy, hx, hy, ih]

/-- With distinct keys the sorted list does not depend on the order of the elements. -/
theorem sortBy_eq_of_perm {α : Type} (key : α → Nat) {l m : List α} (h : l.Perm m) (hk : (l.map key).Nodup) :
    sortBy key l = sortBy key m := by
  refine h.foldl_eq' (fun x hx y hy z => ?_) []
  by_cases hxy : key x = key y
  · rw [List.inj_on_of_nodup_map hk hx hy hxy]
  · exact insertBy_comm key hxy z

/-- The least of a bound and one number for each element does not depend on their order. -/
theorem foldl_min_eq_of_perm {α : Type} (f : α → Nat) {l m : List α} (h : l.Perm m) (b : Nat) :
    l.foldl (fun c x => min c (f x)) b = m.foldl (fun c x => min c (f x)) b :=
  h.foldl_eq' (fun x _ y _ z => Nat.min_right_comm z (f x) (f y)) b

section
variable {l₁ l₂ : List Input} (h : l₁.Perm l₂) (hr : (l₁.map (·.rank)).Nodup)
include h hr

theorem sumF32_ordered_eq_of_perm {par : CallPar} (hm : par.mode = mORDERED) (w : Nat) : sumF32 par w l₁ = sumF32 par w l₂ := by
  rw [sumF32, sumF32, if_pos hm, if_pos hm, sortBy_eq_of_perm _ h hr]

theorem mismOf_eq_of_perm : mismOf l₁ = mismOf l₂ := by
  rw [mismOf, mismOf, sortBy_eq_of_perm _ h hr]
  cases sortBy (·.rank) l₂ with
  | nil => rfl
  | cons x r => exact congrArg (fun n => (x.rank, x.hash, n)) (foldl_min_eq_of_perm _ h noRank)

end

/-- Settles O18: both go over the inputs in ascending rank, and distinct ranks sort in one way; MISM_RANK is a least rank. -/
theorem orderedSumIgnoresArrivalOrder : Obligations.OrderedSumIgnoresArrivalOrder := by
  unfold Obligations.OrderedSumIgnoresArrivalOrder
  exact fun par w l₁ l₂ h hr => ⟨fun hm => sumF32_ordered_eq_of_perm h hr hm w, mismOf_eq_of_perm h hr⟩

end Sys2Proof.Machine
end

/-! ## What the failing of calls and the root's commands leave of a group (R69, R70, R73, R76, R616) -/

section
namespace Sys2Proof.Machine

@[simp] theorem freeAll_groups (l : List (Nat × Nat)) (s : State) : (freeAll l s).groups = s.groups := by rw [freeAll_frame]
@[simp] theorem freeAll_net (l : List (Nat × Nat)) (s : State) : (freeAll l s).net = s.net := by rw [freeAll_frame]
@[simp] theorem freeAll_part (l : List (Nat × Nat)) (s : State) : (freeAll l s).part = s.part := by rw [freeAll_frame]
@[simp] theorem freeAll_tide (l : List (Nat × Nat)) (s : State) : (freeAll l s).tide = s.tide := by rw [freeAll_frame]

/-- States with the same table have the same groups. -/
theorem getGroup_congr {s t : State} (h : t.groups = s.groups) (gid : Nat) : getGroup t gid = getGroup s gid :=
  congrArg (mget · gid) h

theorem getGroup_onGroup_some {s : State} {gid : Nat} {g : Group} (hg : getGroup s gid = some g) (f : Group → Group) :
    getGroup (onGroup gid f s) gid = some (f g) := by rw [getGroup_onGroup_same, hg, Option.map_some]

@[simp] theorem getGroup_taken (port : Nat) (p : Packet) (s : State) (gid : Nat) : getGroup (taken port p s) gid = getGroup s gid :=
  getGroup_congr (by simp) gid

@[simp] theorem getPort_taken (port : Nat) (p : Packet) (s : State) (k : Nat) : getPort (taken port p s) k = getPort s k :=
  congrArg (fun n : Net => mgetD n.ports k {}) (by simp)

/-- A group without its calls, its chunks and the commands sent: its plan, membership, state, waiting descriptors and settings. -/
def planOf (g : Group) : Group := { g with calls := [], chunks := [], nextCall := 0, sent := [], nextSeq := [] }

theorem now_eq_of_planOf_eq {g h : Group} (e : planOf g = planOf h) : g.now = h.now := by
  have := congrArg Group.now e
  exact this

theorem state_eq_of_planOf_eq {g h : Group} (e : planOf g = planOf h) : g.state = h.state := by
  have := congrArg Group.state e
  exact this

theorem quiescer_eq_of_planOf_eq {g h : Group} (e : planOf g = planOf h) : g.quiescer = h.quiescer := by
  have := congrArg Group.quiescer e
  exact this

/-- `t` differs from `s` in events, counters, Shoal packets and packets to send, and in the calls, chunks and commands sent of
the groups; of group `gid` all else stands, and so do the accepted descriptors. -/
def CallsOnly (gid : Nat) (s t : State) : Prop :=
  t = { s with host := t.host, obs := t.obs, shoal := t.shoal, route := t.route, groups := t.groups }
    ∧ t.host.accepted = s.host.accepted ∧ (getGroup t gid).map planOf = (getGroup s gid).map planOf

section
variable {gid : Nat}

theorem CallsOnly.refl (s : State) : CallsOnly gid s s := ⟨rfl, rfl, rfl⟩

theorem CallsOnly.trans {s t u : State} (h : CallsOnly gid s t) (k : CallsOnly gid t u) : CallsOnly gid s u := by
  obtain ⟨h, ha, hg⟩ := h
  obtain ⟨k, ka, kg⟩ := k
  exact ⟨by rw [k, h], ka.trans ha, kg.trans hg⟩

/-- The group that stands after, with all but calls, chunks and commands as before. -/
theorem CallsOnly.group {s t : State} (h : CallsOnly gid s t) {g : Group} (hg : getGroup s gid = some g) :
    ∃ g', getGroup t gid = some g' ∧ planOf g' = planOf g := by
  have hm := h.2.2
  rw [hg, Option.map_some, Option.map_eq_some_iff] at hm
  exact hm

theorem CallsOnly.findDesc {s t : State} (h : CallsOnly gid s t) (r i : Nat) : findDesc t r i = findDesc s r i := by
  rw [Machine.findDesc, Machine.findDesc, h.2.1]

theorem callsOnly_forAll {α : Type} {f : α → State → State} (h : ∀ x u, CallsOnly gid u (f x u)) :
    ∀ (l : List α) (s : State), CallsOnly gid s (forAll l f s)
  | [], s => CallsOnly.refl s
  | x :: r, s => (h x s).trans (callsOnly_forAll h r (f x s))

theorem callsOnly_onlyIf {f : State → State} {s : State} (h : CallsOnly gid s (f s)) (b : Bool) : CallsOnly gid s (onlyIf b f s) := by
  cases b with
  | false => exact CallsOnly.refl s
  | true => exact h

theorem HostOnly.callsOnly {s t : State} (h : HostOnly s t) (ha : t.host.accepted = s.host.accepted) : CallsOnly gid s t := by
  unfold HostOnly at h
  exact ⟨by rw [h], ha, by rw [h]; rfl⟩

theorem callsOnly_count (k : CKey) (s : State) : CallsOnly gid s (count k s) := (hostOnly_count s k).callsOnly (count_accepted k s)

theorem callsOnly_originate (k : Packet) (s : State) : CallsOnly gid s (originate k s) := ⟨rfl, rfl, rfl⟩

theorem callsOnly_sendGroup (dst job aux : Nat) (body : BitVec 128) (s : State) : CallsOnly gid s (sendGroup dst job aux body s) :=
  callsOnly_originate _ s

theorem callsOnly_letGo (l : List (Nat × Nat)) (s : State) : CallsOnly gid s (letGo l s) :=
  callsOnly_forAll (fun e u => by rw [letGoOne_frame]; exact ⟨rfl, rfl, rfl⟩) l s

/-- A change of a group's calls, chunks and commands alone. -/
theorem callsOnly_onGroup {f : Group → Group} (s : State) (h : ∀ g, planOf (f g) = planOf g := by intro _; rfl) :
    CallsOnly gid s (onGroup gid f s) := by
  refine ⟨rfl, rfl, ?_⟩
  rw [getGroup_onGroup_same, Option.map_map]
  exact congrArg (Option.map · _) (funext h)

theorem callsOnly_dropChunks (f : Chunk → Bool) (s : State) : CallsOnly gid s (dropChunks gid f s) := by
  unfold dropChunks
  split
  · exact CallsOnly.refl s
  · exact (callsOnly_letGo _ s).trans (callsOnly_onGroup _)

/-- The record of a call marked failed, as `markFailed` does it. -/
def markCall (e n status : Nat) (g : Group) : Group := { g with
  calls := if (findCall g e n).isSome then g.calls.map (fun c =>
             if c.epoch == e && c.call == n then { c with failed := true, stale := status == stSTALE } else c)
           else g.calls ++ [{ epoch := e, call := n, failed := true, stale := status == stSTALE }],
  nextCall := if e = g.now.epoch then max g.nextCall (n + 1) else g.nextCall }

theorem callsOnly_markFailed (e n status : Nat) (s : State) : CallsOnly gid s (markFailed gid e n status s) := by
  unfold markFailed
  split
  · exact CallsOnly.refl s
  · next g _ =>
    have hmarked : CallsOnly gid s (onGroup gid (markCall e n status) (count (kGroup g.entry iCALLS_FAILED) s)) :=
      (callsOnly_count _ s).trans (callsOnly_onGroup _)
    dsimp only
    split
    · split
      · exact hmarked.trans (callsOnly_dropChunks _ _)
      · exact ((hmarked.trans (callsOnly_dropChunks _ _)).trans (callsOnly_letGo _ _)).trans (callsOnly_onGroup _)
    · exact hmarked.trans (callsOnly_dropChunks _ _)

theorem callsOnly_sendCmd (epoch cmd status call job : Nat) (s : State) : CallsOnly gid s (sendCmd gid epoch cmd status call job s) := by
  unfold sendCmd
  split
  · exact CallsOnly.refl s
  · exact callsOnly_forAll (fun c u => (callsOnly_onGroup u).trans (callsOnly_originate _ _)) _ s

theorem callsOnly_failCall (e n status rank : Nat) (cmd : Bool) (s : State) :
    CallsOnly gid s (failCall gid e n status rank cmd s) := by
  unfold failCall
  split
  · exact CallsOnly.refl s
  · split
    · exact CallsOnly.refl s
    · have hmark := callsOnly_markFailed (gid := gid) e n status s
      dsimp only
      split
      · exact (hmark.trans (callsOnly_forAll (fun _ _ => callsOnly_sendGroup _ _ _ _ _) _ _)).trans
          (callsOnly_onlyIf (callsOnly_sendCmd _ _ _ _ _ _) _)
      · exact hmark

theorem callsOnly_endCalls (status : Nat) (s : State) : CallsOnly gid s (endCalls gid status s) := by
  unfold endCalls
  split
  · exact CallsOnly.refl s
  · exact (callsOnly_forAll (fun _ _ => callsOnly_failCall _ _ _ _ _ _) _ s).trans (callsOnly_dropChunks _ _)

theorem callsOnly_settleEpoch (s : State) : CallsOnly gid s (settleEpoch gid s) := by
  unfold settleEpoch
  split
  · exact CallsOnly.refl s
  · exact callsOnly_forAll (fun _ _ => callsOnly_failCall _ _ _ _ _ _) _ s

end

/-! ## Notices, epochs and the activation of a plan (R67 to R70, R76, R77) -/

/-- EPOCH_NOTICEs change the packets to send alone. -/
theorem sendNotice_frame (g : Group) (cause rank who : Nat) (before : List (Nat × Nat × Nat)) (s : State) :
    sendNotice g cause rank who before s = { s with route := (sendNotice g cause rank who before s).route } := by
  unfold sendNotice
  dsimp only
  generalize g.frag.children.map (farEpid s) ++ _ = l
  generalize groupBody _ _ _ _ _ _ _ _ = body
  induction l generalizing s with
  | nil => rfl
  | cons d r ih => exact ih (sendGroup d 0 who body s)

@[simp] theorem sendNotice_groups (g : Group) (cause rank who : Nat) (before : List (Nat × Nat × Nat)) (s : State) :
    (sendNotice g cause rank who before s).groups = s.groups := by rw [sendNotice_frame]
@[simp] theorem sendNotice_part (g : Group) (cause rank who : Nat) (before : List (Nat × Nat × Nat)) (s : State) :
    (sendNotice g cause rank who before s).part = s.part := by rw [sendNotice_frame]

/-- A plan none of whose arrays has retired stands as it is. -/
theorem failRetired_idle {gid : Nat} {s : State} {g : Group} (hg : getGroup s gid = some g)
    (ha : g.frag.arrays.any (fun a => s.part.retired.contains a) = false) : failRetired gid s = s := by
  simp only [failRetired, hg, ha, onlyIf_false]

section
variable (now : Nat) (r : Roster) (g : Group)

/-- A new epoch changes the rosters and what goes with an epoch's accumulation and calls. -/
theorem newEpoch_frame : ∃ k n a p w f e d x, newEpoch now r g = { g with
    olds := (if g.now.epoch = 0 then [] else [g.now]) ++ g.olds, now := r, commitAt := now, highSealed := none, nextCall := 0,
    passes := k, accChunks := n, accRes := a, pendingAccum := p, accWin := w, accF32 := f, accExp := e, accDone := d, accFailed := x } := by
  unfold newEpoch applyAccum
  dsimp only
  split <;> exact ⟨_, _, _, _, _, _, _, _, _, rfl⟩

@[simp] theorem newEpoch_now : (newEpoch now r g).now = r := by
  obtain ⟨_, _, _, _, _, _, _, _, _, h⟩ := newEpoch_frame now r g; rw [h]
@[simp] theorem newEpoch_frag : (newEpoch now r g).frag = g.frag := by
  obtain ⟨_, _, _, _, _, _, _, _, _, h⟩ := newEpoch_frame now r g; rw [h]
@[simp] theorem newEpoch_entry : (newEpoch now r g).entry = g.entry := by
  obtain ⟨_, _, _, _, _, _, _, _, _, h⟩ := newEpoch_frame now r g; rw [h]
@[simp] theorem newEpoch_shoalRes : (newEpoch now r g).shoalRes = g.shoalRes := by
  obtain ⟨_, _, _, _, _, _, _, _, _, h⟩ := newEpoch_frame now r g; rw [h]
@[simp] theorem newEpoch_stagingRes : (newEpoch now r g).stagingRes = g.stagingRes := by
  obtain ⟨_, _, _, _, _, _, _, _, _, h⟩ := newEpoch_frame now r g; rw [h]

end

/-- An eviction or a LEAVE (cause 1) and a renewal (cause 2) commit the next epoch: the rank goes, or the members stand. -/
theorem commitEpoch_now {gid : Nat} {s : State} {g : Group} (hg : getGroup s gid = some g) (rank who : Nat) (att : Option Nat) (job : Nat) :
    (∃ g', getGroup (commitEpoch gid 1 rank who att job s) gid = some g' ∧ g'.now.epoch = g.now.epoch + 1
      ∧ g'.now.roster = g.now.roster.filter (fun e => e.1 != rank) ∧ g'.now.admitted = g.now.admitted.filter (fun m => m.2.1 != rank))
    ∧ (∃ g', getGroup (commitEpoch gid 2 rank who att job s) gid = some g' ∧ g'.now.epoch = g.now.epoch + 1
      ∧ g'.now.roster = g.now.roster ∧ g'.now.admitted = g.now.admitted) := by
  obtain ⟨g₁, hg₁, hplan⟩ := (callsOnly_settleEpoch s).group hg
  have hnow : g₁.now = g.now := now_eq_of_planOf_eq hplan
  constructor <;> simp [commitEpoch, hg₁, hnow, getGroup_congr (sendNotice_groups _ _ _ _ _ _)]

/-- A root whose plan's arrays all stand enters ACTIVE at epoch 1, or one above the epoch a REPLACE kept. -/
theorem activate_active {gid : Nat} {s : State} {g : Group} (hg : getGroup s gid = some g)
    (ha : g.frag.arrays.any (fun a => s.part.retired.contains a) = false) :
    ∃ g', getGroup (activate gid s) gid = some g' ∧ g'.state = .active
      ∧ g'.now.epoch = (if g.fromQuiesced = true then g.now.epoch + 1 else 1)
      ∧ g'.frag = g.frag ∧ g'.entry = g.entry ∧ g'.shoalRes = g.shoalRes ∧ g'.stagingRes = g.stagingRes := by
  unfold activate
  simp only [hg, getGroup_onGroup_same, Option.map_some]
  rw [failRetired_idle ((getGroup_congr (sendNotice_groups _ _ _ _ _ _) gid).trans (getGroup_onGroup_some hg _)) (by simpa [onGroup] using ha)]
  simp [getGroup_congr (sendNotice_groups _ _ _ _ _ _), hg]

end Sys2Proof.Machine
end

/-! ## Group descriptors and the ends of a group's waits (R56, R67 to R70, R76, R77, R293) -/

section
namespace Sys2Proof.Machine

/-! ### Descriptors that wait and descriptors that end -/

theorem findDesc_ring_idx {s : State} {r i : Nat} {d : Desc} (h : findDesc s r i = some d) : d.ring = r ∧ d.idx = i := by
  simpa using List.find?_some h

/-- A descriptor whose work waits, but for a commit, stands accepted in that stage. -/
theorem findDesc_settleDesc_wait {s : State} {r i : Nat} {d : Desc} (h : findDesc s r i = some d) (x : List Byte) {st : Stage}
    (hst : st ≠ .commitWait) : ∃ e, findDesc (settleDesc d x (.wait st) s) r i = some e ∧ e.stage = st := by
  obtain ⟨rfl, rfl⟩ := findDesc_ring_idx h
  refine ⟨{ d with stage := st, data := x, takenAt := s.tide.now }, ?_, rfl⟩
  simp only [findDesc, settleDesc, onHost, if_neg hst, List.find?_map] at h ⊢
  rw [List.find?_congr (p₂ := fun e => e.ring == d.ring && e.idx == d.idx), h, Option.map_some, if_pos (by simp)]
  intro e _
  simp only [Function.comp]
  split <;> rfl

/-- The completion of one descriptor leaves every other accepted. -/
theorem findDesc_finishDesc_ne (s : State) {ri : Nat × Nat} {r i : Nat} (st res : Nat) (h : ri ≠ (r, i)) :
    findDesc (finishDesc ri st res s) r i = findDesc s r i := by
  unfold finishDesc
  split
  · next d hd =>
    obtain ⟨hr, hi⟩ := findDesc_ring_idx hd
    by_cases hc : s.dev.state = .cliff
    · rw [complete_cliff hc]
    · rw [findDesc, findDesc, complete_accepted hc, List.find?_filter]
      refine List.find?_congr fun e _ => ?_
      have hne : ¬ (ri.1 = r ∧ ri.2 = i) := fun hri => h (Prod.ext hri.1 hri.2)
      rw [hr, hi]
      grind
  · rfl

/-! ### The group's entry named by a descriptor -/

section
variable {used : List (Nat × Nat)} {f : Group → Work} {cx : Cx} {op : BitVec 384} {d : List Byte} {s : State} {g : Group}
  (hf : onlyBits op ((23, 0) :: used) = true) (hg : getGroup s (fld op 23 0) = some g) (hc : coveAllowed s cx.func g.frag.cove = true)
include hf hg hc

/-- A group opcode whose unused fields are zero, on an entry in a Cove the function may name. -/
theorem groupWork_named : groupWork used f cx op d s = f g cx op d s := by
  simp [groupWork, groupFieldsOk, hf, hg, hc]

theorem rootWork_named (hr : g.frag.isRoot = true) : rootWork used f cx op d s = f g cx op d s := by
  rw [rootWork, groupWork_named hf hg hc, if_pos hr]

end

@[simp] theorem getGroup_complete (d : Desc) (a b : Nat) (x y : Bool) (s : State) (gid : Nat) :
    getGroup (complete d a b x y s) gid = getGroup s gid := getGroup_congr (complete_groups s d a b x y) gid

@[simp] theorem getGroup_settleDesc (d : Desc) (x : List Byte) (r : Res) (s : State) (gid : Nat) :
    getGroup (settleDesc d x r s) gid = getGroup s gid := getGroup_congr (settleDesc_groups s d x r) gid

@[simp] theorem getGroup_finishDesc (ri : Nat × Nat) (a b : Nat) (s : State) (gid : Nat) :
    getGroup (finishDesc ri a b s) gid = getGroup s gid := getGroup_congr (finishDesc_groups s ri a b) gid

section
variable {s : State} {r i : Nat} {d : Desc} {g : Group} (hg : getGroup s (fld d.op 23 0) = some g)
  (hc : coveAllowed s d.func g.frag.cove = true)
include hg hc

theorem exec_groupQuiesce (h : Ready s r i 0x23 d) (hf : onlyBits d.op [(23, 0)] = true) (hr : g.frag.isRoot = true) :
    exec (.groupQuiesce r i) s = .next (if g.state ≠ .active then answer d 0x09 0 s
      else settleDesc d [] (.wait .draining) (sendCmd g.frag.group g.now.epoch 0 0 0 0
        (onGroup g.frag.group (fun x => { x with state := .quiescing, quiescer := some (r, i) }) s))) := by
  refine congrArg Host.Outcome.next ((runDesc_ready h workGroupQuiesce []).trans ?_)
  rw [workGroupQuiesce, rootWork_named hf hg hc hr]
  split <;> rfl

theorem exec_groupResume (h : Ready s r i 0x24 d) (hf : onlyBits d.op [(23, 0)] = true) (hr : g.frag.isRoot = true) :
    exec (.groupResume r i) s = .next (if g.state = .quiesced then
        answer d 0x00 0 (failRetired g.frag.group
          (sendCmd g.frag.group g.now.epoch 1 0 0 0 (onGroup g.frag.group (fun x => { x with state := .active }) s)))
      else answer d 0x09 0 s) := by
  refine congrArg Host.Outcome.next ((runDesc_ready h workGroupResume []).trans ?_)
  rw [workGroupResume, rootWork_named hf hg hc hr, ite_not]
  split <;> rfl

theorem exec_groupEvict (h : Ready s r i 0x22 d) (hf : onlyBits d.op [(23, 0), (287, 270)] = true) (hr : g.frag.isRoot = true)
    (ht : takesChanges g = true) (he : g.now.epoch ≠ 0xFFFF) (hm : g.now.roster.any (fun e => e.1 == fld d.op 287 270) = true) :
    exec (.groupEvict r i) s = .next (answer d 0x00 0 (commitEpoch g.frag.group 1 (fld d.op 287 270) 0 none 0 s)) := by
  refine congrArg Host.Outcome.next ((runDesc_ready h workGroupEvict []).trans ?_)
  rw [workGroupEvict, rootWork_named hf hg hc hr, if_neg (by simp [ht, hm]), if_neg he]
  rfl

theorem exec_groupRenew (h : Ready s r i 0x25 d) (hf : onlyBits d.op [(23, 0)] = true) (hr : g.frag.isRoot = true)
    (ht : takesChanges g = true) :
    exec (.groupRenew r i) s = .next (if g.now.epoch = 0xFFFF then answer d 0x08 0 s
      else answer d 0x00 0 (commitEpoch g.frag.group 2 noRank 0 none 0 s)) := by
  refine congrArg Host.Outcome.next ((runDesc_ready h workGroupRenew []).trans ?_)
  rw [workGroupRenew, rootWork_named hf hg hc hr, if_neg (by simp [ht])]
  split <;> rfl

theorem exec_groupDestroy (h : Ready s r i 0x26 d) (hf : onlyBits d.op [(23, 0)] = true) :
    exec (.groupDestroy r i) s = .next (settleDesc d [] (.wait .draining) (onGroup g.frag.group
      (fun x => { x with destroyTaken := true, destroyers := x.destroyers ++ [(r, i)] }) (enterDestroying g.frag.group s))) := by
  refine congrArg Host.Outcome.next ((runDesc_ready h workGroupDestroy []).trans ?_)
  rw [workGroupDestroy, groupWork_named hf hg hc]

end

/-! ### QUIESCING and DESTROYING -/

/-- The end of a waiting GROUP_QUIESCE leaves the entry's state, and every other descriptor. -/
theorem endQuiescer_spec {gid : Nat} {s : State} {g : Group} (hg : getGroup s gid = some g) (st : Nat) :
    (∃ g', getGroup (endQuiescer gid st s) gid = some g' ∧ g'.state = g.state)
      ∧ (∀ r i, g.quiescer ≠ some (r, i) → findDesc (endQuiescer gid st s) r i = findDesc s r i) := by
  simp only [endQuiescer, hg]
  cases hq : g.quiescer with
  | none => exact ⟨⟨g, hg, rfl⟩, fun _ _ _ => rfl⟩
  | some ri =>
    refine ⟨⟨{ g with quiescer := none }, by simp [hg], rfl⟩, fun r i hne => ?_⟩
    exact findDesc_finishDesc_ne _ st 0 fun h => hne (congrArg some h)

/-- The entry is DESTROYING, and every descriptor but the GROUP_QUIESCE that waited stands accepted. -/
theorem enterDestroying_spec {gid : Nat} {s : State} {g : Group} (hg : getGroup s gid = some g) :
    (∃ g', getGroup (enterDestroying gid s) gid = some g' ∧ g'.state = .destroying)
      ∧ (∀ r i, g.quiescer ≠ some (r, i) → findDesc (enterDestroying gid s) r i = findDesc s r i) := by
  by_cases hs : g.state = .destroying
  · have hid : enterDestroying gid s = s := by simp [enterDestroying, hg, hs]
    rw [hid]
    exact ⟨⟨g, hg, hs⟩, fun _ _ _ => rfl⟩
  · have hunfold : enterDestroying gid s = endQuiescer gid stABORTED (onlyIf g.frag.isRoot (sendCmd gid g.now.epoch 2 0 0 0)
        (onGroup gid (fun x => { x with state := .destroying }) (endCalls gid stABORTED s))) := by
      simp [enterDestroying, hg, hs]
    have hcalls := callsOnly_endCalls (gid := gid) stABORTED s
    obtain ⟨g₁, hg₁, hplan₁⟩ := hcalls.group hg
    have hmark : getGroup (onGroup gid (fun x => { x with state := .destroying }) (endCalls gid stABORTED s)) gid
        = some { g₁ with state := .destroying } := getGroup_onGroup_some hg₁ _
    have hsend := callsOnly_onlyIf (callsOnly_sendCmd (gid := gid) g.now.epoch 2 0 0 0
      (onGroup gid (fun x => { x with state := .destroying }) (endCalls gid stABORTED s))) g.frag.isRoot
    obtain ⟨g₂, hg₂, hplan₂⟩ := hsend.group hmark
    have hstate : g₂.state = .destroying := state_eq_of_planOf_eq hplan₂
    have hquiescer : g₂.quiescer = g.quiescer := by
      rw [quiescer_eq_of_planOf_eq hplan₂, ← quiescer_eq_of_planOf_eq hplan₁]
    obtain ⟨⟨g₃, hg₃, hstate₃⟩, hdesc⟩ := endQuiescer_spec hg₂ stABORTED
    rw [hunfold]
    refine ⟨⟨g₃, hg₃, hstate₃.trans hstate⟩, fun r i hne => ?_⟩
    rw [hdesc r i (by rwa [hquiescer]), hsend.findDesc]
    exact hcalls.findDesc r i

theorem exec_groupQuiesced {s : State} {gid : Nat} {g : Group} (he : engineOn s = true) (hg : getGroup s gid = some g)
    (hs : g.state = .quiescing) (ho : openCalls g = []) :
    exec (.groupQuiesced gid) s = .next (endQuiescer gid stDONE (onGroup gid (fun x => { x with state := .quiesced }) s)) := by
  show Host.Outcome.next (doGroupQuiesced gid s) = _
  simp [doGroupQuiesced, he, hg, hs, ho]

theorem exec_groupDestroyDone {s : State} {gid : Nat} {g : Group} (hl : regsLive s = true) (hg : getGroup s gid = some g)
    (hs : g.state = .destroying) (ht : g.destroyTaken = true) (hk : g.chunks = []) (hc : charge s (.group g.entry) = 0) :
    exec (.groupDestroyDone gid) s = .next (forAll g.destroyers (fun d => finishDesc d 0x00 0)
      (noteIdle (usedRegions s) { s with groups := mdel s.groups gid })) := by
  show Host.Outcome.next (whenLive (doGroupDestroyDone gid) s) = _
  simp [whenLive, doGroupDestroyDone, hl, hg, hs, ht, hk, hc, stDONE]

/-- Settles O14: each descriptor by the equation of its work, a commit by `commitEpoch_now`, DESTROYING by
`enterDestroying_spec`. -/
theorem rootGroupDescriptorsAndWaits : Obligations.RootGroupDescriptorsAndWaits := by
  unfold Obligations.RootGroupDescriptorsAndWaits
  refine ⟨fun s r i d g hg hgid hc => ?_, fun s gid g he hg hs ho => ?_, fun s gid g hl hg hs ht hk hch =>
    exec_groupDestroyDone hl hg hs ht hk hch⟩
  · have hg' : getGroup s g.frag.group = some g := hgid ▸ hg
    refine ⟨fun h hf hr => ⟨fun hs => ?_, fun hs => ?_⟩, fun h hf hr => ⟨exec_groupResume hg hc h hf hr,
      fun u hu ha => failRetired_idle hu ha⟩, fun h hf hr ht he hm => ?_, fun h hf hr ht => ⟨fun he => ?_, fun he => ?_⟩,
      fun h hf hq => ?_⟩
    · rw [exec_groupQuiesce hg hc h hf hr, if_pos hs]
    · rw [exec_groupQuiesce hg hc h hf hr, if_neg (not_not_intro hs)]
      have hsend := callsOnly_sendCmd (gid := g.frag.group) g.now.epoch 0 0 0 0
        (onGroup g.frag.group (fun x => { x with state := .quiescing, quiescer := some (r, i) }) s)
      obtain ⟨g', hg₁, hplan⟩ := hsend.group (getGroup_onGroup_some hg' _)
      obtain ⟨e, hfind, hstage⟩ := findDesc_settleDesc_wait (st := .draining) ((hsend.findDesc r i).trans h.1) [] (by decide)
      exact ⟨_, g', e, rfl, by rw [getGroup_settleDesc, hg₁], state_eq_of_planOf_eq hplan, quiescer_eq_of_planOf_eq hplan, hfind, hstage⟩
    · obtain ⟨g', hcommit, hspec⟩ := (commitEpoch_now hg' (fld d.op 287 270) 0 none 0).1
      exact ⟨_, g', exec_groupEvict hg hc h hf hr ht he hm, hcommit, hspec⟩
    · rw [exec_groupRenew hg hc h hf hr ht, if_pos he]
    · obtain ⟨g', hcommit, hspec⟩ := (commitEpoch_now hg' noRank 0 none 0).2
      exact ⟨_, g', by rw [exec_groupRenew hg hc h hf hr ht, if_neg he], hcommit, hspec⟩
    · obtain ⟨⟨g', hg₁, hstate⟩, hdesc⟩ := enterDestroying_spec hg'
      obtain ⟨e, hfind, hstage⟩ := findDesc_settleDesc_wait (st := .draining)
        (s := onGroup g.frag.group (fun x => { x with destroyTaken := true, destroyers := x.destroyers ++ [(r, i)] })
          (enterDestroying g.frag.group s)) ((hdesc r i hq).trans h.1) [] (by decide)
      exact ⟨_, { g' with destroyTaken := true, destroyers := g'.destroyers ++ [(r, i)] }, e, exec_groupDestroy hg hc h hf,
        (getGroup_settleDesc _ _ _ _ _).trans (getGroup_onGroup_some hg₁ _), hstate, rfl, by simp, hfind, hstage⟩
  · refine ⟨_, { g with state := .quiesced, quiescer := none }, exec_groupQuiesced he hg hs ho, ?_, rfl, rfl, fun ri hq => ?_, fun hq => ?_⟩
    · cases hq : g.quiescer <;> simp [endQuiescer, hg, hq]
    · simp [endQuiescer, hg, hq, stDONE]
    · simp [endQuiescer, hg, hq]

end Sys2Proof.Machine
end

/-! ## GROUP_QUERY, GROUP_EXTENTS, ACCUM_SET (R57, R93, R136) and the setting up of a plan (R70, R76, R77) -/

section
namespace Sys2Proof.Machine

section
variable {s : State} {r i : Nat} {d : Desc} {g : Group} (hg : getGroup s (fld d.op 23 0) = some g)
  (hc : coveAllowed s d.func g.frag.cove = true)
include hg hc

theorem exec_groupQuery (h : Ready s r i 0x27 d) (hf : onlyBits d.op [(23, 0), (383, 320), (319, 288)] = true) :
    exec (.groupQuery r i) s = .next (
      if fld d.op 383 320 % 8 ≠ 0 ∨ fld d.op 319 288 < 64 then answer d 0x09 0 s
      else answer d 0x00 0 (hostWrite d.func (fld d.op 383 320) ((groupRecord g).take (fld d.op 319 288)) s)) := by
  refine congrArg Host.Outcome.next ((runDesc_ready h workGroupQuery []).trans ?_)
  rw [workGroupQuery, groupWork_named hf hg hc]
  split <;> rfl

theorem exec_groupExtents (data : List Byte) (h : Ready s r i 0x21 d)
    (hf : onlyBits d.op [(23, 0), (383, 320), (319, 288), (269, 266)] = true) :
    let l := parseExtents data
    let t := onGroup (fld d.op 23 0) (fun g => { g with extents := mput g.extents (fld d.op 269 266) l }) s
    exec (.groupExtents r i data) s = .next (
      if fld d.op 383 320 % 8 ≠ 0 ∨ fld d.op 319 288 % 8 ≠ 0 ∨ data.length ≠ fld d.op 319 288
        ∨ (List.range (data.length / 8)).all (fun i => fld (entryAt data (8 * i)) 45 32 == 0) = false
        ∨ ascending (l.map (·.1)) = false ∨ l.any (fun e => e.1 == noRank) = true then answer d 0x09 0 s
      else if hbmFits t = false then answer d 0x08 0 s
      else answer d 0x00 0 t) := by
  refine congrArg Host.Outcome.next ((runDesc_ready h workGroupExtents data).trans ?_)
  rw [workGroupExtents, groupWork_named hf hg hc]
  simp only [Bool.not_eq_true]
  split
  · rfl
  · split <;> rfl

theorem exec_accumSet (h : Ready s r i 0x30 d) :
    let n := fld d.op 383 352
    let k := fld d.op 351 336
    let t := onGroup (fld d.op 23 0) (fun x => { x with pendingAccum := some (k, n, accNeed g.frag n) }) s
    exec (.accumSet r i) s = .next (
      if onlyBits d.op [(383, 352), (351, 336), (23, 0)] = false ∨ n = 0 ∨ 65536 < n ∨ k = 0 ∨ g.state = .failed ∨ g.state = .destroying then
        answer d 0x09 0 s
      else if 2 ^ 22 < memberCount g * k ∨ stagingFits t = false ∨ hbmFits t = false then answer d 0x08 0 s
      else answer d 0x00 0 t) := by
  refine congrArg Host.Outcome.next ((runDesc_ready h workAccumSet []).trans ?_)
  simp only [workAccumSet, hg, hc, not_true_eq_false, if_false, Bool.not_eq_true]
  split
  · rfl
  · split <;> rfl

end

/-! ### PLAN_READY and EPOCH_NOTICE -/

/-- A step that changes nothing changes nothing under a condition. -/
theorem onlyIf_idle (b : Bool) {f : State → State} {s : State} (h : f s = s) : onlyIf b f s = s := by
  cases b with
  | false => rfl
  | true => exact h

theorem planPort_taken (port : Nat) (p : Packet) (s : State) (g : Group) : planPort (taken port p s) g port p = planPort s g port p := by
  simp only [planPort, isFabric, farEpid, getPort_taken]
  rfl

/-- The entry as an EPOCH_NOTICE of the parent leaves it (R70, R77). -/
def noticeEntered (now : Nat) (r : Roster) (g : Group) : Group := { newEpoch now r g with
  state := if g.state = .installing then .active else g.state, fromQuiesced := false, readyAt := none }

section
variable {s : State} {port : Nat} {p : Packet} {g : Group} (he : engineFor s port p = true)
  (hg : getGroup s (fld p.ctl 119 96) = some g)
include he hg

/-- PLAN_READY of a child port that has not reported is noted, and the entry sees whether it was the last. -/
theorem exec_planReady_noted (hm : port ∈ g.frag.children) (hs : g.state = .installing) (hn : port ∉ g.ready) :
    exec (.planReady port p) s = .next (readyCheck (fld p.ctl 119 96)
      (onGroup (fld p.ctl 119 96) (fun g => { g with ready := g.ready ++ [port] }) (taken port p s))) := by
  have hg' : getGroup (taken port p s) (fld p.ctl 119 96) = some g := by rw [getGroup_taken, hg]
  show Host.Outcome.next (doPlanReady port p s) = _
  unfold doPlanReady
  simp [he, hg', hm, hs, hn]

/-- An EPOCH_NOTICE of the parent that the entry takes: its epoch and count are entered and the notice goes on, and a plan set up
now sees whether its arrays stand. -/
theorem exec_epochNotice_taken (hroot : g.frag.isRoot = false) (hp : planPort s g port p = g.frag.parent)
    (hs : takesChanges g = true ∨ (g.state = .installing ∧ 2 ≤ fld p.ctl 11 10)) :
    ∃ r cause rank who before, r.epoch = fld p.ctl 95 80 ∧ r.count = fld p.ctl 61 44
      ∧ exec (.epochNotice port p) s = .next (onlyIf (g.state == .installing) (failRetired (fld p.ctl 119 96))
        (sendNotice (noticeEntered s.tide.now r g) cause rank who before
          (onGroup (fld p.ctl 119 96) (noticeEntered s.tide.now r) (taken port p s)))) := by
  have hg' : getGroup (taken port p s) (fld p.ctl 119 96) = some g := by rw [getGroup_taken, hg]
  have hp' : planPort (taken port p s) g port p = g.frag.parent := (planPort_taken port p s g).trans hp
  have htide : (taken port p s).tide = s.tide := by simp
  have hdo : ∃ r cause rank who before, r.epoch = fld p.ctl 95 80 ∧ r.count = fld p.ctl 61 44
      ∧ doEpochNotice port p s = onlyIf (g.state == .installing) (failRetired (fld p.ctl 119 96))
        (sendNotice (noticeEntered s.tide.now r g) cause rank who before
          (onGroup (fld p.ctl 119 96) (noticeEntered s.tide.now r) (taken port p s))) := by
    unfold doEpochNotice
    simp only [he, hg', hp', htide, hroot, not_not_intro hs, ne_eq, not_true_eq_false, if_false, Bool.false_eq_true, or_self,
      getGroup_onGroup_same, Option.map_some]
    exact ⟨_, _, _, _, _, rfl, rfl, rfl⟩
  obtain ⟨r, cause, rank, who, before, hr, hcount, heq⟩ := hdo
  exact ⟨r, cause, rank, who, before, hr, hcount, congrArg Host.Outcome.next heq⟩

/-- With its arrays in service the entry is in the epoch noticed, and ACTIVE if it was being set up. -/
theorem epochNotice_entered (hroot : g.frag.isRoot = false) (hp : planPort s g port p = g.frag.parent)
    (hs : takesChanges g = true ∨ (g.state = .installing ∧ 2 ≤ fld p.ctl 11 10))
    (ha : g.frag.arrays.any (fun a => s.part.retired.contains a) = false) :
    ∃ t g', exec (.epochNotice port p) s = .next t ∧ getGroup t (fld p.ctl 119 96) = some g' ∧ g'.now.epoch = fld p.ctl 95 80
      ∧ g'.now.count = fld p.ctl 61 44 ∧ g'.readyAt = none
      ∧ g'.state = (if g.state = .installing then .active else g.state) := by
  obtain ⟨r, cause, rank, who, before, hr, hcount, hexec⟩ := exec_epochNotice_taken he hg hroot hp hs
  have hgroup : getGroup (sendNotice (noticeEntered s.tide.now r g) cause rank who before
      (onGroup (fld p.ctl 119 96) (noticeEntered s.tide.now r) (taken port p s))) (fld p.ctl 119 96)
      = some (noticeEntered s.tide.now r g) :=
    (getGroup_congr (sendNotice_groups _ _ _ _ _ _) _).trans (getGroup_onGroup_some ((getGroup_taken _ _ _ _).trans hg) _)
  rw [onlyIf_idle _ (failRetired_idle hgroup (by simpa [noticeEntered, onGroup] using ha))] at hexec
  exact ⟨_, _, hexec, hgroup, by simp [noticeEntered, hr], by simp [noticeEntered, hcount], rfl, rfl⟩

end

/-- The last PLAN_READY at the root. -/
theorem readyCheck_last {gid : Nat} {s : State} {g : Group} (hg : getGroup s gid = some g) (hs : g.state = .installing)
    (hall : g.frag.children.all (fun c => g.ready.contains c) = true) (hroot : g.frag.isRoot = true) :
    readyCheck gid s = activate gid s := by
  simp only [readyCheck, hg, hs, hall, hroot, and_self, if_true]

/-- While a child port has still to report nothing follows. -/
theorem readyCheck_waits {gid : Nat} {s : State} {g : Group} (hg : getGroup s gid = some g)
    (hall : g.frag.children.all (fun c => g.ready.contains c) = false) : readyCheck gid s = s := by
  simp only [readyCheck, hg, hall, Bool.false_eq_true, and_false, if_false]

theorem exec_planReadyResend {s : State} {gid : Nat} {g : Group} {at_ : Nat} (he : engineOn s = true) (hg : getGroup s gid = some g)
    (hr : g.readyAt = some at_) (hs : g.state = .installing) (hroot : g.frag.isRoot = false) (hd : at_ + 100000 ≤ s.tide.now) :
    exec (.planReadyResend gid) s = .next (sendPlanReady gid s) := by
  show Host.Outcome.next (doPlanReadyResend gid s) = _
  simp [doPlanReadyResend, hg, hr, he, hs, hroot, due, hd]

/-- Settles O15: each descriptor by the equation of its work; PLAN_READY by `readyCheck` and `activate_active`, EPOCH_NOTICE by
`epochNotice_entered`. -/
theorem groupRecordsAndPlanSetUp : Obligations.GroupRecordsAndPlanSetUp := by
  unfold Obligations.GroupRecordsAndPlanSetUp
  refine ⟨fun s r i d g hg hc => ⟨fun h hf => exec_groupQuery hg hc h hf, fun data h hf => exec_groupExtents hg hc data h hf,
      fun h => exec_accumSet hg hc h⟩,
    fun s port p g => ?_, fun s port p g he hg hroot hp hs ha => epochNotice_entered he hg hroot hp hs ha,
    fun s gid g at_ he hg hr hs hroot hd => exec_planReadyResend he hg hr hs hroot hd⟩
  intro gid he hg hm hs hn ha
  have hnoted := exec_planReady_noted he hg hm hs hn
  have hg' : getGroup (onGroup gid (fun g => { g with ready := g.ready ++ [port] }) (taken port p s)) gid
      = some { g with ready := g.ready ++ [port] } := getGroup_onGroup_some ((getGroup_taken _ _ _ _).trans hg) _
  refine ⟨fun hall => ?_, fun hall hroot => ?_⟩
  · rw [hnoted, readyCheck_waits hg' hall]
  · obtain ⟨g', hact, hstate, hepoch, -⟩ := activate_active hg' (by simpa [onGroup] using ha)
    exact ⟨_, g', by rw [hnoted, readyCheck_last hg' hs hall hroot], hact, hstate, hepoch⟩

end Sys2Proof.Machine
end

/-! ## GROUP_INSTALL (R51 to R54, R76, R77, R292) -/

section
namespace Sys2Proof.Machine

@[simp] theorem getGroup_sendGroup (dst job aux : Nat) (body : BitVec 128) (s : State) (gid : Nat) :
    getGroup (sendGroup dst job aux body s) gid = getGroup s gid := rfl

/-- A fragment that passes its checks names arrays in service alone (R27, R53). -/
theorem fragOk_arrays {s : State} {f : Fragment} {gid : Nat} (h : fragOk s f gid = true) :
    f.arrays.any (fun a => s.part.retired.contains a) = false := by
  have hall : f.arrays.all (fun a => maEnabled s a.1 a.2) = true := by
    simp only [fragOk, Bool.and_eq_true] at h
    tauto
  rw [List.any_eq_false]
  intro a ha
  have hma := List.all_eq_true.mp hall a ha
  simp only [maEnabled, Bool.and_eq_true, Bool.not_eq_true'] at hma
  obtain ⟨-, hretired⟩ := hma
  simpa using hretired

/-- PLAN_READY to the parent notes the instant, and leaves the plan's entry. -/
theorem sendPlanReady_group {gid : Nat} {s : State} {g : Group} (hg : getGroup s gid = some g) :
    getGroup (sendPlanReady gid s) gid = some { g with readyAt := some s.tide.now } := by
  simp only [sendPlanReady, hg, getGroup_sendGroup, getGroup_onGroup_same, Option.map_some]

/-- A new entry: it waits for its child ports, tells its parent, or at a root without children enters epoch 1. -/
theorem readyCheck_installed {gid : Nat} {s : State} {f : Fragment} {e : Nat} (hg : getGroup s gid = some (installed f e none))
    (ha : f.arrays.any (fun a => s.part.retired.contains a) = false) :
    ∃ g, getGroup (readyCheck gid s) gid = some g ∧ g.frag = f ∧ g.entry = e ∧ g.shoalRes = shoalNeed f
      ∧ g.stagingRes = accNeed f f.chunkWindow
      ∧ (f.children ≠ [] ∨ f.isRoot = false → g.state = .installing)
      ∧ (f.children = [] → f.isRoot = true → g.state = .active ∧ g.now.epoch = 1) := by
  cases hc : f.children with
  | cons c r =>
    have hall : (installed f e none).frag.children.all (fun c => (installed f e none).ready.contains c) = false := by
      simp [installed, hc]
    rw [readyCheck_waits hg hall]
    exact ⟨_, hg, rfl, rfl, rfl, rfl, fun _ => rfl, fun h => nomatch h⟩
  | nil =>
    have hall : (installed f e none).frag.children.all (fun c => (installed f e none).ready.contains c) = true := by
      simp [installed, hc]
    cases hroot : f.isRoot with
    | false =>
      have hready : readyCheck gid s = sendPlanReady gid s := by
        simp only [readyCheck, hg, hall, and_true]
        rw [if_pos (show (installed f e none).state = .installing from rfl), if_neg (by simp [installed, hroot])]
      rw [hready, sendPlanReady_group hg]
      exact ⟨_, rfl, rfl, rfl, rfl, rfl, fun _ => rfl, fun _ h => nomatch h⟩
    | true =>
      rw [readyCheck_last hg rfl hall hroot]
      obtain ⟨g, hact, hstate, hepoch, hfrag, hentry, hshoal, hstaging⟩ := activate_active hg ha
      exact ⟨g, hact, hfrag, hentry, hshoal, hstaging, fun h => by simp at h, fun _ _ => ⟨hstate, hepoch⟩⟩

/-- A fragment in a new entry, the entry's counters reset and the gates of its regions opening (R30, R54, R571). -/
def newEntry (gid e : Nat) (f : Fragment) (s : State) : State :=
  let t := resetInstance 6 e { s with groups := mput s.groups gid (installed f e none) }
  openGates (usedRegions t) (noteIdle (usedRegions s) t)

@[simp] theorem getGroup_newEntry (gid e : Nat) (f : Fragment) (s : State) : getGroup (newEntry gid e f s) gid = some (installed f e none) :=
  mget_mput_same _ _ _

@[simp] theorem newEntry_part (gid e : Nat) (f : Fragment) (s : State) : (newEntry gid e f s).part = s.part := rfl

section
variable {s : State} {r i : Nat} {d : Desc} {data : List Byte} (h : Ready s r i 0x20 d)
include h

theorem exec_groupInstall_bad (hok : installOk d.op data s = false) :
    exec (.groupInstall r i data) s = .next (answer d 0x09 0 s) := by
  refine congrArg Host.Outcome.next ((runDesc_ready h workGroupInstall data).trans ?_)
  simp only [workGroupInstall, hok, Bool.false_eq_true, not_false_eq_true, if_true]
  rfl

theorem exec_groupInstall_denied (hok : installOk d.op data s = true) (hc : coveAllowed s d.func (parseFrag data).cove = false) :
    exec (.groupInstall r i data) s = .next (answer d 0x05 0 s) := by
  refine congrArg Host.Outcome.next ((runDesc_ready h workGroupInstall data).trans ?_)
  simp only [workGroupInstall, hok, hc, Bool.false_eq_true, not_true_eq_false, not_false_eq_true, if_true, if_false]
  rfl

variable (hok : installOk d.op data s = true) (hc : coveAllowed s d.func (parseFrag data).cove = true)
  (hn : getGroup s (fld d.op 23 0) = none)
include hok hc hn

theorem exec_groupInstall_full (hfree : freeEntry s = none) : exec (.groupInstall r i data) s = .next (answer d 0x08 0 s) := by
  refine congrArg Host.Outcome.next ((runDesc_ready h workGroupInstall data).trans ?_)
  simp only [workGroupInstall, hok, hc, hn, hfree, not_true_eq_false, if_false]
  rfl

variable {e : Nat} (hfree : freeEntry s = some e)
include hfree

theorem exec_groupInstall_noRoom
    (hres : reservationsOk { s with groups := mput s.groups (fld d.op 23 0) (installed (parseFrag data) e none) } = false) :
    exec (.groupInstall r i data) s = .next (answer d 0x08 0 s) := by
  refine congrArg Host.Outcome.next ((runDesc_ready h workGroupInstall data).trans ?_)
  simp only [workGroupInstall, hok, hc, hn, hfree, hres, Bool.false_eq_true, not_true_eq_false, not_false_eq_true, if_true, if_false]
  rfl

theorem exec_groupInstall_installs
    (hres : reservationsOk { s with groups := mput s.groups (fld d.op 23 0) (installed (parseFrag data) e none) } = true) :
    exec (.groupInstall r i data) s = .next (answer d 0x00 0 (readyCheck (fld d.op 23 0)
      (newEntry (fld d.op 23 0) e (parseFrag data) s))) := by
  refine congrArg Host.Outcome.next ((runDesc_ready h workGroupInstall data).trans ?_)
  simp only [workGroupInstall, hok, hc, hn, hfree, hres, dropChunks, not_true_eq_false, if_false]
  rfl

end

/-- Settles O13: each refusal by its equation, an installed plan by `readyCheck_installed`. -/
theorem groupInstallTakesThePlan : Obligations.GroupInstallTakesThePlan := by
  unfold Obligations.GroupInstallTakesThePlan
  intro s r i d data h gid f
  refine ⟨exec_groupInstall_bad h, exec_groupInstall_denied h, fun hok hc hn => ⟨exec_groupInstall_full h hok hc hn,
    fun e hfree => ⟨exec_groupInstall_noRoom h hok hc hn hfree, fun hres => ?_⟩⟩⟩
  have hfrag : fragOk s f gid = true := by
    simp only [installOk, Bool.and_eq_true] at hok
    exact hok.2
  obtain ⟨g, hg, hspec⟩ := readyCheck_installed (getGroup_newEntry gid e f s) (fragOk_arrays hfrag)
  exact ⟨_, g, exec_groupInstall_installs h hok hc hn hfree hres, hg, hspec⟩

end Sys2Proof.Machine
end

/-! ## A membership request on its way to the root (R68, R244, R257) -/

section
namespace Sys2Proof.Machine

/-- A Q7 other than the root passes a request of a member port on to its parent, and notes with it the port it came in on. -/
theorem exec_join_forwarded {s : State} {port : Nat} {p : Packet} {g : Group} (he : engineFor s port p = true)
    (hg : getGroup s (fld p.ctl 119 96) = some g) (hf : isFabric s port = false)
    (hr : refuseRequest (boundAt s port p) port (some g) = none) (hroot : g.frag.isRoot = false) :
    exec (.join port p) s = .next (passOn port (p.setDst (farEpid s g.frag.parent)) (taken port p s)) := by
  have hg' : getGroup (taken port p s) (fld p.ctl 119 96) = some g := by rw [getGroup_taken, hg]
  have hf' : isFabric (taken port p s) port = false := by rw [isFabric, getPort_taken]; exact hf
  have hfar : farEpid (taken port p s) g.frag.parent = farEpid s g.frag.parent := by rw [farEpid, farEpid, getPort_taken]
  show Host.Outcome.next (doRequest 0x40 port p s) = _
  unfold doRequest
  simp [he, hg', hf', hr, hroot, hfar]

/-- A packet passed on is noted with the port it came in on, one merely sent is not. -/
theorem passOn_ne_sendOn (port : Nat) (k : Packet) (s : State) : passOn port k s ≠ sendOn k s := by
  intro h
  have hlen := congrArg (fun t : State => t.route.came.length) h
  simp [passOn, sendOn, onRoute] at hlen

/-- Group 9 at a Q7 below the root: its parent at port 0, its one member, rank 1 of endpoint 50, at port 4. -/
def belowRoot : Group where
  entry := 0
  state := .active
  frag := {
    hasMembers := true, isRoot := false, modes := 7, group := 9, chunkSegs := 1, cove := 1, chunkWindow := 4, accHome := 0, fmtMask := 0x28,
    w96 := false, keys := false, waitTimeout := 1000, parent := 0, arrays := [(0, 0)], children := [], members := [(4, 1, 50)], roster := [] }
  now := { epoch := 1, count := 1, admitted := [(4, 1, 50)] }

/-- That Q7 in RUN, port 4 bound to endpoint 50 in the group's Cove. -/
def belowRootState : State := { State.reset with
  dev := { state := .run }, groups := [(9, belowRoot)],
  mem := { State.reset.mem with coves := [1], binds := [(4, { epid := 50, cove := 1, maxOut := 64 })] } }

/-- A JOIN of group 9 for rank 2 from endpoint 50. -/
def joinRequest : Packet where
  hdr := mkHdr 0 vcCTRL 0 50 0 0 false 0
  body := bytesBE 16 (groupBody 0x40 9 1 2 0 0 0 0).toNat

/-- Refutes O16: a request that a Q7 below the root forwards is `passOn`, which notes beside the packet in the outbox the port it
came in on (R257), where the statement has `sendOn` alone. The witness is a JOIN at a Q7 one step below the root. -/
theorem not_membershipAndGroupCommands : ¬ Obligations.MembershipAndGroupCommands := by
  unfold Obligations.MembershipAndGroupCommands
  intro h
  have he : engineFor belowRootState 4 joinRequest = true := by decide +kernel
  have hgid : fld joinRequest.ctl 119 96 = 9 := by decide +kernel
  have hg : getGroup belowRootState (fld joinRequest.ctl 119 96) = some belowRoot := by rw [hgid]; rfl
  have hf : isFabric belowRootState 4 = false := by decide +kernel
  have hr : refuseRequest (boundAt belowRootState 4 joinRequest) 4 (some belowRoot) = none := by decide +kernel
  obtain ⟨-, -, -, hforward⟩ := h.1 belowRootState 4 joinRequest belowRoot he hg hgid.symm hf hr
  have hjoin := (hforward rfl).1
  rw [exec_join_forwarded he hg hf hr rfl] at hjoin
  exact passOn_ne_sendOn _ _ _ (Host.Outcome.next.inj hjoin)

end Sys2Proof.Machine
end

/-! ## Contributions (R65, R111, R113 to R115, R118, R119, R132, R134, R293) -/

section
namespace Sys2Proof.Machine

/-! ### A chunk that begins -/

/-- The chunk of a call in an epoch. -/
def chunkIs (e n c : Nat) (k : Chunk) : Bool := k.epoch == e && k.call == n && k.chunk == c

theorem findChunk_none_iff {g : Group} {e n c : Nat} : findChunk g e n c = none ↔ ∀ k ∈ g.chunks, chunkIs e n c k = false := by
  simp [findChunk, chunkIs]

section
variable {l : List Chunk} {e n c : Nat} (hl : ∀ k ∈ l, chunkIs e n c k = false) {k : Chunk} (hk : chunkIs e n c k = true)
include hl hk

theorem find?_chunk_last : (l ++ [k]).find? (fun k => k.epoch == e && k.call == n && k.chunk == c) = some k := by
  rw [List.find?_append, List.find?_eq_none.mpr fun x hx => by rw [show (_ && _) = false from hl x hx]; exact Bool.false_ne_true]
  exact List.find?_cons_of_pos hk

theorem map_chunk_last (f : Chunk → Chunk) :
    (l ++ [k]).map (fun k => if k.epoch == e && k.call == n && k.chunk == c then f k else k) = l ++ [f k] := by
  rw [List.map_append, List.map_singleton, if_pos (show (k.epoch == e && k.call == n && k.chunk == c) = true from hk)]
  refine congrArg (· ++ _) ((List.map_congr_left fun x hx => ?_).trans (List.map_id l))
  rw [if_neg (by rw [show (_ && _) = false from hl x hx]; exact Bool.false_ne_true)]
  rfl

end

/-- In `t` group `gid` stands as `g` but for its calls and chunks: its chunks are `l`, and call `n` of epoch `e` is open. -/
structure Begun (gid e n now : Nat) (g : Group) (l : List Chunk) (t : State) : Prop where
  now_eq : t.tide.now = now
  group : ∃ g', getGroup t gid = some g' ∧ g'.now = g.now ∧ g'.frag = g.frag ∧ g'.passes = g.passes ∧ g'.chunks = l
    ∧ (findCall g' e n).isSome = true

section
variable {gid e n now : Nat} {g : Group} {l : List Chunk} {t : State}

/-- The first item of a call opens its record. -/
theorem begun_openCall (hnow : t.tide.now = now) (hg : getGroup t gid = some g) (hc : findCall g e n = none) :
    Begun gid e n now g g.chunks (openCall gid e n t) := by
  have hopen : openCall gid e n t = onGroup gid (fun g => { g with
      calls := g.calls ++ [{ epoch := e, call := n, exts := g.extents }],
      nextCall := if e = g.now.epoch then max g.nextCall (n + 1) else g.nextCall }) t := by
    simp [openCall, hg, hc]
  rw [hopen]
  refine ⟨hnow, ⟨_, getGroup_onGroup_some hg _, rfl, rfl, rfl, rfl, ?_⟩⟩
  simp [findCall]

theorem Begun.openCall_eq (h : Begun gid e n now g l t) : openCall gid e n t = t := by
  obtain ⟨-, g', hg, -, -, -, -, hcall⟩ := h
  simp only [openCall, hg, hcall, if_true]

/-- A change of the call's record that keeps which call it is. -/
theorem Begun.onCall (h : Begun gid e n now g l t) (f : Call → Call) (hf : ∀ k, (f k).epoch = k.epoch ∧ (f k).call = k.call) :
    Begun gid e n now g l (onCall gid e n f t) := by
  obtain ⟨hnow, g', hg, hroster, hfrag, hpasses, hchunks, hcall⟩ := h
  refine ⟨hnow, ⟨_, getGroup_onGroup_some hg _, hroster, hfrag, hpasses, hchunks, ?_⟩⟩
  rw [findCall, List.find?_map, Option.isSome_map, List.find?_congr (p₂ := fun c => c.epoch == e && c.call == n)]
  · exact hcall
  · intro k _
    simp only [Function.comp]
    split
    · rw [(hf k).1, (hf k).2]
    · rfl

/-- A chunk of which nothing was known begins behind the others. -/
theorem Begun.openChunk_new (h : Begun gid e n now g l t) {c : Nat} (hl : ∀ k ∈ l, chunkIs e n c k = false) (par : CallPar) (job : Nat) :
    Begun gid e n now g (l ++ [{ epoch := e, call := n, chunk := c, par := some par, job := job }]) (openChunk gid e n c (some par) job t) := by
  have ⟨hnow, g', hg, hroster, hfrag, hpasses, hchunks, hcall⟩ := h
  have hnone : findChunk g' e n c = none := findChunk_none_iff.mpr (hchunks ▸ hl)
  rw [openChunk, h.openCall_eq]
  refine ⟨hnow, ⟨{ g' with chunks := g'.chunks ++ [{ epoch := e, call := n, chunk := c, par := some par, job := job }] },
    by rw [getGroup_onGroup_some hg, hnone]; rfl, hroster, hfrag, hpasses, by rw [hchunks], hcall⟩⟩

section
variable {c : Nat} {k : Chunk} (hl : ∀ k ∈ l, chunkIs e n c k = false) (hk : chunkIs e n c k = true)
include hl hk

theorem Begun.findChunk_last (h : Begun gid e n now g (l ++ [k]) t) :
    ∃ g', getGroup t gid = some g' ∧ g'.now = g.now ∧ g'.frag = g.frag ∧ g'.passes = g.passes ∧ g'.chunks = l ++ [k]
      ∧ findChunk g' e n c = some k := by
  obtain ⟨-, g', hg, hroster, hfrag, hpasses, hchunks, -⟩ := h
  exact ⟨g', hg, hroster, hfrag, hpasses, hchunks, by rw [findChunk, hchunks, find?_chunk_last hl hk]⟩

/-- A chunk that has begun is not begun again. -/
theorem Begun.openChunk_open (h : Begun gid e n now g (l ++ [k]) t) (par : Option CallPar) (job : Nat) :
    Begun gid e n now g (l ++ [k]) (openChunk gid e n c par job t) := by
  have ⟨hnow, g', hg, hroster, hfrag, hpasses, hchunks, hcall⟩ := h
  have hsome : findChunk g' e n c = some k := by rw [findChunk, hchunks, find?_chunk_last hl hk]
  rw [openChunk, h.openCall_eq]
  exact ⟨hnow, ⟨g', by rw [getGroup_onGroup_some hg, hsome]; rfl, hroster, hfrag, hpasses, hchunks, hcall⟩⟩

theorem Begun.onChunk (h : Begun gid e n now g (l ++ [k]) t) (f : Chunk → Chunk) {k' : Chunk} (hf : f k = k') :
    Begun gid e n now g (l ++ [k']) (onChunk gid e n c f t) := by
  obtain ⟨hnow, g', hg, hroster, hfrag, hpasses, hchunks, hcall⟩ := h
  refine ⟨hnow, ⟨_, getGroup_onGroup_some hg _, hroster, hfrag, hpasses, ?_, hcall⟩⟩
  rw [hchunks, ← hf]
  exact map_chunk_last hl hk f

end

end

/-! ### The first contribution of a chunk -/

/-- A chunk as its first contribution finds it: nothing kept, the contributor noted. -/
def arrivedChunk (e n c : Nat) (par : CallPar) (job : Nat) (again : Bool) (rank : Nat) : Chunk :=
  { epoch := e, call := n, chunk := c, par := some par, job := job, recovered := again, seen := [.member rank] }

/-- That chunk with a slot, its wait for the other inputs begun (R111, R119). -/
def waitingChunk (e n c : Nat) (par : CallPar) (job : Nat) (again : Bool) (rank now timeout : Nat) : Chunk :=
  { arrivedChunk e n c par job again rank with slot := true, inDeadline := some (now + timeout), firstAt := some now }

/-- That chunk with the contribution kept (R118). -/
def keptChunk (e n c : Nat) (par : CallPar) (again : Bool) (rank now timeout : Nat) (x : Input) : Chunk :=
  { waitingChunk e n c par x.job again rank now timeout with inputs := [x] }

/-- A member admitted in the chunk's epoch has not contributed. -/
theorem membersIn_false {g : Group} {k : Chunk} {m : Nat × Nat × Nat} (hm : m ∈ (rosterAt g k.epoch).admitted)
    (hs : Src.member m.2.1 ∉ k.seen) : membersIn g k = false := by
  rw [membersIn, List.all_eq_false]
  exact ⟨m, hm, by simpa using hs⟩

/-- An input kept with its chunk and its call. -/
def inputKept (gid e n c : Nat) (par : CallPar) (x : Input) (t : State) : State :=
  onCall gid e n (fun k => { k with par := some (k.par.getD par), job := if c = 0 then x.job else k.job })
    (onChunk gid e n c (fun k => noteJob { k with
      par := some (k.par.getD par), inputs := k.inputs ++ [x],
      seen := addNew (addNew k.seen x.src) (if isChild x.src then x.src else .member x.rank) })
      (openChunk gid e n c (some par) x.job t))

/-- An input of a call that reduces and is no pass of an accumulation moves its chunk on. -/
theorem addInput_reduces {gid e n c : Nat} {par : CallPar} {x : Input} {t : State} {g : Group} (hr : reduces par = true)
    (hg : getGroup (inputKept gid e n c par x t) gid = some g) (ha : inAccum g par = false) :
    addInput gid e n c par x t = progress gid e n c (inputKept gid e n c par x t) := by
  unfold addInput
  unfold inputKept at hg ⊢
  simp only [hg, ha, hr, Bool.false_eq_true, and_false, if_false, not_true_eq_false, false_and]

/-- A chunk of a call that reduces waits while a member's contribution is awaited (R115). -/
theorem progress_waits {gid e n c : Nat} {t : State} {g : Group} {k : Chunk} {par : CallPar} (hg : getGroup t gid = some g)
    (hk : findChunk g e n c = some k) (hp : k.par = some par) (hr : reduces par = true) (hc : k.combined = false)
    (hs : k.sealed = false) (hm : membersIn g k = false) : progress gid e n c t = t := by
  simp only [progress, hg, hk, hp, hr, hc, hs, hm, Option.map_some, Bool.false_eq_true, or_self, if_false, not_false_eq_true, if_true]

/-- A group with nothing that waits for a slot and no accumulation: no slot is given out. -/
theorem regrant_idle {gid : Nat} {t : State} {g : Group} (hg : getGroup t gid = some g) (hs : ∀ k ∈ g.chunks, k.slot = true)
    (hp : g.passes = 1) : regrant gid t = t := by
  have hready : g.chunks.filter (fun k => !k.slot && !k.combined && !k.sealed && k.unacked.isEmpty && hasInput k && needsSlot g k.par) = [] := by
    rw [List.filter_eq_nil_iff]
    intro k hk
    simp [hs k hk]
  have hgrant (fuel : Nat) : grantSlots gid fuel t = t := by
    cases fuel with
    | zero => rfl
    | succ m =>
      simp only [grantSlots, hg, hready]
      rfl
  have hpasses : waitingPasses g = [] := by simp [waitingPasses, hp]
  simp [regrant, regrantLoop, hg, hgrant, hpasses]

section
variable {gid n c now rank job : Nat} {again : Bool} {g : Group} {l : List Chunk} {par : CallPar} {t : State}
  (hl : ∀ k ∈ l, chunkIs g.now.epoch n c k = false)
  (hr : reduces par = true) {m : Nat × Nat × Nat} (hm : m ∈ g.now.admitted) (hrank : m.2.1 ≠ rank)
include hl hr

/-- The first item of a chunk takes a free slot and starts WAIT_TIMEOUT. -/
theorem Begun.startChunk (hw : (l.filter (·.slot)).length < g.frag.chunkWindow)
    (h : Begun gid g.now.epoch n now g (l ++ [arrivedChunk g.now.epoch n c par job again rank]) t) :
    Begun gid g.now.epoch n now g (l ++ [{ arrivedChunk g.now.epoch n c par job again rank with
      slot := true, inDeadline := some (now + g.frag.waitTimeout) }]) (startChunk gid g.now.epoch n c true t) := by
  have hk : chunkIs g.now.epoch n c (arrivedChunk g.now.epoch n c par job again rank) = true := by simp [chunkIs, arrivedChunk]
  obtain ⟨g', hg, -, hfrag, -, hchunks, -⟩ := h.findChunk_last hl hk
  have hslots : slotsUsed g' < g.frag.chunkWindow := by
    rw [slotsUsed, hchunks, List.filter_append]
    simpa [arrivedChunk] using hw
  have hneeds : needsSlot g' (some par) = true := by simp [needsSlot, hr]
  simp only [Machine.startChunk, hg]
  exact h.onChunk hl hk _ (by simp [arrivedChunk, hneeds, hslots, h.now_eq, hfrag])

include hm hrank

/-- The arrival of the first contribution while another member's is awaited. -/
theorem Begun.noteItem (hw : (l.filter (·.slot)).length < g.frag.chunkWindow)
    (h : Begun gid g.now.epoch n now g (l ++ [arrivedChunk g.now.epoch n c par job again rank]) t) (port : Nat) :
    Begun gid g.now.epoch n now g (l ++ [waitingChunk g.now.epoch n c par job again rank now g.frag.waitTimeout])
      (noteItem gid g.now.epoch n c port rank false true t) := by
  have hstart := h.startChunk hl hr hw
  have hfirst := hstart.onChunk hl (by simp [chunkIs, arrivedChunk]) (fun k => { k with
      firstAt := some (k.firstAt.getD (Machine.startChunk gid g.now.epoch n c true t).tide.now), firsts := k.firsts })
    (k' := waitingChunk g.now.epoch n c par job again rank now g.frag.waitTimeout) (by simp [waitingChunk, arrivedChunk, hstart.now_eq])
  have hk : chunkIs g.now.epoch n c (waitingChunk g.now.epoch n c par job again rank now g.frag.waitTimeout) = true := by
    simp [chunkIs, waitingChunk, arrivedChunk]
  rw [hstart.now_eq] at hfirst
  obtain ⟨g', hg, hroster, -, -, -, hfind⟩ := hfirst.findChunk_last hl hk
  have hmissing : membersIn g' (waitingChunk g.now.epoch n c par job again rank now g.frag.waitTimeout) = false := by
    refine membersIn_false (m := m) ?_ (by simpa [waitingChunk, arrivedChunk] using hrank)
    simpa [rosterAt, waitingChunk, arrivedChunk, hroster] using hm
  unfold Machine.noteItem
  simp only [hstart.now_eq, Bool.false_eq_true, if_false, hg, hfind, hmissing, false_and]
  exact hfirst

/-- The first contribution of a call that reduces is kept, and the chunk waits for the others. -/
theorem Begun.addInput (hp : g.passes = 1) {x : Input} (hx : x.src = .member rank) (hxr : x.rank = rank)
    (h : Begun gid g.now.epoch n now g (l ++ [waitingChunk g.now.epoch n c par job again rank now g.frag.waitTimeout]) t) :
    Begun gid g.now.epoch n now g (l ++ [keptChunk g.now.epoch n c par again rank now g.frag.waitTimeout x])
      (addInput gid g.now.epoch n c par x t) := by
  have hk : chunkIs g.now.epoch n c (waitingChunk g.now.epoch n c par job again rank now g.frag.waitTimeout) = true := by
    simp [chunkIs, waitingChunk, arrivedChunk]
  have hk' : chunkIs g.now.epoch n c (keptChunk g.now.epoch n c par again rank now g.frag.waitTimeout x) = true := by
    simp [chunkIs, keptChunk, waitingChunk, arrivedChunk]
  have hkept : Begun gid g.now.epoch n now g (l ++ [keptChunk g.now.epoch n c par again rank now g.frag.waitTimeout x])
      (inputKept gid g.now.epoch n c par x t) :=
    ((h.openChunk_open hl hk (some par) x.job).onChunk hl hk _
      (by simp [keptChunk, waitingChunk, arrivedChunk, noteJob, sortBy, insertBy, hx, hxr, addNew, isChild])).onCall _ (fun _ => ⟨rfl, rfl⟩)
  obtain ⟨g', hg, hroster, -, hpasses, -, hfind⟩ := hkept.findChunk_last hl hk'
  have hmissing : membersIn g' (keptChunk g.now.epoch n c par again rank now g.frag.waitTimeout x) = false := by
    refine membersIn_false (m := m) ?_ (by simpa [keptChunk, waitingChunk, arrivedChunk] using hrank)
    simpa [rosterAt, keptChunk, waitingChunk, arrivedChunk, hroster] using hm
  rw [addInput_reduces hr hg (by simp [inAccum, hpasses, hp]), progress_waits hg hfind rfl hr rfl rfl hmissing]
  exact hkept

end

/-! ### What the engine does with a contribution -/

/-- The pair data of an ALLTOALL for another Q7 (R59, R65). -/
def isPairData (s : State) (p : Packet) : Bool := (parOf p.sub).kind == 6 && decide (0 < scChunk p.sub) && p.dst != selfEpid s

theorem isPairData_iff {s : State} {p : Packet} :
    isPairData s p = true ↔ (parOf p.sub).kind = 6 ∧ 0 < scChunk p.sub ∧ p.dst ≠ selfEpid s := by
  simp [isPairData, and_assoc]

/-- A contribution stays delivered: it must wait for its region or its group's room, or for a re-delivery on its port (R30, R134,
R293). -/
def staysDelivered (s : State) (port : Nat) (p : Packet) : Bool :=
  !isPairData s p && inputWaits (scGroup p.sub) (scChunk p.sub) p.job (deliveredAt s port p) s || scResend p.sub && redelivering s port

/-- A contribution as an input of its chunk. -/
def inputOf (s : State) (port : Nat) (p : Packet) : Input where
  src := .member (scRank p.sub)
  rank := scRank p.sub
  mism := noRank
  hash := scHash p.sub
  job := p.job
  last := scLast p.sub
  zero := scZero p.sub
  root := scRoot p.sub
  port := port
  at_ := s.tide.now
  data := pktData p
  bufs := deliveredAt s port p

/-- A contribution taken by its array: its packets kept and its call open, the root rank of its call noted (R118, R120). -/
def callOpened (g : Group) (port : Nat) (p : Packet) (s : State) : State :=
  let gid := scGroup p.sub
  let u := openCall gid (scEpoch p.sub) (scCall p.sub) (noteInputTurn g (scChunk p.sub) p.job
    (keepBufs g (scChunk p.sub) (deliveredAt s port p) (takeDelivered port p s)))
  if scChunk p.sub = 0 ∧ ((parOf p.sub).kind = 3 ∨ (parOf p.sub).kind = 4) then
    onCall gid (scEpoch p.sub) (scCall p.sub) (fun k => { k with rootRank := scRoot p.sub }) u
  else u

/-- The contributor noted with a chunk. -/
def noteContributor (p : Packet) (s : State) : State :=
  onChunk (scGroup p.sub) (scEpoch p.sub) (scCall p.sub) (scChunk p.sub) (fun k => { k with
    recovered := k.recovered || scResend p.sub, seen := addNew k.seen (.member (scRank p.sub)), par := some (k.par.getD (parOf p.sub)) })
    (openChunk (scGroup p.sub) (scEpoch p.sub) (scCall p.sub) (scChunk p.sub) (some (parOf p.sub)) p.job s)

@[simp] theorem getGroup_takeDelivered (port : Nat) (p : Packet) (s : State) (gid : Nat) :
    getGroup (takeDelivered port p s) gid = getGroup s gid := rfl

section
variable {s : State} {port : Nat} {p : Packet} {g : Group}

theorem doContribution_stays (hw : staysDelivered s port p = true) : doContribution port p s = s :=
  if_pos (.inr hw)

variable (he : engineFor s port p = true) (hw : staysDelivered s port p = false)
include he hw

theorem engine_takes : ¬ (¬ engineFor s port p = true ∨ staysDelivered s port p = true) := by simp [he, hw]

theorem doContribution_malformed (hm : subCodesOk p.sub = false ∨ scPhase p.sub ≠ 0 ∨ scPiece p.sub ≠ 0) :
    doContribution port p s = freeAll (deliveredAt s port p) (count (kPort port iPKT_MALFORMED) (takeDelivered port p s)) :=
  (if_neg (engine_takes he hw)).trans (if_pos (by rwa [Bool.not_eq_true]))

variable (hg : getGroup s (scGroup p.sub) = some g)
  (hok : ¬ (¬ subCodesOk p.sub = true ∨ scPhase p.sub ≠ 0 ∨ scPiece p.sub ≠ 0))
include hg hok

theorem doContribution_refused {st : Nat} {deny : Option Nat} (hr : refuseContribution s port p = some (st, deny)) :
    doContribution port p s = freeAll (deliveredAt s port p)
      (backOn port (sendCollFail p.src (scGroup p.sub) g.now.epoch (scRank p.sub) st (scCall p.sub) p.job)
        (deny.elim (takeDelivered port p s) (fun i => count (kPort port i) (takeDelivered port p s)))) := by
  refine (if_neg (engine_takes he hw)).trans ((if_neg hok).trans ?_)
  rw [hr]
  cases deny <;> simp [hg, getGroup_congr (count_groups _ _)]

variable (hr : refuseContribution s port p = none)
include hr

omit hg in
theorem doContribution_pair (hp : isPairData s p = true) :
    doContribution port p s = forwardPkt (deliveredAt s port p) p (takeDelivered port p s) := by
  refine (if_neg (engine_takes he hw)).trans ((if_neg hok).trans ?_)
  rw [hr]
  exact if_pos hp

variable (hp : isPairData s p = false)
include hp

theorem doContribution_repeated {k : Chunk} (hk : findChunk g (scEpoch p.sub) (scCall p.sub) (scChunk p.sub) = some k)
    (hs : .member (scRank p.sub) ∈ k.seen) :
    doContribution port p s = freeAll (deliveredAt s port p) (count (kGroup g.entry iCOLL_DUP) (takeDelivered port p s)) := by
  refine (if_neg (engine_takes he hw)).trans ((if_neg hok).trans ?_)
  rw [hr]
  refine (if_neg (show ¬ isPairData s p = true by simp [hp])).trans ?_
  simp [hg, hk, hs]

/-- The first contribution of a call that this Q7 has not seen is kept. -/
theorem doContribution_first (hk : findChunk g (scEpoch p.sub) (scCall p.sub) (scChunk p.sub) = none)
    (hstale : isStale g (scEpoch p.sub) (scCall p.sub) (scChunk p.sub) = false)
    (hcall : findCall g (scEpoch p.sub) (scCall p.sub) = none) :
    doContribution port p s = regrant (scGroup p.sub) (addInput (scGroup p.sub) (scEpoch p.sub) (scCall p.sub) (scChunk p.sub)
      (parOf p.sub) (inputOf s port p) (noteItem (scGroup p.sub) (scEpoch p.sub) (scCall p.sub) (scChunk p.sub) port (scRank p.sub)
        false true (noteContributor p (callOpened g port p s)))) := by
  refine (if_neg (engine_takes he hw)).trans ((if_neg hok).trans ?_)
  rw [hr]
  refine (if_neg (show ¬ isPairData s p = true by simp [hp])).trans ?_
  simp [hg, hk, hstale, hcall, callFailed]
  rfl

end

/-- Storing, turns and the like leave the group table and Tide. -/
theorem keepBufs_frame (g : Group) (c : Nat) (l : List (Nat × Nat)) (s : State) :
    (keepBufs g c l s).groups = s.groups ∧ (keepBufs g c l s).tide = s.tide :=
  ⟨forAll_same (g := State.groups) (by intro _ _; rfl) l s, forAll_same (g := State.tide) (by intro _ _; rfl) l s⟩

section
variable {s : State} {port : Nat} {p : Packet} {g : Group} (hg : getGroup s (scGroup p.sub) = some g)
include hg

/-- Taking the first contribution of a call opens the call and changes no chunk. -/
theorem begun_callOpened (hcall : findCall g (scEpoch p.sub) (scCall p.sub) = none) :
    Begun (scGroup p.sub) (scEpoch p.sub) (scCall p.sub) s.tide.now g g.chunks (callOpened g port p s) := by
  obtain ⟨hgroups, htide⟩ := keepBufs_frame g (scChunk p.sub) (deliveredAt s port p) (takeDelivered port p s)
  have hopen : Begun (scGroup p.sub) (scEpoch p.sub) (scCall p.sub) s.tide.now g g.chunks
      (openCall (scGroup p.sub) (scEpoch p.sub) (scCall p.sub) (noteInputTurn g (scChunk p.sub) p.job
        (keepBufs g (scChunk p.sub) (deliveredAt s port p) (takeDelivered port p s)))) :=
    begun_openCall (congrArg Tide.now htide) ((getGroup_congr hgroups _).trans hg) hcall
  unfold callOpened
  dsimp only
  split
  · exact hopen.onCall _ fun _ => ⟨rfl, rfl⟩
  · exact hopen

/-- The first contribution of a new chunk, of a call that reduces, is kept while another member's is awaited. -/
theorem begun_firstContribution (hk : findChunk g g.now.epoch (scCall p.sub) (scChunk p.sub) = none)
    (he : scEpoch p.sub = g.now.epoch) (hcall : findCall g g.now.epoch (scCall p.sub) = none) (hr : reduces (parOf p.sub) = true)
    (hpasses : g.passes = 1) (hw : slotsUsed g < g.frag.chunkWindow)
    (hm : ∃ m ∈ g.now.admitted, m.2.1 ≠ scRank p.sub) :
    Begun (scGroup p.sub) g.now.epoch (scCall p.sub) s.tide.now g
      (g.chunks ++ [keptChunk g.now.epoch (scCall p.sub) (scChunk p.sub) (parOf p.sub) (scResend p.sub) (scRank p.sub) s.tide.now
        g.frag.waitTimeout (inputOf s port p)])
      (addInput (scGroup p.sub) g.now.epoch (scCall p.sub) (scChunk p.sub) (parOf p.sub) (inputOf s port p)
        (noteItem (scGroup p.sub) g.now.epoch (scCall p.sub) (scChunk p.sub) port (scRank p.sub) false true
          (noteContributor p (callOpened g port p s)))) := by
  obtain ⟨m, hm, hrank⟩ := hm
  have hl := findChunk_none_iff.mp hk
  have hopen := begun_callOpened (port := port) hg (he ▸ hcall)
  rw [he] at hopen
  have harrived := (hopen.openChunk_new hl (parOf p.sub) p.job).onChunk hl (by simp [chunkIs]) (fun k => { k with
      recovered := k.recovered || scResend p.sub, seen := addNew k.seen (.member (scRank p.sub)), par := some (k.par.getD (parOf p.sub)) })
    (k' := arrivedChunk g.now.epoch (scCall p.sub) (scChunk p.sub) (parOf p.sub) p.job (scResend p.sub) (scRank p.sub))
    (by simp [arrivedChunk, addNew])
  rw [noteContributor, he]
  exact (harrived.noteItem hl hr hm hrank hw port).addInput hl hr hm hrank hpasses rfl rfl

end

/-- A group whose input is not stale runs the input's epoch. -/
theorem epoch_of_not_stale {g : Group} {e n c : Nat} (h : isStale g e n c = false) : e = g.now.epoch := by
  simp only [isStale, Bool.or_eq_false_iff, bne_eq_false_iff_eq] at h
  exact h.1

@[simp] theorem rosterAt_now (g : Group) : rosterAt g g.now.epoch = g.now := if_pos rfl

/-- After the first contribution of a new chunk the group holds the chunk with that contribution, waiting for the others. -/
theorem firstContribution_kept {s : State} {port : Nat} {p : Packet} {g : Group} (he : engineFor s port p = true)
    (hw : staysDelivered s port p = false) (hg : getGroup s (scGroup p.sub) = some g)
    (hok : ¬ (¬ subCodesOk p.sub = true ∨ scPhase p.sub ≠ 0 ∨ scPiece p.sub ≠ 0)) (hr : refuseContribution s port p = none)
    (hp : isPairData s p = false) (hk : findChunk g (scEpoch p.sub) (scCall p.sub) (scChunk p.sub) = none)
    (hstale : isStale g (scEpoch p.sub) (scCall p.sub) (scChunk p.sub) = false)
    (hcall : findCall g (scEpoch p.sub) (scCall p.sub) = none) (hred : reduces (parOf p.sub) = true) (hpasses : g.passes = 1)
    (hslots : ∀ k ∈ g.chunks, k.slot = true) (hwindow : slotsUsed g < g.frag.chunkWindow)
    (hm : ∃ m ∈ (rosterAt g (scEpoch p.sub)).admitted, m.2.1 ≠ scRank p.sub) :
    ∃ g', getGroup (doContribution port p s) (scGroup p.sub) = some g' ∧ g'.now = g.now
      ∧ findChunk g' (scEpoch p.sub) (scCall p.sub) (scChunk p.sub) = some (keptChunk g.now.epoch (scCall p.sub) (scChunk p.sub)
          (parOf p.sub) (scResend p.sub) (scRank p.sub) s.tide.now g.frag.waitTimeout (inputOf s port p)) := by
  rw [doContribution_first he hw hg hok hr hp hk hstale hcall]
  have hepoch := epoch_of_not_stale hstale
  rw [hepoch] at hk hcall hm ⊢
  rw [rosterAt_now] at hm
  have hbegun := begun_firstContribution (port := port) hg hk hepoch hcall hred hpasses hwindow hm
  obtain ⟨g', hg', hroster, -, hpasses', hchunks, hfind⟩ := hbegun.findChunk_last (findChunk_none_iff.mp hk)
    (by simp [chunkIs, keptChunk, waitingChunk, arrivedChunk])
  have hslots' : ∀ k ∈ g'.chunks, k.slot = true := by
    rw [hchunks]
    exact List.forall_mem_append.mpr ⟨hslots, List.forall_mem_singleton.mpr rfl⟩
  rw [regrant_idle hg' hslots' (hpasses'.trans hpasses)]
  exact ⟨g', hg', hroster, hfind⟩

theorem exec_contribution (port : Nat) (p : Packet) (s : State) :
    exec (.contribution port p) s = .next (doContribution port p s) := rfl

/-- Settles O20: what the engine does with a contribution by the equation of its case; the first of a chunk by
`begun_firstContribution`. -/
theorem contributionIsKeptOnce : Obligations.ContributionIsKeptOnce := by
  unfold Obligations.ContributionIsKeptOnce
  intro s port p g b gid e n c u bufs he hg
  simp only [exec_contribution, Host.Outcome.next.injEq]
  refine ⟨fun hres hred => doContribution_stays ?_, fun hp hin => doContribution_stays ?_, fun hres hin => ?_⟩
  · rw [staysDelivered, hres, hred, Bool.and_self, Bool.or_true]
  · rw [staysDelivered, hin, Bool.eq_false_iff.mpr (mt isPairData_iff.mp hp)]
    rfl
  · have hw : staysDelivered s port p = false := by
      rw [staysDelivered, Bool.or_eq_false_iff, Bool.and_eq_false_iff, Bool.and_eq_false_iff]
      exact ⟨hin.imp (fun hp => by rw [isPairData_iff.mpr hp]; rfl) id, hres⟩
    refine ⟨doContribution_malformed he hw, fun hsub hphase hpiece => ?_⟩
    have hok : ¬ (¬ subCodesOk p.sub = true ∨ scPhase p.sub ≠ 0 ∨ scPiece p.sub ≠ 0) := by
      rintro (h | h | h)
      exacts [h hsub, h hphase, h hpiece]
    refine ⟨fun st hr => doContribution_refused (deny := none) he hw hg hok hr,
      fun st i hr => doContribution_refused (deny := some i) he hw hg hok hr,
      fun hr hkind hc hdst => doContribution_pair he hw hok hr (isPairData_iff.mpr ⟨hkind, hc, hdst⟩), fun hr hp => ?_⟩
    have hpair : isPairData s p = false := Bool.eq_false_iff.mpr (mt isPairData_iff.mp hp)
    refine ⟨fun k hk hs => doContribution_repeated he hw hg hok hr hpair hk hs,
      fun hk hstale hcall hred hpasses hslots hwindow hm => ?_⟩
    obtain ⟨g', hg', hroster, hfind⟩ :=
      firstContribution_kept he hw hg hok hr hpair hk hstale hcall hred hpasses hslots hwindow hm
    exact ⟨_, g', _, inputOf s port p, rfl, hg', hfind, rfl, rfl, rfl, rfl, rfl, rfl, rfl, rfl, rfl, rfl, rfl, rfl, hroster⟩

end Sys2Proof.Machine
end

/-! ## EXACT sums (R86, R92, R99, R100, R107)

A call's operation on window integers is commutative and associative, so the combination of a chunk's inputs is a fold whose
order and grouping do not matter; and a partial's window integers come back from the bytes that carry them. -/

section
namespace Sys2Proof.Machine

/-! ### The combination of R92: the bits of the reserved codes are united -/

/-- What a window integer has absorbed, as bits: positive saturation, negative saturation, positive infinity, negative infinity.
An infinity covers the saturations, NAN covers everything. -/
def Win.mask : Win → BitVec 4
  | .fin _ => 0b0000#4
  | .posSat => 0b0001#4
  | .negSat => 0b0010#4
  | .bothSat => 0b0011#4
  | .posInf => 0b0111#4
  | .negInf => 0b1011#4
  | .nan => 0b1111#4

/-- The integer of a finite window integer, 0 for a reserved code. -/
def Win.value : Win → Int
  | .fin v => v
  | _ => 0

theorem Win.eq_of_mask_value {a b : Win} (hm : a.mask = b.mask) (hv : a.value = b.value) : a = b := by
  cases a <;> cases b <;> simp_all [Win.mask, Win.value]

theorem mask_combine (a b : Win) : (combine a b).mask = a.mask ||| b.mask := by
  cases a <;> cases b <;> simp [combine, Win.mask]

theorem value_combine (a b : Win) :
    (combine a b).value = if a.mask ||| b.mask = 0#4 then a.value + b.value else 0 := by
  cases a <;> cases b <;> simp [combine, Win.mask, Win.value]

theorem combine_comm (a b : Win) : combine a b = combine b a := by
  refine Win.eq_of_mask_value ?_ ?_
  · rw [mask_combine, mask_combine, BitVec.or_comm]
  · rw [value_combine, value_combine, BitVec.or_comm, Int.add_comm]

theorem combine_assoc (a b c : Win) : combine (combine a b) c = combine a (combine b c) := by
  refine Win.eq_of_mask_value ?_ ?_
  · simp only [mask_combine, BitVec.or_assoc]
  · simp only [value_combine, mask_combine, BitVec.or_eq_zero_iff]
    by_cases ha : a.mask = 0#4 <;> by_cases hb : b.mask = 0#4 <;> by_cases hc : c.mask = 0#4 <;>
      simp [ha, hb, hc, Int.add_assoc]

/-! ### The operations of a call -/

/-- An operation on integers, any reserved code giving NAN. -/
def finOp (g : Int → Int → Int) : Win → Win → Win
  | .fin x, .fin y => .fin (g x y)
  | _, _ => .nan

theorem finOp_comm {g : Int → Int → Int} (h : ∀ x y, g x y = g y x) (a b : Win) : finOp g a b = finOp g b a := by
  cases a <;> cases b <;> simp [finOp, h]

theorem finOp_assoc {g : Int → Int → Int} (h : ∀ x y z, g (g x y) z = g x (g y z)) (a b c : Win) :
    finOp g (finOp g a b) c = finOp g a (finOp g b c) := by
  cases a <;> cases b <;> cases c <;> simp [finOp, h]

/-- An operation on the bits of integers, zero-extended (R100). -/
def natOp (f : Nat → Nat → Nat) (x y : Int) : Int := (f x.toNat y.toNat : Nat)

theorem natOp_comm {f : Nat → Nat → Nat} (h : ∀ x y, f x y = f y x) (x y : Int) : natOp f x y = natOp f y x := by
  rw [natOp, natOp, h]

theorem natOp_assoc {f : Nat → Nat → Nat} (h : ∀ x y z, f (f x y) z = f x (f y z)) (x y z : Int) :
    natOp f (natOp f x y) z = natOp f x (natOp f y z) := by
  simp [natOp, h]

theorem opWin_eq (op : Nat) : opWin op =
    if op = opMAX then finOp max else if op = opMIN then finOp min
    else if op = opAND then finOp (natOp (· &&& ·)) else if op = opOR then finOp (natOp (· ||| ·))
    else if op = opXOR then finOp (natOp (· ^^^ ·)) else combine := by
  funext a b
  unfold opWin
  split_ifs <;> rfl

theorem opWin_comm (op : Nat) (a b : Win) : opWin op a b = opWin op b a := by
  rw [opWin_eq]
  split_ifs
  · exact finOp_comm max_comm a b
  · exact finOp_comm min_comm a b
  · exact finOp_comm (natOp_comm Nat.and_comm) a b
  · exact finOp_comm (natOp_comm Nat.or_comm) a b
  · exact finOp_comm (natOp_comm Nat.xor_comm) a b
  · exact combine_comm a b

theorem opWin_assoc (op : Nat) (a b c : Win) : opWin op (opWin op a b) c = opWin op a (opWin op b c) := by
  rw [opWin_eq]
  split_ifs
  · exact finOp_assoc max_assoc a b c
  · exact finOp_assoc min_assoc a b c
  · exact finOp_assoc (natOp_assoc Nat.and_assoc) a b c
  · exact finOp_assoc (natOp_assoc Nat.or_assoc) a b c
  · exact finOp_assoc (natOp_assoc Nat.xor_assoc) a b c
  · exact combine_assoc a b c

/-! ### Lists combined position by position -/

@[simp] theorem zipLong_nil_left {α : Type} (f : α → α → α) (l : List α) : zipLong f [] l = l := by
  simp [zipLong]

@[simp] theorem zipLong_nil_right {α : Type} (f : α → α → α) (l : List α) : zipLong f l [] = l := by
  cases l <;> simp [zipLong]

@[simp] theorem zipLong_cons {α : Type} (f : α → α → α) (a b : α) (r t : List α) :
    zipLong f (a :: r) (b :: t) = f a b :: zipLong f r t := by
  simp [zipLong]

theorem zipLong_comm {α : Type} {f : α → α → α} (h : ∀ a b, f a b = f b a) (l m : List α) :
    zipLong f l m = zipLong f m l := by
  induction l generalizing m with
  | nil => simp
  | cons a l ih =>
    cases m with
    | nil => simp
    | cons b m => simp [h a b, ih m]

theorem zipLong_assoc {α : Type} {f : α → α → α} (h : ∀ a b c, f (f a b) c = f a (f b c)) (l m n : List α) :
    zipLong f (zipLong f l m) n = zipLong f l (zipLong f m n) := by
  induction l generalizing m n with
  | nil => simp
  | cons a l ih =>
    cases m with
    | nil => simp
    | cons b m =>
      cases n with
      | nil => simp
      | cons c n => simp [h a b c, ih m n]

/-! ### The sum of a chunk's inputs -/

@[simp] theorem sumWins_nil (par : CallPar) (e : Int) : sumWins par e [] = [] := rfl

/-- Inputs combined onto what stands are combined by themselves first. -/
theorem foldl_inputs (par : CallPar) (e : Int) (l : List Input) (acc : List Win) :
    l.foldl (fun acc x => zipLong (opWin par.op) acc (inputWins par e x)) acc
      = zipLong (opWin par.op) acc (sumWins par e l) := by
  induction l generalizing acc with
  | nil => simp
  | cons x l ih => rw [sumWins, List.foldl_cons, List.foldl_cons, ih, ih, zipLong_nil_left, zipLong_assoc (opWin_assoc par.op)]

/-- Grouping: two parts of the inputs, each combined by itself. -/
theorem sumWins_append (par : CallPar) (e : Int) (l m : List Input) :
    sumWins par e (l ++ m) = zipLong (opWin par.op) (sumWins par e l) (sumWins par e m) := by
  rw [sumWins, List.foldl_append, foldl_inputs, ← sumWins]

@[simp] theorem sumWins_singleton (par : CallPar) (e : Int) (x : Input) : sumWins par e [x] = inputWins par e x := by
  simp [sumWins]

/-- Order: the sum does not depend on the order of arrival. -/
theorem sumWins_eq_of_perm (par : CallPar) (e : Int) {l m : List Input} (h : l.Perm m) :
    sumWins par e l = sumWins par e m := by
  refine h.foldl_eq' (fun x _ y _ acc => ?_) []
  rw [zipLong_assoc (opWin_assoc par.op), zipLong_assoc (opWin_assoc par.op),
    zipLong_comm (opWin_comm par.op) (inputWins par e x)]

/-! ### Window integers as bytes (R86) -/

/-- Elements of equal length laid end to end are cut apart again. -/
theorem pieces_flatMap {α β : Type} {n : Nat} (hn : 0 < n) {f : α → List β} (hf : ∀ x, (f x).length = n) (l : List α) :
    pieces n (l.flatMap f) = l.map f := by
  have cut (fuel : Nat) (h : l.length ≤ fuel) : chunksOf n fuel (l.flatMap f) = l.map f := by
    induction l generalizing fuel with
    | nil => cases fuel <;> simp [chunksOf]
    | cons x l ih =>
      obtain ⟨k, rfl⟩ : ∃ k, fuel = k + 1 := ⟨fuel - 1, by simp at h; omega⟩
      have hne : f x ≠ [] := List.ne_nil_of_length_pos (by rw [hf]; exact hn)
      simp [chunksOf, hne, List.take_left' (hf x), List.drop_left' (hf x), ih k (by simpa using h)]
  refine cut _ ?_
  rw [List.length_flatMap, List.map_congr_left (fun x _ => hf x), List.map_const', List.sum_replicate, smul_eq_mul]
  exact Nat.le_mul_of_pos_right _ hn

theorem ofSigned_eq {n : Nat} {v : Int} (hlo : -(2 ^ n : Nat) ≤ v) (hhi : v < (2 ^ n : Nat)) :
    (ofSigned n v : Int) = if 0 ≤ v then v else v + (2 ^ n : Nat) := by
  rw [ofSigned]
  split_ifs with hv
  · rw [Int.emod_eq_of_lt hv hhi, Int.toNat_of_nonneg hv]
  · rw [← Int.add_emod_right, Int.emod_eq_of_lt (by omega) (by omega), Int.toNat_of_nonneg (by omega)]

/-- An integer comes back from its two's complement. -/
theorem toSigned_ofSigned {n : Nat} {v : Int} (hn : 0 < n) (hlo : -(2 ^ (n - 1) : Nat) ≤ v) (hhi : v < (2 ^ (n - 1) : Nat)) :
    toSigned n (ofSigned n v) = v := by
  have hpow := Nat.two_pow_pred_mul_two hn
  have hcode := ofSigned_eq (n := n) (v := v) (by omega) (by omega)
  rw [toSigned, ← hpow] at *
  split_ifs at hcode with hv
  · rw [Nat.mod_eq_of_lt (by omega), if_pos (by omega), hcode]
  · rw [Nat.mod_eq_of_lt (by omega), if_neg (by omega), hcode]
    omega

theorem winSize_pos (w96 : Bool) : 0 < winSize w96 := by
  cases w96 <;> decide

/-- A finite window integer stays clear of the six reserved codes (R86). -/
def Win.inRange (w96 : Bool) (w : Win) : Prop := ∀ v, w = .fin v → v.natAbs ≤ 2 ^ (8 * winSize w96 - 1) - 4

/-- A window integer comes back from its code. -/
theorem winOf_winCode {w96 : Bool} {w : Win} (h : w.inRange w96) : winOf w96 (winCode w96 w) = w := by
  cases w with
  | fin v =>
    have hv := h v rfl
    have hn : 0 < 8 * winSize w96 := Nat.mul_pos (by decide) (winSize_pos w96)
    have hhalf : 8 ≤ 2 ^ (8 * winSize w96 - 1) := by cases w96 <;> decide
    have hpow := Nat.two_pow_pred_mul_two hn
    have hcode := ofSigned_eq (n := 8 * winSize w96) (v := v) (by omega) (by omega)
    have hback := toSigned_ofSigned (v := v) hn (by omega) (by omega)
    simp only [winOf, winCode]
    split_ifs at hcode <;> simp (disch := omega) only [if_neg, hback]
  | _ => cases w96 <;> rfl

theorem winCode_lt (w96 : Bool) (w : Win) : winCode w96 w < 2 ^ (8 * winSize w96) := by
  cases w with
  | fin v => exact (Int.toNat_lt_of_ne_zero (by positivity)).mpr (Int.emod_lt_of_pos _ (by positivity))
  | _ => cases w96 <;> decide

/-- A partial's window integers come back from its bytes. -/
theorem winsOf_winBytes {w96 : Bool} {l : List Win} (h : ∀ w ∈ l, w.inRange w96) : winsOf w96 (winBytes w96 l) = l := by
  rw [winsOf, elems, winBytes, pieces_flatMap (winSize_pos w96) (fun w => bytesLE_length _ _), List.map_map, List.map_map]
  refine (List.map_congr_left fun w hw => ?_).trans (List.map_id l)
  have hlt : winCode w96 w < 256 ^ winSize w96 := (winCode_lt w96 w).trans_eq (pow_mul 2 8 _)
  rw [Function.comp_apply, Function.comp_apply, ofLE_bytesLE, Nat.mod_eq_of_lt hlt, winOf_winCode (h w hw), id_eq]

/-- A child's partial gives the window integers that it was sent with. -/
theorem inputWins_partial {par : CallPar} (e : Int) {x : Input} {port : Nat} {l : List Win} (hx : x.src = .child port)
    (hd : x.data = winBytes (parW96 par) l) (hl : ∀ w ∈ l, w.inRange (parW96 par)) : inputWins par e x = l := by
  rw [inputWins, hx, isChild, if_pos rfl, hd, winsOf_winBytes hl]

/-- Settles O17: the sum is a fold of a commutative and associative operation, and a partial's bytes spell its integers. -/
theorem exactSumIgnoresOrderAndTree : Obligations.ExactSumIgnoresOrderAndTree := by
  unfold Obligations.ExactSumIgnoresOrderAndTree
  intro par e ms sub l x port hx hd hrange hperm
  have hpartial : inputWins par e x = sumWins par e sub :=
    inputWins_partial e hx hd fun w hw v hv => hrange v (hv ▸ hw)
  calc sumWins par e l = sumWins par e (ms ++ [x]) := sumWins_eq_of_perm par e hperm
    _ = zipLong (opWin par.op) (sumWins par e ms) (inputWins par e x) := by rw [sumWins_append, sumWins_singleton]
    _ = sumWins par e (ms ++ sub) := by rw [hpartial, sumWins_append]

end Sys2Proof.Machine
end

/-! ## Conversion of a code's value to its own format (R81, R94, R614) -/

section
namespace Sys2Proof.Machine

/-! ### Rounding what needs no rounding -/

theorem bitLen_of_ne_zero {m : Nat} (h : m ≠ 0) : bitLen m = m.log2 + 1 := by
  simp [bitLen, h]

theorem floorLog2Ratio_one {m : Nat} (h : m ≠ 0) : floorLog2Ratio m 1 = m.log2 := by
  have he : (bitLen m : Int) - bitLen 1 = m.log2 := by
    rw [bitLen_of_ne_zero h, show bitLen 1 = 1 from rfl]
    omega
  simp only [floorLog2Ratio, he, Int.natCast_nonneg, Int.toNat_natCast, one_mul, Nat.log2_self_le h, decide_true, if_true]

@[simp] theorem divEven_one (m : Nat) : divEven m 1 = m := by
  simp [divEven, Nat.mod_one]

/-- A significand that the format holds at its own last place is encoded as it is. -/
theorem roundMag_eq_encode {f : FFmt} {m : Nat} {q : Int} (neg : Bool) (hm : m ≠ 0) (hp : m < 2 ^ f.p)
    (hq : max ((m.log2 : Int) + q) f.emin - (f.p - 1 : Nat) = q) (hmax : ¬ (f.maxQ < q ∨ (q = f.maxQ ∧ f.maxM < m))) :
    roundMag neg m 1 q f = f.encode neg m q := by
  simp [roundMag, floorLog2Ratio_one hm, hq, hp.ne, hmax]

/-! ### The fields of a code (R81) -/

/-- Sign, exponent and fraction fill the bits of a code, and there are finite values above the subnormals. -/
structure FFmt.Laid (f : FFmt) : Prop where
  bits : f.bits = f.eb + f.p
  eb : 2 ≤ f.eb
  p : 0 < f.p

/-- Sign of a code. -/
def FFmt.negOf (f : FFmt) (x : Nat) : Bool := (x / 2 ^ (f.bits - 1)) % 2 == 1
/-- Exponent field of a code. -/
def FFmt.expField (f : FFmt) (x : Nat) : Nat := (x / 2 ^ (f.p - 1)) % 2 ^ f.eb
/-- Fraction field of a code. -/
def FFmt.frac (f : FFmt) (x : Nat) : Nat := x % 2 ^ (f.p - 1)

/-- The greatest exponent field of a finite value. -/
def FFmt.topExp (f : FFmt) : Nat := if f.hasInf then 2 ^ f.eb - 2 else 2 ^ f.eb - 1

theorem maxQ_eq (f : FFmt) : f.maxQ = (f.topExp : Int) - f.bias - (f.p - 1 : Nat) := rfl

theorem decodeF_eq (f : FFmt) (x : Nat) : decodeF f x =
    if f.hasInf && f.expField x == 2 ^ f.eb - 1 then (if f.frac x == 0 then .inf (f.negOf x) else .nan)
    else if !f.hasInf && f.expField x == 2 ^ f.eb - 1 && f.frac x == 2 ^ (f.p - 1) - 1 then .nan
    else if f.expField x == 0 then .fin (f.negOf x) (f.frac x) (f.emin - (f.p - 1 : Nat))
    else .fin (f.negOf x) (2 ^ (f.p - 1) + f.frac x) ((f.expField x : Int) - f.bias - (f.p - 1 : Nat)) := rfl

theorem frac_lt (f : FFmt) (x : Nat) : f.frac x < 2 ^ (f.p - 1) := Nat.mod_lt _ (Nat.two_pow_pos _)

section
variable {f : FFmt} (hf : f.Laid)
include hf

/-- A code is its sign, its exponent field and its fraction, one above the other. -/
theorem code_eq_fields {x : Nat} (hx : x < 2 ^ f.bits) :
    x = f.signBit (f.negOf x) + (f.expField x * 2 ^ (f.p - 1) + f.frac x) := by
  obtain ⟨hbits, -, hp⟩ := hf
  have hcode : 2 ^ f.bits = 2 ^ (f.bits - 1) * 2 := (Nat.two_pow_pred_mul_two (by omega)).symm
  have hsplit : 2 ^ (f.bits - 1) = 2 ^ (f.p - 1) * 2 ^ f.eb := by rw [← pow_add]; congr 1; omega
  have hs : x / 2 ^ (f.bits - 1) < 2 := Nat.div_lt_of_lt_mul (hcode ▸ hx)
  have hsign : f.signBit (f.negOf x) = 2 ^ (f.bits - 1) * (x / 2 ^ (f.bits - 1)) := by
    rw [FFmt.signBit, FFmt.negOf]
    interval_cases x / 2 ^ (f.bits - 1) <;> simp
  rw [hsign, FFmt.expField, FFmt.frac, hsplit, ← Nat.div_div_eq_div_mul]
  have hlow := Nat.div_add_mod x (2 ^ (f.p - 1))
  have hhigh := Nat.div_add_mod (x / 2 ^ (f.p - 1)) (2 ^ f.eb)
  conv_lhs => rw [← hlow, ← hhigh]
  ring

/-- The value of a code that is no NaN: an infinity, a zero or subnormal, or a normal value no greater than the greatest. -/
theorem decodeF_cases {x : Nat} (hx : decodeF f x ≠ .nan) :
    (f.hasInf = true ∧ f.expField x = 2 ^ f.eb - 1 ∧ f.frac x = 0 ∧ decodeF f x = .inf (f.negOf x))
    ∨ (f.expField x = 0 ∧ decodeF f x = .fin (f.negOf x) (f.frac x) (f.emin - (f.p - 1 : Nat)))
    ∨ (0 < f.expField x ∧ f.expField x ≤ f.topExp ∧ (f.expField x = f.topExp → 2 ^ (f.p - 1) + f.frac x ≤ f.maxM)
      ∧ decodeF f x = .fin (f.negOf x) (2 ^ (f.p - 1) + f.frac x) ((f.expField x : Int) - f.bias - (f.p - 1 : Nat))) := by
  have hexp : f.expField x < 2 ^ f.eb := Nat.mod_lt _ (Nat.two_pow_pos _)
  have hfrac := frac_lt f x
  have hpow := Nat.two_pow_pred_mul_two hf.p
  simp only [decodeF_eq, Bool.and_eq_true, Bool.not_eq_true', beq_iff_eq, and_assoc] at hx ⊢
  split_ifs at hx ⊢ with hspecial hzero hnan hsub
  · exact .inl ⟨hspecial.1, hspecial.2, hzero, rfl⟩
  · exact absurd rfl hx
  · exact absurd rfl hx
  · exact .inr (.inl ⟨hsub, rfl⟩)
  · refine .inr (.inr ⟨Nat.pos_of_ne_zero hsub, ?_, ?_, rfl⟩) <;> rw [FFmt.topExp]
    · split_ifs with hinf
      · have hne : f.expField x ≠ 2 ^ f.eb - 1 := fun he => hspecial ⟨hinf, he⟩
        omega
      · omega
    · rw [FFmt.maxM]
      split_ifs with hinf <;> intro he
      · omega
      · have hne : f.frac x ≠ 2 ^ (f.p - 1) - 1 := fun hg => hnan ⟨Bool.eq_false_iff.mpr hinf, he, hg⟩
        omega

/-- The greatest exponent field of a finite value is that of a normal value. -/
theorem one_lt_topExp : 1 < f.topExp := by
  have h : 2 ^ 2 ≤ 2 ^ f.eb := Nat.pow_le_pow_right (by decide) hf.eb
  rw [FFmt.topExp]
  split_ifs <;> omega

theorem roundMag_subnormal (neg : Bool) {m : Nat} (hm : m ≠ 0) (hlt : m < 2 ^ (f.p - 1)) :
    roundMag neg m 1 (f.emin - (f.p - 1 : Nat)) f = f.signBit neg + m := by
  have hlog : m.log2 < f.p - 1 := (Nat.log2_lt hm).mpr hlt
  have htop := one_lt_topExp hf
  have hp : m < 2 ^ f.p := hlt.trans_le (Nat.pow_le_pow_right (by decide) (Nat.sub_le _ _))
  rw [roundMag_eq_encode neg hm hp (by omega) (by rw [maxQ_eq, FFmt.emin]; omega), FFmt.encode, if_pos hlt]

theorem roundMag_normal (neg : Bool) {e g : Nat} (he : 0 < e) (htop : e ≤ f.topExp) (hg : g < 2 ^ (f.p - 1))
    (hmax : e = f.topExp → 2 ^ (f.p - 1) + g ≤ f.maxM) :
    roundMag neg (2 ^ (f.p - 1) + g) 1 ((e : Int) - f.bias - (f.p - 1 : Nat)) f
      = f.signBit neg + (e * 2 ^ (f.p - 1) + g) := by
  have hpow := Nat.two_pow_pred_mul_two hf.p
  have hm : 2 ^ (f.p - 1) + g ≠ 0 := by omega
  have hlog : (2 ^ (f.p - 1) + g).log2 = f.p - 1 :=
    (Nat.log2_eq_iff hm).mpr ⟨Nat.le_add_right _ _, by rw [pow_succ]; omega⟩
  have hexp : (e : Int) - f.bias - (f.p - 1 : Nat) + (f.p - 1 : Nat) + f.bias = e := by omega
  rw [roundMag_eq_encode neg hm (by omega) (by rw [hlog, FFmt.emin]; omega) (by rw [maxQ_eq]; omega), FFmt.encode,
    if_neg (by omega), hexp, Int.toNat_natCast, Nat.add_sub_cancel_left]

/-- The value of a code that is no NaN converts back to the code. -/
theorem convF_decodeF {x : Nat} (hx : x < 2 ^ f.bits) (hnan : decodeF f x ≠ .nan) : convF (decodeF f x) f = x := by
  have hfields := code_eq_fields hf hx
  have hfrac := frac_lt f x
  obtain ⟨hinf, he, hg, hd⟩ | ⟨he, hd⟩ | ⟨he, htop, hmax, hd⟩ := decodeF_cases hf hnan <;> rw [hd, convF]
  · rw [FFmt.infinity, if_pos hinf]
    rwa [he, hg, Nat.add_zero, eq_comm] at hfields
  · rw [he, Nat.zero_mul, Nat.zero_add] at hfields
    split_ifs with hg
    · rwa [hg, Nat.add_zero, eq_comm] at hfields
    · rw [roundMag_subnormal hf _ hg hfrac, ← hfields]
  · rw [if_neg (by omega), roundMag_normal hf _ he htop hfrac hmax, ← hfields]

end

theorem laid_of_float {f : FFmt} (h : f ∈ [fmtE4M3, fmtE5M2, fmtBf16, fmtFp16, fmtFp32]) : f.Laid := by
  simp only [List.mem_cons, List.not_mem_nil, or_false] at h
  obtain rfl | rfl | rfl | rfl | rfl := h <;> exact ⟨by decide, by decide, by decide⟩

/-- Settles O19: a value of its own format has nothing to round, and encoding joins the fields that decoding took apart. -/
theorem conversionIsExactInItsOwnFormat : Obligations.ConversionIsExactInItsOwnFormat := by
  unfold Obligations.ConversionIsExactInItsOwnFormat
  exact fun f hf x hx hnan => convF_decodeF (laid_of_float hf) hx hnan

end Sys2Proof.Machine
end

/-! ## What the parts of the collective engine leave of the groups (R109, R116, R120, R121, R576) -/

section
namespace Sys2Proof.Machine

/-! ### Packets sent, buffers let go and waits recorded -/

/-- `t` differs from `s` in events, counters, Shoal packets and packets to send alone. -/
def EngineOnly (s t : State) : Prop := t = { s with host := t.host, obs := t.obs, shoal := t.shoal, route := t.route }

section
variable {s t u : State}

theorem EngineOnly.refl (s : State) : EngineOnly s s := rfl

theorem EngineOnly.trans (h : EngineOnly s t) (k : EngineOnly t u) : EngineOnly s u := by
  unfold EngineOnly at *
  rw [k, h]

theorem EngineOnly.groups (h : EngineOnly s t) : t.groups = s.groups := by rw [h]
theorem EngineOnly.tide (h : EngineOnly s t) : t.tide = s.tide := by rw [h]
theorem EngineOnly.net (h : EngineOnly s t) : t.net = s.net := by rw [h]

theorem EngineOnly.getGroup (h : EngineOnly s t) (gid : Nat) : getGroup t gid = getGroup s gid := getGroup_congr h.groups gid

theorem farEpid_congr (h : t.net = s.net) (p : Nat) : farEpid t p = farEpid s p :=
  congrArg (fun n : Net => (mgetD n.ports p {}).peer.epid) h

theorem HostOnly.engineOnly (h : HostOnly s t) : EngineOnly s t := by
  unfold HostOnly at h
  unfold EngineOnly
  rw [h]

end

theorem engineOnly_forAll {α : Type} {f : α → State → State} (h : ∀ x u, EngineOnly u (f x u)) :
    ∀ (l : List α) (s : State), EngineOnly s (forAll l f s)
  | [], _ => rfl
  | x :: r, s => (h x s).trans (engineOnly_forAll h r (f x s))

theorem engineOnly_onlyIf {f : State → State} {s : State} (h : EngineOnly s (f s)) (b : Bool) : EngineOnly s (onlyIf b f s) := by
  cases b with
  | false => rfl
  | true => exact h

section
variable (s : State)

theorem engineOnly_countN (k : CKey) (n : Nat) : EngineOnly s (countN k n s) := (hostOnly_countN s k n).engineOnly
theorem engineOnly_count (k : CKey) : EngineOnly s (count k s) := engineOnly_countN s k 1

theorem engineOnly_letGo (l : List (Nat × Nat)) : EngineOnly s (letGo l s) :=
  engineOnly_forAll (fun e u => by rw [letGoOne_frame]; rfl) l s

theorem engineOnly_freeAll (l : List (Nat × Nat)) : EngineOnly s (freeAll l s) := by rw [freeAll_frame]; rfl

theorem engineOnly_taken (port : Nat) (p : Packet) : EngineOnly s (taken port p s) :=
  EngineOnly.trans (t := takeDelivered port p s) rfl (engineOnly_freeAll _ _)

theorem engineOnly_keepBufs (g : Group) (c : Nat) (l : List (Nat × Nat)) : EngineOnly s (keepBufs g c l s) :=
  engineOnly_forAll (by intro _ _; rfl) l s

theorem engineOnly_sendChunk (vc dst job aux ctype gid e n c low : Nat) :
    EngineOnly s (sendChunk vc dst job aux ctype gid e n c low s) := rfl

theorem engineOnly_traceFillEvent (d : Nat) : EngineOnly s (traceFillEvent d s) := by
  unfold traceFillEvent
  dsimp only
  split
  · exact EngineOnly.trans (t := onTrace d _ s) rfl (hostOnly_postDev _ _ _).engineOnly
  · split <;> rfl

theorem engineOnly_writeTrace (d : Nat) (rec : List Byte) : EngineOnly s (writeTrace d rec s) := by
  unfold writeTrace
  dsimp only
  split
  · exact EngineOnly.trans (t := onTrace d _ (fillTrace d s)) rfl (engineOnly_count _ _)
  · exact EngineOnly.trans (t := onTrace d _ (fillTrace d s)) rfl (engineOnly_traceFillEvent _ d)

theorem engineOnly_traceWait (g : Group) (k : Chunk) (rtype : Nat) (child tmo : Bool) (rank port t1 : Nat) :
    EngineOnly s (traceWait g k rtype child tmo rank port t1 s) := by
  unfold traceWait
  dsimp only
  split
  · rfl
  · exact engineOnly_writeTrace s _ _

theorem engineOnly_endSealWait (g : Group) (k : Chunk) : EngineOnly s (endSealWait g k s) := by
  unfold endSealWait
  split
  · rfl
  · have hcount := engineOnly_countN s (kGroup g.entry iSEAL_NS)
    dsimp only
    split
    · exact (hcount _).trans (engineOnly_traceWait _ _ _ _ _ _ _ _ _)
    · exact hcount _

theorem engineOnly_tellDown (gid : Nat) (k : Chunk) (members : List (Nat × Nat × Nat)) (ctype low : Nat) :
    EngineOnly s (tellDown gid k members ctype low s) := by
  unfold tellDown
  split
  · rfl
  · exact (engineOnly_forAll (by intro _ _; rfl) _ s).trans (engineOnly_forAll (by intro _ _; rfl) _ _)

theorem engineOnly_deliverPiece (gid : Nat) (k : Chunk) (resend : Bool) (want : Src → Bool) (j : Nat) (d : List Byte) :
    EngineOnly s (deliverPiece gid k resend want j d s) := by
  unfold deliverPiece
  split
  · refine (engineOnly_forAll (by intro _ _; rfl) _ s).trans (engineOnly_forAll (fun m u => ?_) _ _)
    split <;> rfl
  · rfl

theorem engineOnly_sendExpDown (gid e n c job : Nat) (v : Int) : EngineOnly s (sendExpDown gid e n c job v s) := by
  unfold sendExpDown
  split
  · rfl
  · exact engineOnly_forAll (by intro _ _; rfl) _ s

theorem engineOnly_sendRack (g : Group) (k : Chunk) : EngineOnly s (sendRack g k s) := rfl

end

/-! ### What a plan alone determines -/

section
variable {g h : Group} (e : planOf g = planOf h)
include e

theorem frag_eq_of_planOf_eq : g.frag = h.frag := by
  have := congrArg Group.frag e
  exact this

theorem passes_eq_of_planOf_eq : g.passes = h.passes := by
  have := congrArg Group.passes e
  exact this

theorem olds_eq_of_planOf_eq : g.olds = h.olds := by
  have := congrArg Group.olds e
  exact this

theorem rosterAt_eq_of_planOf_eq (n : Nat) : rosterAt g n = rosterAt h n := by
  rw [rosterAt, rosterAt, now_eq_of_planOf_eq e, olds_eq_of_planOf_eq e]

theorem membersIn_eq_of_planOf_eq (k : Chunk) : membersIn g k = membersIn h k := by
  rw [membersIn, membersIn, rosterAt_eq_of_planOf_eq e]

end

/-! ### A chunk read back from its group -/

/-- A change of a chunk that leaves which chunk it is. -/
def KeepsKey (f : Chunk → Chunk) : Prop := ∀ x, (f x).epoch = x.epoch ∧ (f x).call = x.call ∧ (f x).chunk = x.chunk

/-- The group with one of its chunks changed, as `onChunk` does it. -/
def setChunk (e n c : Nat) (f : Chunk → Chunk) (g : Group) : Group :=
  { g with chunks := g.chunks.map (fun k => if k.epoch == e && k.call == n && k.chunk == c then f k else k) }

theorem getGroup_onChunk_some {s : State} {gid : Nat} {g : Group} (hg : getGroup s gid = some g) (e n c : Nat) (f : Chunk → Chunk) :
    getGroup (onChunk gid e n c f s) gid = some (setChunk e n c f g) := getGroup_onGroup_some hg (setChunk e n c f)

theorem findChunk_congr {g h : Group} (hc : h.chunks = g.chunks) (e n c : Nat) : findChunk h e n c = findChunk g e n c := by
  rw [findChunk, findChunk, hc]

theorem findChunk_key {g : Group} {e n c : Nat} {k : Chunk} (h : findChunk g e n c = some k) : k.epoch = e ∧ k.call = n ∧ k.chunk = c := by
  simpa [and_assoc] using List.find?_some h

/-- A change of every chunk that leaves which chunk each is changes the chunk that is found. -/
theorem findChunk_map {f : Chunk → Chunk} (hf : KeepsKey f) (g : Group) (e n c : Nat) :
    findChunk { g with chunks := g.chunks.map f } e n c = (findChunk g e n c).map f := by
  rw [findChunk, findChunk, List.find?_map, List.find?_congr fun x _ => ?_]
  obtain ⟨he, hn, hc⟩ := hf x
  rw [Function.comp, he, hn, hc]

theorem findChunk_setChunk {f : Chunk → Chunk} (hf : KeepsKey f) {g : Group} {e n c : Nat} {k : Chunk} (h : findChunk g e n c = some k) :
    findChunk (setChunk e n c f g) e n c = some (f k) := by
  rw [setChunk, findChunk_map (f := fun k => if k.epoch == e && k.call == n && k.chunk == c then f k else k), h]
  · obtain ⟨he, hn, hc⟩ := findChunk_key h
    simp [he, hn, hc]
  · intro x
    dsimp only
    split
    · exact hf x
    · exact ⟨rfl, rfl, rfl⟩

/-! ### Slots -/

/-- Every chunk of the group holds a slot. -/
def AllSlotted (g : Group) : Prop := ∀ k ∈ g.chunks, k.slot = true

theorem AllSlotted.map {g : Group} (h : AllSlotted g) {f : Chunk → Chunk} (hf : ∀ x, x.slot = true → (f x).slot = true) :
    AllSlotted { g with chunks := g.chunks.map f } := by
  rintro k hk
  obtain ⟨x, hx, rfl⟩ := List.mem_map.1 hk
  exact hf x (h x hx)

theorem AllSlotted.setChunk {g : Group} (h : AllSlotted g) {f : Chunk → Chunk} (hf : ∀ x, x.slot = true → (f x).slot = true)
    (e n c : Nat) : AllSlotted (setChunk e n c f g) := by
  refine h.map fun x hx => ?_
  split
  · exact hf x hx
  · exact hx

/-- Where no chunk waits for a slot and none for an earlier pass, giving out slots changes nothing (R111, R138). -/
theorem regrant_of_none_waits {gid : Nat} {t : State} {g : Group} (hg : getGroup t gid = some g)
    (hslot : ∀ k ∈ g.chunks, k.slot = true ∨ k.combined = true)
    (hpass : g.passes ≤ 1 ∨ ∀ k ∈ g.chunks, k.combined = true) : regrant gid t = t := by
  have hready : g.chunks.filter (fun k => !k.slot && !k.combined && !k.sealed && k.unacked.isEmpty && hasInput k && needsSlot g k.par) = [] := by
    rw [List.filter_eq_nil_iff]
    intro k hk
    rcases hslot k hk with h | h <;> simp [h]
  have hgrant (fuel : Nat) : grantSlots gid fuel t = t := by
    cases fuel with
    | zero => rfl
    | succ m =>
      simp only [grantSlots, hg, hready]
      rfl
  have hpasses : waitingPasses g = [] := by
    rcases hpass with h | h
    · exact if_pos h
    · have hnone : g.chunks.filter (fun k => k.slot && !k.combined && !k.sealed && !k.seen.isEmpty) = [] := by
        rw [List.filter_eq_nil_iff]
        intro k hk
        simp [h k hk]
      rw [waitingPasses, hnone]
      split <;> rfl
  simp [regrant, regrantLoop, hg, hgrant, hpasses]

theorem regrant_of_allSlotted {gid : Nat} {t : State} {g : Group} (hg : getGroup t gid = some g) (hs : AllSlotted g)
    (hp : g.passes ≤ 1) : regrant gid t = t :=
  regrant_of_none_waits hg (fun k hk => .inl (hs k hk)) (.inl hp)

end Sys2Proof.Machine
end

/-! ## A chunk while its packets are handled (R111, R113, R119 to R121, R576) -/

section
namespace Sys2Proof.Machine

/-- Group `gid` of `t` stands by the plan of `g`, its chunk `c` of call `n` of epoch `e` is `k`, and where every chunk of `g` held a
slot every chunk holds one. -/
def Stands (gid e n c : Nat) (g : Group) (k : Chunk) (t : State) : Prop :=
  ∃ g', getGroup t gid = some g' ∧ planOf g' = planOf g ∧ findChunk g' e n c = some k ∧ (AllSlotted g → AllSlotted g')

/-- `k'` differs from `k` in what the wait for its inputs notes: the slot, the deadline, the first items. -/
def WaitOnly (k k' : Chunk) : Prop :=
  k' = { k with slot := k'.slot, inDeadline := k'.inDeadline, firstAt := k'.firstAt, firsts := k'.firsts, waited := k'.waited }

theorem WaitOnly.trans {k l m : Chunk} (h : WaitOnly k l) (h' : WaitOnly l m) : WaitOnly k m := by
  unfold WaitOnly at *
  rw [h', h]

section
variable {gid e n c : Nat} {g : Group} {k : Chunk} {t u : State}

theorem stands_of_found (hg : getGroup t gid = some g) (hk : findChunk g e n c = some k) : Stands gid e n c g k t :=
  ⟨g, hg, rfl, hk, id⟩

theorem Stands.congr (h : Stands gid e n c g k t) (hg : u.groups = t.groups) : Stands gid e n c g k u := by
  obtain ⟨g', hg', hrest⟩ := h
  exact ⟨g', (getGroup_congr hg gid).trans hg', hrest⟩

theorem Stands.engineOnly (h : Stands gid e n c g k t) (hu : EngineOnly t u) : Stands gid e n c g k u := h.congr hu.groups

theorem Stands.onGroup (h : Stands gid e n c g k t) {F : Group → Group} {k' : Chunk}
    (hplan : ∀ x, planOf x = planOf g → planOf (F x) = planOf g)
    (hfind : ∀ x, findChunk x e n c = some k → findChunk (F x) e n c = some k') (hslot : ∀ x, AllSlotted x → AllSlotted (F x)) :
    Stands gid e n c g k' (Machine.onGroup gid F t) := by
  obtain ⟨g', hg', hp, hk, hs⟩ := h
  exact ⟨F g', getGroup_onGroup_some hg' F, hplan g' hp, hfind g' hk, fun h => hslot g' (hs h)⟩

theorem Stands.onChunk (h : Stands gid e n c g k t) (f : Chunk → Chunk) (hkey : KeepsKey f := by intro _; exact ⟨rfl, rfl, rfl⟩)
    (hslot : ∀ x, x.slot = true → (f x).slot = true := by intro _ h; exact h) :
    Stands gid e n c g (f k) (onChunk gid e n c f t) :=
  h.onGroup (F := setChunk e n c f) (fun _ hx => hx) (fun _ => findChunk_setChunk hkey) (fun _ hs => hs.setChunk hslot e n c)

/-- A change of a group's calls alone. -/
theorem Stands.onGroup_calls (h : Stands gid e n c g k t) {F : Group → Group} (hplan : ∀ x, planOf (F x) = planOf x)
    (hchunks : ∀ x, (F x).chunks = x.chunks) : Stands gid e n c g k (Machine.onGroup gid F t) :=
  h.onGroup (fun x hx => (hplan x).trans hx) (fun x hk => (findChunk_congr (hchunks x) e n c).trans hk) (fun x hs y hy => hs y (hchunks x ▸ hy))

theorem Stands.onCall (h : Stands gid e n c g k t) (e' n' : Nat) (f : Call → Call) : Stands gid e n c g k (onCall gid e' n' f t) :=
  h.onGroup_calls (fun _ => rfl) (fun _ => rfl)

theorem Stands.openCall (h : Stands gid e n c g k t) (e' n' : Nat) : Stands gid e n c g k (openCall gid e' n' t) := by
  unfold Machine.openCall
  split
  · exact h
  · split
    · exact h
    · exact h.onGroup_calls (fun _ => rfl) (fun _ => rfl)

/-- A chunk that is known is not begun again. -/
theorem Stands.openChunk (h : Stands gid e n c g k t) (par : Option CallPar) (job : Nat) :
    Stands gid e n c g k (openChunk gid e n c par job t) := by
  have hidle : ∀ x : Group, findChunk x e n c = some k →
      (if (findChunk x e n c).isSome then x
        else { x with chunks := x.chunks ++ [{ epoch := e, call := n, chunk := c, par := par, job := job }] }) = x :=
    fun x hx => if_pos (by rw [hx]; rfl)
  obtain ⟨g', hg', hp, hk, hs⟩ := h.openCall e n
  exact ⟨g', (getGroup_onGroup_some hg' _).trans (congrArg some (hidle g' hk)), hp, hk, hs⟩

/-- A chunk of which nothing is known begins behind the others. -/
theorem stands_openChunk_new (hg : getGroup t gid = some g) (hk : findChunk g e n c = none) (par : Option CallPar) (job : Nat) :
    ∃ g₀, planOf g₀ = planOf g ∧ Stands gid e n c g₀ { epoch := e, call := n, chunk := c, par := par, job := job }
      (Machine.openChunk gid e n c par job t) := by
  obtain ⟨g', hg', hp, hchunks⟩ : ∃ g', getGroup (Machine.openCall gid e n t) gid = some g' ∧ planOf g' = planOf g ∧ g'.chunks = g.chunks := by
    unfold Machine.openCall
    simp only [hg]
    split
    · exact ⟨g, hg, rfl, rfl⟩
    · exact ⟨_, getGroup_onGroup_some hg _, rfl, rfl⟩
  have hnone : findChunk g' e n c = none := (findChunk_congr hchunks e n c).trans hk
  refine ⟨{ g' with chunks := g'.chunks ++ [{ epoch := e, call := n, chunk := c, par := par, job := job }] }, hp,
    stands_of_found ((getGroup_onGroup_some hg' _).trans (congrArg some (if_neg (by rw [hnone]; exact Bool.false_ne_true)))) ?_⟩
  exact find?_chunk_last (findChunk_none_iff.mp hnone) (by simp [chunkIs])

/-- The first item of a chunk starts its wait. -/
theorem Stands.startChunk (h : Stands gid e n c g k t) (input : Bool) :
    ∃ k', WaitOnly k k' ∧ Stands gid e n c g k' (startChunk gid e n c input t) := by
  have ⟨g', hg', _⟩ := h
  simp only [Machine.startChunk, hg']
  refine ⟨_, ?_, h.onChunk _ (fun x => ?_) (fun x hx => ?_)⟩
  · split <;> rfl
  · split <;> exact ⟨rfl, rfl, rfl⟩
  · split
    · exact hx
    · simp [hx]

theorem Stands.endWait (h : Stands gid e n c g k t) (child tmo : Bool) (rank port : Nat) :
    ∃ k', WaitOnly k k' ∧ Stands gid e n c g k' (endWait gid e n c child tmo rank port t) := by
  have ⟨g', hg', _, hk', _⟩ := h
  simp only [Machine.endWait, hg', hk']
  split
  · exact ⟨{ k with waited := true }, by rfl, ((h.onChunk (fun k => { k with waited := true })).engineOnly
      (engineOnly_countN _ _ _)).engineOnly (engineOnly_traceWait _ _ _ _ _ _ _ _ _)⟩
  · exact ⟨k, rfl, h⟩

/-- The arrival of an item is noted. -/
theorem Stands.noteItem (h : Stands gid e n c g k t) (port rank : Nat) (child input : Bool) :
    ∃ k', WaitOnly k k' ∧ Stands gid e n c g k' (noteItem gid e n c port rank child input t) := by
  obtain ⟨k₁, hw₁, h₁⟩ := h.startChunk input
  obtain ⟨k₂, hw₂, h₂⟩ : ∃ k₂, WaitOnly k₁ k₂ ∧ Stands gid e n c g k₂ (Machine.onChunk gid e n c (fun k => { k with
      firstAt := some (k.firstAt.getD (Machine.startChunk gid e n c input t).tide.now),
      firsts := if child then addNew k.firsts port else k.firsts }) (Machine.startChunk gid e n c input t)) := by
    refine ⟨_, ?_, h₁.onChunk _⟩
    rfl
  have ⟨g', hg', _, hk', _⟩ := h₂
  unfold Machine.noteItem
  simp only [hg', hk']
  split
  · obtain ⟨k₃, hw₃, h₃⟩ := h₂.endWait child false rank port
    exact ⟨k₃, (hw₁.trans hw₂).trans hw₃, h₃⟩
  · exact ⟨k₂, hw₁.trans hw₂, h₂⟩

/-- E of a chunk, in a group that accumulates nothing. -/
theorem Stands.fixExp (h : Stands gid e n c g k t) (hp : g.passes ≤ 1) (v : Int) :
    Stands gid e n c g { k with exp := some v } (fixExp gid e n c v t) := by
  refine (h.onChunk fun k => { k with exp := some v }).onGroup (fun x hx => ?_) (fun _ hk => hk) (fun _ hs => hs)
  have hpx : ¬ 1 < x.passes := by rw [passes_eq_of_planOf_eq hx]; omega
  rw [← hx]
  simp [hpx]

/-- A chunk that waits for members, or that a Q7 below the root only forwards, moves no further (R115). -/
theorem Stands.progress_eq (h : Stands gid e n c g k t) (hm : membersIn g k = false)
    (hpar : k.par.map reduces ≠ some false ∨ g.frag.isRoot = false) : progress gid e n c t = t := by
  obtain ⟨g', hg', hp, hk', -⟩ := h
  have hm' : membersIn g' k = false := (membersIn_eq_of_planOf_eq hp k).trans hm
  have hfrag := frag_eq_of_planOf_eq hp
  simp only [progress, hg', hk', hm', Bool.false_eq_true, not_false_eq_true, if_true]
  split
  · rfl
  · split
    · next hr =>
      have hroot : ¬ g'.frag.isRoot = true := by
        rw [hfrag, hpar.resolve_left (not_not_intro hr)]
        exact Bool.false_ne_true
      split
      · rfl
      · exact if_neg fun ha => hroot ha.1
    · rfl

theorem Stands.regrant_eq (h : Stands gid e n c g k t) (hs : AllSlotted g) (hp : g.passes ≤ 1) : regrant gid t = t := by
  obtain ⟨g', hg', hplan, -, hs'⟩ := h
  exact regrant_of_allSlotted hg' (hs' hs) (passes_eq_of_planOf_eq hplan ▸ hp)

end

end Sys2Proof.Machine
end

/-! ## Exponents, reports and pieces of a chunk (R88, R89, R113, R115 to R117, R119, R120, R132) -/

section
namespace Sys2Proof.Machine

/-! ### Chunk control packets -/

/-- The chunk that a chunk control packet names stands as `k`. -/
abbrev StandsFor (p : Packet) (g : Group) (k : Chunk) (t : State) : Prop :=
  Stands (ccGroup p.ctl) (ccEpoch p.ctl) (ccCall p.ctl) (ccChunk p.ctl) g k t

section
variable {s : State} {port : Nat} {p : Packet} {g : Group} (he : engineFor s port p = true)
  (hg : getGroup s (ccGroup p.ctl) = some g) (hl : groupLive g = true)
include he hg hl

/-- A chunk control packet of a live group is taken. -/
theorem withChunkCtl_live (f : Group → Nat → State → State) :
    withChunkCtl port p f s = f g (planPort s g port p) (taken port p s) := by
  refine (if_neg (not_not_intro he)).trans ?_
  have hg' : getGroup (taken port p s) (ccGroup p.ctl) = some g := (getGroup_taken _ _ _ _).trans hg
  have hp : planPort (taken port p s) g port p = planPort s g port p := planPort_taken port p s g
  simp only [hg', hl, if_true, hp]

variable {k : Chunk} (hk : findChunk g (ccEpoch p.ctl) (ccCall p.ctl) (ccChunk p.ctl) = some k)
include hk

omit he hl in
theorem stands_taken : StandsFor p g k (taken port p s) :=
  (stands_of_found hg hk).engineOnly (engineOnly_taken s port p)

/-! ### Exponents and reports -/

/-- A child's EXP_UP of a chunk that still waits for members is kept by its port. -/
theorem doExpUp_kept (hs : AllSlotted g) (hp : g.passes ≤ 1) (hm : membersIn g k = false)
    (hc : planPort s g port p ∈ g.frag.children) (hr : k.par.map reduces ≠ some false) :
    ∃ k', StandsFor p g k' (doExpUp port p s)
      ∧ WaitOnly { k with exps := k.exps.filter (fun x => x.1 != planPort s g port p)
          ++ [(planPort s g port p, if bitAt p.ctl 19 = true then none else some (toSigned 12 (fld p.ctl 31 20)))] } k' := by
  have hkept := ((stands_taken (port := port) hg hk).openChunk none p.job).onChunk (fun k => { k with
    exps := k.exps.filter (fun x => x.1 != planPort s g port p)
      ++ [(planPort s g port p, if bitAt p.ctl 19 = true then none else some (toSigned 12 (fld p.ctl 31 20)))] })
  obtain ⟨k', hw, hnoted⟩ := hkept.noteItem (planPort s g port p) noRank true false
  have hm' : membersIn g k' = false := by rw [hw]; exact hm
  have hr' : k'.par.map reduces ≠ some false := by rw [hw]; exact hr
  have hdo : doExpUp port p s = _ := withChunkCtl_live he hg hl _
  rw [hdo]
  dsimp only
  rw [if_neg (by simpa using hc), if_neg (by simp [hk]), hnoted.progress_eq hm' (.inl hr'), hnoted.regrant_eq hs hp]
  exact ⟨k', hnoted, hw⟩

/-- EXP_DOWN fixes E of a chunk that has none, once. -/
theorem doExpDown_fixes (hs : AllSlotted g) (hp : g.passes ≤ 1) (hm : membersIn g k = false) (hroot : g.frag.isRoot = false)
    (hparent : planPort s g port p = g.frag.parent) (hx : k.exp = none) :
    StandsFor p g
      { k with exp := some (toSigned 12 (fld p.ctl 31 20)) } (doExpDown port p s) := by
  have hfixed := ((stands_taken (port := port) hg hk).fixExp hp (toSigned 12 (fld p.ctl 31 20))).engineOnly
    (engineOnly_sendExpDown _ (ccGroup p.ctl) (ccEpoch p.ctl) (ccCall p.ctl) (ccChunk p.ctl) p.job (toSigned 12 (fld p.ctl 31 20)))
  have hdo : doExpDown port p s = _ := withChunkCtl_live he hg hl _
  rw [hdo]
  simp only [hk]
  rw [if_neg (by simp [hroot, hparent, hx]), hfixed.progress_eq hm (.inr hroot), hfixed.regrant_eq hs hp]
  exact hfixed

/-- A child's MISSING of a chunk's inputs is kept by its port. -/
theorem doMissing_inputs (hc : planPort s g port p ∈ g.frag.children) (hlast : ccLast p.ctl = false) :
    ∃ k', StandsFor p g k' (doMissing port p s)
      ∧ k'.missingIn = k.missingIn.filter (fun x => x.1 != planPort s g port p) ++ [(planPort s g port p, p.aux % 2 ^ 18)] := by
  have hdo : doMissing port p s = _ := withChunkCtl_live he hg hl _
  rw [hdo]
  dsimp only
  rw [if_neg (by simpa using hc), if_neg (by simp [hlast]), if_neg (by simp [hk])]
  exact ⟨_, ((stands_taken (port := port) hg hk).openChunk none p.job).onChunk _, rfl⟩

/-- A child's MISSING of RACKs is kept by its port. -/
theorem doMissing_racks (hc : planPort s g port p ∈ g.frag.children) (hlast : ccLast p.ctl = true)
    (hd : ccDeliv p.ctl = k.deliv) (hu : k.sealed = false) :
    doMissing port p s = onChunk (ccGroup p.ctl) (ccEpoch p.ctl) (ccCall p.ctl) (ccChunk p.ctl) (fun x => { x with
      missingRack := x.missingRack.filter (fun y => y.1 != planPort s g port p) ++ [(planPort s g port p, p.aux % 2 ^ 18)] })
      (taken port p s) := by
  have hdo : doMissing port p s = _ := withChunkCtl_live he hg hl _
  rw [hdo]
  simp only [hk]
  rw [if_neg (by simpa using hc), if_pos hlast, if_neg (by simp [hd, hu])]

end

/-! ### Pieces of a child's partial -/

@[simp] theorem freeAll_nil (s : State) : freeAll [] s = s := rfl

@[simp] theorem noteInputTurn_groups (g : Group) (c job : Nat) (s : State) : (noteInputTurn g c job s).groups = s.groups := rfl

/-- A call that is not stale here has not failed. -/
theorem callFailed_of_not_stale {g : Group} {e n c : Nat} (h : isStale g e n c = false) : callFailed g e n = false := by
  simp only [isStale, Bool.or_eq_false_iff] at h
  obtain ⟨-, h⟩ := h
  unfold callFailed
  cases hc : findCall g e n with
  | none => rfl
  | some x =>
    simp only [hc, Bool.or_eq_false_iff] at h
    exact h.1.1

section
variable {gid e n c : Nat} {s : State} {p : Packet} {g : Group} (hg : getGroup s gid = some g)
  (hk : findChunk g e n c = none) (hstale : isStale g e n c = false)
include hg hk hstale

/-- The first piece of a child's partial begins its chunk, which keeps the piece. -/
theorem takePiece_first (port via : Nat) {par : CallPar} (bufs : List (Nat × Nat)) (hp : g.passes = 1) (hj : scPiece p.sub = 0)
    (hres : scResend p.sub = false)
    (hends : endsChunk g.frag.chunkSegs (partSize par) 0 (pktData p).length (scLast p.sub) = false) :
    ∃ g₀ k', planOf g₀ = planOf g ∧ Stands gid e n c g₀ k' (takePiece gid e n c port via par p bufs s)
      ∧ k'.taking = [{ port := port, resend := false, via := via, next := 1, bytes := pktData p, bufs := bufs }] ∧ k'.inputs = [] := by
  obtain ⟨g₀, hplan, hnew⟩ := stands_openChunk_new hg hk (some par) p.job
  have hmark : isMark g par n c p.sub = false := by simp [isMark, inAccum, hp]
  have hbegun := ((hnew.onChunk (fun k => { k with par := some (k.par.getD par) })).onCall
    e n (fun k => { k with par := some (k.par.getD par) })).engineOnly (engineOnly_keepBufs _ g c bufs)
  obtain ⟨k', hw, hnoted⟩ := (hbegun.onChunk (fun k => { k with taking := k.taking.filter (fun x => x.port != port)
    ++ [{ port := port, resend := false, via := via, next := 1, bytes := pktData p, bufs := bufs }] })).noteItem port (scRank p.sub) true true
  refine ⟨g₀, k', hplan, ?_, by rw [hw]; rfl, by rw [hw]⟩
  unfold takePiece
  simp only [hg, hk, hstale, callFailed_of_not_stale hstale, hj, hres, hmark, hends]
  simpa using hnoted

end

theorem doPartialPiece_reduces {s : State} {port : Nat} {p : Packet} {g : Group} (he : engineFor s port p = true)
    (hw : inputWaits (scGroup p.sub) (scChunk p.sub) p.job (deliveredAt s port p) s = false) (hg : getGroup s (scGroup p.sub) = some g)
    (hok : subCodesOk p.sub = true) (hphase : scPhase p.sub = 1) (hl : groupLive g = true)
    (hc : planPort s g port p ∈ g.frag.children) (hr : reduces (parOf p.sub) = true) :
    doPartialPiece port p s = takePiece (scGroup p.sub) (scEpoch p.sub) (scCall p.sub) (scChunk p.sub) (planPort s g port p) port
      (parOf p.sub) p (deliveredAt s port p) (noteInputTurn g (scChunk p.sub) p.job (takeDelivered port p s)) := by
  have hplan : planPort (takeDelivered port p s) g port p = planPort s g port p := rfl
  unfold doPartialPiece
  dsimp only
  rw [if_neg (by simp [he, hw]), if_neg (by simp [hok, hphase])]
  simp [hg, hl, hc, hr, hplan]

end Sys2Proof.Machine
end

/-! ## Deliveries of a chunk, their pieces and their RACKs (R74, R116, R120, R121, R132) -/

section
namespace Sys2Proof.Machine

/-! ### RACKs that are all in -/

/-- The copies of a delivery that a Q7 awaits RACKs for are all acknowledged (R121). -/
def racksIn (g : Group) (k : Chunk) : Bool :=
  k.resultAt.isSome && !k.sealed && !k.rackSent && !k.nakSent && k.resultWhole && (downSrcs g k).all (fun x => k.racked.contains x)

theorem racksIn_iff {g : Group} {k : Chunk} : racksIn g k = true ↔
    ¬ (k.resultAt.isNone ∨ k.sealed ∨ k.rackSent ∨ k.nakSent ∨ ¬ k.resultWhole ∨ ¬ (downSrcs g k).all (fun x => k.racked.contains x)) := by
  simp only [racksIn, Bool.and_eq_true, Bool.not_eq_true', ← Option.not_isSome, Bool.not_eq_true, not_or, and_assoc,
    Bool.not_eq_false]

theorem racksIn_of {g : Group} {k : Chunk} (hat : k.resultAt ≠ none) (hu : k.sealed = false) (hsent : k.rackSent = false)
    (hnak : k.nakSent = false) (hw : k.resultWhole = true) (hall : ∀ y ∈ downSrcs g k, y ∈ k.racked) : racksIn g k = true := by
  simpa [racksIn, Option.isSome_iff_ne_none, hat, hu, hsent, hnak, hw] using hall

section
variable {gid e n c : Nat} {t : State} {g : Group} {k : Chunk} (hg : getGroup t gid = some g) (hk : findChunk g e n c = some k)
include hg hk

theorem checkRacks_waits (h : racksIn g k = false) : checkRacks gid e n c t = t := by
  simp only [checkRacks, hg, hk]
  exact if_pos (not_not.1 (mt racksIn_iff.2 (Bool.eq_false_iff.1 h)))

theorem checkRacks_in (h : racksIn g k = true) : checkRacks gid e n c t =
    if g.frag.isRoot then onChunk gid e n c (fun k => { k with sealDue := true, rackDeadline := none }) t
    else sendRack g k (onChunk gid e n c (fun k => { k with rackSent := true, rackDeadline := none, result := [], resultBufs := [] })
      (letGo k.resultBufs (endSealWait g k t))) := by
  simp only [checkRacks, hg, hk]
  exact if_neg (racksIn_iff.1 h)

end

section
variable {gid e n c : Nat} {g : Group} {k : Chunk} {t : State}

theorem Stands.chunk_eq (h : Stands gid e n c g k t) : (getGroup t gid).bind (fun g => findChunk g e n c) = some k := by
  obtain ⟨g', hg', -, hk', -⟩ := h
  rw [hg', Option.bind_some, hk']

/-! ### The hash of a call -/

theorem engineOnly_strikeOne (x : Input) (u : State) : EngineOnly u (count (kPort x.port iCOLL_BADHASH) (letGo x.bufs u)) :=
  (engineOnly_letGo u x.bufs).trans (engineOnly_count _ _)

theorem engineOnly_strike (l : List Input) (s : State) :
    EngineOnly s (forAll l (fun x s => count (kPort x.port iCOLL_BADHASH) (letGo x.bufs s)) s) :=
  engineOnly_forAll engineOnly_strikeOne l s

/-- Chunk 0 is not among the later chunks that its hash strikes (R74). -/
theorem Stands.agreeHash (h : Stands gid e n 0 g k t) (v : Nat) : Stands gid e n 0 g k (agreeHash gid e n v t) := by
  unfold Machine.agreeHash
  split
  · exact h
  · next x _ =>
    have h₁ := h.onCall e n (fun y => { y with hash := some (x.hash.getD v) })
    have ⟨g', hg', _⟩ := h₁
    simp only [strikeBad, hg']
    refine (h₁.engineOnly (engineOnly_strike _ _)).onGroup
      (fun _ hx => hx) (fun y hy => ?_) (fun y hy => hy.map fun z hz => ?_)
    · rw [findChunk_map _ y, hy, Option.map_some, if_neg (by simp [(findChunk_key hy).2.2])]
      intro z
      dsimp only
      split <;> exact ⟨rfl, rfl, rfl⟩
    · split <;> exact hz

/-- A chunk whose RACKs are all in: the root is to seal it, another Q7 has freed its copies and sent its RACK (R121, R127). -/
def allRacked (root : Bool) (k : Chunk) : Chunk :=
  if root then { k with sealDue := true, rackDeadline := none }
  else { k with rackSent := true, rackDeadline := none, result := [], resultBufs := [] }

section
variable {root : Bool} (k : Chunk)

theorem allRacked_of_root (h : root = true) : (allRacked root k).sealDue = true ∧ (allRacked root k).rackDeadline = none := by
  subst h
  exact ⟨rfl, rfl⟩

theorem allRacked_of_not_root (h : root = false) :
    (allRacked root k).rackSent = true ∧ (allRacked root k).result = [] ∧ (allRacked root k).resultBufs = [] := by
  subst h
  exact ⟨rfl, rfl, rfl⟩

@[simp] theorem allRacked_racked : (allRacked root k).racked = k.racked := by cases root <;> rfl

end

theorem Stands.checkRacks (h : Stands gid e n c g k t) {g' : Group} (hg : getGroup t gid = some g') (hk : findChunk g' e n c = some k) :
    Stands gid e n c g (if racksIn g' k then allRacked g'.frag.isRoot k else k) (checkRacks gid e n c t) := by
  cases hin : racksIn g' k with
  | false =>
    rw [checkRacks_waits hg hk hin]
    exact h
  | true =>
    rw [checkRacks_in hg hk hin, if_pos rfl, allRacked]
    split
    · exact h.onChunk _
    · exact (((h.engineOnly (engineOnly_endSealWait _ _ _)).engineOnly (engineOnly_letGo _ _)).onChunk _).engineOnly
        (engineOnly_sendRack _ _ _)

/-! ### A delivery that goes out -/

/-- `k'` differs from `k` in when its delivery went out, the deadline of the RACKs, and what a full set of RACKs changes. -/
def DeliveryOnly (k k' : Chunk) : Prop := k' = { k with
  resultAt := k'.resultAt, rackDeadline := k'.rackDeadline, sealDue := k'.sealDue, rackSent := k'.rackSent,
  result := k'.result, resultBufs := k'.resultBufs }

theorem deliveryOnly_allRacked (root : Bool) (k : Chunk) : DeliveryOnly k (allRacked root k) := by cases root <;> rfl

/-- A chunk whose delivery has gone out waits for RACKs, or has them all already. -/
theorem Stands.noteOut (h : Stands gid e n c g k t) :
    ∃ k', Stands gid e n c g k' (Machine.checkRacks gid e n c (noteOut gid e n c t)) ∧ DeliveryOnly k k'
      ∧ (k.resultWhole = false ∨ (∃ y ∈ g.frag.children, .child y ∉ k.racked) → k'.result = k.result ∧ k'.resultBufs = k.resultBufs) := by
  have ⟨g₁, hg₁, _⟩ := h
  obtain ⟨k₂, h₂, hk₂⟩ : ∃ k₂, Stands gid e n c g k₂ (Machine.noteOut gid e n c t)
      ∧ k₂ = { k with resultAt := k₂.resultAt, rackDeadline := k₂.rackDeadline } := by
    simp only [Machine.noteOut, hg₁]
    exact ⟨_, h.onChunk _, rfl⟩
  have ⟨g₂, hg₂, hplan₂, hfind₂, _⟩ := h₂
  have hchecked := h₂.checkRacks hg₂ hfind₂
  refine ⟨_, hchecked, ?_, fun hwait => ?_⟩
  · split
    · have hall := deliveryOnly_allRacked g₂.frag.isRoot k₂
      unfold DeliveryOnly at hall ⊢
      rw [hall, hk₂]
    · rw [hk₂]
      rfl
  · have hin : racksIn g₂ k₂ = false := by
      have hwhole : k₂.resultWhole = k.resultWhole := by rw [hk₂]
      have hracked : k₂.racked = k.racked := by rw [hk₂]
      rcases hwait with hw | ⟨y, hy, hyr⟩
      · simp [racksIn, hwhole, hw]
      · have hdown : Src.child y ∈ downSrcs g₂ k₂ := by
          rw [downSrcs, frag_eq_of_planOf_eq hplan₂]
          exact List.mem_append_left _ (List.mem_map_of_mem hy)
        rw [racksIn, Bool.and_eq_false_iff, List.all_eq_false]
        exact .inr ⟨_, hdown, by simpa [hracked] using hyr⟩
    rw [hin, hk₂]
    exact ⟨rfl, rfl⟩

/-! ### RESULT pieces -/

/-- The chunk with the next piece of a delivery that is not sent again. -/
def withPiece (par : CallPar) (p : Packet) (bufs : List (Nat × Nat)) (whole : Bool) (j : Nat) (k : Chunk) : Chunk := { k with
  par := some (k.par.getD par), job := p.job, hash := scHash p.sub, resultLast := scLast p.sub,
  result := k.result ++ [(j, pktData p)], resultBufs := k.resultBufs ++ bufs, pieces := j + 1, resultWhole := whole }

/-- The records that a RESULT piece finds: its call is open, and chunk 0 of it has agreed on a hash (R74). -/
def resultOpened (gid e n c : Nat) (par : CallPar) (hash : Nat) (s : State) : State :=
  onlyIf (c == 0) (agreeHash gid e n hash) (onCall gid e n (fun k => { k with par := some (k.par.getD par) }) (openCall gid e n s))

theorem Stands.resultOpened (h : Stands gid e n c g k t) (par : CallPar) (hash : Nat) :
    Stands gid e n c g k (resultOpened gid e n c par hash t) := by
  have h₁ := (h.openCall e n).onCall e n (fun k => { k with par := some (k.par.getD par) })
  unfold Machine.resultOpened
  by_cases hc : c = 0
  · subst hc
    exact h₁.agreeHash hash
  · rw [beq_false_of_ne hc]
    exact h₁

/-- The next piece of a delivery is kept and goes on (R116, R120, R132). -/
theorem takeResult_next {par : CallPar} {p : Packet} {s : State} (bufs : List (Nat × Nat)) (hg : getGroup s gid = some g)
    (hk : findChunk g e n c = some k) (hu : k.sealed = false) (hw : k.resultWhole = false) (hr : k.resultResend = false)
    (hres : scResend p.sub = false) (hj : scPiece p.sub = k.pieces) {k₁ : Chunk}
    (hk₁ : k₁ = withPiece par p bufs (endsChunk g.frag.chunkSegs (elemSize par.outfmt) (scPiece p.sub) (pktData p).length (scLast p.sub)
      || par.kind == 5 || par.kind == 6) k.pieces k) :
    ∃ u, Stands gid e n c g k₁ u ∧ takeResult gid e n c par p bufs s
      = checkRacks gid e n c (noteOut gid e n c (deliverPiece gid k₁ false (fun x => !k₁.racked.contains x) k.pieces (pktData p) u)) := by
  have hopen := (stands_of_found hg hk).resultOpened par (scHash p.sub)
  have hkept := (hopen.engineOnly (engineOnly_keepBufs _ g c bufs)).onChunk (withPiece par p bufs (endsChunk g.frag.chunkSegs
    (elemSize par.outfmt) (scPiece p.sub) (pktData p).length (scLast p.sub) || par.kind == 5 || par.kind == 6) k.pieces)
  rw [← hk₁] at hkept
  refine ⟨_, hkept, ?_⟩
  have hopen' := hopen.chunk_eq
  have hkept' := hkept.chunk_eq
  unfold Machine.resultOpened at hopen' hkept' ⊢
  unfold withPiece at hkept' ⊢
  rw [hj] at hkept' ⊢
  unfold takeResult
  simp only [hg, hk, hopen', Option.isSome_some, if_true, hu, hw, hr, hres, hj, Bool.false_eq_true, if_false, false_and, and_false,
    not_true_eq_false, ne_eq, decide_false, Bool.or_false, hkept']

end

end Sys2Proof.Machine
end

/-! ## Pieces, exponents and reports at their commands (R88, R113, R115 to R117, R119) -/

section
namespace Sys2Proof.Machine

theorem doResultPiece_taken {s : State} {port : Nat} {p : Packet} {g : Group} {k : Chunk} (he : engineFor s port p = true)
    (hw : resultWaits (scGroup p.sub) (deliveredAt s port p) s = false) (hg : getGroup s (scGroup p.sub) = some g)
    (hok : subCodesOk p.sub = true) (hphase : scPhase p.sub = 2) (hl : groupLive g = true) (hroot : g.frag.isRoot = false)
    (hparent : planPort s g port p = g.frag.parent)
    (hcall : (findCall g (scEpoch p.sub) (scCall p.sub)).any (fun x => x.failed && !x.stale) = false)
    (hk : findChunk g (scEpoch p.sub) (scCall p.sub) (scChunk p.sub) = some k) :
    doResultPiece port p s = takeResult (scGroup p.sub) (scEpoch p.sub) (scCall p.sub) (scChunk p.sub) (parOf p.sub) p
      (deliveredAt s port p) (takeDelivered port p s) := by
  have hplan : planPort (takeDelivered port p s) g port p = g.frag.parent := hparent
  unfold doResultPiece
  dsimp only
  rw [if_neg (by simp [he, hw]), if_neg (by simp [hok, hphase])]
  simp only [getGroup_takeDelivered, hg, hplan]
  rw [if_neg, if_neg (by simp [hk])]
  cases hc : findCall g (scEpoch p.sub) (scCall p.sub) with
  | none => simp [hl, hroot]
  | some x => simpa [hl, hroot, hc] using hcall

section
variable (s : State) (port : Nat) (p : Packet)

theorem exec_partialPiece : exec (.partialPiece port p) s = .next (doPartialPiece port p s) := rfl
theorem exec_resultPiece : exec (.resultPiece port p) s = .next (doResultPiece port p s) := rfl
theorem exec_expUp : exec (.expUp port p) s = .next (doExpUp port p s) := rfl
theorem exec_expDown : exec (.expDown port p) s = .next (doExpDown port p s) := rfl
theorem exec_missing : exec (.missing port p) s = .next (doMissing port p s) := rfl

end

/-- Settles O21: the first piece by `takePiece_first`, the next of a result by `takeResult_next` and `Stands.noteOut`, exponents
and reports by the lemma of their command. -/
theorem piecesExponentsAndReports : Obligations.PiecesExponentsAndReports := by
  unfold Obligations.PiecesExponentsAndReports
  refine ⟨⟨?_, ?_⟩, ?_⟩
  · intro s port p g b gid e n c from_ he hg hw hok hphase hl hc hr hpasses hj hres hk hstale hends
    obtain ⟨g₀, k', -, ⟨g', hg', -, hk', -⟩, htaking, hinputs⟩ := takePiece_first (s := noteInputTurn g c p.job (takeDelivered port p s))
      hg hk hstale from_ port (par := parOf b) (deliveredAt s port p) hpasses hj hres hends
    rw [exec_partialPiece, doPartialPiece_reduces he hw hg hok hphase hl hc hr]
    exact ⟨_, g', k', _, rfl, hg', hk', htaking, rfl, rfl, rfl, rfl, rfl, hinputs⟩
  · intro s port p g k b gid e n c he hw hg hok hphase hl hroot hparent hcall hk hu hwhole hrr hres hj whole
    obtain ⟨u, hu₁, htake⟩ := takeResult_next (s := takeDelivered port p s) (deliveredAt s port p) hg hk hu hwhole hrr hres hj rfl
    obtain ⟨k', ⟨g', hg', -, hk', -⟩, hsame, hkept⟩ := (hu₁.engineOnly
      (engineOnly_deliverPiece u _ _ false (fun x => !k.racked.contains x) k.pieces (pktData p))).noteOut
    refine ⟨_, g', k', ?_, hg', hk', ?_⟩
    · rw [exec_resultPiece, doResultPiece_taken he hw hg hok hphase hl hroot hparent hcall hk, htake]
      rfl
    refine ⟨by rw [hsame]; rfl, by rw [hsame]; rfl, by rw [hsame]; rfl, by rw [hsame]; rfl, by rw [hsame]; rfl, fun hwait => ?_⟩
    rw [show scPiece b = k.pieces from hj]
    exact hkept hwait
  · intro s port p g k b gid he hg hl hk hs hp hm
    refine ⟨fun hc hr => ?_, fun hroot hparent hx => ?_, fun hc hlast => ?_, fun hc hlast hd hu => ?_⟩
    · obtain ⟨k', ⟨g', hg', -, hk', -⟩, hw⟩ := doExpUp_kept he hg hl hk hs hp hm hc hr
      exact ⟨_, g', k', exec_expUp s port p, hg', hk', by rw [hw], by rw [hw], by rw [hw]⟩
    · obtain ⟨g', hg', -, hk', -⟩ := doExpDown_fixes he hg hl hk hs hp hm hroot hparent hx
      exact ⟨_, g', _, exec_expDown s port p, hg', hk', rfl⟩
    · obtain ⟨k', ⟨g', hg', -, hk', -⟩, hmissing⟩ := doMissing_inputs he hg hl hk hc hlast
      exact ⟨_, g', k', exec_missing s port p, hg', hk', hmissing⟩
    · rw [exec_missing, doMissing_racks he hg hl hk hc hlast hd hu]

end Sys2Proof.Machine
end

/-! ## The end of a chunk: PACK, RACK, SEAL, REVOKE and the expiry of its record (R115, R117, R118, R120, R121, R127, R128, R133) -/

section
namespace Sys2Proof.Machine

/-! ### Sealing -/

/-- The chunks of group `gid` are the same in `t` as in `s`. -/
def ChunksStand (gid : Nat) (s t : State) : Prop := (getGroup t gid).map (·.chunks) = (getGroup s gid).map (·.chunks)

section
variable {gid : Nat} {s t u : State}

theorem ChunksStand.trans (h : ChunksStand gid s t) (k : ChunksStand gid t u) : ChunksStand gid s u := Eq.trans k h

theorem EngineOnly.chunksStand (h : EngineOnly s t) : ChunksStand gid s t := congrArg (Option.map _) (h.getGroup gid)

theorem chunksStand_onGroup {F : Group → Group} (hF : ∀ g, (F g).chunks = g.chunks) (s : State) : ChunksStand gid s (onGroup gid F s) := by
  rw [ChunksStand, getGroup_onGroup_same, Option.map_map]
  exact congrArg (Option.map · _) (funext hF)

theorem chunksStand_onCall (e n : Nat) (f : Call → Call) (s : State) : ChunksStand gid s (onCall gid e n f s) :=
  chunksStand_onGroup (F := fun g => { g with calls := g.calls.map (fun c => if c.epoch == e && c.call == n then f c else c) })
    (fun _ => rfl) s

theorem ChunksStand.group (h : ChunksStand gid s t) {g : Group} (hg : getGroup s gid = some g) :
    ∃ g', getGroup t gid = some g' ∧ g'.chunks = g.chunks := by
  rwa [ChunksStand, hg, Option.map_some, Option.map_eq_some_iff] at h

/-- The record of a call notes a sealed chunk; the chunks themselves stand. -/
theorem chunksStand_noteSealed (e n c : Nat) (last pass : Bool) (job : Nat) (s : State) :
    ChunksStand gid s (noteSealed gid e n c last pass job s) := by
  unfold noteSealed
  extract_lets u v
  have hu : ChunksStand gid s u := chunksStand_onCall e n _ s
  split
  · exact hu
  · split
    · exact hu
    · split
      · exact hu
      · split
        · exact hu
        · extract_lets w x
          have hv : ChunksStand gid s v := hu.trans (chunksStand_onCall e n _ u)
          have hw : ChunksStand gid s w := hv.trans (engineOnly_count v _).chunksStand
          have hx : ChunksStand gid s x := by
            unfold x
            split
            · exact hw.trans (chunksStand_onGroup (fun _ => by rfl) w)
            · exact hw
          split
          · exact hx
          · exact hx.trans (engineOnly_forAll (fun _ _ => by rfl) _ x).chunksStand

end

/-- A chunk whose SEAL has passed: every copy freed (R111, R118, R121, R133). -/
def sealedChunk (root : Bool) (now : Nat) (k : Chunk) : Chunk := { k with
  sealed := true, sealedAt := now, sealDue := false, inputs := [], taking := [], result := [], resultBufs := [],
  slot := if root then false else k.slot, inDeadline := none, rackDeadline := none }

theorem keepsKey_sealedChunk (root : Bool) (now : Nat) : KeepsKey (sealedChunk root now) := fun _ => ⟨rfl, rfl, rfl⟩

theorem sealChunk_seals {gid e n c : Nat} {s : State} {g : Group} {k : Chunk} (hg : getGroup s gid = some g)
    (hk : findChunk g e n c = some k) (recovered last pass : Bool) :
    ∃ g', getGroup (sealChunk gid e n c recovered last pass s) gid = some g'
      ∧ findChunk g' e n c = some (sealedChunk g.frag.isRoot s.tide.now k) := by
  have hlet := engineOnly_letGo s (inputBufs k ++ k.resultBufs)
  have hseal : getGroup (onChunk gid e n c (sealedChunk g.frag.isRoot s.tide.now) (letGo (inputBufs k ++ k.resultBufs) s)) gid = some _ :=
    getGroup_onGroup_some ((hlet.getGroup gid).trans hg) _
  have hcount := ((engineOnly_count (onChunk gid e n c (sealedChunk g.frag.isRoot s.tide.now) (letGo (inputBufs k ++ k.resultBufs) s))
    (kGroup g.entry iCHUNKS_SEALED)).trans (engineOnly_onlyIf (engineOnly_count _ (kGroup g.entry iCHUNKS_RECOVERED)) recovered)).chunksStand (gid := gid)
  obtain ⟨g', hg', hchunks⟩ := (hcount.trans (chunksStand_noteSealed e n c last pass k.job _)).group hseal
  refine ⟨g', ?_, (findChunk_congr hchunks e n c).trans (findChunk_setChunk (keepsKey_sealedChunk _ _) hk)⟩
  rw [← hg']
  simp only [sealChunk, hg, hk, hlet.tide]
  rfl

/-- The root seals a chunk whose RACKs are in. -/
theorem sealNow_seals {s : State} {g : Group} {k : Chunk} (hg : getGroup s g.frag.group = some g)
    (hk : findChunk g k.epoch k.call k.chunk = some k) : ∃ g', getGroup (sealNow g k s) g.frag.group = some g'
      ∧ findChunk g' k.epoch k.call k.chunk = some (sealedChunk g.frag.isRoot s.tide.now k) := by
  unfold sealNow
  extract_lets low mem
  have htold : EngineOnly s (tellDown g.frag.group k mem 0x49 low (endSealWait g k s)) :=
    (engineOnly_endSealWait s g k).trans (engineOnly_tellDown _ _ _ _ _ _)
  have := sealChunk_seals ((htold.getGroup _).trans hg) hk k.recovered k.resultLast false
  rwa [htold.tide] at this

/-! ### A delivery withdrawn, a record dropped -/

/-- A chunk whose current delivery is withdrawn under another DELIV; with `keep` its copies stay (R127, R128). -/
def withdrawn (deliv : Nat) (keep : Bool) (k : Chunk) : Chunk := { k with
  deliv := deliv, recovered := true, racked := [], rackSent := false, nakSent := false, missingRack := [], rackDeadline := none,
  sealDue := false, resultResend := false, result := if keep then k.result else [], resultBufs := if keep then k.resultBufs else [],
  pieces := if keep then k.pieces else 0, resultWhole := keep && k.resultWhole }

section
variable {gid e n c : Nat} {g : Group} {k : Chunk} {t : State}

theorem Stands.withdraw (h : Stands gid e n c g k t) (deliv : Nat) (keep : Bool) :
    Stands gid e n c g (withdrawn deliv keep k) (withdraw gid e n c deliv keep t) := by
  simp only [Machine.withdraw, h.chunk_eq]
  refine Stands.onChunk (k := k) ?_ (withdrawn deliv keep)
  split
  · exact h
  · exact h.engineOnly (engineOnly_letGo _ _)

theorem getGroup_dropChunks {s : State} (hg : getGroup s gid = some g) (f : Chunk → Bool) :
    getGroup (dropChunks gid f s) gid = some { g with chunks := g.chunks.filter (fun k => !f k) } := by
  simp only [dropChunks, hg]
  exact getGroup_onGroup_some (((engineOnly_letGo _ _).getGroup gid).trans hg) _

/-- The record of one chunk dropped: it is unknown then, and every other chunk is found as before. -/
theorem getGroup_dropChunk {s : State} (hg : getGroup s gid = some g) :
    ∃ g', getGroup (dropChunks gid (chunkIs e n c) s) gid = some g' ∧ findChunk g' e n c = none
      ∧ ∀ e' n' c', (e', n', c') ≠ (e, n, c) → findChunk g' e' n' c' = findChunk g e' n' c' := by
  refine ⟨_, getGroup_dropChunks hg _, ?_, fun e' n' c' hne => ?_⟩
  · rw [findChunk_none_iff]
    intro k hk
    simpa using (List.mem_filter.1 hk).2
  · rw [findChunk, findChunk, List.find?_filter]
    refine List.find?_congr fun k _ => ?_
    cases hk : chunkIs e n c k with
    | false => simp [Bool.beq_eq_decide_eq]
    | true =>
      have hother : chunkIs e' n' c' k = false := Bool.eq_false_iff.2 fun h => hne (by
        simp only [chunkIs, Bool.and_eq_true, beq_iff_eq] at hk h
        obtain ⟨⟨he, hn⟩, hc⟩ := hk
        obtain ⟨⟨he', hn'⟩, hc'⟩ := h
        rw [← he', ← hn', ← hc', he, hn, hc])
      simpa [chunkIs] using hother

end

/-! ### The commands -/

theorem mem_addNew_of_mem {α : Type} [DecidableEq α] {l : List α} (x : α) {y : α} (h : y ∈ l) : y ∈ addNew l x := by
  unfold addNew
  split
  · exact h
  · exact List.mem_append_left _ h

/-- A chunk with the RACK of `x`, in on `port`, noted; `touched` says that recovery touched the chunk below (R121). -/
def rackNoted (x : Src) (port : Nat) (touched : Bool) (k : Chunk) : Chunk := { k with
  racked := addNew k.racked x, missingRack := k.missingRack.filter (fun y => y.1 != port),
  recovered := k.recovered || (isChild x && touched) }

theorem keepsKey_rackNoted (x : Src) (port : Nat) (touched : Bool) : KeepsKey (rackNoted x port touched) := fun _ => ⟨rfl, rfl, rfl⟩

section
variable {s : State} {port : Nat} {p : Packet} {g : Group} (he : engineFor s port p = true)
  (hg : getGroup s (ccGroup p.ctl) = some g) (hl : groupLive g = true) {k : Chunk}
  (hk : findChunk g (ccEpoch p.ctl) (ccCall p.ctl) (ccChunk p.ctl) = some k)
include he hg hl hk

/-- PACK of the partial frees it, its inputs and the slot. -/
theorem doPack_partial (hroot : g.frag.isRoot = false) (hparent : planPort s g port p = g.frag.parent) (hr : p.aux % 2 ^ 18 = noRank)
    (hu : k.unacked.any (fun x => x.rank == noRank) = true) (hs : ∀ x ∈ g.chunks, x.slot = true ∧ x.combined = true) :
    doPack port p s = onChunk (ccGroup p.ctl) k.epoch k.call k.chunk (fun x => { x with unacked := [], inputs := [], slot := false })
      (letGo (inputBufs k ++ k.unacked.flatMap (·.bufs)) (taken port p s)) := by
  have hdo : doPack port p s = _ := withChunkCtl_live he hg hl _
  have hfreed : getGroup (onChunk (ccGroup p.ctl) k.epoch k.call k.chunk (fun x => { x with unacked := [], inputs := [], slot := false })
      (letGo (inputBufs k ++ k.unacked.flatMap (·.bufs)) (taken port p s))) (ccGroup p.ctl) = some _ :=
    getGroup_onGroup_some (((engineOnly_letGo _ _).getGroup _).trans ((getGroup_taken _ _ _ _).trans hg)) _
  have hcombined : ∀ x ∈ (setChunk k.epoch k.call k.chunk (fun x => { x with unacked := [], inputs := [], slot := false }) g).chunks,
      x.combined = true := by
    intro x hx
    obtain ⟨y, hy, rfl⟩ := List.mem_map.1 hx
    split <;> exact (hs y hy).2
  rw [hdo]
  simp only [hk]
  rw [if_neg (by simp [hroot, hparent]), if_pos hr, if_pos hu]
  exact regrant_of_none_waits hfreed (fun x hx => .inr (hcombined x hx)) (.inr hcombined)

/-- PACK of a forwarded input frees what that rank sent. -/
theorem doPack_forwarded (hroot : g.frag.isRoot = false) (hparent : planPort s g port p = g.frag.parent) (hr : p.aux % 2 ^ 18 ≠ noRank) :
    doPack port p s = onChunk (ccGroup p.ctl) k.epoch k.call k.chunk (fun x => { x with
        unacked := x.unacked.filter (fun y => y.rank != p.aux % 2 ^ 18), inputs := x.inputs.filter (fun y => y.rank != p.aux % 2 ^ 18) })
      (letGo ((k.inputs.filter (fun y => y.rank == p.aux % 2 ^ 18)).flatMap (·.bufs)) (taken port p s)) := by
  have hdo : doPack port p s = _ := withChunkCtl_live he hg hl _
  rw [hdo]
  simp only [hk]
  rw [if_neg (by simp [hroot, hparent]), if_neg hr]

/-- A RACK of the current delivery is noted; with the last one the root is to seal, and another Q7 frees its copies and RACKs
upward. -/
theorem doRack_noted (hs : AllSlotted g) (hp : g.passes ≤ 1) {x : Src}
    (hx : downSrc g (ccEpoch p.ctl) (planPort s g port p) = some x) (hu : k.sealed = false) (hd : ccDeliv p.ctl = k.deliv)
    (hmem : x ∈ downSrcs g k) :
    ∃ k', StandsFor p g k' (doRack port p s) ∧ x ∈ k'.racked
      ∧ (k.resultAt ≠ none → k.rackSent = false → k.nakSent = false → k.resultWhole = true →
          (∀ y ∈ downSrcs g k, y ∈ k.racked ∨ y = x) →
          (g.frag.isRoot = true → k'.sealDue = true ∧ k'.rackDeadline = none)
          ∧ (g.frag.isRoot = false → k'.rackSent = true ∧ k'.result = [] ∧ k'.resultBufs = [])) := by
  obtain ⟨-, hcall, hchunk⟩ := findChunk_key hk
  have hg' : getGroup (taken port p s) (ccGroup p.ctl) = some g := (getGroup_taken _ _ _ _).trans hg
  have hchecked := ((stands_taken (port := port) hg hk).onChunk (rackNoted x (planPort s g port p) (bitAt p.ctl 23))).checkRacks
    (getGroup_onChunk_some hg' _ _ _ _) (findChunk_setChunk (keepsKey_rackNoted _ _ _) hk)
  have hracked : x ∈ addNew k.racked x := mem_addNew _ _
  have hdone : doRack port p s = checkRacks (ccGroup p.ctl) (ccEpoch p.ctl) (ccCall p.ctl) (ccChunk p.ctl)
      (onChunk (ccGroup p.ctl) (ccEpoch p.ctl) (ccCall p.ctl) (ccChunk p.ctl)
        (rackNoted x (planPort s g port p) (bitAt p.ctl 23)) (taken port p s)) := by
    have hdo : doRack port p s = _ := withChunkCtl_live he hg hl _
    rw [hdo]
    simp only [hk, hx]
    rw [if_neg (by simp [hu, hd, hmem]), hcall, hchunk]
    exact hchecked.regrant_eq hs hp
  rw [hdone]
  refine ⟨_, hchecked, ?_, fun hat hsent hnak hw hall => ?_⟩
  · split
    · rw [allRacked_racked]
      exact hracked
    · exact hracked
  · have hdown : ∀ y ∈ downSrcs g k, y ∈ addNew k.racked x := fun y hy =>
      (hall y hy).elim (mem_addNew_of_mem x) fun h => h ▸ hracked
    have hin : racksIn (setChunk (ccEpoch p.ctl) (ccCall p.ctl) (ccChunk p.ctl)
        (rackNoted x (planPort s g port p) (bitAt p.ctl 23)) g) (rackNoted x (planPort s g port p) (bitAt p.ctl 23) k) = true :=
      racksIn_of hat hu hsent hnak hw hdown
    rw [if_pos hin]
    exact ⟨fun hroot => allRacked_of_root _ hroot, fun hroot => allRacked_of_not_root _ hroot⟩

/-- SEAL at a Q7 below the root frees every copy. -/
theorem doSeal_seals (hroot : g.frag.isRoot = false) (hparent : planPort s g port p = g.frag.parent) (hu : k.sealed = false)
    (hpass : bitAt p.ctl 22 = false) (hd : ccDeliv p.ctl = k.deliv) (hw : k.resultWhole = true) :
    ∃ g', getGroup (doSeal port p s) (ccGroup p.ctl) = some g'
      ∧ findChunk g' (ccEpoch p.ctl) (ccCall p.ctl) (ccChunk p.ctl) = some (sealedChunk g.frag.isRoot s.tide.now k) := by
  have hdo : doSeal port p s = _ := withChunkCtl_live he hg hl _
  rw [hdo]
  simp only [hk]
  rw [if_neg (by simp [hroot, hparent, hu, hpass, hd, hw])]
  generalize (if bitAt p.ctl 22 = true then _ else _) = mem
  have htold : EngineOnly s (tellDown (ccGroup p.ctl) { k with job := p.job } mem 0x49 (fld p.ctl 31 0) (taken port p s)) :=
    (engineOnly_taken s port p).trans (engineOnly_tellDown _ _ _ _ _ _)
  have := sealChunk_seals ((htold.getGroup _).trans hg) hk (bitAt p.ctl 23) (ccLast p.ctl) (bitAt p.ctl 22)
  rwa [htold.tide] at this

/-- REVOKE withdraws an older delivery. -/
theorem doRevoke_withdraws (hroot : g.frag.isRoot = false) (hparent : planPort s g port p = g.frag.parent) (hu : k.sealed = false)
    (hd : k.deliv < ccDeliv p.ctl) : StandsFor p g (withdrawn (ccDeliv p.ctl) false k) (doRevoke port p s) := by
  obtain ⟨hepoch, hcall, hchunk⟩ := findChunk_key hk
  have hdo : doRevoke port p s = _ := withChunkCtl_live he hg hl _
  rw [hdo]
  simp only [hk, Option.isSome_some, Bool.true_or, if_true, (stands_taken (port := port) hg hk).chunk_eq]
  rw [if_neg (by simp [hroot, hparent, hu, hd]), hepoch, hcall, hchunk]
  exact (((stands_taken hg hk).engineOnly (engineOnly_tellDown _ _ _ _ _ _)).engineOnly (engineOnly_count _ _)).withdraw _ false

end

theorem exec_pack (s : State) (port : Nat) (p : Packet) : exec (.pack port p) s = .next (doPack port p s) := rfl
theorem exec_rack (s : State) (port : Nat) (p : Packet) : exec (.rack port p) s = .next (doRack port p s) := rfl
theorem exec_sealPkt (s : State) (port : Nat) (p : Packet) : exec (.sealPkt port p) s = .next (doSeal port p s) := rfl
theorem exec_revoke (s : State) (port : Nat) (p : Packet) : exec (.revoke port p) s = .next (doRevoke port p s) := rfl

/-- 200 µs after its SEAL the record of a chunk goes. -/
theorem exec_chunkBitmapExpiry {s : State} {gid e n c : Nat} {g : Group} {k : Chunk} (he : engineOn s = true)
    (hg : getGroup s gid = some g) (hk : findChunk g e n c = some k) (hu : k.sealed = true) (ht : k.sealedAt + 200000 ≤ s.tide.now) :
    exec (.chunkBitmapExpiry gid e n c) s = .next (dropChunks gid (chunkIs e n c) s) := by
  show Host.Outcome.next (doBitmapExpiry gid e n c s) = _
  simp only [doBitmapExpiry, (stands_of_found hg hk).chunk_eq]
  exact congrArg _ (if_pos ⟨he, hu, decide_eq_true ht⟩)

/-- Settles O22: each command by the lemma of its effect; SEAL at either end by `sealChunk_seals`. -/
theorem chunkEndsInSeal : Obligations.ChunkEndsInSeal := by
  unfold Obligations.ChunkEndsInSeal
  refine ⟨?_, ?_, ?_⟩
  · intro s port p g k b gid at_ he hg hl hk
    refine ⟨fun hroot hparent hr hu hs => ?_, fun hroot hparent hr => ?_, fun x hx hu hd hmem hs hp => ?_,
      fun hroot hparent hu hpass hd hw => ?_, fun hroot hparent hu hd => ?_⟩
    · rw [exec_pack, doPack_partial he hg hl hk hroot hparent hr hu hs]
    · obtain ⟨hepoch, hcall, hchunk⟩ := findChunk_key hk
      rw [exec_pack, doPack_forwarded he hg hl hk hroot hparent hr]
    · obtain ⟨k', ⟨g', hg', -, hk', -⟩, hracked⟩ := doRack_noted he hg hl hk hs hp hx hu hd hmem
      exact ⟨_, g', k', exec_rack s port p, hg', hk', hracked⟩
    · obtain ⟨g', hg', hk'⟩ := doSeal_seals he hg hl hk hroot hparent hu hpass hd hw
      exact ⟨_, g', _, exec_sealPkt s port p, hg', hk', rfl, rfl, rfl, rfl, rfl⟩
    · obtain ⟨g', hg', -, hk', -⟩ := doRevoke_withdraws he hg hl hk hroot hparent hu hd
      exact ⟨_, g', _, exec_revoke s port p, hg', hk', rfl, rfl, rfl, rfl, rfl⟩
  · intro s g k hg hk hroot
    obtain ⟨g', hg', hk'⟩ := sealNow_seals hg hk
    exact ⟨g', _, hg', hk', rfl, rfl, rfl, rfl, if_pos hroot⟩
  · intro s gid e n c g k he hg hk hu ht
    obtain ⟨g', hg', hnone, hothers⟩ := getGroup_dropChunk (e := e) (n := n) (c := c) hg
    exact ⟨_, g', exec_chunkBitmapExpiry he hg hk hu ht, hg', hnone, hothers⟩

end Sys2Proof.Machine
end

/-! ## Recovery of lost partials, results and reports (R119, R126, R127, R131) -/

section
namespace Sys2Proof.Machine

/-! ### A call that fails -/

section
variable {gid e n : Nat} {g : Group}

/-- The group with one of its calls changed, as `onCall` does it. -/
def setCall (e n : Nat) (f : Call → Call) (g : Group) : Group :=
  { g with calls := g.calls.map (fun c => if c.epoch == e && c.call == n then f c else c) }

theorem findCall_setCall {f : Call → Call} (hf : ∀ x, (f x).epoch = x.epoch ∧ (f x).call = x.call) {k : Call}
    (hk : findCall g e n = some k) : findCall (setCall e n f g) e n = some (f k) := by
  have hkey := List.find?_some hk
  rw [findCall, setCall, List.find?_map, List.find?_congr (p₂ := fun c => c.epoch == e && c.call == n), ← findCall, hk,
    Option.map_some, if_pos hkey]
  intro y _
  simp only [Function.comp]
  split
  · rw [(hf y).1, (hf y).2]
  · rfl

theorem callFailed_markCall (status : Nat) : callFailed (markCall e n status g) e n = true := by
  cases hk : findCall g e n with
  | none =>
    have hcalls : (markCall e n status g).calls = g.calls ++ [{ epoch := e, call := n, failed := true, stale := status == stSTALE }] :=
      if_neg (by rw [hk]; exact Bool.false_ne_true)
    rw [findCall] at hk
    simp [callFailed, findCall, hcalls, List.find?_append, hk]
  | some k =>
    have hcalls : (markCall e n status g).calls
        = (setCall e n (fun c => { c with failed := true, stale := status == stSTALE }) g).calls := if_pos (by rw [hk]; rfl)
    have hset := findCall_setCall (f := fun c => { c with failed := true, stale := status == stSTALE }) (fun _ => ⟨rfl, rfl⟩) hk
    rw [callFailed, findCall, hcalls, ← findCall, hset]
    rfl

theorem AllSlotted.filter (h : AllSlotted g) (f : Chunk → Bool) : AllSlotted { g with chunks := g.chunks.filter f } :=
  fun k hk => h k (List.mem_filter.1 hk).1

/-- The calls and chunks of group `gid` are the same in `t` as in `s`. -/
def RunStands (gid : Nat) (s t : State) : Prop :=
  (getGroup t gid).map (fun g => (g.calls, g.chunks)) = (getGroup s gid).map (fun g => (g.calls, g.chunks))

theorem RunStands.trans {s t u : State} (h : RunStands gid s t) (k : RunStands gid t u) : RunStands gid s u := Eq.trans k h

theorem EngineOnly.runStands {s t : State} (h : EngineOnly s t) : RunStands gid s t := congrArg (Option.map _) (h.getGroup gid)

theorem RunStands.group {s t : State} (h : RunStands gid s t) (hg : getGroup s gid = some g) :
    ∃ g', getGroup t gid = some g' ∧ g'.calls = g.calls ∧ g'.chunks = g.chunks := by
  rw [RunStands, hg, Option.map_some, Option.map_eq_some_iff] at h
  obtain ⟨g', hg', heq⟩ := h
  exact ⟨g', hg', congrArg Prod.fst heq, congrArg Prod.snd heq⟩

theorem runStands_onlyIf {f : State → State} {s : State} (h : RunStands gid s (f s)) (b : Bool) : RunStands gid s (onlyIf b f s) := by
  cases b with
  | false => rfl
  | true => exact h

/-- Commands that go down the plan change no call and no chunk. -/
theorem runStands_sendCmd (epoch cmd status call job : Nat) (s : State) : RunStands gid s (sendCmd gid epoch cmd status call job s) := by
  unfold sendCmd
  split
  · rfl
  · refine forAll_same (g := fun u => (getGroup u gid).map (fun g => (g.calls, g.chunks))) (fun c u => ?_) _ s
    dsimp only
    rw [getGroup_congr (originate_groups _ _), getGroup_onGroup_same, Option.map_map]
    rfl

/-- A call that is failed, in a group whose chunks all hold slots, leaves a group whose chunks all hold slots. -/
theorem failCall_fails {s : State} (hg : getGroup s gid = some g) (hs : AllSlotted g) {status : Nat} (hst : status ≠ stSTALE)
    (rank : Nat) (cmd : Bool) : ∃ g', getGroup (failCall gid e n status rank cmd s) gid = some g' ∧ callFailed g' e n = true
      ∧ AllSlotted g' := by
  unfold failCall
  simp only [hg]
  split
  · next h => exact ⟨g, hg, h, hs⟩
  · have hmark : getGroup (markFailed gid e n status s) gid = some { markCall e n status g with
        chunks := g.chunks.filter (fun k => !(k.epoch == e && k.call == n && !k.sealed)) } := by
      simp only [markFailed, hg, if_neg hst]
      exact getGroup_dropChunks (getGroup_onGroup_some (((engineOnly_count s _).getGroup gid).trans hg) _) _
    have hsent : ∀ (l : List (Nat × Nat)) (epoch job : Nat) (t : State), EngineOnly t
        (forAll l (fun m => sendCollFail m.2 gid epoch rank status n job) t) :=
      fun l epoch job t => engineOnly_forAll (fun _ _ => by rfl) l t
    have hfailed : callFailed { markCall e n status g with
        chunks := g.chunks.filter (fun k => !(k.epoch == e && k.call == n && !k.sealed)) } e n = true := callFailed_markCall status
    split
    · have hstands : RunStands gid (markFailed gid e n status s) _ :=
        (hsent (rosterAt g e).roster g.now.epoch (callJob g e n) (markFailed gid e n status s)).runStands.trans
          (runStands_onlyIf (runStands_sendCmd e 4 status n (callJob g e n) _) cmd)
      obtain ⟨g', hg', hcalls, hchunks⟩ := hstands.group hmark
      refine ⟨g', hg', ?_, fun k hk => hs k ?_⟩
      · rw [callFailed, findCall, hcalls]
        exact hfailed
      · rw [hchunks] at hk
        exact (List.mem_filter.1 hk).1
    · exact ⟨_, hmark, hfailed, hs.filter _⟩

/-- At the end of a failed call's last wait giving out slots changes nothing, and the call stands failed. -/
theorem regrant_failCall {s : State} (hg : getGroup s gid = some g) (hs : AllSlotted g) (hp : g.passes ≤ 1) {status : Nat}
    (hst : status ≠ stSTALE) (rank : Nat) (cmd : Bool) :
    ∃ g', getGroup (regrant gid (failCall gid e n status rank cmd s)) gid = some g' ∧ callFailed g' e n = true := by
  obtain ⟨g', hg', hfailed, hs'⟩ := failCall_fails (e := e) (n := n) hg hs hst rank cmd
  obtain ⟨g₂, hg₂, hplan⟩ := (callsOnly_failCall e n status rank cmd s).group hg
  obtain rfl : g' = g₂ := Option.some.inj (hg'.symm.trans hg₂)
  rw [regrant_of_allSlotted hg' hs' (passes_eq_of_planOf_eq hplan ▸ hp)]
  exact ⟨g', hg', hfailed⟩

/-- A call that an epoch commit failed ends here with its chunks; it stays failed. -/
theorem regrant_endStale {s : State} (hg : getGroup s gid = some g) (hs : AllSlotted g) (hp : g.passes ≤ 1)
    (hstale : callStale g e n = true) (status job : Nat) :
    ∃ g', getGroup (regrant gid (sendCmd gid e 4 status n job (endStale gid e n s))) gid = some g' ∧ callFailed g' e n = true := by
  obtain ⟨x, hx, hxs⟩ : ∃ x, findCall g e n = some x ∧ (x.failed && x.stale) = true := by
    cases hk : findCall g e n with
    | none => simp [callStale, hk] at hstale
    | some x => exact ⟨x, rfl, by simpa [callStale, hk] using hstale⟩
  have hended : getGroup (endStale gid e n s) gid = some (setCall e n (fun c => { c with stale := false })
      { g with chunks := g.chunks.filter (fun k => !(k.epoch == e && k.call == n && !k.sealed)) }) :=
    getGroup_onGroup_some (getGroup_dropChunks hg _) _
  obtain ⟨g', hg', hcalls, hchunks⟩ := (runStands_sendCmd e 4 status n job (endStale gid e n s)).group hended
  obtain ⟨g₂, hg₂, hplan⟩ := (callsOnly_sendCmd e 4 status n job (endStale gid e n s)).group hended
  obtain rfl : g' = g₂ := Option.some.inj (hg'.symm.trans hg₂)
  have hs' : AllSlotted g' := fun k hk => hs k (by rw [hchunks] at hk; exact (List.mem_filter.1 hk).1)
  rw [regrant_of_allSlotted hg' hs' ((passes_eq_of_planOf_eq hplan).trans rfl ▸ hp)]
  have hset : findCall (setCall e n (fun c => { c with stale := false }) g) e n = some { x with stale := false } :=
    findCall_setCall (f := fun c => { c with stale := false }) (fun _ => ⟨rfl, rfl⟩) hx
  rw [Bool.and_eq_true] at hxs
  refine ⟨g', hg', ?_⟩
  rw [callFailed, findCall, hcalls]
  have hfailed := congrArg (fun o : Option Call => (o.map (·.failed)).getD false) hset
  exact hfailed.trans hxs.1

end

/-! ### Waits that end -/

theorem endWait_net (gid e n c : Nat) (child tmo : Bool) (rank port : Nat) (s : State) :
    (endWait gid e n c child tmo rank port s).net = s.net := by
  unfold endWait
  split
  · rfl
  · split
    · rfl
    · split
      · exact ((engineOnly_countN _ _ _).trans (engineOnly_traceWait _ _ _ _ _ _ _ _ _)).net
      · rfl

section
variable {s : State} {gid e n c : Nat} {g : Group} {k : Chunk} (he : engineOn s = true) (hg : getGroup s gid = some g)
  (hk : findChunk g e n c = some k) (hl : groupLive g = true) {d : Nat}
include he hg hk hl

/-- The wait for a chunk's inputs has run out. -/
theorem doChunkWait_due (hd : k.inDeadline = some d) (ht : d ≤ s.tide.now) (hu : k.combined = false) :
    doChunkWait gid e n c s =
      let t := onChunk gid e n c (fun k => { k with inDeadline := none }) s
      let r := lowest (missingRanks g k)
      if inputsMissing g k = false then t
      else if g.frag.isRoot then regrant gid ((faultyNow g k).elim
        (failCall gid e n stTIMEOUT r true (endWait gid e n c false true r 0 t))
        (fun x => failCall gid e n stSHAPE x true (endWait gid e n c false true r 0 t)))
      else sendChunk vcCTRL (farEpid s g.frag.parent) k.job r 0x4E gid e n c 0 (endWait gid e n c false true r 0 t) := by
  have hfar : ∀ r, farEpid (endWait gid e n c false true r 0 (onChunk gid e n c (fun k => { k with inDeadline := none }) s)) g.frag.parent
      = farEpid s g.frag.parent := fun r => farEpid_congr (endWait_net _ _ _ _ _ _ _ _ _) _
  simp only [doChunkWait, hg, hk, hd, he, hl, hu, due, decide_eq_true ht, not_true_eq_false, Bool.false_eq_true, or_self, if_false,
    Bool.not_eq_true, hfar]
  cases faultyNow g k <;> rfl

/-- At the root the call fails. -/
theorem doChunkWait_root (hd : k.inDeadline = some d) (ht : d ≤ s.tide.now) (hu : k.combined = false) (hroot : g.frag.isRoot = true)
    (hm : inputsMissing g k = true) (hs : AllSlotted g) (hp : g.passes ≤ 1) :
    ∃ g', getGroup (doChunkWait gid e n c s) gid = some g' ∧ callFailed g' e n = true := by
  obtain ⟨_, -, g', hg', hplan, -, hs'⟩ := ((stands_of_found hg hk).onChunk (fun k => { k with inDeadline := none })).endWait
    false true (lowest (missingRanks g k)) 0
  have hp' : g'.passes ≤ 1 := passes_eq_of_planOf_eq hplan ▸ hp
  rw [doChunkWait_due he hg hk hl hd ht hu]
  dsimp only
  rw [if_neg (by simp [hm]), if_pos hroot]
  cases faultyNow g k with
  | none => exact regrant_failCall hg' (hs' hs) hp' (by decide) _ true
  | some x => exact regrant_failCall hg' (hs' hs) hp' (by decide) x true

/-- The wait for the RACKs of a delivery has run out: the call fails at the root, another Q7 reports. -/
theorem doRackWait_due (hd : k.rackDeadline = some d) (ht : d ≤ s.tide.now) (hu : k.sealed = false) {x : Src}
    (hx : x ∈ downSrcs g k) (hxr : x ∉ k.racked) :
    ∃ u, EngineOnly (onChunk gid e n c (fun k => { k with rackDeadline := none }) s) u
      ∧ doRackWait gid e n c s =
        if g.frag.isRoot then
          regrant gid (if callStale g e n then sendCmd gid e 4 stTIMEOUT n k.job (endStale gid e n u)
            else failCall gid e n stTIMEOUT (lowest (missingRackRanks g k)) true u)
        else sendChunk vcCTRL (farEpid s g.frag.parent) k.job (lowest (missingRackRanks g k)) 0x4E gid e n c
          (lowWord 0 false false k.deliv true) u := by
  have hleft : ((downSrcs g k).filter (fun x => !k.racked.contains x)).isEmpty = false := by
    rw [List.isEmpty_eq_false_iff_exists_mem]
    exact ⟨x, List.mem_filter.2 ⟨hx, by simpa using hxr⟩⟩
  simp only [doRackWait, hg, hk, hd, he, hl, hu, hleft, due, decide_eq_true ht, not_true_eq_false, Bool.false_eq_true, or_self, if_false]
  cases k.resultAt with
  | none => exact ⟨_, EngineOnly.refl _, rfl⟩
  | some t1 =>
    have hu := (engineOnly_countN (onChunk gid e n c (fun k => { k with rackDeadline := none }) s) (kGroup g.entry iSEAL_NS)
      (s.tide.now - t1)).trans (engineOnly_traceWait _ g k 2 false true (lowest (missingRackRanks g k)) 0 t1)
    have hfar : farEpid _ g.frag.parent = farEpid s g.frag.parent := farEpid_congr hu.net g.frag.parent
    refine ⟨_, hu, ?_⟩
    rw [← hfar]
    rfl

end

/-! ### NAK, and a partial that goes again -/

/-- The root sends the copies it holds of a delivery. -/
theorem Stands.deliverAll {gid e n c : Nat} {g : Group} {k : Chunk} {t : State} (h : Stands gid e n c g k t) :
    ∃ k', Stands gid e n c g k' (deliverAll gid e n c t) ∧ DeliveryOnly k k' := by
  have ⟨g', hg', _, hk', _⟩ := h
  simp only [Machine.deliverAll, hg', hk']
  have hsent : EngineOnly t (forAll k.result (fun x => deliverPiece gid k false (fun _ => true) x.1 x.2) t) :=
    engineOnly_forAll (fun (x : Nat × List Byte) (u : State) => engineOnly_deliverPiece u gid k false (fun _ => true) x.1 x.2) _ t
  obtain ⟨k₁, h₁, hk₁, -⟩ := (h.engineOnly hsent).noteOut
  exact ⟨k₁, h₁, hk₁⟩

theorem Stands.rootNak {g : Group} {k : Chunk} {t : State} (h : Stands g.frag.group k.epoch k.call k.chunk g k t) (hd : k.deliv < 15) :
    ∃ k', Stands g.frag.group k.epoch k.call k.chunk g k' (rootNak g k t) ∧ DeliveryOnly (withdrawn (k.deliv + 1) true k) k' := by
  have hnak : Machine.rootNak g k t = _ := if_neg (by omega)
  rw [hnak]
  exact (((h.engineOnly (engineOnly_tellDown _ _ _ _ _ _)).engineOnly (engineOnly_count _ _)).withdraw _ true).deliverAll

section
variable {s : State} {port : Nat} {p : Packet} {g : Group} (he : engineFor s port p = true)
  (hg : getGroup s (ccGroup p.ctl) = some g) (hl : groupLive g = true)
include he hg hl

/-- A NAK of a result goes on to the parent. -/
theorem doNak_passed (hlast : ccLast p.ctl = true) (hx : downSrc g (ccEpoch p.ctl) (planPort s g port p) ≠ none)
    (hroot : g.frag.isRoot = false) : doNak port p s = sendChunk vcCTRL (farEpid s g.frag.parent) p.job (p.aux % 2 ^ 18) 0x4D
      (ccGroup p.ctl) (ccEpoch p.ctl) (ccCall p.ctl) (ccChunk p.ctl) (fld p.ctl 31 0) (taken port p s) := by
  have hdo : doNak port p s = _ := withChunkCtl_live he hg hl _
  rw [hdo]
  dsimp only
  rw [if_neg (not_not_intro hlast), if_neg (by simpa using hx), if_pos (by simp [hroot]), farEpid_congr (engineOnly_taken s port p).net]

/-- A NAK of a partial brings it again. -/
theorem doNak_resends (hlast : ccLast p.ctl = false) (hparent : planPort s g port p = g.frag.parent) :
    doNak port p s = resendPartial (ccGroup p.ctl) (ccEpoch p.ctl) (ccCall p.ctl) (ccChunk p.ctl) (fun _ => true) (taken port p s) := by
  have hdo : doNak port p s = _ := withChunkCtl_live he hg hl _
  rw [hdo]
  dsimp only
  rw [if_pos (by simp [hlast]), if_pos hparent]

/-- A NAK of the current delivery at the root withdraws it, and the copies go out under the next DELIV. -/
theorem doNak_withdraws {k : Chunk} (hgid : g.frag.group = ccGroup p.ctl) (hlast : ccLast p.ctl = true)
    (hx : downSrc g (ccEpoch p.ctl) (planPort s g port p) ≠ none) (hroot : g.frag.isRoot = true)
    (hk : findChunk g (ccEpoch p.ctl) (ccCall p.ctl) (ccChunk p.ctl) = some k) (hu : k.sealed = false) (hd : ccDeliv p.ctl = k.deliv)
    (hdeliv : k.deliv < 15) (hat : k.resultAt ≠ none) (hs : AllSlotted g) (hp : g.passes ≤ 1) :
    ∃ k', StandsFor p g k' (doNak port p s) ∧ DeliveryOnly (withdrawn (k.deliv + 1) true k) k' := by
  obtain ⟨hepoch, hcall, hchunk⟩ := findChunk_key hk
  have hstands : Stands g.frag.group k.epoch k.call k.chunk g k (taken port p s) := by
    rw [hgid, hepoch, hcall, hchunk]
    exact stands_taken hg hk
  obtain ⟨k', hsent, hsame⟩ := hstands.rootNak hdeliv
  have hdo : doNak port p s = regrant (ccGroup p.ctl) (rootNak g k (taken port p s)) := by
    refine (withChunkCtl_live he hg hl _).trans ?_
    dsimp only
    rw [if_neg (not_not_intro hlast), if_neg (by simpa using hx), if_neg (by simp [hroot])]
    simp only [hk]
    rw [if_neg (by simp [hu]), if_neg (by simp [hd, hat])]
  rw [hgid, hepoch, hcall, hchunk] at hsent
  rw [hdo, hsent.regrant_eq hs hp]
  exact ⟨k', hsent, hsame⟩

end

theorem outbox_forAll_originate {α : Type} (f : α → State → State) (h : ∀ x u, (f x u).route.outbox.length = u.route.outbox.length + 1)
    (l : List α) (s : State) : (forAll l f s).route.outbox.length = s.route.outbox.length + l.length := by
  induction l generalizing s with
  | nil => rfl
  | cons x r ih =>
    show (forAll r f (f x s)).route.outbox.length = _
    rw [ih, h, List.length_cons]
    omega

theorem outbox_originate (k : Packet) (s : State) : (originate k s).route.outbox.length = s.route.outbox.length + 1 := by
  simp [originate, sendOn, numberPkt, numberFrom, onRoute]

/-- Without PACK for 12 µs since its last piece a partial goes again, every packet of it. -/
theorem doPartialResend_due {s : State} {gid e n c : Nat} {g : Group} {k : Chunk} (he : engineOn s = true) (hg : getGroup s gid = some g)
    (hk : findChunk g e n c = some k) (hu : k.unacked ≠ []) (hd : ∀ x ∈ k.unacked, x.at_ + 12000 ≤ s.tide.now) :
    ∃ k', Stands gid e n c g k' (doPartialResend gid e n c s) ∧ k'.recovered = true
      ∧ k'.unacked = k.unacked.map (fun x => { x with at_ := s.tide.now, on_ := [] })
      ∧ (doPartialResend gid e n c s).route.outbox.length = s.route.outbox.length + k.unacked.length := by
  have hall : ∀ x ∈ k.unacked, overdue s k x = true := by
    intro x hx
    unfold overdue
    split
    · simp only [List.all_eq_true, Bool.or_eq_true]
      exact fun y hy => .inr (decide_eq_true (hd y hy))
    · exact decide_eq_true (hd x hx)
  have hfilter : k.unacked.filter (overdue s k) = k.unacked := List.filter_eq_self.2 hall
  have hmark := ((stands_of_found hg hk).engineOnly (engineOnly_count s (kGroup g.entry iRESENDS))).onChunk (fun k₁ => { k₁ with
    recovered := true, unacked := k₁.unacked.map (fun u => if overdue s k u then { u with at_ := (count (kGroup g.entry iRESENDS) s).tide.now, on_ := [] } else u) })
  have hnow : (count (kGroup g.entry iRESENDS) s).tide = s.tide := (engineOnly_count s _).tide
  have hdo : doPartialResend gid e n c s = resendPartial gid e n c (overdue s k) s := by
    simp only [doPartialResend, (stands_of_found hg hk).chunk_eq, he, onlyIf_true]
  rw [hdo]
  simp only [resendPartial, hg, hk, hfilter, List.isEmpty_iff, hu, if_false]
  refine ⟨_, hmark.engineOnly ?_, rfl,
    List.map_congr_left fun x hx => (if_pos (hall x hx)).trans (by rw [hnow]), ?_⟩
  · refine engineOnly_forAll ?_ _ _
    intro _ _
    rfl
  rw [outbox_forAll_originate _ fun _ _ => outbox_originate _ _]
  simp

section
variable (s : State)

theorem exec_nak (port : Nat) (p : Packet) : exec (.nak port p) s = .next (doNak port p s) := rfl
theorem exec_partialResendTimeout (gid e n c : Nat) :
    exec (.partialResendTimeout gid e n c) s = .next (doPartialResend gid e n c s) := rfl
theorem exec_chunkWaitTimeout (gid e n c : Nat) : exec (.chunkWaitTimeout gid e n c) s = .next (doChunkWait gid e n c s) := rfl
theorem exec_rackWaitTimeout (gid e n c : Nat) : exec (.rackWaitTimeout gid e n c) s = .next (doRackWait gid e n c s) := rfl

end

/-- Settles O23: a NAK by where it is taken, a wait that has run out by the equation of its command; a failed call by
`failCall_fails`. -/
theorem recoveryAndTimeouts : Obligations.RecoveryAndTimeouts := by
  unfold Obligations.RecoveryAndTimeouts
  constructor
  · intro s port p g b gid at_ he hg hl hgid
    refine ⟨fun hlast hx hroot => ?_, fun k hlast hx hroot hk hu hd hdeliv hat hs hp => ?_, fun hlast hparent => ?_⟩
    · rw [exec_nak, doNak_passed he hg hl hlast hx hroot]
    · obtain ⟨k', ⟨g', hg', -, hk', -⟩, hsame⟩ := doNak_withdraws he hg hl hgid hlast hx hroot hk hu hd hdeliv hat hs hp
      exact ⟨_, g', k', exec_nak s port p, hg', hk', by rw [hsame]; rfl, by rw [hsame]; rfl, by rw [hsame]; rfl⟩
    · rw [exec_nak, doNak_resends he hg hl hlast hparent]
  intro s gid e n c g k he hg hk
  refine ⟨fun hu hd => ?_, fun d hl hd ht hu => ⟨fun hm => ?_, fun hroot hm hs hp => ?_, fun hroot hm => ?_⟩,
    fun d x hl hd ht hu hx hxr => ?_⟩
  · obtain ⟨k', ⟨g', hg', -, hk', -⟩, hresent⟩ := doPartialResend_due he hg hk hu hd
    exact ⟨_, g', k', exec_partialResendTimeout s gid e n c, hg', hk', hresent⟩
  · rw [exec_chunkWaitTimeout, doChunkWait_due he hg hk hl hd ht hu]
    exact congrArg _ (if_pos hm)
  · obtain ⟨g', hg', hfailed⟩ := doChunkWait_root he hg hk hl hd ht hu hroot hm hs hp
    exact ⟨_, g', exec_chunkWaitTimeout s gid e n c, hg', hfailed⟩
  · rw [exec_chunkWaitTimeout, doChunkWait_due he hg hk hl hd ht hu]
    exact congrArg _ ((if_neg (by simp [hm])).trans (if_neg (by simp [hroot])))
  · obtain ⟨u, hu', hdo⟩ := doRackWait_due he hg hk hl hd ht hu hx hxr
    rw [exec_rackWaitTimeout, hdo]
    refine ⟨fun hroot hs hp => ?_, fun hroot => ⟨u, congrArg _ (if_neg (by simp [hroot])), hu'.groups⟩⟩
    have hgu : getGroup u gid = some (setChunk e n c (fun k => { k with rackDeadline := none }) g) :=
      (hu'.getGroup gid).trans (getGroup_onChunk_some hg e n c _)
    have hs' := AllSlotted.setChunk (f := fun k => { k with rackDeadline := none }) hs (fun _ h => h) e n c
    rw [if_pos hroot]
    by_cases hstale : callStale g e n = true
    · rw [if_pos hstale]
      obtain ⟨g', hg', hfailed⟩ := regrant_endStale hgu hs' hp hstale stTIMEOUT k.job
      exact ⟨_, g', rfl, hg', hfailed⟩
    · rw [if_neg hstale]
      obtain ⟨g', hg', hfailed⟩ := regrant_failCall (e := e) (n := n) (status := stTIMEOUT) hgu hs' hp (by decide) (lowest (missingRackRanks g k)) true
      exact ⟨_, g', rfl, hg', hfailed⟩

end Sys2Proof.Machine
end

/-! ## A step with a command waiting, and one without (R127, R265, R300, R440, R441, R562) -/

section
namespace Sys2Proof.Machine

/-! ### The front command -/

theorem step_front (c : Instr) (rest : List Instr) (s : State) :
    step { s with pending := c :: rest } = exec c { s with pending := rest } := rfl

theorem exec_completes (c : Instr) (s : State) : ∃ t, exec c s = .next t := by
  cases c <;> exact ⟨_, rfl⟩

theorem step_idle {s : State} (hp : s.pending = []) (hr : s.dev.state ≠ .reset) :
    step s = .next (onTide (fun x => { x with now := min (x.now + 1) (2 ^ 64 - 1) }) (waitNs (endInstant s))) := by
  simp only [step, tickNs, hp, if_neg hr]

/-! ### An instant that leaves nothing -/

theorem forAll_idle {α : Type} {f : α → State → State} {s : State} :
    ∀ l : List α, (∀ x ∈ l, f x s = s) → forAll l f s = s
  | [], _ => rfl
  | x :: r, h => by
    show forAll r f (f x s) = s
    rw [h x List.mem_cons_self]
    exact forAll_idle r fun y hy => h y (List.mem_cons_of_mem x hy)

section
variable {s : State}

theorem settleQuarters_idle (h : ∀ d q, d < 4 → q < 4 → (nth (getSlice s d).quarters q {}).doneAt = none) : settleQuarters s = s :=
  forAll_idle _ fun d hd => forAll_idle _ fun q hq => by rw [h d q (List.mem_range.1 hd) (List.mem_range.1 hq)]

theorem settleFlows_idle (h : ∀ e ∈ s.shoal.flows, e.2.expire = false ∧ e.2.late = []) : settleFlows s = s := by
  have hlate : s.shoal.flows.filter (fun e => !e.2.late.isEmpty) = [] := List.filter_eq_nil_iff.2 fun e he => by simp [(h e he).2]
  have hends : s.shoal.flows.filter (fun e => e.2.expire) = [] := List.filter_eq_nil_iff.2 fun e he => by simp [(h e he).1]
  unfold settleFlows
  rw [hlate]
  exact congrArg (fun l => forAll l _ s) hends

theorem settleOuts_idle (h : ∀ o ∈ s.mem.outst, o.expire = false) : settleOuts s = s := by
  unfold settleOuts
  rw [List.filter_eq_nil_iff.2 fun o ho => by simp [h o ho]]
  rfl

theorem settleBad_idle (h : s.shoal.badHeld = []) : settleBad s = s := by
  have hkeep : onShoal (fun x => { x with badHeld := [] }) s = s := by
    unfold onShoal
    rw [← h]
  unfold settleBad
  rw [hkeep, h]
  rfl

theorem settleLocal_idle {d : Nat} (h : (getPort s (768 + d)).queues = []) : settleLocal d s = s := by
  unfold settleLocal
  exact if_pos (by rw [h]; rfl)

theorem settleSeals_idle (h : ∀ e ∈ s.groups, ∀ k ∈ e.2.chunks, k.sealDue = true → k.sealed = true) : settleSeals s = s := by
  refine forAll_idle _ fun e he => ?_
  have hdue : e.2.chunks.filter (fun k => k.sealDue && !k.sealed) = [] :=
    List.filter_eq_nil_iff.2 fun k hk => by simpa using h e he k hk
  simp only [hdue]
  rfl

theorem endInstant_idle (h : InstantSettled s) : endInstant s = s := by
  obtain ⟨hquarters, hflows, houts, hbad, hheard, hlocal, hseals, hlooks, hwrote⟩ := h
  have hroute : onRoute (fun r => { r with looks := [], wrote := [] }) s = s := by
    show { s with route := { s.route with looks := [], wrote := [] } } = s
    rw [← hlooks, ← hwrote]
  unfold endInstant
  simp only [onlyIf_idle _ (settleQuarters_idle hquarters), onlyIf_idle _ (settleFlows_idle hflows), onlyIf_idle _ (settleOuts_idle houts),
    onlyIf_idle _ (settleBad_idle hbad), hheard, List.isEmpty_nil, Bool.not_true, onlyIf_false,
    forAll_idle (List.range 4) fun d hd => settleLocal_idle (hlocal d (List.mem_range.1 hd)), onlyIf_idle _ (settleSeals_idle hseals)]
  exact hroute

end

/-! ### The waits of queued packets -/

/-- A nanosecond of the queues' waits: events, counters other than the regions', and since when a stored packet waits for a
credit. -/
structure QueuesWaited (s t : State) : Prop where
  frame : t = { s with host := t.host, obs := t.obs, shoal := { s.shoal with stored := t.shoal.stored } }
  stored : t.shoal.stored.map (fun x => { x with since := 0 }) = s.shoal.stored.map (fun x => { x with since := 0 })
  regions : ∀ r i, ctrOf t.obs (kRegion r i) = ctrOf s.obs (kRegion r i)

theorem QueuesWaited.refl (s : State) : QueuesWaited s s := ⟨rfl, rfl, fun _ _ => rfl⟩

theorem QueuesWaited.trans {s t u : State} (h : QueuesWaited s t) (k : QueuesWaited t u) : QueuesWaited s u where
  frame := by rw [k.frame, h.frame]
  stored := k.stored.trans h.stored
  regions r i := (k.regions r i).trans (h.regions r i)

theorem queuesWaited_forAll {α : Type} {f : α → State → State} (h : ∀ x u, QueuesWaited u (f x u)) (l : List α) (s : State) :
    QueuesWaited s (forAll l f s) :=
  forAll_keeps (P := QueuesWaited s) (fun x u hu => hu.trans (h x u)) l s (.refl s)

theorem queuesWaited_since (d b n : Nat) (s : State) :
    QueuesWaited s (onStored d b (fun x => { x with since := max x.since n }) s) where
  frame := rfl
  stored := by
    simp only [onStored, onShoal, List.map_map]
    refine List.map_congr_left fun x _ => ?_
    simp only [Function.comp]
    split <;> rfl
  regions _ _ := rfl

theorem queuesWaited_count (p q i : Nat) (s : State) : QueuesWaited s (count (kQueue p q i) s) where
  frame := by rw [hostOnly_count s (kQueue p q i)]
  stored := by rw [count_shoal]
  regions r j := ctrOf_count_ne (by simp [unpostedKey, kRegion]) (by simp [kQueue, kRegion]) s

theorem queuesWaited_queueWait (p q : Nat) (s : State) : QueuesWaited s (queueWait p q s) := by
  unfold queueWait
  split
  · exact .refl s
  next d b k _ =>
    extract_lets tokens u
    have hu : QueuesWaited s u := by
      show QueuesWaited s (ite _ _ _)
      split
      · exact queuesWaited_since _ _ _ s
      · exact .refl s
    split
    · exact hu.trans (queuesWaited_count _ _ _ _)
    · split
      · exact hu
      · exact hu.trans (queuesWaited_count _ _ _ _)

theorem queuesWaited_queuesNs (s : State) : QueuesWaited s (queuesNs s) := by
  unfold queuesNs
  split
  · exact .refl s
  · exact queuesWaited_forAll (fun (e : Nat × Port) u => queuesWaited_forAll (fun x => queuesWaited_queueWait e.1 x.1) e.2.queues u) _ s

theorem queuesNs_frozen {s : State} (h : s.stop.frozen = true) : queuesNs s = s := by simp [queuesNs, h]

theorem QueuesWaited.getRgn {s t : State} (h : QueuesWaited s t) (r : Nat) : getRgn t r = getRgn s r := by rw [h.frame]; rfl

/-! ### The regions -/

theorem hostOnly_regionNs (r : Nat) (s : State) : HostOnly s (regionNs r s) :=
  (hostOnly_onlyIf s _ (hostOnly_count s _)).trans (hostOnly_onlyIf _ _ (hostOnly_count _ _))

theorem hostOnly_regionsNs (s : State) : HostOnly s (regionsNs s) :=
  hostOnly_onlyIf s _ (hostOnly_forAll hostOnly_regionNs _ s)

theorem regionsNs_ungated {s : State} (h : ∀ r, r < 16 → (getRgn s r).gated = false ∧ (getRgn s r).ebb = false) : regionsNs s = s := by
  refine onlyIf_idle _ (forAll_idle _ fun r hr => ?_)
  obtain ⟨hgated, hebb⟩ := h r (List.mem_range.1 hr)
  simp [regionNs, hgated, hebb]

theorem ctrOf_ctrSet_same (o : Obs) (k : CKey) (c : Ctr) : ctrOf (ctrSet o k c) k = c := by
  have hset (l : List (CKey × Ctr)) (h : l.any (fun e => e.1 == k) = true) :
      (l.map (fun e => if e.1 == k then (k, c) else e)).find? (fun e => e.1 == k) = some (k, c) := by
    induction l with
    | nil => simp at h
    | cons e r ih =>
      by_cases he : e.1 = k
      · simp [he]
      · simp only [List.any_cons, beq_eq_false_iff_ne.2 he, Bool.false_or] at h
        simpa [he, List.find?_cons] using ih h
  unfold ctrOf ctrSet
  dsimp only
  split
  next h => rw [hset _ h]; rfl
  next h =>
    have hnone : o.ctrs.find? (fun e => e.1 == k) = none := List.find?_eq_none.2 fun e he hk => h (List.any_eq_true.2 ⟨e, he, hk⟩)
    simp [List.find?_append, hnone]

/-- A counter below its greatest value that no event counts goes up by one (R561). -/
theorem ctrVal_count {k : CKey} (hk : unpostedKey k) {s : State} (h : (ctrOf s.obs k).val < 2 ^ 64 - 1) :
    ctrVal (count k s) k = ctrVal s k + 1 := by
  have hraw : (ctrOf (countRaw k 1 s).obs k).val = (ctrOf s.obs k).val + 1 := by
    show (ctrOf (ctrSet s.obs k _) k).val = _
    rw [ctrOf_ctrSet_same, ctrAdd, if_pos (by unfold ctrMax; omega)]
  unfold ctrVal count countN
  dsimp only
  split
  · rw [ctrOf_postDev hk, hraw]
  · exact hraw

theorem unpostedKey_kRegion (r i : Nat) : unpostedKey (kRegion r i) := by simp [unpostedKey, kRegion]

theorem ctrOf_regionNs_ne {r r' : Nat} (h : r' ≠ r) (i : Nat) (s : State) :
    ctrOf (regionNs r' s).obs (kRegion r i) = ctrOf s.obs (kRegion r i) := by
  have hcount (j : Nat) (u : State) : ctrOf (count (kRegion r' j) u).obs (kRegion r i) = ctrOf u.obs (kRegion r i) :=
    ctrOf_count_ne (unpostedKey_kRegion r i) (by simp [kRegion, h]) u
  exact (onlyIf_same (g := fun u => ctrOf u.obs (kRegion r i)) _ _ (hcount _ _)).trans
    (onlyIf_same (g := fun u => ctrOf u.obs (kRegion r i)) _ _ (hcount _ _))

theorem ctrVal_regionNs_gated {r : Nat} {s : State} (hg : (getRgn s r).gated = true)
    (h : (ctrOf s.obs (kRegion r iGATED_NS)).val < 2 ^ 64 - 1) :
    ctrVal (regionNs r s) (kRegion r iGATED_NS) = ctrVal s (kRegion r iGATED_NS) + 1 := by
  have hebb : ctrOf (onlyIf (getRgn s r).ebb (count (kRegion r iEBB_TIME)) s).obs (kRegion r iGATED_NS) = ctrOf s.obs (kRegion r iGATED_NS) :=
    onlyIf_same (g := fun u => ctrOf u.obs (kRegion r iGATED_NS)) _ _
      (ctrOf_count_ne (unpostedKey_kRegion r _) (by simp [kRegion, iEBB_TIME, iGATED_NS]) s)
  simp only [regionNs, hg, onlyIf_true]
  rw [ctrVal_count (unpostedKey_kRegion r _) (by rw [hebb]; exact h), ctrVal, hebb]
  rfl

theorem ctrOf_forAll_regionNs {r : Nat} {l : List Nat} (h : r ∉ l) (i : Nat) (s : State) :
    ctrOf (forAll l regionNs s).obs (kRegion r i) = ctrOf s.obs (kRegion r i) := by
  induction l generalizing s with
  | nil => rfl
  | cons x l ih =>
    obtain ⟨hx, hl⟩ := not_or.1 (List.mem_cons.not.1 h)
    exact (ih hl (regionNs x s)).trans (ctrOf_regionNs_ne (Ne.symm hx) i s)

/-- Over any list of regions that names a gated region once, its GATED_NS goes up by one. -/
theorem ctrVal_forAll_regionNs {r : Nat} {l : List Nat} (hl : l.Nodup) (hr : r ∈ l) {s : State} (hg : (getRgn s r).gated = true)
    (h : (ctrOf s.obs (kRegion r iGATED_NS)).val < 2 ^ 64 - 1) :
    ctrVal (forAll l regionNs s) (kRegion r iGATED_NS) = ctrVal s (kRegion r iGATED_NS) + 1 := by
  induction l generalizing s with
  | nil => cases hr
  | cons x l ih =>
    obtain ⟨hx, hl⟩ := List.nodup_cons.1 hl
    show ctrVal (forAll l regionNs (regionNs x s)) _ = _
    by_cases hxr : x = r
    · subst hxr
      rw [ctrVal, ctrOf_forAll_regionNs hx]
      exact ctrVal_regionNs_gated hg h
    · have hsame := ctrOf_regionNs_ne hxr iGATED_NS s
      rw [ih hl ((List.mem_cons.1 hr).resolve_left (Ne.symm hxr)) (by rw [hostOnly_regionNs x s]; exact hg) (by rw [hsame]; exact h),
        ctrVal, hsame, ctrVal]

theorem ctrVal_regionsNs {r : Nat} {s : State} (hl : regsLive s = true) (hr : r < 16) (hg : (getRgn s r).gated = true)
    (h : (ctrOf s.obs (kRegion r iGATED_NS)).val < 2 ^ 64 - 1) :
    ctrVal (regionsNs s) (kRegion r iGATED_NS) = ctrVal s (kRegion r iGATED_NS) + 1 := by
  rw [regionsNs, hl, onlyIf_true]
  exact ctrVal_forAll_regionNs List.nodup_range (List.mem_range.2 hr) hg h

/-! ### The lanes -/

/-- A nanosecond of the lanes and of training: the lanes, and of a port neither its link nor its state nor its queues. -/
structure LinesRan (s t : State) : Prop where
  frame : t = { s with net := { s.net with ports := t.net.ports, lanes := t.net.lanes } }
  ports : ∀ p, (getPort t p).link = (getPort s p).link ∧ (getPort t p).lstate = (getPort s p).lstate ∧ (getPort t p).queues = (getPort s p).queues

theorem LinesRan.refl (s : State) : LinesRan s s := ⟨rfl, fun _ => ⟨rfl, rfl, rfl⟩⟩

theorem LinesRan.trans {s t u : State} (h : LinesRan s t) (k : LinesRan t u) : LinesRan s u where
  frame := by rw [k.frame, h.frame]
  ports p := by
    obtain ⟨hlink, hstate, hqueues⟩ := h.ports p
    obtain ⟨klink, kstate, kqueues⟩ := k.ports p
    exact ⟨klink.trans hlink, kstate.trans hstate, kqueues.trans hqueues⟩

theorem linesRan_forAll {α : Type} {f : α → State → State} (h : ∀ x u, LinesRan u (f x u)) (l : List α) (s : State) :
    LinesRan s (forAll l f s) :=
  forAll_keeps (P := LinesRan s) (fun x u hu => hu.trans (h x u)) l s (.refl s)

theorem linesRan_onLane (l : Nat) (f : Lane → Lane) (s : State) : LinesRan s (onLane l f s) := ⟨rfl, fun _ => ⟨rfl, rfl, rfl⟩⟩

theorem linesRan_onPort (p : Nat) {f : Port → Port} (h : ∀ x, (f x).link = x.link ∧ (f x).lstate = x.lstate ∧ (f x).queues = x.queues)
    (s : State) : LinesRan s (onPort p f s) where
  frame := rfl
  ports p' := by
    by_cases hp : p = p'
    · subst hp
      rw [getPort_onPort_same]
      exact h _
    · rw [getPort_onPort_ne _ _ _ _ hp]
      exact ⟨rfl, rfl, rfl⟩

theorem linesRan_laneNs (l : Nat) (s : State) : LinesRan s (laneNs l s) := by
  unfold laneNs
  dsimp only
  split
  · exact linesRan_onLane _ _ s
  · exact linesRan_onLane _ _ s
  · exact .refl s

theorem linesRan_sendFrame (p l : Nat) (s : State) : LinesRan s (sendFrame p l s) :=
  ⟨rfl, fun _ => ⟨rfl, rfl, rfl⟩⟩

theorem linesRan_trainNs (p : Nat) (s : State) : LinesRan s (trainNs p s) := by
  unfold trainNs
  dsimp only
  split
  · exact .refl s
  split
  · exact linesRan_onPort p (by simp) s
  split
  · exact (linesRan_onPort p (by simp) s).trans (linesRan_onPort p (by simp) _)
  · exact ((linesRan_onPort p (by simp) s).trans (linesRan_onPort p (by simp) _)).trans
      (linesRan_forAll (linesRan_sendFrame p) _ _)

theorem linesRan_lanesNs (s : State) : LinesRan s (lanesNs s) := by
  unfold lanesNs
  split
  · exact (linesRan_forAll linesRan_laneNs _ s).trans (linesRan_forAll linesRan_trainNs _ _)
  · exact .refl s

theorem trainNs_idle {p : Nat} {s : State} (h : framesGo (getPort s p) = false) : trainNs p s = s := by
  unfold trainNs
  exact if_pos (.inr (by simp [h]))

/-- A nanosecond of the lanes' streams: the port modes, every lane's LN_CTL and every port stand. -/
structure StreamsRan (s t : State) : Prop where
  groups : t.net.groups = s.net.groups
  ports : ∀ p, getPort t p = getPort s p
  ctl : ∀ l, (getLane t l).ctl = (getLane s l).ctl

theorem StreamsRan.laneState_eq {s t : State} (h : StreamsRan s t) (l : Nat) : laneState t l = laneState s l := by
  have hmode (p : Nat) : groupMode t p = groupMode s p := by rw [groupMode, h.groups, groupMode]
  have hupper (p : Nat) : ethUpper t p = ethUpper s p := by simp only [ethUpper, h.ctl, hmode]
  rw [laneState, h.ports, portOfLane, portWidth, hmode, hupper]
  rfl

@[simp] theorem drivePattern_ctl (n : Nat) (y : Lane) : (drivePattern n y).ctl = y.ctl := by
  unfold drivePattern
  split
  · rfl
  · dsimp only [driveLine, passGap]
    split <;> rfl

@[simp] theorem checkPattern_ctl (l now n : Nat) (y : Lane) : (checkPattern l now n y).ctl = y.ctl := by
  unfold checkPattern
  split <;> rfl

@[simp] theorem scanEye_ctl (l now n : Nat) (y : Lane) : (scanEye l now n y).ctl = y.ctl := by
  unfold scanEye
  split <;> rfl

theorem scanEye_idle {y : Lane} (h : bitAt y.eyeCtl 31 = false) (l now n : Nat) : scanEye l now n y = y := by
  unfold scanEye
  exact if_pos (by simp [h])

theorem streamsRan_onLane (l : Nat) {f : Lane → Lane} (h : ∀ y, (f y).ctl = y.ctl) (s : State) : StreamsRan s (onLane l f s) where
  groups := rfl
  ports _ := rfl
  ctl l' := by
    by_cases hl : l = l'
    · subst hl
      rw [getLane_onLane_same, h]
    · rw [getLane_onLane_ne _ _ _ _ hl]

theorem streamsRan_laneNs (l : Nat) (s : State) : StreamsRan s (laneNs l s) := by
  unfold laneNs
  dsimp only
  split
  · exact streamsRan_onLane l (fun y => by simp) s
  · exact streamsRan_onLane l (fun y => by simp) s
  · exact ⟨rfl, fun _ => rfl, fun _ => rfl⟩

/-- A lane that is not in TEST and has no eye scan is as it was: other lanes' nanoseconds do not touch it. -/
theorem getLane_laneNs {l : Nat} {s : State} (ht : laneState s l ≠ .test) (he : bitAt (getLane s l).eyeCtl 31 = false) (l' : Nat) :
    getLane (laneNs l' s) l = getLane s l := by
  have hcase (f : Lane → Lane) (hf : l' = l → f (getLane s l) = getLane s l) : getLane (onLane l' f s) l = getLane s l := by
    by_cases hl : l' = l
    · subst hl
      rw [getLane_onLane_same, hf rfl]
    · exact getLane_onLane_ne _ _ _ _ hl
  unfold laneNs
  dsimp only
  split
  next htest => exact hcase _ fun hl => absurd htest (hl ▸ ht)
  · exact hcase _ fun _ => scanEye_idle he _ _ _
  · rfl

theorem getLane_lanesNs {s : State} (hf : ∀ p, framesGo (getPort s p) = false) {l : Nat} (ht : laneState s l ≠ .test)
    (he : bitAt (getLane s l).eyeCtl 31 = false) : getLane (lanesNs s) l = getLane s l := by
  unfold lanesNs
  split
  · have hlanes := forAll_keeps (P := fun u => StreamsRan s u ∧ getLane u l = getLane s l) (f := laneNs) (fun l' u hu => by
      obtain ⟨hran, hsame⟩ := hu
      have hnext := streamsRan_laneNs l' u
      exact ⟨⟨hnext.groups.trans hran.groups, fun p => (hnext.ports p).trans (hran.ports p), fun l => (hnext.ctl l).trans (hran.ctl l)⟩,
        (getLane_laneNs (by rw [hran.laneState_eq]; exact ht) (by rw [hsame]; exact he) l').trans hsame⟩)
      (s.net.lanes.map (·.1)) s ⟨⟨rfl, fun _ => rfl, fun _ => rfl⟩, rfl⟩
    rw [forAll_idle _ fun p _ => trainNs_idle (by rw [hlanes.1.ports]; exact hf p)]
    exact hlanes.2
  · rfl

/-! ### What a nanosecond of them all leaves -/

section
variable {s u v t : State} (hq : QueuesWaited s u) (hr : HostOnly u v)
include hq hr

theorem beforeLanes_frame :
    v = { s with obs := v.obs, shoal := { s.shoal with stored := u.shoal.stored }, host := v.host } := by
  unfold HostOnly at hr
  rw [hr, hq.frame]

variable (hl : LinesRan v t)
include hl

theorem idle_frame : t = { s with obs := t.obs, shoal := t.shoal, net := t.net, host := t.host } := by
  rw [hl.frame, beforeLanes_frame hq hr]

theorem idle_net : t.net = { s.net with ports := t.net.ports, lanes := t.net.lanes } := by
  rw [hl.frame, beforeLanes_frame hq hr]

theorem idle_shoal : t.shoal = { s.shoal with stored := u.shoal.stored } := by
  rw [hl.frame, beforeLanes_frame hq hr]

end

/-- Settles O1: the front command by the step itself; the idle step by what the nanoseconds of the queues, the regions and the
lanes each leave. -/
theorem stepRunsFrontCommandOrIdles : Obligations.StepRunsFrontCommandOrIdles := by
  unfold Obligations.StepRunsFrontCommandOrIdles
  refine ⟨fun c rest s => ⟨step_front c rest s, exec_completes c s⟩, fun s hp hr => ⟨step_idle hp hr, endInstant_idle, fun hend => ?_⟩⟩
  have hqueues := queuesWaited_queuesNs s
  have hregions := hostOnly_regionsNs (queuesNs s)
  have hlines : LinesRan (regionsNs (queuesNs s)) (waitNs s) := linesRan_lanesNs _
  have hbefore := beforeLanes_frame hqueues hregions
  have hframe := idle_frame hqueues hregions hlines
  have hnet := idle_net hqueues hregions hlines
  have hshoal := idle_shoal hqueues hregions hlines
  have hobs : (waitNs s).obs = (regionsNs (queuesNs s)).obs := by rw [hlines.frame]
  refine ⟨_, step_idle hp hr, ?_⟩
  rw [hend]
  refine ⟨?_, ?_, ?_, ?_, fun hz => ?_, fun hz hg => ?_, fun hl r hlt hg hc => ?_, hnet, fun p => ?_, fun hf l ht he => ?_⟩
  · rw [hframe]; rfl
  · rw [hframe]; rfl
  · show (waitNs s).shoal = { s.shoal with stored := (waitNs s).shoal.stored }
    rw [hshoal]
  · show (waitNs s).shoal.stored.map _ = _
    rw [hshoal]
    exact hqueues.stored
  · exact hshoal.trans (by rw [queuesNs_frozen hz])
  · exact hobs.trans (by rw [queuesNs_frozen hz, regionsNs_ungated hg])
  · have hkept := hqueues.regions r iGATED_NS
    have hlive : regsLive (queuesNs s) = true := by rw [hqueues.frame]; exact hl
    have hup := ctrVal_regionsNs hlive hlt (by rw [hqueues.getRgn]; exact hg) (by rw [hkept]; exact hc)
    show (ctrOf (waitNs s).obs _).val = _
    rw [hobs]
    exact hup.trans (by rw [ctrVal, hkept, ctrVal])
  · have hsame : getPort (regionsNs (queuesNs s)) p = getPort s p := by rw [hbefore]; rfl
    exact hsame ▸ hlines.ports p
  · refine (getLane_lanesNs (s := regionsNs (queuesNs s)) ?_ ?_ ?_).trans ?_
    · rw [hbefore]; exact hf
    · rw [hbefore]; exact ht
    · rw [hbefore]; exact he
    · rw [hbefore]; rfl

end Sys2Proof.Machine
end

/-! ## Tables by number, and what the embedding engine leaves of the state (R140 to R185) -/

section
namespace Sys2Proof.Machine

theorem getTable_congr {s t : State} (h : t.emb.tables = s.emb.tables) (tid : Nat) : getTable t tid = getTable s tid :=
  congrArg (mget · tid) h

theorem getTable_onTable_some {s : State} {tid : Nat} {tb : Table} (hg : getTable s tid = some tb) (f : Table → Table) :
    getTable (onTable tid f s) tid = some (f tb) := by rw [getTable_onTable_same, hg]; rfl

@[simp] theorem freeAll_emb (l : List (Nat × Nat)) (s : State) : (freeAll l s).emb = s.emb := by rw [freeAll_frame]
@[simp] theorem freeAll_route (l : List (Nat × Nat)) (s : State) : (freeAll l s).route = s.route := by rw [freeAll_frame]

@[simp] theorem getTable_taken (port : Nat) (p : Packet) (s : State) (tid : Nat) : getTable (taken port p s) tid = getTable s tid :=
  getTable_congr (by simp) tid

theorem isFabric_taken (port : Nat) (p : Packet) (s : State) (k : Nat) : isFabric (taken port p s) k = isFabric s k := by
  rw [isFabric, isFabric, getPort_taken]

/-- What is noted of the die that builds a packet is no packet. -/
@[simp] theorem builtOn_outbox (d : Nat) (f : State → State) (s : State) : (builtOn d f s).route.outbox = (f s).route.outbox := rfl

/-- An answer's way back is no packet. -/
@[simp] theorem backOn_outbox (port : Nat) (f : State → State) (s : State) : (backOn port f s).route.outbox = (f s).route.outbox := by
  unfold backOn
  split <;> rfl

/-- EMB_FAIL is one packet. -/
theorem outbox_embFailTo (dst job table step bag status : Nat) (s : State) :
    (embFailTo dst job table step bag status s).route.outbox.length = s.route.outbox.length + 1 := by
  unfold embFailTo
  dsimp only
  rw [builtOn_outbox, outbox_originate]
  split
  · rw [count_route]
  · rfl

end Sys2Proof.Machine
end

/-! ## An APPLY under the binding its arrival captured (R173, R234, R241, R271) -/

section
namespace Sys2Proof.Machine

/-- An APPLY of an attachment port is refused DENIED where the binding it is served under is none. -/
theorem exec_applyReq_unbound {s : State} {port : Nat} {p : Packet} (he : engineFor s port p = true) (hp : port < 768)
    (hf : isFabric s port = false) (hb : boundAt s port p = none) :
    exec (.applyReq port p) s = .next (backOn port (embFailTo p.src p.job (ecTable p.ctl) (ecStep p.ctl) 0 stDENIED) (taken port p s)) := by
  refine congrArg Host.Outcome.next ?_
  have hf' : isFabric (taken port p s) port = false := by rw [isFabric_taken, hf]
  unfold doApply
  simp only [he, hp, hf', hb, not_true_eq_false, if_false, Bool.false_eq_true, not_false_eq_true, Option.isNone_none, and_self, if_true]

/-- A table of endpoint 50, ACTIVE at step 0. -/
def ownedTable : Table where
  info := {
    table := 3, cove := 1, rfmt := 5, imode := 1, dim := 16, die := 0, paMask := 1, rows := 1, seed := 0, shadowRows := 1, gw96 := false,
    master := false, opt := 1, rpShare := 0, gradE := 0, owner := some 50, firstStep := 1, lr := 0, mu := 0, beta1 := 0, beta2 := 0,
    eps := 0, wd := 0, p1 := 0, p2 := 0 }
  state := .active
  applied := 0

/-- An APPLY of step 1 of table 3 at Tide 5, from endpoint 50. -/
def applyRequest : Packet where
  hdr := mkHdr 0 vcCTRL 0 50 0 0 false 0
  body := bytesBE 16 (pack 128 [(8, 0x52), (16, 3), (32, 1), (64, 5), (8, 0)]).toNat

/-- The Q7 in RUN with that table: the APPLY stands in Shoal, arrived on port 4 before port 4 was bound to endpoint 50. -/
def applyArrived : State := { State.reset with
  dev := { state := .run }, emb := { tables := [(3, ownedTable)] },
  mem := { State.reset.mem with binds := [(4, { epid := 50, cove := 1, maxOut := 64 })] },
  route := { State.reset.route with toEngine := [(4, applyRequest, 0, 7)] },
  shoal := { State.reset.shoal with stored := [{
    die := 0, bufs := [7], acct := .ingress 4 0, port := 4, pkt := applyRequest, owners := [], rtag := none, dest := .here }] } }

/-- Refutes O26: an APPLY is served under the binding that its arrival captured (R234, R271), where the statement asks for the
port's binding as it stands. The witness is an APPLY that arrived before its port was bound: it is answered DENIED. -/
theorem not_applyRunsAtItsTidemark : ¬ Obligations.ApplyRunsAtItsTidemark := by
  unfold Obligations.ApplyRunsAtItsTidemark
  intro h
  have he : engineFor applyArrived 4 applyRequest = true := by decide +kernel
  have hf : isFabric applyArrived 4 = false := by decide +kernel
  have hb : boundAt applyArrived 4 applyRequest = none := by decide +kernel
  have hg : getTable applyArrived (ecTable applyRequest.ctl) = some ownedTable := by decide +kernel
  have happly := h.2.1 applyArrived 4 applyRequest ownedTable he (.inr (.inr (by decide +kernel))) hg rfl (by decide +kernel)
    (by decide +kernel) (by decide +kernel)
  rw [exec_applyReq_unbound he (by decide) hf hb] at happly
  have hlen := congrArg (fun t : State => t.route.outbox.length) (Host.Outcome.next.inj happly)
  simp [outbox_embFailTo] at hlen

end Sys2Proof.Machine
end

/-! ## A cut that an apply of its own Tidemark holds up (R178, R459, R463) -/

section
namespace Sys2Proof.Machine

/-- While an apply of the stop's Tidemark has begun and not ended, the cut stays due and nothing freezes. -/
theorem exec_stopCutTidemark_waits {s : State} (hc : cutDue s = true) (hd : appliesDue s s.stop.mark = [])
    (ho : appliesOpen s s.stop.mark ≠ []) : exec .stopCutTidemark s = .next s := by
  refine congrArg Host.Outcome.next ?_
  have hfirst : appliesFirst s.stop.mark s = s := by rw [appliesFirst, hd]; rfl
  unfold doCutTidemark
  simp only [hc, hfirst, ho, not_true_eq_false, if_false]

/-- A stop armed for Tide 0, which has come, with an apply of that Tidemark that has begun. -/
def stopDuringApply : State := { State.reset with
  dev := { state := .run }, stop := { sstate := .armed, stopId := 1 },
  emb := { tables := [(3, { ownedTable with sched := some { step := 1, mark := 0, begun := true } })] } }

/-- Refutes O49: the cut of an armed stop waits for an apply of its Tidemark that has begun and not ended (R178, R463), where the
statement has it take place at the Tidemark. The witness is a stop whose Tidemark has come while such an apply runs. -/
theorem not_slackWaterStopsAndResumes : ¬ Obligations.SlackWaterStopsAndResumes := by
  unfold Obligations.SlackWaterStopsAndResumes
  intro h
  obtain ⟨t, ht, hcut, -⟩ := h.1.2.1 stopDuringApply rfl rfl (Nat.le_refl 0)
  rw [exec_stopCutTidemark_waits (by decide +kernel) (by decide +kernel) (by decide +kernel)] at ht
  cases ht
  cases hcut

end Sys2Proof.Machine
end

/-! ## Table descriptors: installing, setting, quiescing, resuming and destroying (R143, R144, R159, R178, R179, R182, R268) -/

section
namespace Sys2Proof.Machine

/-! ### Writes under a tag (R268, R270, R272) -/

section
variable {key : BitVec 384 → Nat × Nat} {behind must : State → BitVec 384 → Bool} {bump : BitVec 384 → State → State} {w : Work}
  {cx : Cx} {op : BitVec 384} {data : List Byte} {s u : State} (hh : cx.host = true)
  (hr : ringBehind s (key op) cx.ring = false) (hb : behind s op = false)
include hh hr hb

/-- A write that its checks refuse ends as refused, whatever waits. -/
theorem withTag_refused {st : Nat} (hst : st ≠ stDONE) (hw : w cx op data s = (s, fail st)) :
    withTag key behind must bump w cx op data s = (s, fail st) := by
  simp [withTag, hh, hr, hb, hw, fail, hst]

variable (hm : must s op = false)
include hm

/-- A write that succeeds takes effect, advances the tag and is noted. -/
theorem withTag_done (hw : w cx op data s = (u, ok)) :
    withTag key behind must bump w cx op data s = (noteWrote (key op) cx.ring (bump op u), ok) := by
  simp [withTag, thenBump, hh, hr, hb, hm, hw, ok]

/-- So does one whose work goes on. -/
theorem withTag_goesOn {st : Stage} (hw : w cx op data s = (u, .wait st)) :
    withTag key behind must bump w cx op data s = (noteWrote (key op) cx.ring (bump op u), .wait st) := by
  simp [withTag, thenBump, hh, hr, hb, hm, hw]

end

/-- What notes a write of a table and advances its tag leaves every table. -/
@[simp] theorem getTable_noteWrote (key : Nat × Nat) (r : Nat) (s : State) (q : Nat) : getTable (noteWrote key r s) q = getTable s q := rfl
@[simp] theorem getTable_tableBump (op : BitVec 384) (s : State) (q : Nat) : getTable (tableBump op s) q = getTable s q := rfl
@[simp] theorem getTable_settleDesc (d : Desc) (x : List Byte) (r : Res) (s : State) (q : Nat) :
    getTable (settleDesc d x r s) q = getTable s q := getTable_congr (by rw [settleDesc_emb]) q
@[simp] theorem getTable_finishDesc (ri : Nat × Nat) (a b : Nat) (s : State) (q : Nat) :
    getTable (finishDesc ri a b s) q = getTable s q := getTable_congr (by rw [finishDesc_emb]) q

/-! ### TABLE_INSTALL (R143, R144) -/

/-- What TABLE_INSTALL refuses BAD: operands, a record that breaks a check, another table's record, or a table in use. -/
def installRefused (s : State) (op : BitVec 384) (data : List Byte) : Prop :=
  onlyBits op [(383, 320), (319, 288), (15, 0)] = false ∨ fld op 383 320 % 32 ≠ 0 ∨ fld op 319 288 ≠ 128
    ∨ (recOf data).table ≠ fld op 15 0 ∨ recOk s (recOf data) data = false ∨ (recOf data).cove ∉ s.mem.coves
    ∨ getTable s (fld op 15 0) ≠ none

/-- The table that a record installs. -/
def loadingTable (x : TableRec) : Table :=
  { info := x, state := .loading, applied := (x.firstStep + 2 ^ 32 - 1) % 2 ^ 32, bytes := tableHbm x }

/-- A table entered under its number. -/
def enterTable (tid : Nat) (tb : Table) : State → State := onEmb (fun e => { e with tables := mput e.tables tid tb })

@[simp] theorem getTable_enterTable_same (tid : Nat) (tb : Table) (s : State) : getTable (enterTable tid tb s) tid = some tb :=
  mget_mput_same _ _ _

theorem getTable_enterTable_ne {tid q : Nat} (h : q ≠ tid) (tb : Table) (s : State) : getTable (enterTable tid tb s) q = getTable s q :=
  mget_mput_ne _ _ _ _ h.symm

/-- An unlisted byte reads as zero, so every row of a table without bytes does. -/
theorem rowBytes_blank {tb : Table} {sp : Nat} (h : spaceOf tb sp = []) (row : Nat) : ∀ b ∈ rowBytes tb sp row, b = 0 := by
  rw [rowBytes, h, bareBytes_genParity]
  intro b hb
  obtain ⟨i, -, rfl⟩ := List.mem_map.mp hb
  rfl

theorem spaceOf_loadingTable (x : TableRec) (sp : Nat) : spaceOf (loadingTable x) sp = [] := by
  unfold spaceOf
  split <;> rfl

/-- A table that TABLE_INSTALL accepts: entered, its counters at zero and its regions' gates about to open. -/
def installTable (tid : Nat) (x : TableRec) (s : State) : State :=
  openGates ((bitsOf 4 x.paMask).map (fun k => 4 * x.die + k)) (resetInstance 7 tid (enterTable tid (loadingTable x) s))

theorem installTable_frame (tid : Nat) (x : TableRec) (s : State) : installTable tid x s = { s with
    emb := (enterTable tid (loadingTable x) s).emb, pwr := (installTable tid x s).pwr, obs := (installTable tid x s).obs } := by
  have hreset (u : State) : resetInstance 7 tid u = { u with obs := (resetInstance 7 tid u).obs } := by simp [resetInstance, onObs]
  rw [installTable, hreset]
  rfl

theorem getTable_installTable (tid : Nat) (x : TableRec) (s : State) (q : Nat) :
    getTable (installTable tid x s) q = getTable (enterTable tid (loadingTable x) s) q := by
  rw [installTable_frame]
  rfl

section
variable {s : State} {cx : Cx} {op : BitVec 384} {data : List Byte}

theorem rawTableInstall_refused (h : installRefused s op data) : rawTableInstall cx op data s = (s, fail stBAD) := by
  refine if_pos ?_
  simpa [installRefused, tableOf, ← Option.ne_none_iff_isSome] using h

variable (h : ¬ installRefused s op data)
include h

theorem rawTableInstall_accepted : rawTableInstall cx op data s =
    if coveAllowed s cx.func (recOf data).cove = false then (s, fail stDENIED)
    else if hbmFits (enterTable (tableOf op) (loadingTable (recOf data)) s) = false then (s, fail stNORES)
    else (installTable (tableOf op) (recOf data) s, ok) := by
  refine (if_neg ?_).trans ?_
  · simpa [installRefused, tableOf, ← Option.ne_none_iff_isSome] using h
  · simp only [Bool.not_eq_true]
    rfl

end

section
variable {s : State} {r i : Nat} {d : Desc} {data : List Byte} (h : Ready s r i 0x38 d)
  (hr : ringBehind s (5, fld d.op 15 0) d.ring = false) (hb : tableBehind s d.op = false)
include h hr hb

theorem exec_tableInstall_fails {st : Nat} (hst : st ≠ stDONE) (hw : rawTableInstall ⟨r, i, d.func, true⟩ d.op data s = (s, fail st)) :
    exec (.tableInstall r i data) s = .next (answer d st 0 s) := by
  obtain ⟨rfl, rfl⟩ := findDesc_ring_idx h.1
  refine congrArg Host.Outcome.next ((runDesc_ready h _ data).trans ?_)
  rw [withTag_refused rfl hr hb hst hw]
  rfl

theorem exec_tableInstall_done {u : State} (hm : tableMust s d.op = false)
    (hw : rawTableInstall ⟨r, i, d.func, true⟩ d.op data s = (u, ok)) :
    exec (.tableInstall r i data) s = .next (answer d 0x00 0 (noteWrote (5, fld d.op 15 0) d.ring (tableBump d.op u))) := by
  obtain ⟨rfl, rfl⟩ := findDesc_ring_idx h.1
  refine congrArg Host.Outcome.next ((runDesc_ready h _ data).trans ?_)
  rw [withTag_done rfl hr hb hm hw]
  rfl

end

theorem exec_tableInstall_installs {s : State} {r i : Nat} {d : Desc} {data : List Byte} (h : Ready s r i 0x38 d)
    (hr : ringBehind s (5, fld d.op 15 0) d.ring = false) (hb : tableBehind s d.op = false) (hm : tableMust s d.op = false)
    (hok : ¬ installRefused s d.op data) (hc : coveAllowed s d.func (recOf data).cove = true)
    (hfit : hbmFits (enterTable (fld d.op 15 0) (loadingTable (recOf data)) s) = true) :
    ∃ t, exec (.tableInstall r i data) s = .next (answer d 0x00 0 t)
      ∧ getTable t (fld d.op 15 0) = some (loadingTable (recOf data))
      ∧ (∀ q, q ≠ fld d.op 15 0 → getTable t q = getTable s q) ∧ t.host = s.host ∧ t.groups = s.groups ∧ t.mem = s.mem
      ∧ (∀ sp row, ∀ b ∈ rowBytes (loadingTable (recOf data)) sp row, b = 0) := by
  have hw : rawTableInstall ⟨r, i, d.func, true⟩ d.op data s = (installTable (fld d.op 15 0) (recOf data) s, ok) :=
    (rawTableInstall_accepted hok).trans ((if_neg (by simp [hc])).trans (if_neg (ne_false_of_eq_true hfit)))
  refine ⟨_, exec_tableInstall_done h hr hb hm hw, ?_⟩
  simp only [getTable_noteWrote, getTable_tableBump, getTable_installTable]
  have hframe := installTable_frame (fld d.op 15 0) (recOf data) s
  exact ⟨getTable_enterTable_same _ _ s, fun q hq => getTable_enterTable_ne hq _ s,
    (congrArg State.host hframe :), (congrArg State.groups hframe :), (congrArg State.mem hframe :), fun sp => rowBytes_blank (spaceOf_loadingTable _ sp)⟩

/-! ### SHARD_MAP (R158, R159) -/

/-- The map that a SHARD_MAP's bytes describe. -/
def mapOf (data : List Byte) : ShardMap := {
  ltid := leAt data 4 2, imode := byteAt data 6, dim := leAt data 8 2, cove := leAt data 12 2, lrows := leAt data 16 8,
  seed := leAt data 24 8, shards := mapEntries data (leAt data 10 2) }

theorem exec_shardMap {s : State} {r i : Nat} {d : Desc} {data : List Byte} (h : Ready s r i 0x40 d)
    (hr : ringBehind s (6, leAt data 4 2) d.ring = false) (hb : mapBehind s (leAt data 4 2) = false) (hm : mapMust s (leAt data 4 2) = false) :
    let l := leAt data 4 2
    let maps := mput s.emb.maps l (mapOf data)
    exec (.shardMap r i data) s = .next (
      if onlyBits d.op [(383, 320), (319, 288)] = false ∨ fld d.op 383 320 % 32 ≠ 0 ∨ mapOk s data (fld d.op 319 288) = false then
        answer d 0x09 0 s
      else if coveAllowed s d.func (mapOf data).cove = false then answer d 0x05 0 s
      else if 4096 < maps.length ∨ 262144 < sumOf maps (fun e => e.2.shards.length) then answer d 0x08 0 s
      else answer d 0x00 0 (noteWrote (6, l) d.ring (onEmb (fun e => { e with
        maps := maps, mapTags := mput e.mapTags l ((mgetD e.mapTags l 0 + 1) % 16) }) s))) := by
  obtain ⟨rfl, rfl⟩ := findDesc_ring_idx h.1
  intro l maps
  have hw : rawShardMap ⟨d.ring, d.idx, d.func, true⟩ d.op data s =
      if onlyBits d.op [(383, 320), (319, 288)] = false ∨ fld d.op 383 320 % 32 ≠ 0 ∨ mapOk s data (fld d.op 319 288) = false then
        (s, fail stBAD)
      else if coveAllowed s d.func (mapOf data).cove = false then (s, fail stDENIED)
      else if 4096 < maps.length ∨ 262144 < sumOf maps (fun e => e.2.shards.length) then (s, fail stNORES)
      else (onEmb (fun e => { e with maps := maps, mapTags := mput e.mapTags l ((mgetD e.mapTags l 0 + 1) % 16) }) s, ok) := by
    simp only [rawShardMap, Bool.not_eq_true]
    rfl
  refine congrArg Host.Outcome.next ((runDesc_ready h _ data).trans ?_)
  split_ifs at hw ⊢
  · rw [withTag_refused rfl hr hb (by decide) hw]; rfl
  · rw [withTag_refused rfl hr hb (by decide) hw]; rfl
  · rw [withTag_refused rfl hr hb (by decide) hw]; rfl
  · rw [withTag_done rfl hr hb hm hw]; rfl

/-! ### Descriptors that name an installed table (R56, R179, R180, R182) -/

section
variable {fields : List (Nat × Nat)} {f : Table → Work} {cx : Cx} {op : BitVec 384} {data : List Byte} {s : State} {tb : Table}

/-- A table opcode whose unused fields are zero, on a table in a Cove the function may name. -/
theorem tableWork_named (hf : onlyBits op ((15, 0) :: fields) = true) (ha : fld op 383 320 % 32 = 0)
    (hg : getTable s (fld op 15 0) = some tb) (hc : coveAllowed s cx.func tb.info.cove = true) :
    tableWork fields f cx op data s = f tb cx op data s := by
  simp [tableWork, tableOf, hf, ha, hg, hc]

end

/-- An apply that is not scheduled does not begin. -/
theorem beginApply_unscheduled {s : State} {tid : Nat} {tb : Table} (hg : getTable s tid = some tb) (hs : tb.sched = none) :
    beginApply tid s = s := by simp [beginApply, hg, hs]

/-- The record that TABLE_SET leaves: the six hyperparameters and the Rockpool share of the one it brings (R178, R179). -/
def resetRec (tb : Table) (x : TableRec) : TableRec := { tb.info with
  lr := x.lr, mu := x.mu, beta1 := x.beta1, beta2 := x.beta2, eps := x.eps, wd := x.wd, rpShare := x.rpShare }

section
variable {s : State} {r i : Nat} {d : Desc} {tb : Table} (hg : getTable s (fld d.op 15 0) = some tb) (ha : fld d.op 383 320 % 32 = 0)
  (hc : coveAllowed s d.func tb.info.cove = true) (hr : ringBehind s (5, fld d.op 15 0) d.ring = false)
  (hb : tableBehind s d.op = false) (hm : tableMust s d.op = false)
include hg ha hc hr hb hm

theorem exec_tableSet {data : List Byte} (h : Ready s r i 0x3C d) (hf : onlyBits d.op [(15, 0), (383, 320), (319, 288)] = true) :
    let x := recOf data
    exec (.tableSet r i data) s = .next (
      if tb.state = .failed ∨ tb.state = .free then answer d 0x0B 0 s
      else if fld d.op 319 288 ≠ 128 ∨ isFmt x.rfmt = false ∨ 64 < x.rpShare ∨ hyperOk x tb.info.opt = false then answer d 0x09 0 s
      else answer d 0x00 0 (noteWrote (5, fld d.op 15 0) d.ring (tableBump d.op (rpTrim (resetRec tb x)
        (onTable (fld d.op 15 0) (fun t => { t with info := resetRec tb x }) s))))) := by
  obtain ⟨rfl, rfl⟩ := findDesc_ring_idx h.1
  intro x
  have hw : rawTableSet ⟨d.ring, d.idx, d.func, true⟩ d.op data s =
      if tb.state = .failed ∨ tb.state = .free then (s, fail stHELD)
      else if fld d.op 319 288 ≠ 128 ∨ isFmt x.rfmt = false ∨ 64 < x.rpShare ∨ hyperOk x tb.info.opt = false then (s, fail stBAD)
      else (rpTrim (resetRec tb x) (onTable (fld d.op 15 0) (fun t => { t with info := resetRec tb x }) s), ok) := by
    rw [rawTableSet, tableWork_named hf ha hg hc]
    simp only [Bool.not_eq_true]
    rfl
  refine congrArg Host.Outcome.next ((runDesc_ready h _ data).trans ?_)
  split_ifs at hw ⊢
  · rw [withTag_refused rfl hr hb (by decide) hw]; rfl
  · rw [withTag_refused rfl hr hb (by decide) hw]; rfl
  · rw [withTag_done rfl hr hb hm hw]; rfl

theorem exec_tableQuiesce (h : Ready s r i 0x3D d) (hf : onlyBits d.op [(15, 0)] = true) :
    exec (.tableQuiesce r i) s = .next (
      if tb.state ≠ .active then answer d 0x0B 0 s
      else settleDesc d [] (.wait .draining) (noteWrote (5, fld d.op 15 0) d.ring (tableBump d.op
        (onTable (fld d.op 15 0) (fun t => { t with state := .quiescing, quiescer := some (r, i) }) s)))) := by
  obtain ⟨rfl, rfl⟩ := findDesc_ring_idx h.1
  have hw : rawTableQuiesce ⟨d.ring, d.idx, d.func, true⟩ d.op [] s =
      if tb.state ≠ .active then (s, fail stHELD)
      else (onTable (fld d.op 15 0) (fun t => { t with state := .quiescing, quiescer := some (d.ring, d.idx) }) s, .wait .draining) := by
    rw [rawTableQuiesce, tableWork_named hf ha hg hc]
    rfl
  refine congrArg Host.Outcome.next ((runDesc_ready h _ []).trans ?_)
  split_ifs at hw ⊢
  · rw [withTag_refused rfl hr hb (by decide) hw]; rfl
  · rw [withTag_goesOn rfl hr hb hm hw]; rfl

theorem exec_tableQuiesce_waits (h : Ready s r i 0x3D d) (hf : onlyBits d.op [(15, 0)] = true) (hs : tb.state = .active) :
    ∃ t e, exec (.tableQuiesce r i) s = .next t
      ∧ getTable t (fld d.op 15 0) = some { tb with state := .quiescing, quiescer := some (r, i) }
      ∧ findDesc t r i = some e ∧ e.stage = .draining := by
  obtain ⟨e, he, hstage⟩ := findDesc_settleDesc_wait (st := .draining) (s := noteWrote (5, fld d.op 15 0) d.ring (tableBump d.op
    (onTable (fld d.op 15 0) (fun t => { t with state := .quiescing, quiescer := some (r, i) }) s))) h.1 [] (by decide)
  refine ⟨_, e, (exec_tableQuiesce hg ha hc hr hb hm h hf).trans (by rw [if_neg (not_not_intro hs)]), ?_, he, hstage⟩
  rw [getTable_settleDesc, getTable_noteWrote, getTable_tableBump, getTable_onTable_some hg]

theorem exec_tableResume (h : Ready s r i 0x3E d) (hf : onlyBits d.op [(15, 0)] = true) :
    exec (.tableResume r i) s = .next (
      if atRest tb = false then answer d 0x0B 0 s
      else answer d 0x00 0 (noteWrote (5, fld d.op 15 0) d.ring (tableBump d.op (beginApply (fld d.op 15 0)
        (onTable (fld d.op 15 0) (fun t => { t with state := .active }) s))))) := by
  obtain ⟨rfl, rfl⟩ := findDesc_ring_idx h.1
  have hw : rawTableResume ⟨d.ring, d.idx, d.func, true⟩ d.op [] s =
      if atRest tb = false then (s, fail stHELD)
      else (beginApply (fld d.op 15 0) (onTable (fld d.op 15 0) (fun t => { t with state := .active }) s), ok) := by
    rw [rawTableResume, tableWork_named hf ha hg hc]
    simp only [Bool.not_eq_true]
    rfl
  refine congrArg Host.Outcome.next ((runDesc_ready h _ []).trans ?_)
  split_ifs at hw ⊢
  · rw [withTag_refused rfl hr hb (by decide) hw]; rfl
  · rw [withTag_done rfl hr hb hm hw]; rfl

end

/-! ### TABLE_DESTROY (R178, R182) -/

/-- A table in DESTROYING, one more descriptor waiting for its end. -/
def doomed (ri : Nat × Nat) (t : Table) : Table := { t with state := .destroying, destroyers := t.destroyers ++ [ri] }

/-- What TABLE_DESTROY does to a table not yet in DESTROYING. -/
def destroyTable (tid : Nat) (ri : Nat × Nat) (begun : Bool) (s : State) : State :=
  let u := endQuiesce tid stABORTED (onTable tid (doomed ri) s)
  if begun then u else cancelApply tid stABORTED (failBags tid stABORTED u)

theorem exec_tableDestroy {s : State} {r i : Nat} {d : Desc} {tb : Table} (hg : getTable s (fld d.op 15 0) = some tb)
    (ha : fld d.op 383 320 % 32 = 0) (hc : coveAllowed s d.func tb.info.cove = true)
    (hr : ringBehind s (5, fld d.op 15 0) d.ring = false) (hb : tableBehind s d.op = false) (hm : tableMust s d.op = false)
    (h : Ready s r i 0x3F d) (hf : onlyBits d.op [(15, 0)] = true) (hs : tb.state ≠ .destroying) :
    exec (.tableDestroy r i) s = .next (settleDesc d [] (.wait .draining) (noteWrote (5, fld d.op 15 0) d.ring (tableBump d.op
      (destroyTable (fld d.op 15 0) (r, i) ((tb.sched.map (·.begun)).getD false) s)))) := by
  obtain ⟨rfl, rfl⟩ := findDesc_ring_idx h.1
  have hw : rawTableDestroy ⟨d.ring, d.idx, d.func, true⟩ d.op [] s =
      (destroyTable (fld d.op 15 0) (d.ring, d.idx) ((tb.sched.map (·.begun)).getD false) s, .wait .draining) := by
    rw [rawTableDestroy, tableWork_named hf ha hg hc]
    unfold destroyTable
    dsimp only
    rw [if_neg hs]
    split_ifs <;> rfl
  refine congrArg Host.Outcome.next ((runDesc_ready h _ []).trans ?_)
  rw [withTag_goesOn rfl hr hb hm hw]
  rfl

/-- The end of a waiting TABLE_QUIESCE forgets it, and leaves every other descriptor accepted. -/
theorem endQuiesce_spec {tid : Nat} {s : State} {tb : Table} (hg : getTable s tid = some tb) (st : Nat) :
    getTable (endQuiesce tid st s) tid = some { tb with quiescer := none }
      ∧ (∀ r i, tb.quiescer ≠ some (r, i) → findDesc (endQuiesce tid st s) r i = findDesc s r i) := by
  simp only [endQuiesce, hg, Option.bind_some]
  cases hq : tb.quiescer with
  | none => exact ⟨by rw [hg, ← hq], fun _ _ _ => rfl⟩
  | some ri =>
    refine ⟨by rw [getTable_finishDesc, getTable_onTable_some hg], fun r i hne => ?_⟩
    exact findDesc_finishDesc_ne _ st 0 fun h => hne (congrArg some h)

/-- `t` differs from `s` in events, counters, Shoal packets and packets to send alone, and no descriptor has ended. -/
def NoneEnded (s t : State) : Prop := EngineOnly s t ∧ t.host.accepted = s.host.accepted

theorem NoneEnded.trans {s t u : State} (h : NoneEnded s t) (k : NoneEnded t u) : NoneEnded s u :=
  ⟨h.1.trans k.1, k.2.trans h.2⟩

theorem NoneEnded.getTable {s t : State} (h : NoneEnded s t) (q : Nat) : getTable t q = getTable s q :=
  getTable_congr (by rw [h.1]) q

theorem NoneEnded.findDesc {s t : State} (h : NoneEnded s t) (r i : Nat) : findDesc t r i = findDesc s r i := by
  rw [Machine.findDesc, Machine.findDesc, h.2]

theorem noneEnded_forAll {α : Type} {f : α → State → State} (h : ∀ x u, NoneEnded u (f x u)) :
    ∀ (l : List α) (s : State), NoneEnded s (forAll l f s)
  | [], _ => ⟨rfl, rfl⟩
  | x :: r, s => (h x s).trans (noneEnded_forAll h r (f x s))

theorem noneEnded_count (k : CKey) (s : State) : NoneEnded s (count k s) := ⟨engineOnly_count s k, count_accepted k s⟩

theorem noneEnded_onlyIf {f : State → State} {s : State} (h : NoneEnded s (f s)) (b : Bool) : NoneEnded s (onlyIf b f s) := by
  cases b with
  | false => exact ⟨rfl, rfl⟩
  | true => exact h

theorem noneEnded_freeAll (l : List (Nat × Nat)) (s : State) : NoneEnded s (freeAll l s) :=
  ⟨engineOnly_freeAll s l, by rw [freeAll_frame]⟩

theorem noneEnded_originate (k : Packet) (s : State) : NoneEnded s (originate k s) := ⟨rfl, rfl⟩

theorem noneEnded_builtOn {f : State → State} {s : State} (h : NoneEnded s (f s)) (d : Nat) : NoneEnded s (builtOn d f s) :=
  h.trans ⟨rfl, rfl⟩

theorem embFailTo_eq (dst job table step bag status : Nat) (s : State) : embFailTo dst job table step bag status s =
    let u := onlyIf (getTable s table).isSome (count (kTable table iEMB_FAILS)) s
    builtOn (tableDie u table) (originate (embCtl 0x51 table step bag status none false false dst job)) u := rfl

theorem noneEnded_embFailTo (dst job table step bag status : Nat) (s : State) :
    NoneEnded s (embFailTo dst job table step bag status s) := by
  rw [embFailTo_eq]
  generalize embCtl _ _ _ _ _ _ _ _ _ _ = k
  exact (noneEnded_onlyIf (noneEnded_count _ s) _).trans (noneEnded_builtOn (noneEnded_originate k _) _)

theorem noneEnded_failStream (x : Stream) (status : Nat) (s : State) : NoneEnded s (failStream x status s) :=
  (noneEnded_embFailTo _ _ _ _ _ _ s).trans (noneEnded_freeAll _ _)

theorem noneEnded_failAll {α : Type} (f : α → Stream) (status : Nat) (l : List α) (s : State) :
    NoneEnded s (forAll l (fun x => failStream (f x) status) s) :=
  noneEnded_forAll (f := fun x => failStream (f x) status) (fun x => noneEnded_failStream (f x) status) l s

/-- Failing the bags of a table empties its waiting list, and ends no descriptor. -/
theorem failBags_spec {tid : Nat} {s : State} {tb : Table} (hg : getTable s tid = some tb) (st : Nat) :
    getTable (failBags tid st s) tid = some { tb with waiting := [] } ∧ ∀ r i, findDesc (failBags tid st s) r i = findDesc s r i := by
  have hfail (l : List ShardBag) (m : List WaitBag) (u : State) :
      NoneEnded u (forAll l (fun x => failStream x.stream st) (forAll m (fun x => failStream x.stream st) u)) :=
    (noneEnded_failAll WaitBag.stream st m u).trans (noneEnded_failAll ShardBag.stream st l _)
  unfold failBags
  refine ⟨?_, fun r i => (hfail _ _ _).findDesc r i⟩
  rw [(hfail _ _ _).getTable]
  exact (getTable_onTable_some hg (fun t => { t with waiting := [] }) :)

/-- A cancelled apply is scheduled no longer, and ends its own descriptor alone. -/
theorem cancelApply_spec {tid : Nat} {s : State} {tb : Table} (hg : getTable s tid = some tb) (st : Nat) :
    getTable (cancelApply tid st s) tid = some { tb with sched := none }
      ∧ (∀ r i, (∀ c, tb.sched = some c → c.desc ≠ some (r, i)) → findDesc (cancelApply tid st s) r i = findDesc s r i) := by
  simp only [cancelApply, hg]
  cases hs : tb.sched with
  | none => exact ⟨by rw [hg, ← hs], fun _ _ _ => rfl⟩
  | some c =>
    have hon := getTable_onTable_some hg (fun t => { t with sched := none })
    dsimp only [reportApply]
    cases hd : c.desc with
    | none =>
      have hsent := noneEnded_originate (embCtl 0x55 tb.info.table c.step 0 st none false false (tb.info.owner.getD 0) c.job)
        (onTable tid (fun t => { t with sched := none }) s)
      exact ⟨(hsent.getTable tid).trans hon, fun r i _ => hsent.findDesc r i⟩
    | some ri =>
      refine ⟨?_, fun r i hne => findDesc_finishDesc_ne _ st 0 fun h => hne c rfl (by rw [hd, h])⟩
      exact (getTable_finishDesc ri st 0 _ tid).trans hon

/-- After TABLE_DESTROY the table is in DESTROYING: as it was while its apply runs, else without bags and apply; the descriptor
itself stands accepted. -/
theorem destroyTable_spec {tid r i : Nat} {s : State} {tb : Table} (hg : getTable s tid = some tb) (hq : tb.quiescer ≠ some (r, i))
    (begun : Bool) (hd : begun = false → ∀ c, tb.sched = some c → c.desc ≠ some (r, i)) :
    getTable (destroyTable tid (r, i) begun s) tid = some (let u := { doomed (r, i) tb with quiescer := none }
        if begun then u else { u with waiting := [], sched := none })
      ∧ findDesc (destroyTable tid (r, i) begun s) r i = findDesc s r i := by
  obtain ⟨hg₁, hd₁⟩ := endQuiesce_spec (getTable_onTable_some hg (doomed (r, i))) stABORTED
  have hd₁ := hd₁ r i hq
  unfold destroyTable
  cases begun with
  | true => exact ⟨hg₁, hd₁⟩
  | false =>
    obtain ⟨hg₂, hd₂⟩ := failBags_spec hg₁ stABORTED
    obtain ⟨hg₃, hd₃⟩ := cancelApply_spec hg₂ stABORTED
    exact ⟨hg₃, (hd₃ r i (hd rfl)).trans ((hd₂ r i).trans hd₁)⟩

theorem exec_tableDestroy_waits {s : State} {r i : Nat} {d : Desc} {tb : Table} (hg : getTable s (fld d.op 15 0) = some tb)
    (ha : fld d.op 383 320 % 32 = 0) (hc : coveAllowed s d.func tb.info.cove = true)
    (hr : ringBehind s (5, fld d.op 15 0) d.ring = false) (hb : tableBehind s d.op = false) (hm : tableMust s d.op = false)
    (h : Ready s r i 0x3F d) (hf : onlyBits d.op [(15, 0)] = true) (hs : tb.state ≠ .destroying) (hq : tb.quiescer ≠ some (r, i))
    {begun : Bool} (hbegun : (tb.sched.map (·.begun)).getD false = begun)
    (hd : begun = false → ∀ c, tb.sched = some c → c.desc ≠ some (r, i)) :
    ∃ t e, exec (.tableDestroy r i) s = .next t ∧ getTable t (fld d.op 15 0) = some (let u := { doomed (r, i) tb with quiescer := none }
        if begun then u else { u with waiting := [], sched := none })
      ∧ findDesc t r i = some e ∧ e.stage = .draining := by
  obtain ⟨hg', hd'⟩ := destroyTable_spec hg hq begun hd
  obtain ⟨e, he, hstage⟩ := findDesc_settleDesc_wait (st := .draining) (s := noteWrote (5, fld d.op 15 0) d.ring (tableBump d.op
    (destroyTable (fld d.op 15 0) (r, i) begun s))) (hd'.trans h.1) [] (by decide)
  have hexec := exec_tableDestroy hg ha hc hr hb hm h hf hs
  rw [hbegun] at hexec
  refine ⟨_, e, hexec, ?_, he, hstage⟩
  rw [getTable_settleDesc, getTable_noteWrote, getTable_tableBump, hg']

/-! ### The ends of quiescing and destroying (R182) -/

theorem exec_tableQuiesced {s : State} {tid : Nat} {tb : Table} (hl : regsLive s = true) (hg : getTable s tid = some tb)
    (hq : tableQuiet s tb = true) (hs : tb.state = .quiescing) :
    exec (.tableQuiesced tid) s = .next (endQuiesce tid 0x00 (onTable tid (fun t => { t with state := .quiesced }) s)) := by
  show Host.Outcome.next (whenLive (doTableQuiesced tid) s) = _
  simp [whenLive, doTableQuiesced, hl, hg, hq, hs, stDONE]

/-- Nothing is left of a table: neither its entry nor its Rockpool lines. -/
def dropTable (tid : Nat) (s : State) : State :=
  noteIdle (usedRegions s) (onEmb (fun e => { e with tables := mdel e.tables tid }) (rpDrop tid (fun _ => true) s))

theorem exec_tableDestroyDone {s : State} {tid : Nat} {tb : Table} (hl : regsLive s = true) (hg : getTable s tid = some tb)
    (hq : tableQuiet s tb = true) (hs : tb.state = .destroying) :
    exec (.tableDestroyDone tid) s = .next (forAll tb.destroyers (fun ri => finishDesc ri 0x00 0) (dropTable tid s)) := by
  show Host.Outcome.next (whenLive (doTableDestroyDone tid) s) = _
  simp [whenLive, doTableDestroyDone, dropTable, hl, hg, hq, hs, stDONE]

theorem dropTable_spec (tid : Nat) (s : State) : getTable (dropTable tid s) tid = none
    ∧ (∀ q, q ≠ tid → getTable (dropTable tid s) q = getTable s q) ∧ ∀ e ∈ (dropTable tid s).emb.rockpool, e.2.table ≠ tid := by
  refine ⟨mget_mdel_same _ _, fun q hq => mget_mdel_ne _ _ _ hq.symm, fun e he => ?_⟩
  have hkept := (List.mem_filter.mp (show e ∈ s.emb.rockpool.filter _ from he)).2
  simpa using hkept

/-- Settles O24: each descriptor by the equation of its work, TABLE_DESTROY by `destroyTable_spec`. -/
theorem tablesAreInstalledAndChanged : Obligations.TablesAreInstalledAndChanged := by
  unfold Obligations.TablesAreInstalledAndChanged
  refine ⟨⟨fun s r i d data h hr hb => ?_, fun s r i d data h hr hb hm => exec_shardMap h hr hb hm⟩,
    fun s r i d tb hg ha hc hr hb hm => ⟨fun data h hf => exec_tableSet hg ha hc hr hb hm h hf, fun h hf => ?_, fun h hf => ?_,
      fun h hf hs hq => ?_⟩, fun s tid tb hl hg hq => ⟨fun hs => ?_, fun hs => ?_⟩⟩
  · refine ⟨fun hbad => exec_tableInstall_fails h hr hb (by decide) (rawTableInstall_refused hbad), fun hok hc => ?_,
      fun hok hc hfit => ?_, fun hok hc hfit hm => ?_⟩
    · exact exec_tableInstall_fails h hr hb (by decide) ((rawTableInstall_accepted hok).trans (if_pos hc))
    · exact exec_tableInstall_fails h hr hb (by decide)
        ((rawTableInstall_accepted hok).trans ((if_neg (by simp [hc])).trans (if_pos hfit)))
    · exact exec_tableInstall_installs h hr hb hm hok hc hfit
  · refine ⟨fun hs => by rw [exec_tableQuiesce hg ha hc hr hb hm h hf, if_pos hs], fun hs => ?_⟩
    obtain ⟨t, e, hexec, htable, hdesc⟩ := exec_tableQuiesce_waits hg ha hc hr hb hm h hf hs
    exact ⟨t, _, e, hexec, htable, rfl, hdesc⟩
  · refine ⟨fun hs => by rw [exec_tableResume hg ha hc hr hb hm h hf, if_pos hs], fun hs hn => ?_⟩
    rw [exec_tableResume hg ha hc hr hb hm h hf, if_neg (by simp [hs]),
      beginApply_unscheduled (getTable_onTable_some hg (fun t => { t with state := .active })) hn]
  · refine ⟨fun c hsched hbegun => ?_, fun hidle => ?_⟩
    · obtain ⟨t, e, hexec, htable, hdesc⟩ := exec_tableDestroy_waits hg ha hc hr hb hm h hf hs hq (begun := true)
        (by rw [hsched, Option.map_some, Option.getD_some, hbegun]) (by simp)
      exact ⟨t, _, e, hexec, htable, rfl, hsched, rfl, List.mem_append_right _ (List.mem_singleton_self _), hdesc⟩
    · have hbegun : (tb.sched.map (·.begun)).getD false = false := by
        cases hc : tb.sched with
        | none => rfl
        | some c => exact (hidle c hc).1
      obtain ⟨t, e, hexec, htable, hdesc⟩ := exec_tableDestroy_waits hg ha hc hr hb hm h hf hs hq hbegun
        fun _ c hc => (hidle c hc).2
      exact ⟨t, _, e, hexec, htable, rfl, rfl, rfl, List.mem_append_right _ (List.mem_singleton_self _), hdesc⟩
  · have hexec := exec_tableQuiesced hl hg hq hs
    have hon := getTable_onTable_some hg (fun t => { t with state := .quiesced })
    refine ⟨fun ri hri => ?_, fun hri => ?_⟩
    · rw [hexec, endQuiesce, hon, Option.bind_some, hri]
    · rw [hexec, endQuiesce, hon, Option.bind_some, hri]
  · exact ⟨_, exec_tableDestroyDone hl hg hq hs, dropTable_spec tid s⟩

end Sys2Proof.Machine
end

/-! ## The rows of a table, and the descriptors that move them (R145, R147, R165, R179, R180) -/

section
namespace Sys2Proof.Machine

/-! ### Spaces -/

@[simp] theorem spaceOf_setSpace_same (m : Memory) (t : Table) : ∀ sp, spaceOf (setSpace sp m t) sp = m
  | 0 | 1 | 2 | _ + 3 => rfl

theorem spaceOf_setSpace_ne {sp q : Nat} (hsp : sp < 4) (hq : q < 4) (h : q ≠ sp) (m : Memory) (t : Table) :
    spaceOf (setSpace sp m t) q = spaceOf t q := by
  interval_cases sp <;> interval_cases q <;> simp_all [setSpace, spaceOf]

/-- `t'` differs from `t` in the bytes of its spaces alone. -/
def SpacesOnly (t t' : Table) : Prop :=
  t' = { t with space0 := t'.space0, space1 := t'.space1, space2 := t'.space2, space3 := t'.space3 }

theorem SpacesOnly.trans {t u v : Table} (h : SpacesOnly t u) (k : SpacesOnly u v) : SpacesOnly t v := by
  unfold SpacesOnly at *
  rw [k, h]

theorem SpacesOnly.info {t t' : Table} (h : SpacesOnly t t') : t'.info = t.info := by rw [h]

theorem spacesOnly_putRow (sp row : Nat) (b : List Byte) (t : Table) : SpacesOnly t (putRow sp row b t) := by
  unfold putRow setSpace
  split <;> rfl

/-! ### Where rows lie (R145, R147) -/

@[simp] theorem sliceB_length (l : List Byte) (off n : Nat) : (sliceB l off n).length = n := by simp [sliceB]

@[simp] theorem normRow_length (r : TableRec) (sp : Nat) (b : List Byte) : (normRow r sp b).length = spaceStride r sp := by simp [normRow]

theorem elemSize_le (c : Nat) : elemSize c ≤ 8 := by
  unfold elemSize
  split <;> decide

/-- A row of at most 1,024 elements takes at most 8,192 bytes. -/
theorem spaceStride_le {r : TableRec} (hd : r.dim ≤ 1024) (sp : Nat) : spaceStride r sp ≤ 8192 := by
  have hbytes : spaceBytes r sp ≤ 8192 := by
    unfold spaceBytes
    split
    · by_cases h8 : r.rfmt = 8
      · rw [if_pos h8, h8, show elemSize 8 = 1 from rfl]
        omega
      · rw [if_neg h8]
        have := Nat.mul_le_mul hd (elemSize_le r.rfmt)
        omega
    · split <;> omega
  unfold spaceStride ceilDiv
  omega

theorem rowPlace_eq (r : TableRec) (sp row : Nat) : rowPlace r sp row = row % 2 * 2 ^ 52 + row / 2 * spaceStride r sp := by
  unfold rowPlace rowStack rowOffset
  congr 2
  omega

/-- Two rows of a space do not overlap: rows of one stack lie a stride apart, and no row reaches the bytes of the odd stack. -/
theorem rowPlace_apart {r : TableRec} (hd : r.dim ≤ 1024) (sp : Nat) {row row' : Nat} (h : row < 2 ^ 40) (h' : row' < 2 ^ 40)
    (hne : row ≠ row') : rowPlace r sp row + spaceStride r sp ≤ rowPlace r sp row'
      ∨ rowPlace r sp row' + spaceStride r sp ≤ rowPlace r sp row := by
  have hst := spaceStride_le hd sp
  rw [rowPlace_eq, rowPlace_eq]
  generalize spaceStride r sp = st at hst ⊢
  have hend {x : Nat} (hx : x < 2 ^ 40) : x / 2 * st + st ≤ 2 ^ 52 :=
    calc x / 2 * st + st = (x / 2 + 1) * st := by rw [Nat.add_mul, Nat.one_mul]
      _ ≤ 2 ^ 39 * 8192 := Nat.mul_le_mul (by omega) hst
      _ = 2 ^ 52 := by norm_num
  have hnext {x y : Nat} (hxy : x < y) : x * st + st ≤ y * st :=
    calc x * st + st = (x + 1) * st := by rw [Nat.add_mul, Nat.one_mul]
      _ ≤ y * st := Nat.mul_le_mul_right st hxy
  have hrow := hend h
  have hrow' := hend h'
  rcases Nat.lt_trichotomy (row % 2) (row' % 2) with hlt | heq | hgt
  · omega
  · rcases Nat.lt_or_gt_of_ne (show row / 2 ≠ row' / 2 by omega) with hlt | hgt
    · have := hnext hlt
      omega
    · have := hnext hgt
      omega
  · omega

theorem rowBytes_putRow_same (sp row : Nat) (b : List Byte) (t : Table) : rowBytes (putRow sp row b t) sp row = normRow t.info sp b := by
  rw [rowBytes, (spacesOnly_putRow sp row b t).info, bareBytes_genParity, putRow, spaceOf_setSpace_same]
  conv => lhs; rw [← normRow_length t.info sp b]
  exact memReadN_memWriteN _ _ _

theorem rowBytes_putRow_ne {sp row row' : Nat} {t : Table} (hd : t.info.dim ≤ 1024) (h : row < 2 ^ 40) (h' : row' < 2 ^ 40)
    (hne : row ≠ row') (b : List Byte) : rowBytes (putRow sp row b t) sp row' = rowBytes t sp row' := by
  rw [rowBytes, rowBytes, (spacesOnly_putRow sp row b t).info, putRow, spaceOf_setSpace_same, memReadN_memWriteN_outside]
  rw [normRow_length]
  exact (rowPlace_apart hd sp h h' hne).symm

/-! ### Rows written one after another -/

/-- The rows from `first`, `n` of them, set to the `st`-byte pieces of `data`. -/
def putRows (sp first st : Nat) (data : List Byte) (n : Nat) (t : Table) : Table :=
  (List.range n).foldl (fun t k => putRow sp (first + k) (sliceB data (k * st) st) t) t

section
variable {sp first st n : Nat} {data : List Byte} {t : Table}

theorem putRows_succ : putRows sp first st data (n + 1) t
    = putRow sp (first + n) (sliceB data (n * st) st) (putRows sp first st data n t) := by
  rw [putRows, List.range_succ, List.foldl_append]
  rfl

theorem spacesOnly_putRows : ∀ n, SpacesOnly t (putRows sp first st data n t)
  | 0 => rfl
  | n + 1 => by
    rw [putRows_succ]
    exact (spacesOnly_putRows n).trans (spacesOnly_putRow _ _ _ _)

theorem spaceOf_putRows_ne (hsp : sp < 4) {q : Nat} (hq : q < 4) (h : q ≠ sp) :
    ∀ n, spaceOf (putRows sp first st data n t) q = spaceOf t q
  | 0 => rfl
  | n + 1 => by rw [putRows_succ, putRow, spaceOf_setSpace_ne hsp hq h, spaceOf_putRows_ne hsp hq h n]

variable (hd : t.info.dim ≤ 1024)
include hd

theorem rowBytes_putRows_outside {row : Nat} (hrow : row < 2 ^ 40) :
    ∀ n, first + n ≤ 2 ^ 40 → row < first ∨ first + n ≤ row → rowBytes (putRows sp first st data n t) sp row = rowBytes t sp row
  | 0, _, _ => rfl
  | n + 1, hn, hout => by
    have hinfo := (spacesOnly_putRows (sp := sp) (first := first) (st := st) (data := data) (t := t) n).info
    rw [putRows_succ, rowBytes_putRow_ne (by rw [hinfo]; exact hd) (by omega) hrow (by omega)]
    exact rowBytes_putRows_outside hrow n (by omega) (by omega)

theorem rowBytes_putRows_inside {k : Nat} : ∀ n, first + n ≤ 2 ^ 40 → k < n →
    rowBytes (putRows sp first st data n t) sp (first + k) = normRow t.info sp (sliceB data (k * st) st)
  | n + 1, hn, hk => by
    have hinfo := (spacesOnly_putRows (sp := sp) (first := first) (st := st) (data := data) (t := t) n).info
    rw [putRows_succ]
    rcases Nat.lt_succ_iff_lt_or_eq.mp hk with hlt | rfl
    · rw [rowBytes_putRow_ne (by rw [hinfo]; exact hd) (by omega) (by omega) (by omega)]
      exact rowBytes_putRows_inside n (by omega) hlt
    · rw [rowBytes_putRow_same, hinfo]

end

/-! ### The descriptors -/

theorem getTable_rpDrop (tid : Nat) (f : Nat → Bool) (s : State) (q : Nat) : getTable (rpDrop tid f s) q = getTable s q := rfl

/-- A table whose rows have been written: rows of space 0 leave Rockpool. -/
def rowsWritten (tid sp first n : Nat) (tb : Table) (s : State) : State :=
  let u := onTable tid (fun _ => tb) s
  if sp = 0 then rpDrop tid (fun r => decide (first ≤ r ∧ r < first + n)) u else u

theorem getTable_rowsWritten (tid sp first n : Nat) (tb : Table) (s : State) (q : Nat) :
    getTable (rowsWritten tid sp first n tb s) q = getTable (onTable tid (fun _ => tb) s) q := by
  unfold rowsWritten
  dsimp only
  split <;> rfl

theorem rowsWritten_uncached {sp : Nat} (hsp : sp = 0) (tid first n : Nat) (tb : Table) (s : State) :
    ∀ e ∈ (rowsWritten tid sp first n tb s).emb.rockpool, e.2.table = tid → e.2.row < first ∨ first + n ≤ e.2.row := by
  subst hsp
  intro e he ht
  have hkept := (List.mem_filter.mp (show e ∈ s.emb.rockpool.filter _ from he)).2
  simp only [ht, beq_self_eq_true, Bool.true_and, Bool.not_eq_true', decide_eq_false_iff_not] at hkept
  omega

section
variable {s : State} {r i : Nat} {d : Desc} {tb : Table} (hg : getTable s (fld d.op 15 0) = some tb) (ha : fld d.op 383 320 % 32 = 0)
  (hc : coveAllowed s d.func tb.info.cove = true)
include hg ha hc

theorem exec_tableWrite {data : List Byte} (h : Ready s r i 0x39 d)
    (hf : onlyBits d.op [(15, 0), (383, 320), (319, 288), (191, 152), (151, 120), (119, 118)] = true) :
    let sp := fld d.op 119 118
    let first := fld d.op 191 152
    let n := fld d.op 151 120
    let st := spaceStride tb.info sp
    exec (.tableWrite r i data) s = .next (
      if atRest tb = false then answer d 0x0B 0 s
      else if rowsOk tb d.op = false then answer d 0x09 0 s
      else answer d 0x00 0 (countN (kDie tb.info.die iHBM_WR) (n * st)
        (rowsWritten (fld d.op 15 0) sp first n (putRows sp first st data n tb) s))) := by
  refine congrArg Host.Outcome.next ((runDesc_ready h workTableWrite data).trans ?_)
  rw [workTableWrite, rowFields, tableWork_named hf ha hg hc]
  simp only [Bool.not_eq_true]
  split
  · rfl
  · split <;> rfl

theorem exec_tableRead (h : Ready s r i 0x3A d)
    (hf : onlyBits d.op [(15, 0), (383, 320), (319, 288), (191, 152), (151, 120), (119, 118)] = true) :
    let sp := fld d.op 119 118
    let first := fld d.op 191 152
    let n := fld d.op 151 120
    exec (.tableRead r i) s = .next (
      if atRest tb = false then answer d 0x0B 0 s
      else if rowsOk tb d.op = false then answer d 0x09 0 s
      else answer d 0x00 0 (countN (kDie tb.info.die iHBM_RD) (n * spaceStride tb.info sp)
        (hostWrite d.func (fld d.op 383 320) ((List.range n).flatMap (fun k => rowBytes tb sp (first + k))) s))) := by
  refine congrArg Host.Outcome.next ((runDesc_ready h workTableRead []).trans ?_)
  rw [workTableRead, rowFields, tableWork_named hf ha hg hc]
  simp only [Bool.not_eq_true]
  split
  · rfl
  · split <;> rfl

theorem exec_tableQuery (h : Ready s r i 0x41 d) (hf : onlyBits d.op [(15, 0), (383, 320), (319, 288)] = true) :
    exec (.tableQuery r i) s = .next (
      if fld d.op 319 288 < 128 then answer d 0x09 0 s
      else answer d 0x00 0 (hostWrite d.func (fld d.op 383 320) (recBytes tb.info tb.applied) s)) := by
  refine congrArg Host.Outcome.next ((runDesc_ready h workTableQuery []).trans ?_)
  rw [workTableQuery, tableWork_named hf ha hg hc]
  split <;> rfl

end

theorem fld_lt {n : Nat} (x : BitVec n) (hi lo : Nat) : fld x hi lo < 2 ^ (hi + 1 - lo) := Nat.mod_lt _ (Nat.two_pow_pos _)

/-- Settles O25: the equations of the three descriptors, and `rowBytes_putRows_inside` and `rowBytes_putRows_outside` for the rows
that a write sets and leaves. -/
theorem tableRowsAreWrittenAndRead : Obligations.TableRowsAreWrittenAndRead := by
  unfold Obligations.TableRowsAreWrittenAndRead
  intro s r i d tb tid sp first n st hg ha hc
  refine ⟨fun data h hf => ?_, fun h hf => exec_tableRead hg ha hc h hf, fun h hf => exec_tableQuery hg ha hc h hf⟩
  have hexec := exec_tableWrite hg ha hc (data := data) h hf
  refine ⟨fun hrest => by rw [hexec, if_pos hrest], fun hrest hok => by rw [hexec, if_neg (ne_false_of_eq_true hrest), if_pos hok],
    fun hrest hok hrows hdim => ?_⟩
  have hend : first + n ≤ 2 ^ 40 := by
    simp only [rowsOk, Bool.and_eq_true, decide_eq_true_eq] at hok
    exact hok.1.2.trans hrows
  have hsp : sp < 4 := fld_lt d.op 119 118
  have honly := spacesOnly_putRows (sp := sp) (first := first) (st := st) (data := data) (t := tb) n
  dsimp only at hexec
  rw [if_neg (ne_false_of_eq_true hrest), if_neg (ne_false_of_eq_true hok)] at hexec
  have htable (q : Nat) : getTable (countN (kDie tb.info.die iHBM_WR) (n * st) (rowsWritten tid sp first n (putRows sp first st data n tb) s)) q
      = getTable (onTable tid (fun _ => putRows sp first st data n tb) s) q :=
    (getTable_congr (by rw [countN_emb]) q).trans (getTable_rowsWritten _ _ _ _ _ _ q)
  refine ⟨_, putRows sp first st data n tb, hexec, (htable tid).trans (getTable_onTable_some hg _), honly.info, ?_, ?_, ?_,
    fun k hk => rowBytes_putRows_inside hdim n hend hk, fun row hrow hout => rowBytes_putRows_outside hdim hrow n hend hout,
    fun q hq hne => spaceOf_putRows_ne hsp hq hne n, fun q hq => (htable q).trans (getTable_onTable_ne _ _ _ _ hq.symm), fun h0 => ?_⟩
  · rw [honly]
  · rw [honly]
  · rw [honly]
  · rw [countN_emb]
    exact rowsWritten_uncached h0 tid first n _ s

end Sys2Proof.Machine
end

/-! ## A bag or gradient in one packet, at its table (R149 to R157, R166 to R172, R233, R282, R294) -/

section
namespace Sys2Proof.Machine

/-! ### What is built on a die (R282) -/

/-- Where every new packet has been noted, nothing more is noted. -/
theorem builtOn_noted {d : Nat} {f : State → State} {s : State}
    (h : ∀ k ∈ (f s).route.outbox.drop s.route.outbox.length, (f s).route.built.any (noteIs k) = true) : builtOn d f s = f s := by
  have hnone : ((f s).route.outbox.drop s.route.outbox.length).filter (fun k => !(f s).route.built.any (noteIs k)) = [] :=
    List.filter_eq_nil_iff.mpr fun k hk => by rw [h k hk]; exact Bool.false_ne_true
  simp only [builtOn, onRoute, hnone, List.map_nil, List.append_nil]

/-- What is noted depends on the outcome and on how many packets waited before. -/
theorem builtOn_congr {d : Nat} {f g : State → State} {s t : State} (h : f s = g t)
    (hlen : t.route.outbox.length = s.route.outbox.length) : builtOn d f s = builtOn d g t := by
  simp only [builtOn, h, hlen]

theorem noteIs_noteOf (k : Packet) (n : Nat) (b : Bool) : noteIs k (noteOf k n b) = true := by simp [noteIs, noteOf]

/-- A packet originated on a die is noted there. -/
theorem builtOn_originate_notes (d : Nat) (k : Packet) (s : State) :
    ∀ n ∈ (builtOn d (originate k) s).route.outbox.drop s.route.outbox.length,
      (builtOn d (originate k) s).route.built.any (noteIs n) = true := by
  have hout : (originate k s).route.outbox.drop s.route.outbox.length = [(numberPkt k s).1] := List.drop_left ..
  intro n hn
  rw [builtOn_outbox, hout, List.mem_singleton] at hn
  subst hn
  by_cases hb : (originate k s).route.built.any (noteIs (numberPkt k s).1) = true
  · simp only [builtOn, onRoute, List.any_append, hb, Bool.true_or]
  · simp only [builtOn, onRoute, hout, List.any_append]
    simp [hb, noteIs_noteOf]

/-- EMB_FAIL of a stream of an installed table, on whatever die it is asked for: counted, and built on the table's die. -/
theorem builtOn_failStream {s : State} {x : Stream} {tb : Table} (hg : getTable s (emTable x.sub) = some tb) (d st : Nat) :
    builtOn d (failStream x st) s = freeAll x.bufs (builtOn tb.info.die
      (originate (embCtl 0x51 (emTable x.sub) (emStep x.sub) (emBag x.sub) st none false false x.src x.job))
      (count (kTable (emTable x.sub) iEMB_FAILS) s)) := by
  have hdie : tableDie (count (kTable (emTable x.sub) iEMB_FAILS) s) (emTable x.sub) = tb.info.die := by
    rw [tableDie, (getTable_congr (by rw [count_emb]) _).trans hg]
    rfl
  have hfail : failStream x st s = freeAll x.bufs (builtOn tb.info.die
      (originate (embCtl 0x51 (emTable x.sub) (emStep x.sub) (emBag x.sub) st none false false x.src x.job))
      (count (kTable (emTable x.sub) iEMB_FAILS) s)) := by
    rw [failStream, embFailTo_eq, hg, Option.isSome_some, onlyIf_true]
    dsimp only
    rw [hdie]
  rw [← hfail]
  refine builtOn_noted ?_
  have hnotes := builtOn_originate_notes tb.info.die
    (embCtl 0x51 (emTable x.sub) (emStep x.sub) (emBag x.sub) st none false false x.src x.job) (count (kTable (emTable x.sub) iEMB_FAILS) s)
  rw [hfail, freeAll_route]
  rwa [count_route] at hnotes

/-! ### Rockpool on the way (R163 to R165) -/

/-- `t` differs from `s` in the host interface, the counters and Rockpool alone. -/
def CacheOnly (s t : State) : Prop := t = { s with
  host := t.host, obs := t.obs, emb := { s.emb with rockpool := t.emb.rockpool, missed := t.emb.missed } }

theorem CacheOnly.refl (s : State) : CacheOnly s s := rfl

theorem CacheOnly.trans {s t u : State} (h : CacheOnly s t) (k : CacheOnly t u) : CacheOnly s u := by
  unfold CacheOnly at *
  rw [k, h]

theorem HostOnly.cacheOnly {s t : State} (h : HostOnly s t) : CacheOnly s t := by
  unfold HostOnly at h
  unfold CacheOnly
  rw [h]

theorem cacheOnly_forAll {α : Type} {f : α → State → State} (h : ∀ x u, CacheOnly u (f x u)) :
    ∀ (l : List α) (s : State), CacheOnly s (forAll l f s)
  | [], _ => rfl
  | x :: r, s => (h x s).trans (cacheOnly_forAll h r (f x s))

theorem cacheOnly_count (k : CKey) (s : State) : CacheOnly s (count k s) := (hostOnly_count s k).cacheOnly
theorem cacheOnly_countN (k : CKey) (n : Nat) (s : State) : CacheOnly s (countN k n s) := (hostOnly_countN s k n).cacheOnly

section
variable {s t : State} (h : CacheOnly s t)
include h

theorem CacheOnly.route : t.route = s.route := by rw [h]
theorem CacheOnly.groups : t.groups = s.groups := by rw [h]
theorem CacheOnly.tide : t.tide = s.tide := by rw [h]
theorem CacheOnly.part : t.part = s.part := by rw [h]
theorem CacheOnly.tables : t.emb.tables = s.emb.tables := by rw [h]
theorem CacheOnly.shardBags : t.emb.shardBags = s.emb.shardBags := by rw [h]
theorem CacheOnly.getTable (q : Nat) : getTable t q = getTable s q := getTable_congr h.tables q

end

theorem cacheOnly_setRockpool (f : Emb → List (Nat × RpLine)) (s : State) :
    CacheOnly s (onEmb (fun e => { e with rockpool := f e }) s) := rfl

theorem cacheOnly_setMissed (f : Emb → List (Nat × Nat × Nat × Nat)) (s : State) :
    CacheOnly s (onEmb (fun e => { e with missed := f e }) s) := rfl

theorem cacheOnly_rpFill (r : TableRec) (row : Nat) (s : State) : CacheOnly s (rpFill r row s) := by
  unfold rpFill
  dsimp only
  split
  · exact CacheOnly.refl s
  · split
    · exact CacheOnly.refl s
    · exact cacheOnly_setRockpool _ s

theorem cacheOnly_touchRow (r : TableRec) (row : Nat) (s : State) : CacheOnly s (touchRow r row s) := by
  unfold touchRow
  dsimp only
  split
  · exact (cacheOnly_setRockpool _ s).trans (cacheOnly_count _ _)
  · have hmiss := (cacheOnly_count (kDie r.die iRP_MISS) s).trans (cacheOnly_countN (kDie r.die iHBM_RD) (spaceStride r 0) _)
    split
    · exact hmiss.trans ((cacheOnly_setMissed _ _).trans (cacheOnly_rpFill _ _ _))
    · exact hmiss.trans (cacheOnly_setMissed _ _)

/-! ### A whole stream in one packet (R152, R153) -/

/-- The stream that a packet is by itself. -/
def wholeStream (port : Nat) (p : Packet) (bufs : List (Nat × Nat)) : Stream :=
  { src := p.src, sub := p.sub, job := p.job, next := 1, bytes := p.data, port := port, bufs := bufs }

theorem keepEmb_frame (d : Nat) (bufs : List (Nat × Nat)) (s : State) :
    keepEmb d bufs s = { s with shoal := { s.shoal with stored := (keepEmb d bufs s).shoal.stored } } := by
  unfold keepEmb
  induction bufs generalizing s with
  | nil => rfl
  | cons e r ih => exact (ih _).trans rfl

theorem noteBagTurn_frame (p : Packet) (s : State) :
    noteBagTurn p s = { s with part := { s.part with turns := (noteBagTurn p s).part.turns } } := by
  unfold noteBagTurn
  split <;> rfl

/-- A packet that is both first and last piece of its stream is the whole stream, and full. -/
theorem gather_whole {p : Packet} {s : State} (h0 : emPiece p.sub = 0) (hl : emLast p.sub = true)
    (hn : ∀ x ∈ s.emb.streams, sameStream p.src p.sub x = false) (d port : Nat) (bufs : List (Nat × Nat)) :
    gather d p.src p.job port p bufs s = (keepEmb d bufs s, some (wholeStream port p bufs, true)) := by
  have hold : s.emb.streams.find? (sameStream p.src p.sub) = none := List.find?_eq_none.mpr fun x hx => by simp [hn x hx]
  have hkept : s.emb.streams.filter (fun x => !sameStream p.src p.sub x) = s.emb.streams :=
    List.filter_eq_self.mpr fun x hx => by simp [hn x hx]
  have hsame : onEmb (fun e => { e with streams := e.streams.filter (fun x => !sameStream p.src p.sub x) }) s = s := by
    simp only [onEmb, hkept]
  unfold gather
  simp only [hsame, hold, h0, hl, if_true]
  rfl

/-- An embedding packet that is a whole stream, and that a pool array of its table takes now (R153, R233, R294). -/
structure TakenWhole (s : State) (port : Nat) (p : Packet) (tb : Table) : Prop where
  engine : engineFor s port p = true
  codes : emCodesOk p.sub = true
  notSplit : emSplit p.sub = false
  admits : portDenies s port p = false
  self : p.dst = selfEpid s
  ready : paReady s (emTable p.sub) = true
  fits : embFits s tb.info.die (deliveredAt s port p) = true
  turn : bagWaits s p = false
  first : emPiece p.sub = 0
  last : emLast p.sub = true
  fresh : ∀ x ∈ s.emb.streams, sameStream p.src p.sub x = false
  table : getTable s (emTable p.sub) = some tb

/-- The state in which a pool array works on a packet it has taken. -/
def bagTaken (die port : Nat) (p : Packet) (s : State) : State :=
  keepEmb die (deliveredAt s port p) (noteBagTurn p (takeDelivered port p s))

theorem bagTaken_frame (die port : Nat) (p : Packet) (s : State) : bagTaken die port p s = { s with
    part := { s.part with turns := (bagTaken die port p s).part.turns },
    shoal := { s.shoal with stored := (bagTaken die port p s).shoal.stored }, route := (takeDelivered port p s).route } := by
  unfold bagTaken
  rw [keepEmb_frame, noteBagTurn_frame]
  rfl

@[simp] theorem bagTaken_route (die port : Nat) (p : Packet) (s : State) :
    (bagTaken die port p s).route = (takeDelivered port p s).route := by rw [bagTaken_frame]
@[simp] theorem bagTaken_groups (die port : Nat) (p : Packet) (s : State) : (bagTaken die port p s).groups = s.groups := by rw [bagTaken_frame]
@[simp] theorem bagTaken_emb (die port : Nat) (p : Packet) (s : State) : (bagTaken die port p s).emb = s.emb := by rw [bagTaken_frame]
@[simp] theorem bagTaken_tide (die port : Nat) (p : Packet) (s : State) : (bagTaken die port p s).tide = s.tide := by rw [bagTaken_frame]
@[simp] theorem bagTaken_disabled (die port : Nat) (p : Packet) (s : State) :
    (bagTaken die port p s).part.disabled = s.part.disabled := by rw [bagTaken_frame]; rfl
@[simp] theorem bagTaken_retired (die port : Nat) (p : Packet) (s : State) :
    (bagTaken die port p s).part.retired = s.part.retired := by rw [bagTaken_frame]
@[simp] theorem getTable_bagTaken (die port : Nat) (p : Packet) (s : State) (q : Nat) : getTable (bagTaken die port p s) q = getTable s q :=
  getTable_congr (by simp) q

theorem doEmbPiece_whole {s : State} {port : Nat} {p : Packet} {tb : Table} (h : TakenWhole s port p tb) {kind : Nat}
    (hk : emKind p.sub = kind) : doEmbPiece kind port p s = builtOn tb.info.die
      (takeStream port (coveOf s port p) true (wholeStream port p (deliveredAt s port p))) (bagTaken tb.info.die port p s) := by
  have hdie : embDie s (emTable p.sub) port = tb.info.die := by simp only [embDie, h.table]
  have hdie' : embDie (takeDelivered port p s) (emTable p.sub) port = tb.info.die := hdie
  have hgather := gather_whole h.first h.last (s := noteBagTurn p (takeDelivered port p s))
    (by rw [noteBagTurn_frame]; exact h.fresh) tb.info.die port (deliveredAt s port p)
  unfold doEmbPiece
  simp only [h.engine, h.codes, hk, h.notSplit, h.admits, h.self, h.ready, hdie, hdie', h.fits, h.turn, hgather]
  simp [bagTaken]

/-! ### What the table answers (R153, R172) -/

section
variable {u : State} {x : Stream} {tb : Table} (hg : getTable u (emTable x.sub) = some tb) (port : Nat)
include hg

theorem takeStream_unready {st : Nat} (hst : tableStatus (some tb) = some st) (cove : Nat) (full : Bool) :
    takeStream port cove full x u = failStream x st u := by
  simp only [takeStream, hg, hst]

variable (hs : tb.state = .active)
include hs

theorem takeStream_denied {cove : Nat} (hc : cove ≠ tb.info.cove) (full : Bool) :
    takeStream port cove full x u = failStream x stDENIED (onlyIf (decide (port < 768)) (count (kPort port iENG_DENY)) u) := by
  simp only [takeStream, hg, tableStatus, hs, if_pos hc]

theorem takeStream_bad (hbad : emDim x.sub ≠ tb.info.dim ∨ 4096 < emNidx x.sub ∨ x.bytes.length ≠ emLen x.sub) :
    takeStream port tb.info.cove true x u = failStream x stBAD u := by
  simp only [takeStream, hg, tableStatus, hs, ne_eq, not_true_eq_false, if_false]
  exact if_pos (by tauto)

variable (hdim : emDim x.sub = tb.info.dim) (hnidx : emNidx x.sub ≤ 4096) (hopt : emIsGrad x.sub = true → tb.info.opt ≠ 0)
  (hlen : x.bytes.length = emLen x.sub)
include hdim hnidx hopt hlen

theorem takeStream_admits : takeStream port tb.info.cove true x u = match admission tb (emStep x.sub) with
    | .pass => serve (emTable x.sub) x u
    | .wait => onTable (emTable x.sub) (fun t => { t with waiting :=
        t.waiting ++ [{ stream := { x with tag := mgetD u.emb.tags (emTable x.sub) 0 }, isGrad := emIsGrad x.sub }] }) u
    | .refuse st => if emKind x.sub = ekSUB_BAG then goApply (emTable x.sub) (failStream x st (dropShardBag x.src x.sub u))
        else failStream x st u := by
  have hfew : ¬ 4096 < emNidx x.sub := by omega
  simp only [takeStream, hg, tableStatus, hs, ne_eq, not_true_eq_false, if_false]
  refine (if_neg (by tauto)).trans ?_
  cases admission tb (emStep x.sub) <;> rfl

theorem takeStream_refused {st : Nat} (ha : admission tb (emStep x.sub) = .refuse st) (hk : emKind x.sub ≠ ekSUB_BAG) :
    takeStream port tb.info.cove true x u = failStream x st u := by
  rw [takeStream_admits hg port hs hdim hnidx hopt hlen, ha]
  exact if_neg hk

theorem takeStream_serves (ha : admission tb (emStep x.sub) = .pass) :
    takeStream port tb.info.cove true x u = serve (emTable x.sub) x u := by
  rw [takeStream_admits hg port hs hdim hnidx hopt hlen, ha]

end

/-! ### A bag served at its table (R150, R155 to R157, R160) -/

section
variable (s : State) (port : Nat) (p : Packet)

theorem exec_bag : exec (.bag port p) s = .next (doEmbPiece ekBAG port p s) := rfl
theorem exec_grad : exec (.grad port p) s = .next (doEmbPiece ekGRAD port p s) := rfl
theorem exec_subBag : exec (.subBag port p) s = .next (doEmbPiece ekSUB_BAG port p s) := rfl
theorem exec_subGrad : exec (.subGrad port p) s = .next (doEmbPiece ekSUB_GRAD port p s) := rfl

end

theorem serve_bag {x : Stream} (h : emIsGrad x.sub = false) (tid : Nat) : serve tid x = serveBag tid x :=
  if_neg (ne_true_of_eq_false h)

theorem serve_grad {x : Stream} (h : emIsGrad x.sub = true) (tid : Nat) : serve tid x = serveGrad tid x := if_pos h

/-- The rows that the indices of a stream name in a table, unless one is out of range (R149). -/
def rowsNamed (tb : Table) (b : BitVec 256) (d : List Byte) : Option (List Nat) :=
  allSome ((emIndices b d).map (translate tb.info.imode tb.info.rows tb.info.seed))

/-- The rows of a bag have been read, and it is counted. -/
def rowsRead (tid : Nat) (r : TableRec) (rows : List Nat) (u : State) : State :=
  countN (kTable tid iBAG_ROWS) rows.length (count (kTable tid iBAGS) (forAll rows (touchRow r) u))

theorem cacheOnly_rowsRead (tid : Nat) (r : TableRec) (rows : List Nat) (u : State) : CacheOnly u (rowsRead tid r rows u) :=
  ((cacheOnly_forAll (cacheOnly_touchRow r) rows u).trans (cacheOnly_count _ _)).trans (cacheOnly_countN _ _ _)

/-- A table that has given one more work to its pool arrays. -/
def servedOnce (t : Table) : Table := { t with touched := [], served := t.served + 1 }

section
variable {s t : State} {tb tb' : Table} (hd : t.part.disabled = s.part.disabled) (hr : t.part.retired = s.part.retired)
  (hi : tb'.info = tb.info) (hn : tb'.served = tb.served)
include hd hr hi hn

/-- Which pool array takes a table's next work rests on the part and on the table's record and count alone. -/
theorem poolArray_congr : poolArray t tb' = poolArray s tb := by
  have henabled : paEnabled t tb.info.die = paEnabled s tb.info.die := by
    funext r
    rw [paEnabled, paEnabled, hd, hr]
  rw [poolArray, poolArray, hi, hn, henabled]

theorem touchedNow_congr (hnow : t.tide = s.tide) (ht : tb'.touched = tb.touched) :
    touchedNow t tb' (poolArray t tb') = touchedNow s tb (poolArray s tb) := by
  rw [poolArray_congr hd hr hi hn, touchedNow, touchedNow, hnow, ht]

end

theorem takeTouched_table {tid : Nat} {s : State} {tb : Table} (hg : getTable s tid = some tb) :
    takeTouched tid s = (touchedNow s tb (poolArray s tb), onTable tid servedOnce s) := by
  simp only [takeTouched, hg]
  rfl

section
variable {tid : Nat} {u : State} {x : Stream} {tb : Table} (hg : getTable u tid = some tb)
include hg

theorem serveBag_outOfRange (hr : rowsNamed tb x.sub x.bytes = none) :
    serveBag tid x u = failStream x stBAD (count (kTable tid iEMB_OOR) u) := by
  rw [rowsNamed] at hr
  simp only [serveBag, hg, hr]

variable {rows : List Nat} (hr : rowsNamed tb x.sub x.bytes = some rows)
include hr

theorem serveBag_pooled (hk : emKind x.sub ≠ ekSUB_BAG) :
    let v := rowsRead tid tb.info rows u
    serveBag tid x u = freeAll x.bufs (emit {
        kind := ekPOOLED, pool := emPool x.sub, w96 := emW96 x.sub, vfmt := emVfmt x.sub, table := tid, step := emStep x.sub,
        bag := emBag x.sub, nidx := emNidx x.sub, ntot := emNtot x.sub, dim := tb.info.dim, empty := rows.isEmpty,
        recovered := touchedNow v tb (poolArray v tb) }
      ((poolBag tb.info x.sub (bagTerms tb.info (rows.map (rowBytes tb 0)) (emWeights x.sub x.bytes))).flatMap
        (bytesLE (elemSize (emVfmt x.sub)))) x.src x.job (onTable tid servedOnce v)) := by
  intro v
  have htaken := takeTouched_table (((cacheOnly_rowsRead tid tb.info rows u).getTable tid).trans hg)
  rw [rowsNamed] at hr
  simp only [serveBag, hg, hr, if_neg hk]
  rw [show countN (kTable tid iBAG_ROWS) rows.length (count (kTable tid iBAGS) (forAll rows (touchRow tb.info) u)) = v from rfl, htaken]

end

section
variable {s : State} {port : Nat} {p : Packet} {tb : Table} (h : TakenWhole s port p tb)
include h

/-- A whole stream that its table fails is answered by EMB_FAIL. -/
theorem doEmbPiece_fails {kind st : Nat} (hk : emKind p.sub = kind) {u : State} (hu : HostOnly (bagTaken tb.info.die port p s) u)
    (ht : takeStream port (coveOf s port p) true (wholeStream port p (deliveredAt s port p)) (bagTaken tb.info.die port p s)
      = failStream (wholeStream port p (deliveredAt s port p)) st u) :
    ∃ v, doEmbPiece kind port p s = freeAll (deliveredAt s port p) (builtOn tb.info.die
        (originate (embCtl 0x51 (emTable p.sub) (emStep p.sub) (emBag p.sub) st none false false p.src p.job)) v)
      ∧ v.route = (takeDelivered port p s).route ∧ v.groups = s.groups ∧ v.emb.tables = s.emb.tables := by
  have hg : getTable u (emTable p.sub) = some tb := by rw [hu.cacheOnly.getTable, getTable_bagTaken, h.table]
  have hcount := hu.cacheOnly.trans (cacheOnly_count (kTable (emTable p.sub) iEMB_FAILS) u)
  refine ⟨count (kTable (emTable p.sub) iEMB_FAILS) u, ?_, ?_, ?_, ?_⟩
  · rw [doEmbPiece_whole h hk, builtOn_congr ht (by rw [hu.cacheOnly.route]), builtOn_failStream (x := wholeStream _ _ _) hg]
    rfl
  · rw [hcount.route, bagTaken_route]
  · rw [hcount.groups, bagTaken_groups]
  · rw [hcount.tables, bagTaken_emb]

end

section
variable {s : State} {port : Nat} {p : Packet} {tb : Table} (h : TakenWhole s port p tb)
include h

/-- A bag in range is answered by the POOLED elements of its rows; of the table only what its pool arrays have done changes. -/
theorem doEmbPiece_pooled (hk : emKind p.sub = ekBAG)
    (hs : takeStream port (coveOf s port p) true (wholeStream port p (deliveredAt s port p)) (bagTaken tb.info.die port p s)
      = serveBag (emTable p.sub) (wholeStream port p (deliveredAt s port p)) (bagTaken tb.info.die port p s))
    {rows : List Nat} (hrows : rowsNamed tb p.sub p.data = some rows) :
    ∃ u, doEmbPiece ekBAG port p s = builtOn tb.info.die (fun v => freeAll (deliveredAt s port p) (emit {
          kind := ekPOOLED, pool := emPool p.sub, w96 := emW96 p.sub, vfmt := emVfmt p.sub, table := emTable p.sub,
          step := emStep p.sub, bag := emBag p.sub, nidx := emNidx p.sub, ntot := emNtot p.sub, dim := tb.info.dim,
          empty := rows.isEmpty, recovered := touchedNow s tb (poolArray s tb) }
        ((poolBag tb.info p.sub (bagTerms tb.info (rows.map (rowBytes tb 0)) (emWeights p.sub p.data))).flatMap
          (bytesLE (elemSize (emVfmt p.sub)))) p.src p.job v)) u
      ∧ getTable u (emTable p.sub) = some (servedOnce tb) ∧ (∀ q, q ≠ emTable p.sub → getTable u q = getTable s q)
      ∧ u.route = (takeDelivered port p s).route ∧ u.groups = s.groups := by
  have hg : getTable (bagTaken tb.info.die port p s) (emTable p.sub) = some tb := by rw [getTable_bagTaken, h.table]
  have hread := cacheOnly_rowsRead (emTable p.sub) tb.info rows (bagTaken tb.info.die port p s)
  generalize hv : rowsRead (emTable p.sub) tb.info rows (bagTaken tb.info.die port p s) = v at hread
  have htouched : touchedNow v tb (poolArray v tb) = touchedNow s tb (poolArray s tb) :=
    touchedNow_congr (by rw [hread.part, bagTaken_disabled]) (by rw [hread.part, bagTaken_retired]) rfl rfl
      (by rw [hread.tide, bagTaken_tide]) rfl
  have hserved := serveBag_pooled (x := wholeStream port p (deliveredAt s port p)) hg hrows
    (by rw [show emKind (wholeStream port p _).sub = ekBAG from hk]; decide)
  dsimp only at hserved
  rw [hv, htouched] at hserved
  refine ⟨onTable (emTable p.sub) servedOnce v, ?_, ?_, fun q hq => ?_, ?_, ?_⟩
  · rw [doEmbPiece_whole h hk]
    exact builtOn_congr (hs.trans hserved) (by rw [onTable_route, hread.route])
  · rw [getTable_onTable_some ((hread.getTable _).trans hg)]
  · rw [getTable_onTable_ne _ _ _ _ hq.symm, hread.getTable, getTable_bagTaken]
  · rw [onTable_route, hread.route, bagTaken_route]
  · rw [onTable_groups, hread.groups, bagTaken_groups]

end

/-- Settles O27: a refusal by `doEmbPiece_fails`, a bag in range by `serveBag_pooled`. -/
theorem bagIsPooledAndAnswered : Obligations.BagIsPooledAndAnswered := by
  unfold Obligations.BagIsPooledAndAnswered
  intro s port p tb b tid bufs fails he hok hk hns hd hself hr hfit hw h0 hl hn hg
  have h : TakenWhole s port p tb := ⟨he, hok, hns, hd, hself, hr, hfit, hw, h0, hl, hn, hg⟩
  have hgrad : emIsGrad p.sub = false := by simp [emIsGrad, show emKind p.sub = ekBAG from hk, ekBAG, ekGRAD, ekSUB_GRAD]
  have hsub : emKind p.sub ≠ ekSUB_BAG := by rw [show emKind p.sub = ekBAG from hk]; decide
  have hg' : getTable (bagTaken tb.info.die port p s) (emTable p.sub) = some tb := by rw [getTable_bagTaken, h.table]
  have hfails {st : Nat} {u : State} (hu : HostOnly (bagTaken tb.info.die port p s) u)
      (ht : takeStream port (coveOf s port p) true (wholeStream port p bufs) (bagTaken tb.info.die port p s)
        = failStream (wholeStream port p bufs) st u) : fails st := by
    obtain ⟨v, hv, hrest⟩ := doEmbPiece_fails h hk hu ht
    exact ⟨v, (exec_bag s port p).trans (congrArg _ hv), hrest⟩
  refine ⟨fun st hst => hfails (.refl _) (takeStream_unready (x := wholeStream _ _ _) hg' port hst _ _), fun hs hc =>
    hfails (hostOnly_onlyIf _ _ (hostOnly_count _ _)) (takeStream_denied (x := wholeStream _ _ _) hg' port hs hc true), fun hs hc hbad =>
    hfails (.refl _) (hc ▸ takeStream_bad (x := wholeStream _ _ _) hg' port hs hbad), fun hs hc hdim hnidx hlen => ?_⟩
  have hlim : emIsGrad (wholeStream port p bufs).sub = true → tb.info.opt ≠ 0 := by simp [wholeStream, hgrad]
  refine ⟨fun st hst => hfails (.refl _) (hc ▸ takeStream_refused (x := wholeStream _ _ _) hg' port hs hdim hnidx hlim hlen hst hsub),
    fun hpass => ?_⟩
  have hserve : takeStream port (coveOf s port p) true (wholeStream port p bufs) (bagTaken tb.info.die port p s)
      = serveBag tid (wholeStream port p bufs) (bagTaken tb.info.die port p s) := by
    rw [hc, takeStream_serves (x := wholeStream _ _ _) hg' port hs hdim hnidx hlim hlen hpass, serve_bag (x := wholeStream port p bufs) hgrad]
    rfl
  refine ⟨fun hrows => ?_, fun rows hrows => ?_⟩
  · have hout := serveBag_outOfRange (x := wholeStream port p bufs) hg' hrows
    exact hfails (st := stBAD) (hostOnly_count _ _) (hserve.trans hout)
  · obtain ⟨u, hu, hrest⟩ := doEmbPiece_pooled h hk hserve hrows
    exact ⟨u, (exec_bag s port p).trans (congrArg _ hu), hrest⟩

/-! ### A gradient served at its table (R150, R166 to R170) -/

@[simp] theorem builtOn_emb (d : Nat) (f : State → State) (s : State) : (builtOn d f s).emb = (f s).emb := rfl

@[simp] theorem failStream_emb (x : Stream) (st : Nat) (s : State) : (failStream x st s).emb = s.emb := by
  rw [failStream, freeAll_emb, embFailTo_eq]
  simp [onlyIf_same]

/-- From `s` to `t`, of the tables only `tid` has changed, from `a` to `b`; packets, groups, the part and the Tide stand. -/
structure TableStep (tid : Nat) (a b : Table) (s t : State) : Prop where
  before : getTable s tid = some a
  after : getTable t tid = some b
  others : ∀ q, q ≠ tid → getTable t q = getTable s q
  route : t.route = s.route
  groups : t.groups = s.groups
  part : t.part = s.part
  tide : t.tide = s.tide

theorem TableStep.trans {tid : Nat} {a b c : Table} {s t u : State} (h : TableStep tid a b s t) (k : TableStep tid b c t u) :
    TableStep tid a c s u :=
  ⟨h.before, k.after, fun q hq => (k.others q hq).trans (h.others q hq), k.route.trans h.route, k.groups.trans h.groups,
    k.part.trans h.part, k.tide.trans h.tide⟩

theorem tableStep_of_cacheOnly {s t : State} (h : CacheOnly s t) {tid : Nat} {a : Table} (hg : getTable s tid = some a) :
    TableStep tid a a s t :=
  ⟨hg, (h.getTable tid).trans hg, fun q _ => h.getTable q, h.route, h.groups, h.part, h.tide⟩

theorem tableStep_onTable {tid : Nat} {a : Table} {s : State} (hg : getTable s tid = some a) (f : Table → Table) :
    TableStep tid a (f a) s (onTable tid f s) :=
  ⟨hg, getTable_onTable_some hg f, fun _ hq => getTable_onTable_ne _ _ _ _ hq.symm, rfl, rfl, rfl, rfl⟩

/-- The terms of a gradient at the rows they go to; a row without a term takes nothing (R167, R168). -/
def gradAdds (tb : Table) (b : BitVec 256) (d : List Byte) (rows : List Nat) : List (Nat × List (Option Win)) :=
  let g := match floatFmt (emVfmt b) with
    | some f => (elems (elemSize (emVfmt b)) (d.take (emHead b))).map (decodeF f)
    | none => []
  (rows.zip (gradTerms tb.info b g (emWeights b d) (rows.map (rowBytes tb 0)))).filter (fun y => y.2.any Option.isSome)

/-- Rows that the terms bring into a shadow pool. -/
def freshRows (tb : Table) (adds : List (Nat × List (Option Win))) : List Nat :=
  distinct ((adds.map (·.1)).filter (fun y => (mget tb.shadow y).isNone))

/-- Terms are added to a table's shadow pool. -/
def addShadow (dim : Nat) (adds : List (Nat × List (Option Win))) (t : Table) : Table := { t with
  shadow := adds.foldl (fun m y => mput m y.1 (addTerms (mgetD m y.1 (List.replicate dim (.fin 0))) y.2)) t.shadow }

/-- A bag is marked answered in its source's window. -/
def markAnswered (src bag st : Nat) (t : Table) : Table :=
  { t with windows := t.windows.filter (fun w => w.src != src) ++ [markBag bag st (bagWin t src)] }

/-- A gradient under MAX reads its rows for the suppliers. -/
def gradRead (r : TableRec) (b : BitVec 256) (rows : List Nat) (u : State) : State :=
  if emPool b = poMAX then forAll rows (touchRow r) u else u

theorem cacheOnly_gradRead (r : TableRec) (b : BitVec 256) (rows : List Nat) (u : State) : CacheOnly u (gradRead r b rows u) := by
  unfold gradRead
  split
  · exact cacheOnly_forAll (cacheOnly_touchRow r) rows u
  · exact .refl u

section
variable {tid : Nat} {u : State} {x : Stream} {tb : Table} (hg : getTable u tid = some tb)
include hg

theorem serveGrad_answered {st : Nat}
    (hm : (bagWin tb x.src).marks.find? (fun m => m.1 == emBag x.sub) = some (emBag x.sub, st)) :
    (serveGrad tid x u).emb.tables = u.emb.tables := by
  simp only [serveGrad, hg, hm]
  split
  · rw [freeAll_emb, gradAckTo, originate_emb, count_emb]
  · rw [failStream_emb, count_emb]

variable (hm : (bagWin tb x.src).marks.find? (fun m => m.1 == emBag x.sub) = none) (hw : emBag x.sub < (bagWin tb x.src).base + 256)
  {rows : List Nat} (hr : rowsNamed tb x.sub x.bytes = some rows)
include hm hw hr

theorem serveGrad_overflows
    (hfull : tb.info.shadowRows < tb.shadow.length + (freshRows tb (gradAdds tb x.sub x.bytes rows)).length) :
    serveGrad tid x u = failStream x stNORES (onBagWin tid x.src (markBag (emBag x.sub) stNORES)
      (onTable tid (fun t => { t with overflowed := true }) (gradRead tb.info x.sub rows u))) := by
  rw [rowsNamed] at hr
  simp only [serveGrad, hg, hm, hr, if_neg (Nat.not_le.mpr hw)]
  exact if_pos hfull

theorem serveGrad_adds
    (hroom : tb.shadow.length + (freshRows tb (gradAdds tb x.sub x.bytes rows)).length ≤ tb.info.shadowRows) :
    ∃ v, serveGrad tid x u = freeAll x.bufs
        (gradAckTo x.src x.job tid (emStep x.sub) (emBag x.sub) (touchedNow u tb (poolArray u tb)) v)
      ∧ TableStep tid tb (servedOnce (markAnswered x.src (emBag x.sub) stDONE (addShadow tb.info.dim (gradAdds tb x.sub x.bytes rows) tb))) u v := by
  let n := (gradAdds tb x.sub x.bytes rows).length * tb.info.dim * winSize tb.info.gw96
  have hread := tableStep_of_cacheOnly (cacheOnly_gradRead tb.info x.sub rows u) hg
  have hadded := hread.trans (tableStep_onTable hread.after (addShadow tb.info.dim (gradAdds tb x.sub x.bytes rows)))
  have hmoved := hadded.trans (tableStep_of_cacheOnly
    ((cacheOnly_countN (kDie tb.info.die iHBM_RD) n _).trans (cacheOnly_countN (kDie tb.info.die iHBM_WR) n _)) hadded.after)
  have hmarked := hmoved.trans (tableStep_onTable hmoved.after (markAnswered x.src (emBag x.sub) stDONE))
  have hcounted := hmarked.trans (tableStep_of_cacheOnly (cacheOnly_count (kTable tid iGRADS) _) hmarked.after)
  have htaken := takeTouched_table hcounted.after
  refine ⟨_, ?_, hcounted.trans (tableStep_onTable hcounted.after servedOnce)⟩
  rw [← touchedNow_congr (s := u) (tb := tb) (by rw [hcounted.part]) (by rw [hcounted.part]) rfl rfl hcounted.tide rfl]
  rw [rowsNamed] at hr
  simp only [serveGrad, hg, hm, hr, if_neg (Nat.not_le.mpr hw)]
  refine (if_neg (Nat.not_lt.mpr hroom)).trans ?_
  generalize gradAckTo x.src x.job tid (emStep x.sub) (emBag x.sub) = ack
  exact congrArg (fun m : Bool × State => freeAll x.bufs (ack m.1 m.2)) htaken

end

section
variable {s : State} {port : Nat} {p : Packet} {tb : Table} (h : TakenWhole s port p tb) {kind : Nat} (hk : emKind p.sub = kind)
  (hs : takeStream port (coveOf s port p) true (wholeStream port p (deliveredAt s port p)) (bagTaken tb.info.die port p s)
    = serveGrad (emTable p.sub) (wholeStream port p (deliveredAt s port p)) (bagTaken tb.info.die port p s))
include h hk hs

theorem doEmbPiece_grad_emb : (doEmbPiece kind port p s).emb
    = (serveGrad (emTable p.sub) (wholeStream port p (deliveredAt s port p)) (bagTaken tb.info.die port p s)).emb := by
  rw [doEmbPiece_whole h hk, builtOn_emb, hs]

theorem doEmbPiece_gradAnswered {st : Nat}
    (hm : (bagWin tb p.src).marks.find? (fun m => m.1 == emBag p.sub) = some (emBag p.sub, st)) :
    getTable (doEmbPiece kind port p s) (emTable p.sub) = some tb := by
  have hg : getTable (bagTaken tb.info.die port p s) (emTable p.sub) = some tb := by rw [getTable_bagTaken, h.table]
  refine (getTable_congr ?_ _).trans hg
  rw [doEmbPiece_grad_emb h hk hs]
  exact serveGrad_answered (x := wholeStream port p (deliveredAt s port p)) hg hm

variable (hm : (bagWin tb p.src).marks.find? (fun m => m.1 == emBag p.sub) = none) (hw : emBag p.sub < (bagWin tb p.src).base + 256)
  {rows : List Nat} (hr : rowsNamed tb p.sub p.data = some rows)
include hm hw hr

theorem doEmbPiece_gradOverflows
    (hfull : tb.info.shadowRows < tb.shadow.length + (freshRows tb (gradAdds tb p.sub p.data rows)).length) :
    getTable (doEmbPiece kind port p s) (emTable p.sub)
      = some (markAnswered p.src (emBag p.sub) stNORES { tb with overflowed := true }) := by
  have hg : getTable (bagTaken tb.info.die port p s) (emTable p.sub) = some tb := by rw [getTable_bagTaken, h.table]
  have hread := tableStep_of_cacheOnly (cacheOnly_gradRead tb.info p.sub rows (bagTaken tb.info.die port p s)) hg
  have hover := tableStep_onTable hread.after (fun t => { t with overflowed := true })
  refine (getTable_congr ?_ _).trans (tableStep_onTable hover.after (markAnswered p.src (emBag p.sub) stNORES)).after
  rw [doEmbPiece_grad_emb h hk hs, serveGrad_overflows (x := wholeStream port p (deliveredAt s port p)) hg hm hw hr hfull, failStream_emb]
  rfl

theorem doEmbPiece_gradAdds
    (hroom : tb.shadow.length + (freshRows tb (gradAdds tb p.sub p.data rows)).length ≤ tb.info.shadowRows) :
    ∃ u, doEmbPiece kind port p s = builtOn tb.info.die (fun v => freeAll (deliveredAt s port p) (originate
          (embCtl 0x50 (emTable p.sub) (emStep p.sub) (emBag p.sub) 0 none false (touchedNow s tb (poolArray s tb)) p.src p.job) v)) u
      ∧ TableStep (emTable p.sub) tb
          (servedOnce (markAnswered p.src (emBag p.sub) stDONE (addShadow tb.info.dim (gradAdds tb p.sub p.data rows) tb)))
          (bagTaken tb.info.die port p s) u := by
  have hg : getTable (bagTaken tb.info.die port p s) (emTable p.sub) = some tb := by rw [getTable_bagTaken, h.table]
  obtain ⟨v, hv, hstep⟩ := serveGrad_adds (x := wholeStream port p (deliveredAt s port p)) hg hm hw hr hroom
  rw [touchedNow_congr (s := s) (tb := tb) (bagTaken_disabled ..) (bagTaken_retired ..) rfl rfl (bagTaken_tide ..) rfl] at hv
  refine ⟨v, ?_, hstep⟩
  rw [doEmbPiece_whole h hk]
  exact builtOn_congr (hs.trans hv) (by rw [hstep.route])

end

/-- Settles O28: the cases of `serveGrad`, reached by an admitted stream in one packet. -/
theorem gradientIsAddedOnce : Obligations.GradientIsAddedOnce := by
  unfold Obligations.GradientIsAddedOnce
  intro s port p tb b tid bufs takes
  have htakes {kind : Nat} (hgrad : emKind b = kind → emIsGrad b = true) : takes kind (.next (doEmbPiece kind port p s)) := by
    intro hk he hok hns hd hself hready hfit hwait h0 hl hn hg hs hc hdim hnidx hopt hlen hpass
    have h : TakenWhole s port p tb := ⟨he, hok, hns, hd, hself, hready, hfit, hwait, h0, hl, hn, hg⟩
    have hg' : getTable (bagTaken tb.info.die port p s) (emTable p.sub) = some tb := by rw [getTable_bagTaken, h.table]
    have hserve : takeStream port (coveOf s port p) true (wholeStream port p (deliveredAt s port p)) (bagTaken tb.info.die port p s)
        = serveGrad (emTable p.sub) (wholeStream port p (deliveredAt s port p)) (bagTaken tb.info.die port p s) := by
      rw [hc, takeStream_serves (x := wholeStream port p _) hg' port hs hdim hnidx (fun _ => hopt) hlen hpass,
        serve_grad (x := wholeStream port p (deliveredAt s port p)) (hgrad hk)]
      rfl
    refine ⟨fun st hm => ⟨_, tb, rfl, doEmbPiece_gradAnswered h hk hserve hm, rfl⟩, fun hm hw rows hr => ⟨fun hfull => ?_, fun hroom => ?_⟩⟩
    · exact ⟨_, _, rfl, doEmbPiece_gradOverflows h hk hserve hm hw hr hfull, rfl, rfl⟩
    · obtain ⟨u, hu, hstep⟩ := doEmbPiece_gradAdds h hk hserve hm hw hr hroom
      refine ⟨u, congrArg _ hu, hstep.after, fun q hq => ?_, ?_, ?_⟩
      · rw [hstep.others q hq, getTable_bagTaken]
      · rw [hstep.route, bagTaken_route]
      · rw [hstep.groups, bagTaken_groups]
  have hgrad : emKind b = ekGRAD ∨ emKind b = ekSUB_GRAD → emIsGrad b = true := by simp [emIsGrad]
  rw [exec_grad, exec_subGrad]
  exact ⟨htakes (fun hk => hgrad (.inl hk)), htakes (fun hk => hgrad (.inr hk))⟩

/-! ### A SUB_BAG at its shard (R160 steps 4 and 6) -/

theorem dropShardBag_idle {src : Nat} {b : BitVec 256} {s : State} (h : ∀ x ∈ s.emb.shardBags, sameBag src b x = false) :
    dropShardBag src b s = s := by
  have hnone : s.emb.shardBags.filter (sameBag src b) = [] := List.filter_eq_nil_iff.mpr fun x hx => by simp [h x hx]
  have hall : s.emb.shardBags.filter (fun x => !sameBag src b x) = s.emb.shardBags :=
    List.filter_eq_self.mpr fun x hx => by simp [h x hx]
  rw [dropShardBag, hnone, List.flatMap_nil, freeAll_nil]
  simp only [onEmb, hall]

@[simp] theorem dropShardBag_tables (src : Nat) (b : BitVec 256) (s : State) : (dropShardBag src b s).emb.tables = s.emb.tables := by
  simp [dropShardBag, onEmb]

theorem forAll_originate_emb (l : List Packet) (s : State) : (forAll l (fun p => originate p) s).emb = s.emb :=
  forAll_same (g := (·.emb)) (fun p u => originate_emb u p) l s

@[simp] theorem emit_emb (f : EmbHdr) (data : List Byte) (dst job : Nat) (s : State) : (emit f data dst job s).emb = s.emb :=
  forAll_originate_emb _ s

/-- Without a begun apply a table has none to finish. -/
theorem goApply_idle {tid : Nat} {s : State} {tb : Table} (hg : getTable s tid = some tb) (h : ∀ c, tb.sched = some c → c.begun = false) :
    goApply tid s = s := by
  rw [goApply, hg, Option.bind_some]
  cases hc : tb.sched with
  | none => rfl
  | some c => exact if_neg (by simp [h c hc])

theorem emSplit_of_subBag {b : BitVec 256} (hok : emCodesOk b = true) (hk : emKind b = ekSUB_BAG) : emSplit b = false := by
  rw [← Bool.not_eq_true]
  intro hsplit
  simp [emCodesOk, hk, hsplit, ekBAG, ekGRAD, ekSUB_BAG] at hok

/-- What a shard keeps of a SUB_BAG until EXP_DOWN_E. -/
def keptBag (v : State) (tid : Nat) (x : Stream) (tb : Table) (rows : List Nat) : ShardBag :=
  { src := x.src, stream := { x with tag := mgetD v.emb.tags tid 0 }, rows := rows.map (rowBytes tb 0) }

/-- A shard keeps a SUB_BAG. -/
def keepBag (y : ShardBag) (u : State) : State := onEmb (fun e => { e with shardBags := e.shardBags ++ [y] }) u

@[simp] theorem keepBag_route (y : ShardBag) (u : State) : (keepBag y u).route = u.route := rfl

section
variable {tid : Nat} {u : State} {x : Stream} {tb : Table} (hg : getTable u tid = some tb)
  {rows : List Nat} (hr : rowsNamed tb x.sub x.bytes = some rows) (hk : emKind x.sub = ekSUB_BAG)
  (hnew : ∀ y ∈ u.emb.shardBags, sameBag x.src x.sub y = false)
include hg hr hk hnew

/-- Under MAX a SUB_BAG is answered at once by the order keys of its elements. -/
theorem serveBag_keys (hp : emPool x.sub = poMAX) : serveBag tid x u = freeAll x.bufs (emit {
      kind := ekSUB_POOLED, pool := poMAX, w96 := emW96 x.sub, vfmt := 0, table := tid, step := emStep x.sub,
      bag := emBag x.sub, nidx := emNidx x.sub, ntot := emNtot x.sub, dim := tb.info.dim }
    (winBytes (emW96 x.sub) (poolKeys tb.info (bagTerms tb.info (rows.map (rowBytes tb 0)) (emWeights x.sub x.bytes)))) x.src x.job
    (rowsRead tid tb.info rows u)) := by
  have hread := cacheOnly_rowsRead tid tb.info rows u
  rw [rowsNamed] at hr
  simp only [serveBag, hg, hr, hk, hp, if_true]
  rw [show countN (kTable tid iBAG_ROWS) rows.length (count (kTable tid iBAGS) (forAll rows (touchRow tb.info) u))
    = rowsRead tid tb.info rows u from rfl, dropShardBag_idle (by rwa [hread.shardBags])]

/-- Under any other pooling its exponent is reported, and it waits for E. -/
theorem serveBag_kept (hp : emPool x.sub ≠ poMAX) :
    let terms := bagTerms tb.info (rows.map (rowBytes tb 0)) (emWeights x.sub x.bytes)
    let v := rowsRead tid tb.info rows u
    serveBag tid x u = originate (embCtl 0x53 tid (emStep x.sub) (emBag x.sub) 0 (termsExp terms) (termsExp terms).isNone false
      x.src x.job) (keepBag (keptBag v tid x tb rows) v) := by
  intro terms v
  have hread := cacheOnly_rowsRead tid tb.info rows u
  rw [rowsNamed] at hr
  simp only [serveBag, hg, hr, hk, if_neg hp, if_true]
  rw [show countN (kTable tid iBAG_ROWS) rows.length (count (kTable tid iBAGS) (forAll rows (touchRow tb.info) u)) = v from rfl,
    dropShardBag_idle (by rwa [hread.shardBags])]
  generalize embCtl _ _ _ _ _ _ _ _ _ _ = ack
  rfl

end

section
variable {s : State} {port : Nat} {p : Packet} {tb : Table} (h : TakenWhole s port p tb) (hk : emKind p.sub = ekSUB_BAG)
  (hs : takeStream port (coveOf s port p) true (wholeStream port p (deliveredAt s port p)) (bagTaken tb.info.die port p s)
    = serveBag (emTable p.sub) (wholeStream port p (deliveredAt s port p)) (bagTaken tb.info.die port p s))
  (hnew : ∀ x ∈ s.emb.shardBags, sameBag p.src p.sub x = false)
  {rows : List Nat} (hrows : rowsNamed tb p.sub p.data = some rows)
include h hk hs hnew hrows

theorem doEmbPiece_subBagKeys (hp : emPool p.sub = poMAX) :
    ∃ u, doEmbPiece ekSUB_BAG port p s = builtOn tb.info.die (fun v => freeAll (deliveredAt s port p) (emit {
          kind := ekSUB_POOLED, pool := poMAX, w96 := emW96 p.sub, vfmt := 0, table := emTable p.sub, step := emStep p.sub,
          bag := emBag p.sub, nidx := emNidx p.sub, ntot := emNtot p.sub, dim := tb.info.dim }
        (winBytes (emW96 p.sub) (poolKeys tb.info (bagTerms tb.info (rows.map (rowBytes tb 0)) (emWeights p.sub p.data)))) p.src p.job v)) u
      ∧ u.emb.shardBags = s.emb.shardBags ∧ u.emb.tables = s.emb.tables ∧ u.route = (takeDelivered port p s).route := by
  have hg : getTable (bagTaken tb.info.die port p s) (emTable p.sub) = some tb := by rw [getTable_bagTaken, h.table]
  have hread := cacheOnly_rowsRead (emTable p.sub) tb.info rows (bagTaken tb.info.die port p s)
  have hserved := serveBag_keys (x := wholeStream port p (deliveredAt s port p)) hg hrows hk (by rwa [bagTaken_emb]) hp
  refine ⟨rowsRead (emTable p.sub) tb.info rows (bagTaken tb.info.die port p s), ?_, ?_, ?_, ?_⟩
  · rw [doEmbPiece_whole h hk]
    exact builtOn_congr (hs.trans hserved) (by rw [hread.route])
  · rw [hread.shardBags, bagTaken_emb]
  · rw [hread.tables, bagTaken_emb]
  · rw [hread.route, bagTaken_route]

theorem doEmbPiece_subBagKept (hp : emPool p.sub ≠ poMAX) :
    let terms := bagTerms tb.info (rows.map (rowBytes tb 0)) (emWeights p.sub p.data)
    ∃ u y, doEmbPiece ekSUB_BAG port p s = builtOn tb.info.die (originate (embCtl 0x53 (emTable p.sub) (emStep p.sub) (emBag p.sub) 0
          (termsExp terms) (termsExp terms).isNone false p.src p.job)) u
      ∧ u.emb.shardBags = s.emb.shardBags ++ [y] ∧ y.src = p.src ∧ y.rows = rows.map (rowBytes tb 0) ∧ y.stream.sub = p.sub
      ∧ y.stream.bytes = p.data ∧ y.stream.job = p.job ∧ u.emb.tables = s.emb.tables ∧ u.route = (takeDelivered port p s).route := by
  intro terms
  have hg : getTable (bagTaken tb.info.die port p s) (emTable p.sub) = some tb := by rw [getTable_bagTaken, h.table]
  have hread := cacheOnly_rowsRead (emTable p.sub) tb.info rows (bagTaken tb.info.die port p s)
  have hserved := serveBag_kept (x := wholeStream port p (deliveredAt s port p)) hg hrows hk (by rwa [bagTaken_emb]) hp
  dsimp only at hserved
  generalize rowsRead (emTable p.sub) tb.info rows (bagTaken tb.info.die port p s) = v at hread hserved
  refine ⟨keepBag (keptBag v (emTable p.sub) (wholeStream port p (deliveredAt s port p)) tb rows) v,
    keptBag v (emTable p.sub) (wholeStream port p (deliveredAt s port p)) tb rows, ?_, ?_, rfl, rfl, rfl, rfl, rfl, ?_, ?_⟩
  · rw [doEmbPiece_whole h hk]
    exact builtOn_congr (hs.trans hserved) (by rw [keepBag_route, hread.route])
  · show v.emb.shardBags ++ _ = _
    rw [hread.shardBags, bagTaken_emb]
  · exact hread.tables.trans (by rw [bagTaken_emb])
  · exact hread.route.trans (bagTaken_route ..)

end

/-- EXP_DOWN_E for a bag that waits at its shard: the answer goes at the home's exponent. -/
theorem doExpDownE_answers {s : State} {port : Nat} {p : Packet} {tb : Table} {x : ShardBag} (he : engineFor s port p = true)
    (hg : getTable s (ecTable p.ctl) = some tb) (hsched : ∀ c, tb.sched = some c → c.begun = false)
    (hx : s.emb.shardBags.find? (fun x => x.src == p.src && emTable x.stream.sub == ecTable p.ctl && emStep x.stream.sub == ecStep p.ctl
      && emBag x.stream.sub == ecBag p.ctl) = some x) :
    let k := x.stream.sub
    let e := toSigned 12 (fld p.ctl 31 20)
    doExpDownE port p s = dropShardBag x.src k (builtOn tb.info.die (emit {
        kind := ekSUB_POOLED, pool := emPool k, w96 := emW96 k, table := ecTable p.ctl, step := emStep k, bag := emBag k,
        nidx := emNidx k, ntot := emNtot k, exp := e, dim := tb.info.dim }
      (winBytes (emW96 k) (sumTerms tb.info.dim (emW96 k) e (bagTerms tb.info x.rows (emWeights k x.stream.bytes)))) x.src x.stream.job)
      (taken port p s)) := by
  intro k e
  have hg' : getTable (taken port p s) (ecTable p.ctl) = some tb := by rw [getTable_taken, hg]
  have hdie : tableDie (taken port p s) (ecTable p.ctl) = tb.info.die := by rw [tableDie, hg']; rfl
  have hemb : (taken port p s).emb = s.emb := by rw [freeAll_emb, takeDelivered_emb]
  rw [← hemb] at hx
  unfold doExpDownE
  dsimp only
  rw [if_neg (not_not.mpr he), hx, hg', hdie]
  refine goApply_idle (tb := tb) ((getTable_congr ?_ _).trans hg') hsched
  rw [dropShardBag_tables, builtOn_emb, emit_emb]

theorem exec_expDownE (s : State) (port : Nat) (p : Packet) : exec (.expDownE port p) s = .next (doExpDownE port p s) := rfl

/-! ### A SPLIT bag or gradient at its home (R159, R160, R171, R295) -/

theorem exec_splitBag (s : State) (port : Nat) (p : Packet) : exec (.splitBag port p) s = .next (doSplitPiece ekBAG port p s) := rfl
theorem exec_splitGrad (s : State) (port : Nat) (p : Packet) : exec (.splitGrad port p) s = .next (doSplitPiece ekGRAD port p s) := rfl

/-- `t` differs from `s` in the numbers of sub-packets alone. -/
def NumbersOnly (s t : State) : Prop := t = { s with
  emb := { s.emb with subFree := t.emb.subFree, subNo := t.emb.subNo, subBagNo := t.emb.subBagNo } }

theorem NumbersOnly.trans {s t u : State} (h : NumbersOnly s t) (k : NumbersOnly t u) : NumbersOnly s u := by
  unfold NumbersOnly at *
  rw [k, h]

section
variable {s t : State} (h : NumbersOnly s t)
include h

theorem NumbersOnly.route : t.route = s.route := by rw [h]
theorem NumbersOnly.groups : t.groups = s.groups := by rw [h]
theorem NumbersOnly.tide : t.tide = s.tide := by rw [h]
theorem NumbersOnly.tables : t.emb.tables = s.emb.tables := by rw [h]
theorem NumbersOnly.homes : t.emb.homes = s.emb.homes := by rw [h]

end

theorem numbersOnly_takeSubId (grad : Bool) (e : Nat × Nat × Nat) (step : Nat) (s : State) : NumbersOnly s (takeSubId grad e step s).2 := by
  unfold takeSubId
  dsimp only
  split
  · split <;> rfl
  · rfl

section
variable (m : ShardMap) (x : Stream) (rows : List Nat)

theorem numbersOnly_mkWorks : ∀ (ks : List Nat) (s : State), NumbersOnly s (mkWorks m x rows ks s).2
  | [], _ => rfl
  | k :: r, s => (numbersOnly_takeSubId (emIsGrad x.sub) (nth m.shards k (0, 0, 0)) (emStep x.sub) s).trans (numbersOnly_mkWorks r _)

/-- One part goes to each shard asked for, in their order. -/
theorem mkWorks_shards : ∀ (ks : List Nat) (s : State), (mkWorks m x rows ks s).1.map (·.shard) = ks
  | [], _ => rfl
  | k :: r, _ => congrArg (k :: ·) (mkWorks_shards r _)

theorem mkWorks_work : ∀ (ks : List Nat) (s : State), ∀ w ∈ (mkWorks m x rows ks s).1, ∃ i, w = mkWork m x rows w.shard i
  | [], _, w, hw => by simp [mkWorks] at hw
  | k :: r, _, w, hw => by
    rcases List.mem_cons.mp hw with rfl | hr
    · exact ⟨_, rfl⟩
    · exact mkWorks_work r _ w hr

/-- A shard's part holds the positions of the rows in its range. -/
theorem mem_mkWork_positions (k i j : Nat) :
    j ∈ (mkWork m x rows k i).positions ↔ j < rows.length ∧ shardIndex m.shards (nth rows j 0) = k := by
  have hmem (y : Nat × Nat) : y ∈ (List.range rows.length).zip rows ↔ rows[y.1]? = some y.2 := by
    rw [List.mem_iff_getElem?]
    constructor
    · rintro ⟨n, hn⟩
      obtain ⟨h₁, h₂⟩ := List.getElem?_zip_eq_some.mp hn
      obtain ⟨_, hy⟩ := List.getElem?_eq_some_iff.mp h₁
      rw [List.getElem_range] at hy
      rwa [← hy]
    · intro hy
      have hlt := (List.getElem?_eq_some_iff.mp hy).1
      exact ⟨y.1, List.getElem?_zip_eq_some.mpr ⟨List.getElem?_range hlt, hy⟩⟩
  show j ∈ (((List.range rows.length).zip rows).filter (fun y => shardIndex m.shards y.2 == k)).map (·.1) ↔ _
  simp only [List.mem_map, List.mem_filter, hmem, beq_iff_eq, Prod.exists]
  constructor
  · rintro ⟨_, r, ⟨hr, hk⟩, rfl⟩
    exact ⟨(List.getElem?_eq_some_iff.mp hr).1, by rwa [nth, hr]⟩
  · rintro ⟨hj, hk⟩
    exact ⟨j, rows[j], ⟨List.getElem?_eq_getElem hj, by rwa [nth, List.getElem?_eq_getElem hj] at hk⟩, rfl⟩

end

/-- Each row's shard is one of the map's. -/
theorem shardIndex_lt {shards : List (Nat × Nat × Nat)} (h : shards ≠ []) (row : Nat) : shardIndex shards row < shards.length := by
  have hlen := List.length_filter_le (fun e : Nat × Nat × Nat => decide (e.1 ≤ row)) shards
  have hpos := List.length_pos_of_ne_nil h
  unfold shardIndex
  omega

/-- The shards that hold a bag's rows. -/
def shardsNamed (m : ShardMap) (rows : List Nat) : List Nat :=
  (List.range m.shards.length).filter (fun k => rows.any (fun y => shardIndex m.shards y == k))

theorem shardIndex_mem_shardsNamed {m : ShardMap} (h : m.shards ≠ []) {rows : List Nat} {row : Nat} (hr : row ∈ rows) :
    shardIndex m.shards row ∈ shardsNamed m rows := by
  rw [shardsNamed, List.mem_filter, List.mem_range, List.any_eq_true]
  exact ⟨shardIndex_lt h row, row, hr, beq_self_eq_true _⟩

/-! #### Parts on their way -/

theorem findHome_onHome (h : HomeBag) {f : HomeBag → HomeBag}
    (hf : ∀ x, isHome h.src h.isGrad h.ltid h.step h.bag (f x) = isHome h.src h.isGrad h.ltid h.step h.bag x) (s : State) :
    findHome (onHome h f s) h.src h.isGrad h.ltid h.step h.bag = (findHome s h.src h.isGrad h.ltid h.step h.bag).map f := by
  have hcomp : isHome h.src h.isGrad h.ltid h.step h.bag ∘ (fun x => if isHome h.src h.isGrad h.ltid h.step h.bag x then f x else x)
      = isHome h.src h.isGrad h.ltid h.step h.bag := by
    funext x
    rw [Function.comp_apply]
    split
    · exact hf x
    · rfl
  show (s.emb.homes.map _).find? _ = _
  rw [List.find?_map, hcomp, findHome]
  cases hx : s.emb.homes.find? (isHome h.src h.isGrad h.ltid h.step h.bag) with
  | none => rfl
  | some x => exact congrArg some (if_pos (List.find?_some hx))

/-- The parts to these shards have gone at this Tide. -/
def sentTo (now : Nat) (ks : List Nat) (y : SubWork) : SubWork := if y.shard ∈ ks then { y with sentAt := now } else y

@[simp] theorem sentTo_shard (now : Nat) (ks : List Nat) (y : SubWork) : (sentTo now ks y).shard = y.shard := by
  unfold sentTo
  split <;> rfl

@[simp] theorem sentTo_pkts (now : Nat) (ks : List Nat) (y : SubWork) : (sentTo now ks y).pkts = y.pkts := by
  unfold sentTo
  split <;> rfl

theorem sentTo_cons (now k : Nat) (ks : List Nat) (y : SubWork) :
    sentTo now ks (if y.shard == k then { y with sentAt := now } else y) = sentTo now (k :: ks) y := by
  by_cases hk : y.shard = k
  · simp [sentTo, hk]
  · simp [sentTo, hk]

/-- A home's parts are now these. -/
def withWorks (f : SubWork → SubWork) (h : HomeBag) : HomeBag := { h with works := h.works.map f }

section
variable (h : HomeBag) (w : SubWork) (resend : Bool) (s : State)

theorem sendWork_outbox : (sendWork h w resend s).route.outbox.length = s.route.outbox.length + w.pkts.length := by
  rw [sendWork, builtOn_outbox, outbox_forAll_originate _ fun _ u => outbox_originate _ u]
  rfl

theorem sendWork_emb : (sendWork h w resend s).emb = (onWork h w (fun x => { x with sentAt := s.tide.now }) s).emb := by
  rw [sendWork, builtOn_emb]
  exact forAll_same (g := (·.emb)) (fun _ u => originate_emb u _) _ _

theorem sendWork_tide : (sendWork h w resend s).tide = s.tide :=
  forAll_same (g := (·.tide)) (fun _ u => originate_tide u _) _ _

theorem sendWork_groups : (sendWork h w resend s).groups = s.groups :=
  forAll_same (g := (·.groups)) (fun _ u => originate_groups u _) _ _

theorem findHome_sendWork : findHome (sendWork h w resend s) h.src h.isGrad h.ltid h.step h.bag
    = (findHome s h.src h.isGrad h.ltid h.step h.bag).map
      (withWorks (fun y => if y.shard == w.shard then { y with sentAt := s.tide.now } else y)) := by
  rw [findHome, sendWork_emb]
  exact findHome_onHome h (f := withWorks (fun y => if y.shard == w.shard then { y with sentAt := s.tide.now } else y)) (fun _ => rfl) s

end

theorem findHome_forAll_sendWork (h : HomeBag) (resend : Bool) : ∀ (l : List SubWork) (s : State),
    findHome (forAll l (fun w => sendWork h w resend) s) h.src h.isGrad h.ltid h.step h.bag
      = (findHome s h.src h.isGrad h.ltid h.step h.bag).map (withWorks (sentTo s.tide.now (l.map (·.shard))))
  | [], s => by
    have hid : withWorks (sentTo s.tide.now []) = id := by
      have hnone : sentTo s.tide.now [] = id := funext fun y => if_neg List.not_mem_nil
      funext g
      simp [withWorks, hnone]
    exact (congrArg (Option.map · _) hid).trans (congrFun Option.map_id _) |>.symm
  | w :: r, s => by
    rw [show forAll (w :: r) (fun w => sendWork h w resend) s = forAll r (fun w => sendWork h w resend) (sendWork h w resend s) from rfl,
      findHome_forAll_sendWork h resend r, findHome_sendWork, sendWork_tide, Option.map_map]
    congr 1
    funext g
    simp only [withWorks, Function.comp_apply, List.map_map, Function.comp_def, sentTo_cons, List.map_cons]

theorem forAll_sendWork_outbox (h : HomeBag) (resend : Bool) : ∀ (l : List SubWork) (s : State),
    (forAll l (fun w => sendWork h w resend) s).route.outbox.length = s.route.outbox.length + sumOf l (fun w => w.pkts.length)
  | [], s => rfl
  | w :: r, s => by
    rw [show forAll (w :: r) (fun w => sendWork h w resend) s = forAll r (fun w => sendWork h w resend) (sendWork h w resend s) from rfl,
      forAll_sendWork_outbox h resend r, sendWork_outbox, sumOf_cons, Nat.add_assoc]

theorem sumOf_map {α β : Type} (g : α → β) (f : β → Nat) (l : List α) : sumOf (l.map g) f = sumOf l (fun x => f (g x)) := by
  rw [sumOf, sumOf, List.foldl_map]

/-! #### The home of a whole stream -/

/-- The home that a whole SPLIT stream makes. -/
def splitHome (die : Nat) (x : Stream) (m : ShardMap) (rows : List Nat) (u : State) : HomeBag := {
  src := x.src, ltid := emTable x.sub, step := emStep x.sub, bag := emBag x.sub, isGrad := emIsGrad x.sub, sub := x.sub, job := x.job,
  n := emNidx x.sub, shards := m.shards, works := (mkWorks m x rows (shardsNamed m rows) u).1, die := die, bufs := x.bufs,
  tag := mgetD u.emb.mapTags (emTable x.sub) 0 }

/-- A home is kept. -/
def addHome (h : HomeBag) (s : State) : State := onEmb (fun e => { e with homes := e.homes ++ [h] }) s

/-- The home is kept and its parts go to their shards. -/
def splitSent (die : Nat) (x : Stream) (m : ShardMap) (rows : List Nat) (u : State) : State :=
  forAll (splitHome die x m rows u).works (fun w => sendWork (splitHome die x m rows u) w false)
    (addHome (splitHome die x m rows u) (mkWorks m x rows (shardsNamed m rows) u).2)

section
variable {die port : Nat} {x : Stream} {m : ShardMap} {rows : List Nat} {u : State}

theorem takeSplit_sends (hnew : findHome u x.src (emIsGrad x.sub) (emTable x.sub) (emStep x.sub) (emBag x.sub) = none)
    (hmap : mget u.emb.maps (emTable x.sub) = some m) (hdim : emDim x.sub = m.dim) (hnidx : emNidx x.sub ≤ 4096)
    (hlen : x.bytes.length = emLen x.sub) (hmax : emIsGrad x.sub = true → emPool x.sub ≠ poMAX)
    (hmark : emIsGrad x.sub = true →
      (homeWin u (emTable x.sub) (emStep x.sub) x.src).marks.find? (fun y => y.1 == emBag x.sub) = none)
    (hwin : emIsGrad x.sub = true → emBag x.sub < (homeWin u (emTable x.sub) (emStep x.sub) x.src).base + 256)
    (hrows : allSome ((emIndices x.sub x.bytes).map (translate m.imode m.lrows m.seed)) = some rows) (hne : rows ≠ [])
    (hroom : embUsed u die + (if emIsGrad x.sub = true then 0 else (shardsNamed m rows).length * subRoom (emDim x.sub) (emW96 x.sub))
      ≤ u.shoal.cfg.embRes * 256)
    (hfree : emIsGrad x.sub = true → (shardsNamed m rows).all (fun k => subGradRoom u (nth m.shards k (0, 0, 0)) (emStep x.sub)) = true) :
    takeSplit die port m.cove true x u = some (splitSent die x m rows u) := by
  have hunmarked : (if emIsGrad x.sub = true then
      (homeWin u (emTable x.sub) (emStep x.sub) x.src).marks.find? (fun y => y.1 == emBag x.sub) else none) = none := by
    split
    · exact hmark ‹_›
    · rfl
  have hearly : ¬ (emIsGrad x.sub = true ∧ (homeWin u (emTable x.sub) (emStep x.sub) x.src).base + 256 ≤ emBag x.sub) :=
    fun h => Nat.not_le.mpr (hwin h.1) h.2
  have hsome : ¬ rows.isEmpty = true := by rwa [List.isEmpty_iff]
  have hfits : ¬ (u.shoal.cfg.embRes * 256
        < embUsed u die + (if emIsGrad x.sub = true then 0 else (shardsNamed m rows).length * subRoom (emDim x.sub) (emW96 x.sub))
      ∨ (emIsGrad x.sub && !(shardsNamed m rows).all (fun k => subGradRoom u (nth m.shards k (0, 0, 0)) (emStep x.sub))) = true) := by
    rw [not_or, Nat.not_lt]
    refine ⟨hroom, ?_⟩
    cases hgrad : emIsGrad x.sub with
    | false => simp
    | true => simp [hfree hgrad]
  simp only [takeSplit, hnew, hmap, Option.isSome_none, Bool.false_eq_true, if_false, ne_eq, not_true_eq_false]
  refine (if_neg ?_).trans ?_
  · rintro (h | h | h | h | h)
    · exact h hdim
    · exact Nat.not_lt.mpr hnidx h
    · exact h
    · exact h hlen
    · exact hmax h.1 h.2
  · simp only [hunmarked, hrows]
    exact (if_neg hearly).trans ((if_neg hsome).trans (if_neg hfits))

end

/-- The state in which a home works on a packet it has taken. -/
def splitTaken (die port : Nat) (p : Packet) (s : State) : State := keepEmb die (deliveredAt s port p) (takeDelivered port p s)

theorem splitTaken_frame (die port : Nat) (p : Packet) (s : State) : splitTaken die port p s = { s with
    shoal := { s.shoal with stored := (splitTaken die port p s).shoal.stored }, route := (takeDelivered port p s).route } := by
  unfold splitTaken
  rw [keepEmb_frame]
  rfl

@[simp] theorem splitTaken_emb (die port : Nat) (p : Packet) (s : State) : (splitTaken die port p s).emb = s.emb := by rw [splitTaken_frame]
@[simp] theorem splitTaken_tide (die port : Nat) (p : Packet) (s : State) : (splitTaken die port p s).tide = s.tide := by rw [splitTaken_frame]
@[simp] theorem splitTaken_groups (die port : Nat) (p : Packet) (s : State) : (splitTaken die port p s).groups = s.groups := by
  rw [splitTaken_frame]
@[simp] theorem splitTaken_outbox (die port : Nat) (p : Packet) (s : State) :
    (splitTaken die port p s).route.outbox = s.route.outbox := by rw [splitTaken_frame]; rfl
@[simp] theorem splitTaken_cfg (die port : Nat) (p : Packet) (s : State) : (splitTaken die port p s).shoal.cfg = s.shoal.cfg := by
  rw [splitTaken_frame]

section
variable {s t : State} (h : t.emb = s.emb)
include h

theorem findHome_congr (src : Nat) (grad : Bool) (ltid step bag : Nat) :
    findHome t src grad ltid step bag = findHome s src grad ltid step bag := by rw [findHome, findHome, h]

theorem homeWin_congr (ltid step src : Nat) : homeWin t ltid step src = homeWin s ltid step src := by rw [homeWin, homeWin, h]

theorem subGradRoom_congr (e : Nat × Nat × Nat) (step : Nat) : subGradRoom t e step = subGradRoom s e step := by
  simp only [subGradRoom, unanswered, h]

end

/-- A packet that is a whole SPLIT stream reaches its home. -/
theorem doSplitPiece_whole {s : State} {port : Nat} {p : Packet} {kind : Nat} (he : engineFor s port p = true)
    (hok : emCodesOk p.sub = true) (hk : emKind p.sub = kind) (hsplit : emSplit p.sub = true) (hd : portDenies s port p = false)
    (hself : p.dst = selfEpid s) (hfit : embFits s (splitDie s port p) (deliveredAt s port p) = true) (h0 : emPiece p.sub = 0)
    (hl : emLast p.sub = true) (hn : ∀ x ∈ s.emb.streams, sameStream p.src p.sub x = false) :
    doSplitPiece kind port p s = (takeSplit (splitDie s port p) port (coveOf s port p) true (wholeStream port p (deliveredAt s port p))
      (splitTaken (splitDie s port p) port p s)).getD s := by
  have hgather := gather_whole h0 hl (s := takeDelivered port p s) hn (splitDie s port p) port (deliveredAt s port p)
  unfold doSplitPiece
  simp only [he, hok, hk, hsplit, hd, hself, hfit, hgather]
  simp [splitTaken]

/-! #### What has been sent -/

section
variable (die : Nat) (x : Stream) (m : ShardMap) (rows : List Nat) (u : State)

theorem splitSent_tables : (splitSent die x m rows u).emb.tables = u.emb.tables := by
  have hsent : (splitSent die x m rows u).emb.tables
      = (addHome (splitHome die x m rows u) (mkWorks m x rows (shardsNamed m rows) u).2).emb.tables :=
    forAll_same (g := (·.emb.tables)) (fun w v => by rw [sendWork_emb]; rfl) _ _
  exact hsent.trans (numbersOnly_mkWorks m x rows _ u).tables

theorem splitSent_groups : (splitSent die x m rows u).groups = u.groups := by
  have hsent : (splitSent die x m rows u).groups
      = (addHome (splitHome die x m rows u) (mkWorks m x rows (shardsNamed m rows) u).2).groups :=
    forAll_same (g := (·.groups)) (fun w v => sendWork_groups _ w _ v) _ _
  exact hsent.trans (numbersOnly_mkWorks m x rows _ u).groups

theorem splitSent_outbox : (splitSent die x m rows u).route.outbox.length
    = u.route.outbox.length + sumOf (splitHome die x m rows u).works (fun w => w.pkts.length) := by
  rw [splitSent, forAll_sendWork_outbox, show (addHome _ _).route = _ from (numbersOnly_mkWorks m x rows _ u).route]

/-- The home of what has been sent: every part has gone at this Tide. -/
theorem findHome_splitSent (hnew : findHome u x.src (emIsGrad x.sub) (emTable x.sub) (emStep x.sub) (emBag x.sub) = none) :
    findHome (splitSent die x m rows u) x.src (emIsGrad x.sub) (emTable x.sub) (emStep x.sub) (emBag x.sub)
      = some (withWorks (sentTo u.tide.now (shardsNamed m rows)) (splitHome die x m rows u)) := by
  have hnumbers := numbersOnly_mkWorks m x rows (shardsNamed m rows) u
  generalize hh : splitHome die x m rows u = h
  have hkey : isHome x.src (emIsGrad x.sub) (emTable x.sub) (emStep x.sub) (emBag x.sub) h = true := by
    subst hh
    simp [isHome, splitHome]
  have hfound : findHome (addHome h (mkWorks m x rows (shardsNamed m rows) u).2) x.src (emIsGrad x.sub) (emTable x.sub) (emStep x.sub)
      (emBag x.sub) = some h := by
    rw [findHome, ← hnumbers.homes] at hnew
    show List.find? _ (_ ++ [h]) = _
    rw [List.find?_append, hnew, Option.none_or, List.find?_singleton, hkey]
    rfl
  have hshards : h.works.map (·.shard) = shardsNamed m rows := by
    subst hh
    exact mkWorks_shards m x rows _ u
  have hsent := findHome_forAll_sendWork h false h.works (addHome h (mkWorks m x rows (shardsNamed m rows) u).2)
  rw [hshards, show (addHome h (mkWorks m x rows (shardsNamed m rows) u).2).tide = u.tide from hnumbers.tide] at hsent
  subst hh
  exact hsent.trans (congrArg (Option.map _) hfound)

/-- Every part of the home holds the positions of its shard, unanswered and sent now; every position is in one. -/
theorem splitHome_parts (hm : m.shards ≠ []) :
    let h := withWorks (sentTo u.tide.now (shardsNamed m rows)) (splitHome die x m rows u)
    h.works.map (·.shard) = shardsNamed m rows
    ∧ (∀ w ∈ h.works, w.sums = none ∧ w.acked = false ∧ w.sentAt = u.tide.now
      ∧ ∀ j, j ∈ w.positions ↔ j < rows.length ∧ shardIndex m.shards (nth rows j 0) = w.shard)
    ∧ ∀ j, j < rows.length → ∃ w ∈ h.works, j ∈ w.positions := by
  intro h
  have hshards : h.works.map (·.shard) = shardsNamed m rows := by
    show List.map (fun y : SubWork => y.shard) (List.map _ _) = _
    rw [List.map_map]
    exact (List.map_congr_left fun y _ => sentTo_shard ..).trans (mkWorks_shards m x rows _ u)
  have hwork : ∀ w ∈ h.works, w.sums = none ∧ w.acked = false ∧ w.sentAt = u.tide.now
      ∧ ∀ j, j ∈ w.positions ↔ j < rows.length ∧ shardIndex m.shards (nth rows j 0) = w.shard := by
    intro w hw
    obtain ⟨y, hy, rfl⟩ := List.mem_map.mp hw
    obtain ⟨i, hi⟩ := mkWorks_work m x rows (shardsNamed m rows) u y hy
    have hin : y.shard ∈ shardsNamed m rows := by
      rw [← mkWorks_shards m x rows (shardsNamed m rows) u]
      exact List.mem_map_of_mem hy
    have hsent : sentTo u.tide.now (shardsNamed m rows) y = { y with sentAt := u.tide.now } := if_pos hin
    rw [hsent]
    refine ⟨by rw [hi]; rfl, by rw [hi]; rfl, rfl, fun j => ?_⟩
    show j ∈ y.positions ↔ _
    rw [show y.positions = (mkWork m x rows y.shard i).positions from congrArg SubWork.positions hi]
    exact mem_mkWork_positions m x rows y.shard i j
  refine ⟨hshards, hwork, fun j hj => ?_⟩
  have hrow : nth rows j 0 ∈ rows := by
    rw [nth, List.getElem?_eq_getElem hj]
    exact List.getElem_mem hj
  have hmem := shardIndex_mem_shardsNamed hm hrow
  rw [← hshards] at hmem
  obtain ⟨w, hw, hshard⟩ := List.mem_map.mp hmem
  obtain ⟨-, -, -, hpositions⟩ := hwork w hw
  exact ⟨w, hw, (hpositions j).mpr ⟨hj, hshard.symm⟩⟩

end

/-- A SPLIT bag or gradient admitted at its home: its parts have gone. -/
theorem doSplitPiece_sends {s : State} {port : Nat} {p : Packet} {kind : Nat} {m : ShardMap} {rows : List Nat} {grad : Bool}
    (hgrad : emIsGrad p.sub = grad) (hk : emKind p.sub = kind) (hok : emCodesOk p.sub = true)
    (hmax : grad = true → emPool p.sub ≠ poMAX)
    (hmark : grad = true → (homeWin s (emTable p.sub) (emStep p.sub) p.src).marks.find? (fun y => y.1 == emBag p.sub) = none)
    (hwin : grad = true → emBag p.sub < (homeWin s (emTable p.sub) (emStep p.sub) p.src).base + 256)
    (he : engineFor s port p = true) (hsplit : emSplit p.sub = true) (hd : portDenies s port p = false) (hself : p.dst = selfEpid s)
    (hfit : embFits s (splitDie s port p) (deliveredAt s port p) = true) (h0 : emPiece p.sub = 0) (hl : emLast p.sub = true)
    (hn : ∀ x ∈ s.emb.streams, sameStream p.src p.sub x = false)
    (hnew : findHome s p.src grad (emTable p.sub) (emStep p.sub) (emBag p.sub) = none) (hmap : mget s.emb.maps (emTable p.sub) = some m)
    (hc : coveOf s port p = m.cove) (hdim : emDim p.sub = m.dim) (hnidx : emNidx p.sub ≤ 4096) (hlen : p.data.length = emLen p.sub)
    (hrows : allSome ((emIndices p.sub p.data).map (translate m.imode m.lrows m.seed)) = some rows) (hne : rows ≠ [])
    (hroom : embUsed (splitTaken (splitDie s port p) port p s) (splitDie s port p)
        + (if grad = true then 0 else (shardsNamed m rows).length * subRoom (emDim p.sub) (emW96 p.sub)) ≤ s.shoal.cfg.embRes * 256)
    (hfree : grad = true → (shardsNamed m rows).all (fun k => subGradRoom s (nth m.shards k (0, 0, 0)) (emStep p.sub)) = true) :
    doSplitPiece kind port p s = splitSent (splitDie s port p) (wholeStream port p (deliveredAt s port p)) m rows
      (splitTaken (splitDie s port p) port p s) := by
  subst hgrad
  have hemb := splitTaken_emb (splitDie s port p) port p s
  have htake := takeSplit_sends (die := splitDie s port p) (port := port) (x := wholeStream port p (deliveredAt s port p)) (m := m)
    (rows := rows) (u := splitTaken (splitDie s port p) port p s) ((findHome_congr hemb ..).trans hnew) (by rw [hemb]; exact hmap) hdim
    hnidx hlen hmax (fun h => by rw [homeWin_congr hemb]; exact hmark h) (fun h => by rw [homeWin_congr hemb]; exact hwin h) hrows hne
    (by rw [splitTaken_cfg]; exact hroom) (fun h => by simp only [subGradRoom_congr hemb]; exact hfree h)
  rw [doSplitPiece_whole he hok hk hsplit hd hself hfit h0 hl hn, hc, htake]
  rfl

/-- Settles O29: `doSplitPiece_sends` with `splitHome_parts` at the home, `serveBag` and `doExpDownE` at the shard. -/
theorem splitBagsAndTheirShards : Obligations.SplitBagsAndTheirShards := by
  unfold Obligations.SplitBagsAndTheirShards
  refine ⟨?_, ?_, ?_⟩
  · intro s port p m rows b bufs die u ks goes
    have hu (h0 : emPiece b = 0) (hl : emLast b = true) (hn : ∀ x ∈ s.emb.streams, sameStream p.src b x = false) :
        u = splitTaken die port p s := congrArg Prod.fst (gather_whole (s := takeDelivered port p s) h0 hl hn die port bufs)
    have hgoes {kind : Nat} {grad : Bool} (hgrad : emIsGrad b = grad) (hk : emKind b = kind) (hmax : grad = true → emPool b ≠ poMAX)
        (hmark : grad = true → (homeWin s (emTable b) (emStep b) p.src).marks.find? (fun y => y.1 == emBag b) = none)
        (hwin : grad = true → emBag b < (homeWin s (emTable b) (emStep b) p.src).base + 256) :
        goes grad (.next (doSplitPiece kind port p s)) := by
      intro he hok hsplit hd hself hfit h0 hl hn hnew hmap hm hc hdim hnidx hlen hrows hne hroom hfree
      rw [hu h0 hl hn] at hroom
      have hsent := doSplitPiece_sends hgrad hk hok hmax hmark hwin he hsplit hd hself hfit h0 hl hn hnew hmap hc hdim hnidx hlen hrows hne
        hroom hfree
      obtain ⟨hshards, hworks, hall⟩ := splitHome_parts die (wholeStream port p bufs) m rows (splitTaken die port p s) hm
      have hfound := findHome_splitSent die (wholeStream port p bufs) m rows (splitTaken die port p s)
        ((findHome_congr (splitTaken_emb die port p s) ..).trans (hgrad ▸ hnew))
      have hlength := splitSent_outbox die (wholeStream port p bufs) m rows (splitTaken die port p s)
      rw [splitTaken_outbox] at hlength
      rw [splitTaken_tide] at hshards hworks hall hfound
      rw [hsent]
      refine ⟨_, _, rfl, hgrad ▸ hfound, hshards, rfl, rfl, rfl, hworks, hall, ?_, ?_, ?_⟩
      · refine hlength.trans (congrArg _ ?_)
        rw [withWorks, sumOf_map]
        simp only [sentTo_pkts]
      · rw [splitSent_tables, splitTaken_emb]
      · rw [splitSent_groups, splitTaken_groups]
    rw [exec_splitBag, exec_splitGrad]
    refine ⟨fun hk => hgoes (by simp [emIsGrad, hk, ekBAG, ekGRAD, ekSUB_GRAD]) hk (by simp) (by simp) (by simp), fun hk hp hw hm => ?_⟩
    exact hgoes (by simp [emIsGrad, hk]) hk (fun _ => hp) (fun _ => hm) (fun _ => hw)
  · intro s port p tb rows b tid bufs raw terms he hok hk hd hself hready hfit hwait h0 hl hn hnew hg hs hc hdim hnidx hlen hpass hrows
    have h : TakenWhole s port p tb := ⟨he, hok, emSplit_of_subBag hok hk, hd, hself, hready, hfit, hwait, h0, hl, hn, hg⟩
    have hgrad : emIsGrad b = false := by simp [emIsGrad, hk, ekSUB_BAG, ekGRAD, ekSUB_GRAD]
    have hg' : getTable (bagTaken tb.info.die port p s) (emTable p.sub) = some tb := by rw [getTable_bagTaken, h.table]
    have hserve : takeStream port (coveOf s port p) true (wholeStream port p bufs) (bagTaken tb.info.die port p s)
        = serveBag (emTable p.sub) (wholeStream port p bufs) (bagTaken tb.info.die port p s) := by
      rw [hc, takeStream_serves (x := wholeStream port p _) hg' port hs hdim hnidx (fun h => by rw [wholeStream, hgrad] at h; contradiction)
        hlen hpass, serve_bag (x := wholeStream port p bufs) hgrad]
      rfl
    refine ⟨fun hp => ?_, fun hp => ?_⟩
    · obtain ⟨u, hu, hrest⟩ := doEmbPiece_subBagKeys h hk hserve hnew hrows hp
      exact ⟨u, (exec_subBag s port p).trans (congrArg _ hu), hrest⟩
    · obtain ⟨u, y, hu, hrest⟩ := doEmbPiece_subBagKept h hk hserve hnew hrows hp
      exact ⟨u, y, (exec_subBag s port p).trans (congrArg _ hu), hrest⟩
  · intro s port p tb x b k e he hg hsched hx
    exact (exec_expDownE s port p).trans (congrArg _ (doExpDownE_answers he hg hsched hx))

/-! ### The shards' answers at the home (R160, R162, R170, R171) -/

section
variable (s : State) (port : Nat) (p : Packet)

theorem exec_expUpE : exec (.expUpE port p) s = .next (doExpUpE port p s) := rfl
theorem exec_gradAck : exec (.gradAck port p) s = .next (doGradAck port p s) := rfl
theorem exec_embFail : exec (.embFail port p) s = .next (doEmbFail port p s) := rfl
theorem exec_subPooled : exec (.subPooled port p) s = .next (doSubPooled port p s) := rfl

end

section
variable (s : State) (src ltid step bag shard : Nat)

theorem exec_subBagTimeout : exec (.subBagTimeout src ltid step bag shard) s = .next (doSubTimeout false src ltid step bag shard s) := rfl
theorem exec_subGradResendTimeout :
    exec (.subGradResendTimeout src ltid step bag shard) s = .next (doSubTimeout true src ltid step bag shard s) := rfl

end

/-- Which part an answer belongs to rests on the homes alone. -/
theorem findWork_congr {s t : State} (h : t.emb.homes = s.emb.homes) (src table step bag : Nat) :
    findWork t src table step bag = findWork s src table step bag := by rw [findWork, findWork, h]

@[simp] theorem findWork_taken (port : Nat) (p : Packet) (s : State) (src table step bag : Nat) :
    findWork (taken port p s) src table step bag = findWork s src table step bag :=
  findWork_congr (by rw [freeAll_emb, takeDelivered_emb]) ..

/-- The part of a shard, changed. -/
def onShard (k : Nat) (f : SubWork → SubWork) (y : SubWork) : SubWork := if y.shard == k then f y else y

/-- The exponent that a report carries; none where the part has no finite term. -/
def reported (p : Packet) : Option Int := if bitAt p.ctl 19 then none else some (toSigned 12 (fld p.ctl 31 20))

/-- E for the shard of a part. -/
def sendExp (h : HomeBag) (e : Int) (y : SubWork) : State → State := builtOn h.die (originate
  (embCtl 0x54 (shardOfWork h y).2.2 h.step y.subId 0 (some e) false false (shardOfWork h y).2.1 h.job))

theorem forAll_map {α β : Type} (g : α → β) (f : β → State → State) (l : List α) (s : State) :
    forAll (l.map g) f s = forAll l (fun x => f (g x)) s := List.foldl_map

section
variable {s : State} {port : Nat} {p : Packet} {h : HomeBag} {w : SubWork} (he : engineFor s port p = true)
  (hf : findWork s p.src (ecTable p.ctl) (ecStep p.ctl) (ecBag p.ctl) = some (h, w))
include he hf

theorem doExpUpE_reports (hsent : h.expSent = false) :
    let works := h.works.map (onShard w.shard (fun y => { y with exp := some (reported p) }))
    let h₁ : HomeBag := { h with works := works, expSent := works.all (fun y => y.exp.isSome) }
    doExpUpE port p s = if h₁.expSent = true then forAll h.works (sendExp h (homeExp h₁)) (onHome h (fun _ => h₁) (taken port p s))
      else onHome h (fun _ => h₁) (taken port p s) := by
  intro works h₁
  have hsame (y : SubWork) : sendExp h (homeExp h₁) (onShard w.shard (fun y => { y with exp := some (reported p) }) y)
      = sendExp h (homeExp h₁) y := by
    unfold onShard
    split <;> rfl
  have hdown (u : State) : forAll works (sendExp h (homeExp h₁)) u = forAll h.works (sendExp h (homeExp h₁)) u := by
    simp only [works, forAll_map, hsame]
  unfold doExpUpE
  dsimp only
  rw [if_neg (not_not.mpr he), findWork_taken, hf]
  simp only [hsent, Bool.false_or, Bool.false_eq_true, if_false]
  rw [← hdown]
  rfl

/-- The last report: E goes to every shard. -/
theorem doExpUpE_last (hsent : h.expSent = false)
    (hall : (h.works.map (onShard w.shard (fun y => { y with exp := some (reported p) }))).all (fun y => y.exp.isSome) = true) :
    let h₁ : HomeBag := { h with works := h.works.map (onShard w.shard (fun y => { y with exp := some (reported p) })), expSent := true }
    doExpUpE port p s = forAll h.works (sendExp h (homeExp h₁)) (onHome h (fun _ => h₁) (taken port p s)) := by
  have hup := doExpUpE_reports he hf hsent
  dsimp only at hup
  rw [hall, if_pos rfl] at hup
  exact hup

/-- A report before the last is kept. -/
theorem doExpUpE_waits (hsent : h.expSent = false)
    (hall : (h.works.map (onShard w.shard (fun y => { y with exp := some (reported p) }))).all (fun y => y.exp.isSome) = false) :
    doExpUpE port p s = onHome h (fun _ => { h with works := h.works.map (onShard w.shard (fun y => { y with exp := some (reported p) })) })
      (taken port p s) := by
  have hup := doExpUpE_reports he hf hsent
  dsimp only at hup
  rw [hall, if_neg Bool.false_ne_true, ← hsent] at hup
  exact hup

theorem doGradAck_acks (hgrad : h.isGrad = true) (hw : w.acked = false) :
    let acks := h.works.map (onShard w.shard (fun y => { y with acked := true }))
    let h₂ : HomeBag := { h with works := acks, recovered := h.recovered || bitAt p.ctl 18 }
    doGradAck port p s = if acks.all (·.acked) = true then ackHome h₂ (onHome h (fun _ => h₂) (taken port p s))
      else onHome h (fun _ => h₂) (taken port p s) := by
  intro acks h₂
  unfold doGradAck
  dsimp only
  rw [if_neg (not_not.mpr he), findWork_taken, hf]
  refine if_neg ?_
  simp [hgrad, hw]

theorem doEmbFail_fails :
    let acks := h.works.map (onShard w.shard (fun y => { y with acked := true }))
    let h₃ : HomeBag := { h with works := acks }
    doEmbFail port p s = failHome h₃ (fld p.ctl 39 32) (onHome h (fun _ => h₃) (
      if ecBag p.ctl < 2 ^ 31 ∧ ¬ (fld p.ctl 39 32 = stBAD ∨ fld p.ctl 39 32 = stNORES) then onEmb (fun e => { e with
        subFree := e.subFree ++ [(p.src, ecTable p.ctl, ecStep p.ctl, ecBag p.ctl)] }) (taken port p s)
      else taken port p s)) := by
  intro acks h₃
  unfold doEmbFail
  dsimp only
  rw [if_neg (not_not.mpr he), findWork_taken, hf]
  simp only [Option.isSome_some, Bool.true_or, true_and]
  have hkept (c : Prop) [Decidable c] (f : Emb → Emb) (hhomes : (f (taken port p s).emb).homes = (taken port p s).emb.homes) :
      findWork (if c then onEmb f (taken port p s) else taken port p s) p.src (ecTable p.ctl) (ecStep p.ctl) (ecBag p.ctl)
        = some (h, w) := by
    split
    · rw [findWork_congr (s := taken port p s) hhomes, findWork_taken, hf]
    · rw [findWork_taken, hf]
  rw [hkept _ _ rfl]
  rfl

end

section
variable {s : State} {port : Nat} {p : Packet} {h : HomeBag} {w : SubWork} (he : engineFor s port p = true)
  (hf : findWork s p.src (emTable p.sub) (emStep p.sub) (emBag p.sub) = some (h, w))
include he hf

theorem doSubPooled_gathers (hok : subPooledOk p.sub = true) (hw : w.sums = none) (h0 : emPiece p.sub = 0) (hl : emLast p.sub = true)
    (hlen : p.data.length = emDim h.sub * winSize (emW96 h.sub)) (hn : ∀ x ∈ s.emb.streams, sameStream p.src p.sub x = false) :
    let works := h.works.map (onShard w.shard (fun y => { y with sums := some (winsOf (emW96 h.sub) p.data) }))
    let h₁ : HomeBag := { h with works := works }
    let u := freeAll (deliveredAt s port p) (splitTaken h.die port p s)
    doSubPooled port p s = if works.all (fun y => y.sums.isSome) = true then
        answerHome h₁ ((homeElems h₁).flatMap (bytesLE (elemSize (emVfmt h.sub)))) false (onHome h (fun _ => h₁) u)
      else onHome h (fun _ => h₁) u := by
  intro works h₁ u
  have hgather := gather_whole h0 hl (s := takeDelivered port p s) hn h.die port (deliveredAt s port p)
  unfold doSubPooled
  dsimp only
  rw [if_neg (not_not.mpr he), if_neg (not_not.mpr hok), show findWork (takeDelivered port p s) _ _ _ _ = _ from hf]
  dsimp only
  rw [hgather]
  refine (if_neg (by rw [hw]; exact Bool.false_ne_true)).trans ((if_neg ?_).trans rfl)
  simp [wholeStream, hlen]

end

/-! ### Waits of a home (R162, R170, R171) -/

theorem doSubTimeout_due {grad : Bool} {src ltid step bag shard : Nat} {s : State} {h : HomeBag} {w : SubWork}
    (hf : findHome s src grad ltid step bag = some h) (hw : h.works.find? (fun x => x.shard == shard) = some w) (he : engineOn s = true)
    (hdue : w.sentAt + 100000 ≤ s.tide.now) (hsums : w.sums = none) (hack : w.acked = false) :
    doSubTimeout grad src ltid step bag shard s = if grad = false ∧ 2 ≤ w.tries then failHome h stTIMEOUT s
      else sendWork h w true (onWork h w (fun y => { y with tries := y.tries + 1 }) (onHome h (fun x => { x with recovered := true }) s)) := by
  unfold doSubTimeout
  rw [hf]
  dsimp only
  rw [hw]
  refine if_neg ?_
  simp [he, due, hdue, hsums, hack]

/-- The hit counters of Rockpool are halved (R164). -/
def decay (s : State) : State := onEmb (fun e => { e with
  rpDecayAt := e.rpDecayAt + 1000000, rockpool := e.rockpool.map (fun x => (x.1, { x.2 with hits := x.2.hits / 2 })) }) s

theorem exec_rockpoolDecay (s : State) : exec .rockpoolDecay s
    = .next (if s.stop.frozen || !regsLive s || !due s (s.emb.rpDecayAt + 1000000) then s else decay s) := rfl

theorem decay_live {s : State} (hstop : s.stop.frozen = false) (hlive : regsLive s = true) :
    (if s.stop.frozen || !regsLive s || !due s (s.emb.rpDecayAt + 1000000) then s else decay s)
      = if s.emb.rpDecayAt + 1000000 ≤ s.tide.now then decay s else s := by
  by_cases hdue : s.emb.rpDecayAt + 1000000 ≤ s.tide.now
  · simp [due, hdue, hstop, hlive]
  · simp [due, hdue]

/-- Settles O30: one lemma for each answer and wait of a home. -/
theorem homeGathersItsShards : Obligations.HomeGathersItsShards := by
  unfold Obligations.HomeGathersItsShards
  refine ⟨fun s port p h w he => ⟨?_, ?_⟩, ?_, ?_⟩
  · intro hf v works h₁ acks h₂ h₃ st
    refine ⟨fun hsent hall => ?_, fun hsent hall => ?_, fun hgrad hw => ?_, ?_⟩
    · rw [exec_expUpE]
      exact congrArg _ (doExpUpE_last he hf hsent hall)
    · rw [exec_expUpE]
      exact congrArg _ (doExpUpE_waits he hf hsent hall)
    · rw [exec_gradAck]
      exact congrArg _ (doGradAck_acks he hf hgrad hw)
    · rw [exec_embFail]
      exact congrArg _ (doEmbFail_fails he hf)
  · intro hf hok hw h0 hl hlen hn works h₁
    refine ⟨freeAll (deliveredAt s port p) (splitTaken h.die port p s), ?_, ?_, ?_, ?_⟩
    · rw [freeAll_emb, splitTaken_emb]
    · rw [freeAll_route, splitTaken_frame]
    · rw [freeAll_groups, splitTaken_groups]
    · rw [exec_subPooled]
      exact congrArg _ (doSubPooled_gathers he hf hok hw h0 hl hlen hn)
  · intro s src ltid step bag shard h w grad hf hw he hdue hsums hack again
    have htimeout := doSubTimeout_due hf hw he hdue hsums hack
    refine ⟨fun hgrad => ?_, fun hgrad => ?_⟩
    · subst hgrad
      rw [exec_subBagTimeout, htimeout]
      simp only [true_and]
      rfl
    · subst hgrad
      rw [exec_subGradResendTimeout, htimeout]
      rfl
  · exact fun s hstop hlive => (exec_rockpoolDecay s).trans (congrArg _ (decay_live hstop hlive))

end Sys2Proof.Machine
end

/-! ## A request performed at its region (R192, R194, R211 to R213, R215, R218) -/

section
namespace Sys2Proof.Machine

/-! ### Bytes written and read back -/

/-- A slice from the start holds the bytes there, and zeros beyond their end. -/
theorem sliceB_getElem (l : List Byte) (n : Nat) {i : Nat} (h : i < (sliceB l 0 n).length) : (sliceB l 0 n)[i] = nth l i 0 := by
  rw [sliceB_length] at h
  simp only [sliceB, List.drop_zero, List.getElem_append, List.length_take, List.getElem_take, List.getElem_replicate, nth]
  split
  · rw [List.getElem?_eq_getElem (by omega), Option.getD_some]
  · rw [List.getElem?_eq_none (by omega), Option.getD_none]

/-- After bytes are written each byte reads as written within them, and as before elsewhere. -/
theorem memRead_memWriteN_sliceB (m : Memory) (off n : Nat) (l : List Byte) (a : Nat) :
    memRead (memWriteN m off (sliceB l 0 n)) a = if off ≤ a ∧ a < off + n then nth l (a - off) 0 else memRead m a := by
  have hlen : (sliceB l 0 n).length = n := sliceB_length l 0 n
  split
  · next h =>
    obtain ⟨k, rfl⟩ := Nat.exists_eq_add_of_le h.1
    rw [memRead_memWriteN_inside _ _ _ _ (by omega), sliceB_getElem, Nat.add_sub_cancel_left]
  · exact memRead_memWriteN_outside _ _ _ _ (by omega)

/-! ### Bytes put into a region -/

/-- Bytes put into a region and counted at its die. -/
def putCounted (ridx off : Nat) (r : Region) (l : List Byte) (s : State) : State :=
  countN (kDie r.die iHBM_WR) l.length (putRegion ridx off l s)

/-- Bytes with the parity generated for them pass the check on their way to a stack (R475). -/
theorem phyCheck_genParity (stack object : Nat) (l : List Byte) (s : State) : phyCheck stack object (genParity l) s = s := by
  rw [phyCheck, parityGood_genParity]
  rfl

@[simp] theorem putCounted_regions (ridx off : Nat) (r : Region) (l : List Byte) (s : State) :
    (putCounted ridx off r l s).mem.regions = mmod s.mem.regions ridx (fun x => { x with mem := memWriteN x.mem off l }) := by
  rw [putCounted, countN_mem]
  rfl

@[simp] theorem putCounted_outst (ridx off : Nat) (r : Region) (l : List Byte) (s : State) :
    (putCounted ridx off r l s).mem.outst = s.mem.outst := by
  rw [putCounted, countN_mem]
  rfl

theorem mget_putCounted_same {s : State} {ridx : Nat} {x : Region} (h : mget s.mem.regions ridx = some x) (off : Nat) (r : Region)
    (l : List Byte) : mget (putCounted ridx off r l s).mem.regions ridx = some { x with mem := memWriteN x.mem off l } := by
  rw [putCounted_regions, mget_mmod_same, h, Option.map_some]

theorem mget_putCounted_ne (ridx off : Nat) (r : Region) (l : List Byte) (s : State) {k : Nat} (h : k ≠ ridx) :
    mget (putCounted ridx off r l s).mem.regions k = mget s.mem.regions k := by
  rw [putCounted_regions, mget_mmod_ne _ _ _ _ h.symm]

/-! ### What a request does at the region (R192, R194, R212) -/

section
variable {s : State} {p : Packet}

theorem perform_fence (hop : mmOp p.sub = mopFENCE) : perform p s = (stDONE, [], s) := by simp [perform, hop]

theorem perform_uncovered (hop : mmOp p.sub ≠ mopFENCE) (hr : regionAt s (mmOff p.sub) = none) : perform p s = (stDENIED, [], s) := by
  simp [perform, hop, hr]

variable {ridx : Nat} {r : Region} (hr : regionAt s (mmOff p.sub) = some (ridx, r))
include hr

theorem perform_poisoned (hop : mmOp p.sub ≠ mopFENCE) (hp : r.poisoned = true) : perform p s = (stPOISONED, [], s) := by
  simp [perform, hop, hr, hp]

variable (hp : r.poisoned = false) (hl : hbmLost s r.die = false)
include hp hl

theorem perform_read (hread : mmOp p.sub = mopREAD) : perform p s =
    (stDONE, memReadN r.mem (mmOff p.sub - r.offset) (mmLen p.sub), countN (kDie r.die iHBM_RD) (mmLen p.sub) s) := by
  simp [perform, hread, mopREAD, mopFENCE, hr, hp, hl]

theorem perform_write (hwrite : mmOp p.sub = mopWRITE) : perform p s =
    (stDONE, [], putCounted ridx (mmOff p.sub - r.offset) r (sliceB p.data 0 (mmLen p.sub)) s) := by
  simp [perform, hwrite, mopWRITE, mopREAD, mopFENCE, hr, hp, hl, putCounted, phyCheck_genParity]

/-- An atomic answers the 8 bytes as they were and stores what `atomic` gives. -/
theorem perform_atomic (hop : mmOp p.sub ≠ mopFENCE) (hread : mmOp p.sub ≠ mopREAD) (hwrite : mmOp p.sub ≠ mopWRITE) :
    let old := memReadN r.mem (mmOff p.sub - r.offset) 8
    let new := atomic p.sub p.data (ofLE old)
    perform p s = (new.2, old,
      putCounted ridx (mmOff p.sub - r.offset) r (bytesLE 8 new.1) (countN (kDie r.die iHBM_RD) 8 s)) := by
  simp [perform, hop, hread, hwrite, hr, hp, hl, putCounted, phyCheck_genParity]

end

/-! ### The command -/

@[simp] theorem freeAll_mem (l : List (Nat × Nat)) (s : State) : (freeAll l s).mem = s.mem := by rw [freeAll_frame]
@[simp] theorem freeAll_dev (l : List (Nat × Nat)) (s : State) : (freeAll l s).dev = s.dev := by rw [freeAll_frame]

theorem regionAt_congr {s t : State} (h : t.mem = s.mem) (off : Nat) : regionAt t off = regionAt s off := by
  rw [regionAt, regionAt, h]

theorem regionAt_taken (port : Nat) (p : Packet) (s : State) (off : Nat) : regionAt (taken port p s) off = regionAt s off :=
  regionAt_congr (freeAll_mem _ _) off

theorem exec_memRequestPerform (port : Nat) (p : Packet) (s : State) : exec (.memRequestPerform port p) s = .next (doPerform port p s) := rfl

theorem doPerform_behind {s : State} {port : Nat} {p : Packet} (h : behindEarlier s port p = true) : doPerform port p s = s := by
  simp [doPerform, h]

section
variable {s : State} {port : Nat} {p : Packet} (he : engineFor s port p = true) (hv : p.ovc = vcREQ) (hdst : p.dst = selfEpid s)
  (hd : reqDefined p = true) (hat : 768 ≤ port ∨ isFabric s port = true ∨ isLocalAcct s (deliveredAt s port p) = true)
  (hb : behindEarlier s port p = false)
include he hv hdst hd hat hb

/-- A defined request that has reached its region's engine in its turn is taken; one within its lifetime is performed and answered. -/
theorem doPerform_takes : doPerform port p s =
    if reqStale s p.sub then onlyIf (decide (port < 768)) (count (kPort port iMEM_STALE)) (taken port p s)
    else builtOn (serveDie s p) (originate (dataPkt vcRSP p.src p.job (responseBits p.sub (perform p (taken port p s)).1)
      (perform p (taken port p s)).2.1)) (perform p (taken port p s)).2.2 := by
  have hstale : reqStale (taken port p s) p.sub = reqStale s p.sub := by rw [reqStale, reqStale, freeAll_tide]; rfl
  have hdie : serveDie (taken port p s) p = serveDie s p := by rw [serveDie, serveDie, regionAt_taken]
  have hreach : ¬ (port < 768 ∧ ¬ isFabric s port = true ∧ ¬ isLocalAcct s (deliveredAt s port p) = true) := fun ⟨h1, h2, h3⟩ =>
    hat.elim (fun h => by omega) (fun h => h.elim h2 h3)
  unfold doPerform
  dsimp only
  rw [if_neg (by simp only [he, hv, hdst, hb, hreach]; simp), if_neg (by simp [hd]), hstale, hdie]

theorem exec_memRequestPerform_performs (hs : reqStale s p.sub = false) {status : Nat} {data : List Byte} {u : State}
    (hp : perform p (taken port p s) = (status, data, u)) :
    exec (.memRequestPerform port p) s
      = .next (builtOn (serveDie s p) (originate (dataPkt vcRSP p.src p.job (responseBits p.sub status) data)) u) := by
  rw [exec_memRequestPerform, doPerform_takes he hv hdst hd hat hb, hs, hp]
  rfl

end

/-- What a request taken and dropped, counted or not, leaves (R218). -/
theorem onlyIf_count_mem_outbox (b : Bool) (k : CKey) (port : Nat) (p : Packet) (s : State) :
    (onlyIf b (count k) (taken port p s)).mem = s.mem ∧ (onlyIf b (count k) (taken port p s)).route.outbox = s.route.outbox := by
  cases b with
  | false => exact ⟨freeAll_mem _ _, by rw [onlyIf_false, freeAll_route]; rfl⟩
  | true => exact ⟨by rw [onlyIf_true, count_mem, freeAll_mem]; rfl, by rw [onlyIf_true, count_route, freeAll_route]; rfl⟩

/-- Settles O32: `doPerform_takes` for the command, one equation of `perform` for each outcome at the region. -/
theorem regionPerformsMemoryRequests : Obligations.RegionPerformsMemoryRequests := by
  unfold Obligations.RegionPerformsMemoryRequests
  intro s port p b resp he hv hdst hd hat
  refine ⟨fun hb => by rw [exec_memRequestPerform, doPerform_behind hb], fun hb => ?_⟩
  have hperforms (hs : reqStale s b = false) {status : Nat} {data : List Byte} {u : State}
      (hp : perform p (taken port p s) = (status, data, u)) := exec_memRequestPerform_performs he hv hdst hd hat hb hs hp
  refine ⟨fun hs => ?_, fun hs hop => hperforms hs (perform_fence hop), fun hs hop hr => ?_, fun ridx r hs hop hr hget => ?_⟩
  · exact ⟨_, by rw [exec_memRequestPerform, doPerform_takes he hv hdst hd hat hb, if_pos hs], onlyIf_count_mem_outbox ..⟩
  · exact hperforms hs (perform_uncovered hop ((regionAt_taken ..).trans hr))
  · intro off
    have hr' := (regionAt_taken port p s (mmOff b)).trans hr
    have hget' : mget (taken port p s).mem.regions ridx = some r := by rw [freeAll_mem]; exact hget
    refine ⟨fun hpois => hperforms hs (perform_poisoned hr' hop hpois), fun hpois hlost => ?_⟩
    have hlost' : hbmLost (taken port p s) r.die = false := by rw [hbmLost, freeAll_dev]; exact hlost
    refine ⟨fun hread => hperforms hs (perform_read hr' hpois hlost' hread), fun hwrite => ?_, fun hread hwrite => ?_⟩
    · exact ⟨_, _, hperforms hs (perform_write hr' hpois hlost' hwrite), mget_putCounted_same hget' .., rfl, rfl,
        memRead_memWriteN_sliceB _ _ _ _, fun k hk => by rw [mget_putCounted_ne _ _ _ _ _ hk, freeAll_mem, takeDelivered_mem],
        by rw [putCounted_outst, freeAll_mem, takeDelivered_mem]⟩
    · intro old new
      refine ⟨_, _, hperforms hs (perform_atomic hr' hpois hlost' hop hread hwrite),
        mget_putCounted_same (by rw [countN_mem]; exact hget') .., ?_, fun a ha => ?_, fun k hk => ?_, ?_⟩
      · exact (congrArg (memReadN _ off) (bytesLE_length 8 new.1).symm).trans (memReadN_memWriteN _ _ _)
      · exact memRead_memWriteN_outside _ _ _ _ (by rw [bytesLE_length]; exact ha)
      · rw [mget_putCounted_ne _ _ _ _ _ hk, countN_mem, freeAll_mem, takeDelivered_mem]
      · rw [putCounted_outst, countN_mem, freeAll_mem, takeDelivered_mem]

end Sys2Proof.Machine
end

/-! ## Coves, port bindings, windows, regions, jobs and commits that wait (R190 to R193, R204 to R210, R220, R230, R231, R272) -/

section
namespace Sys2Proof.Machine

/-! ### What a taken write of a tagged table leaves (R268 to R270) -/

/-- A write that neither waits nor stands behind another, settled: `note` marks and tags the table where the write takes effect. -/
def settleWrite (d : Desc) (data : List Byte) (note : State → State) (out : State × Res) : State :=
  match out.2 with
  | .done st _ _ => settleDesc d data out.2 (if st ≠ stDONE then out.1 else note out.1)
  | .wait _ => settleDesc d data out.2 (note out.1)

section
variable (d : Desc) (data : List Byte) (note : State → State) (s : State)

@[simp] theorem settleWrite_bad : settleWrite d data note (s, fail stBAD) = answer d 0x09 0 s := rfl
@[simp] theorem settleWrite_denied : settleWrite d data note (s, fail stDENIED) = answer d 0x05 0 s := rfl
@[simp] theorem settleWrite_held : settleWrite d data note (s, fail stHELD) = answer d 0x0B 0 s := rfl
@[simp] theorem settleWrite_noRes : settleWrite d data note (s, fail stNORES) = answer d 0x08 0 s := rfl
@[simp] theorem settleWrite_ok : settleWrite d data note (s, ok) = answer d 0x00 0 (note s) := rfl
@[simp] theorem settleWrite_wait (st : Stage) : settleWrite d data note (s, .wait st) = settleDesc d data (.wait st) (note s) := rfl

end

/-- A descriptor whose write need not wait runs its work at once. -/
theorem runDesc_withTag {s : State} {r i op : Nat} {d : Desc} {key : BitVec 384 → Nat × Nat} {behind must : State → BitVec 384 → Bool}
    (h : Ready s r i op d) (hr : ringBehind s (key d.op) d.ring = false) (hb : behind s d.op = false) (hm : must s d.op = false)
    (bump : BitVec 384 → State → State) (w : Work) (data : List Byte) :
    runDesc op (withTag key behind must bump w) r i data s
      = settleWrite d data (fun u => noteWrote (key d.op) d.ring (bump d.op u)) (w ⟨r, i, d.func, true⟩ d.op data s) := by
  obtain ⟨rfl, rfl⟩ := findDesc_ring_idx h.1
  rw [runDesc_ready h]
  rcases hw : w ⟨d.ring, d.idx, d.func, true⟩ d.op data s with ⟨u, ⟨st, result, recovered⟩ | st⟩
  · by_cases hst : st = stDONE
    · simp [withTag, thenBump, settleWrite, hr, hb, hm, hw, hst]
    · simp [withTag, settleWrite, hr, hb, hw, hst]
  · simp [withTag, thenBump, settleWrite, hr, hb, hm, hw]

/-! ### Coves (R204, R205) -/

section
variable {s : State} {r i : Nat} {d : Desc} (hr : ringBehind s (4, 0) d.ring = false) (hb : coveBehind s d.op = false)
  (hm : coveMust s d.op = false)
include hr hb hm

theorem exec_coveCreate (h : Ready s r i 0x48 d) :
    let c := fld d.op 15 0
    exec (.coveCreate r i) s = .next (
      if onlyBits d.op [(15, 0)] = false ∨ c = 0 ∨ c ∈ s.mem.coves then answer d 0x09 0 s
      else if coveAllowed s d.func c = false then answer d 0x05 0 s
      else answer d 0x00 0 (noteWrote (4, 0) d.ring (coveBump d.op
        (resetInstance 8 c (onMem (fun m => { m with coves := insertAsc c m.coves }) s))))) := by
  refine congrArg Host.Outcome.next ((runDesc_withTag h hr hb hm coveBump rawCoveCreate []).trans ?_)
  simp only [rawCoveCreate, apply_ite (settleWrite _ _ _), settleWrite_bad, settleWrite_denied, settleWrite_ok, Bool.not_eq_true,
    List.contains_iff_mem]

theorem exec_coveDestroy (h : Ready s r i 0x49 d) :
    let c := fld d.op 15 0
    exec (.coveDestroy r i) s = .next (
      if onlyBits d.op [(15, 0)] = false ∨ c ∉ s.mem.coves then answer d 0x09 0 s
      else if coveAllowed s d.func c = false then answer d 0x05 0 s
      else if coveNamed s c = true then answer d 0x0B 0 s
      else answer d 0x00 0 (noteWrote (4, 0) d.ring (coveBump d.op
        (onMem (fun m => { m with coves := m.coves.filter (fun x => x != c) }) s)))) := by
  refine congrArg Host.Outcome.next ((runDesc_withTag h hr hb hm coveBump rawCoveDestroy []).trans ?_)
  simp only [rawCoveDestroy, apply_ite (settleWrite _ _ _), settleWrite_bad, settleWrite_denied, settleWrite_held, settleWrite_ok,
    Bool.not_eq_true, List.contains_iff_mem]

end

/-! ### Port bindings (R206, R207, R534) -/

theorem inRange_eq_false_iff (v lo hi : Nat) : inRange v lo hi = false ↔ v < lo ∨ hi < v := by
  simp [inRange]
  omega

theorem bindIs_ready {s : State} {r i : Nat} {d : Desc} (h : findDesc s r i = some d) {zero : Bool}
    (hz : decide (pbCove d.op = 0) = zero) : bindIs zero r i s = true := by simp [bindIs, h, hz]

theorem jobIs_ready {s : State} {r i : Nat} {d : Desc} (h : findDesc s r i = some d) {unb : Bool} (hu : bitAt d.op 373 = unb) :
    jobIs unb r i s = true := by simp [jobIs, h, hu]

section
variable {s : State} {r i : Nat} {d : Desc} (hr : ringBehind s (2, 0) d.ring = false) (hb : bindBehind s d.op = false)
  (hm : bindMust s d.op = false)
include hr hb hm

theorem exec_portBind (h : Ready s r i 0x4A d) (hc : fld d.op 15 0 ≠ 0) :
    let p := fld d.op 269 260
    let ep := fld d.op 287 270
    let c := fld d.op 15 0
    let n := fld d.op 259 247
    exec (.portBind r i) s = .next (
      if onlyBits d.op bindFields = false ∨ isFabric s p = true ∨ portExists s p = false ∨ ep = selfEpid s
          ∨ s.mem.binds.any (fun b => b.1 != p && b.2.epid == ep) = true ∨ c ∉ s.mem.coves ∨ n < 1 ∨ 4096 < n then answer d 0x09 0 s
      else if coveAllowed s d.func c = false then answer d 0x05 0 s
      else if bindOf s p ≠ none then answer d 0x0B 0 s
      else if portRun s p = false ∨ (getPort s p).peer.role ≠ some 1 ∨ (getPort s p).peer.epid ≠ ep then answer d 0x05 0 s
      else answer d 0x00 0 (noteWrote (2, 0) d.ring (bindBump d.op (onMem (fun m => { m with binds := mput m.binds p ⟨ep, c, n⟩ }) s)))) := by
  refine congrArg Host.Outcome.next ((if_pos (bindIs_ready h.1 (decide_eq_false hc))).trans
    ((runDesc_withTag h hr hb hm bindBump rawPortBind []).trans ?_))
  simp only [rawPortBind, pbPort, pbEpid, pbCove, apply_ite (settleWrite _ _ _), settleWrite_bad, settleWrite_denied, settleWrite_held,
    settleWrite_ok, Bool.not_eq_true, List.contains_iff_mem, ← Option.ne_none_iff_isSome, inRange_eq_false_iff]

theorem exec_jobPort (h : Ready s r i 0x59 d) (hu : bitAt d.op 373 = false) :
    let p := fld d.op 383 374
    let j := fld d.op 7 0
    exec (.jobPort r i) s = .next (
      if jobPortBad s d.op = true then answer d 0x09 0 s
      else if classClash s p j (isFill s j) = true then answer d 0x08 0 s
      else answer d 0x00 0 (noteWrote (2, 0) d.ring (bindBump d.op (onMem (fun m => { m with jobPorts := addNew m.jobPorts (p, j) }) s)))) := by
  refine congrArg Host.Outcome.next ((if_pos (jobIs_ready h.1 hu)).trans
    ((runDesc_withTag h hr hb hm bindBump rawJobPort []).trans ?_))
  simp only [rawJobPort, apply_ite (settleWrite _ _ _), settleWrite_bad, settleWrite_noRes, settleWrite_ok]

theorem exec_jobPortUnbind (h : Ready s r i 0x59 d) (hu : bitAt d.op 373 = true) :
    let p := fld d.op 383 374
    let j := fld d.op 7 0
    exec (.jobPortUnbind r i) s = .next (
      if jobPortBad s d.op = true then answer d 0x09 0 s
      else answer d 0x00 0 (noteWrote (2, 0) d.ring (bindBump d.op
        (onMem (fun m => { m with jobPorts := m.jobPorts.filter (fun x => x != (p, j)) }) s)))) := by
  refine congrArg Host.Outcome.next ((if_pos (jobIs_ready h.1 hu)).trans
    ((runDesc_withTag h hr hb hm bindBump rawJobUnbind []).trans ?_))
  simp only [rawJobUnbind, apply_ite (settleWrite _ _ _), settleWrite_bad, settleWrite_ok]

end

/-- A binding removed is gone, and every other one stands. -/
theorem bindOf_unbind_same (p : Nat) (s : State) : bindOf (unbind p s) p = none := mget_mdel_same _ _
theorem bindOf_unbind_ne {p q : Nat} (h : q ≠ p) (s : State) : bindOf (unbind p s) q = bindOf s q := mget_mdel_ne _ _ _ h.symm

theorem bindOf_congr {s t : State} (h : t.mem.binds = s.mem.binds) (q : Nat) : bindOf t q = bindOf s q := congrArg (mget · q) h

/-! ### Unbinding (R207) -/

/-- An unbinding that waits for the port's outstanding requests. -/
def awaitUnbound (p r i : Nat) : State → State := onMem (fun m => { m with unbinding := m.unbinding ++ [(p, r, i)] })

section
variable {s : State} {r i : Nat} {d : Desc} (hr : ringBehind s (2, 0) d.ring = false) (hb : bindBehind s d.op = false)
  (hm : bindMust s d.op = false) (h : Ready s r i 0x4A d) (hc : fld d.op 15 0 = 0) (hf : onlyBits d.op bindFields = true)
  (hfab : isFabric s (fld d.op 269 260) = false) (hp : portExists s (fld d.op 269 260) = true)
  (hcove : ∀ b, bindOf s (fld d.op 269 260) = some b → coveAllowed s d.func b.cove = true)
include hr hb hm h hc hf hfab hp hcove

/-- A port that may be unbound is, at once; the descriptor ends or waits for the port's outstanding requests. -/
theorem exec_portUnbind : exec (.portUnbind r i) s = .next (settleDesc d []
    (if outCount s (fld d.op 269 260) = 0 then ok else .wait .draining) (noteWrote (2, 0) d.ring (bindBump d.op
      ((if outCount s (fld d.op 269 260) = 0 then id else awaitUnbound (fld d.op 269 260) r i) (unbind (fld d.op 269 260) s))))) := by
  refine congrArg Host.Outcome.next ((if_pos (bindIs_ready h.1 (decide_eq_true hc))).trans
    ((runDesc_withTag h hr hb hm bindBump rawPortUnbind []).trans ?_))
  have hnamed : ((bindOf s (fld d.op 269 260)).map (fun b => coveAllowed s d.func b.cove)).getD true = true := by
    cases hbound : bindOf s (fld d.op 269 260) with
    | none => rfl
    | some b => exact hcove b hbound
  by_cases h0 : outCount s (fld d.op 269 260) = 0
  · simp only [rawPortUnbind, pbPort, hf, hfab, hp, hnamed, h0, not_true_eq_false, Bool.false_eq_true, or_self, Bool.true_eq_false,
      if_false, if_true]
    rfl
  · simp only [rawPortUnbind, pbPort, hf, hfab, hp, hnamed, h0, not_true_eq_false, Bool.false_eq_true, or_self, Bool.true_eq_false,
      if_false]
    rfl

theorem portUnbind_unbinds :
    let p := fld d.op 269 260
    ∃ t, exec (.portUnbind r i) s = .next t ∧ bindOf t p = none ∧ (∀ q, q ≠ p → bindOf t q = bindOf s q)
      ∧ (outCount s p = 0 → findDesc t r i = none)
      ∧ (outCount s p ≠ 0 → (p, r, i) ∈ t.mem.unbinding ∧ ∃ e, findDesc t r i = some e ∧ e.stage = .draining) := by
  intro p
  have hexec := exec_portUnbind hr hb hm h hc hf hfab hp hcove
  refine ⟨_, hexec, ?_, fun q hq => ?_, fun h0 => ?_, fun hne => ⟨?_, ?_⟩⟩
  · refine (bindOf_congr ?_ p).trans (bindOf_unbind_same p s)
    rw [settleDesc_mem]
    split <;> rfl
  · refine (bindOf_congr ?_ q).trans (bindOf_unbind_ne hq s)
    rw [settleDesc_mem]
    split <;> rfl
  · rw [if_pos h0, if_pos h0]
    obtain ⟨rfl, rfl⟩ := findDesc_ring_idx h.1
    obtain ⟨-, -, -, -, hcliff, -⟩ := h
    refine complete_findDesc ?_ d _ _ _ _
    exact hcliff
  · rw [if_neg hne, if_neg hne, settleDesc_mem]
    exact List.mem_append_right _ (List.mem_singleton_self _)
  · rw [if_neg hne, if_neg hne]
    refine findDesc_settleDesc_wait ?_ [] (by decide)
    exact h.1

end

theorem exec_portUnbindDone {s : State} {p r i : Nat} (hl : regsLive s = true) (ho : outCount s p = 0)
    (hu : s.mem.unbinding = [(p, r, i)]) :
    exec (.portUnbindDone p) s = .next (finishDesc (r, i) 0x00 0 (onMem (fun m => { m with unbinding := [] }) s)) := by
  show Host.Outcome.next (whenLive (doPortUnbindDone p) s) = _
  simp [whenLive, doPortUnbindDone, forAll, onMem, hl, ho, hu, stDONE]

/-! ### Windows (R208 to R210, R220) -/

/-- A window gone at once, its descriptor waiting for the requests that saw it. -/
def removeWindow (n r i : Nat) : State → State := onMem (fun m => { m with
  windows := mdel m.windows n, removing := m.removing ++ [(r, i, n, (m.wtag + 1) % 16)] })

section
variable {s : State} {r i : Nat} {d : Desc} (hr : ringBehind s (1, 0) d.ring = false) (hb : winBehind s d.op = false)
  (hm : winMust s d.op = false)
include hr hb hm

theorem exec_windowAdd {data : List Byte} (h : Ready s r i 0x4B d) :
    let w := (windowOf data).1
    let n := fld d.op 246 230
    exec (.windowAdd r i data) s = .next (
      if onlyBits d.op [(383, 320), (319, 288), (246, 230)] = false ∨ fld d.op 383 320 % 32 ≠ 0 ∨ fld d.op 319 288 ≠ 32
          ∨ w.cove = 0 ∨ w.hi < w.lo ∨ w.limit < w.base ∨ fld (windowOf data).2 131 0 ≠ 0
          ∨ (w.pr = false ∧ w.pw = false ∧ w.pa = false ∧ w.px = false)
          ∨ w.cove ∉ s.mem.coves ∨ mget s.mem.windows n ≠ none ∨ s.mem.windows.any (fun x => winOverlap w x.2) = true then
        answer d 0x09 0 s
      else if coveAllowed s d.func w.cove = false then answer d 0x05 0 s
      else answer d 0x00 0 (noteWrote (1, 0) d.ring (winBump d.op (onMem (fun m => { m with windows := mput m.windows n w }) s)))) := by
  refine congrArg Host.Outcome.next ((runDesc_withTag h hr hb hm winBump rawWindowAdd data).trans ?_)
  simp only [rawWindowAdd, apply_ite (settleWrite _ _ _), settleWrite_bad, settleWrite_denied, settleWrite_ok, Bool.not_eq_true,
    Bool.or_eq_false_iff, and_assoc, List.contains_iff_mem, ← Option.ne_none_iff_isSome]

theorem exec_windowRemove {w : Window} (h : Ready s r i 0x4C d) (hf : onlyBits d.op [(246, 230)] = true)
    (hw : mget s.mem.windows (fld d.op 246 230) = some w) (hc : coveAllowed s d.func w.cove = true) :
    exec (.windowRemove r i) s = .next (settleDesc d [] (.wait .draining) (noteWrote (1, 0) d.ring
      (winBump d.op (removeWindow (fld d.op 246 230) r i s)))) := by
  refine congrArg Host.Outcome.next ((runDesc_withTag h hr hb hm winBump rawWindowRemove []).trans ?_)
  simp only [rawWindowRemove, hw, hf, hc, not_true_eq_false, if_false, settleWrite_wait]
  rfl

theorem windowRemove_removes {w : Window} (h : Ready s r i 0x4C d) (hf : onlyBits d.op [(246, 230)] = true)
    (hw : mget s.mem.windows (fld d.op 246 230) = some w) (hc : coveAllowed s d.func w.cove = true) :
    ∃ t e, exec (.windowRemove r i) s = .next t ∧ mget t.mem.windows (fld d.op 246 230) = none
      ∧ (∀ k, k ≠ fld d.op 246 230 → mget t.mem.windows k = mget s.mem.windows k)
      ∧ t.mem.wtag = (s.mem.wtag + 1) % 16 ∧ findDesc t r i = some e ∧ e.stage = .draining := by
  obtain ⟨e, he, hstage⟩ := findDesc_settleDesc_wait (s := noteWrote (1, 0) d.ring (winBump d.op (removeWindow (fld d.op 246 230) r i s)))
    h.1 [] (show Stage.draining ≠ .commitWait by decide)
  refine ⟨_, e, exec_windowRemove hr hb hm h hf hw hc, ?_, fun k hk => ?_, ?_, he, hstage⟩
  · rw [settleDesc_mem]; exact mget_mdel_same _ _
  · rw [settleDesc_mem]; exact mget_mdel_ne _ _ _ hk.symm
  · rw [settleDesc_mem]; rfl

end

theorem exec_windowRemoveDone {s : State} {n r i tag : Nat} (hl : regsLive s = true) (hrem : s.mem.removing = [(r, i, n, tag)]) :
    exec (.windowRemoveDone n) s = .next (
      if drained (windowTags s) s.mem.wtag tag = true then finishDesc (r, i) 0x00 0 (onMem (fun m => { m with removing := [] }) s) else s) := by
  show Host.Outcome.next (whenLive (doWindowRemoveDone n) s) = _
  cases hd : drained (windowTags s) s.mem.wtag tag with
  | true => simp [whenLive, doWindowRemoveDone, forAll, onMem, hl, hrem, hd, stDONE]
  | false =>
    simp only [whenLive, doWindowRemoveDone, forAll, onMem, hl, hrem, hd, Bool.and_false, Bool.not_false, List.filter_cons,
      List.filter_nil, Bool.false_eq_true, if_false, if_true, List.foldl_nil]
    rw [← hrem]

/-! ### Regions (R190 to R193) -/

theorem exec_regionExport {s : State} {r i : Nat} {d : Desc} {data : List Byte} (h : Ready s r i 0x4D d) :
    let ridx := fld d.op 184 177
    let size := fld d.op 204 187 * 2 ^ 21
    let off := fld d.op 229 205 * 2 ^ 21
    let len := fld d.op 319 288
    let t := onMem (fun m => { m with regions := mput m.regions ridx {
      offset := off, size := size, die := fld d.op 186 185, mem := memWriteN [] 0 (sliceB data 0 len) } }) s
    exec (.regionExport r i data) s = .next (
      if onlyBits d.op [(383, 320), (319, 288), (229, 205), (204, 187), (186, 185), (184, 177)] = false ∨ fld d.op 383 320 % 32 ≠ 0
          ∨ mget s.mem.regions ridx ≠ none ∨ fld d.op 204 187 < 1 ∨ 49152 < fld d.op 204 187 ∨ size < len ∨ 2 ^ 46 < off + size
          ∨ s.mem.regions.any (fun x => decide (off < x.2.offset + x.2.size ∧ x.2.offset < off + size)) = true then answer d 0x09 0 s
      else if hbmFits t = false then answer d 0x08 0 s
      else answer d 0x00 0 (countN (kDie (fld d.op 186 185) iHBM_WR) size t)) := by
  refine congrArg Host.Outcome.next ((runDesc_ready h workRegionExport data).trans ?_)
  simp only [workRegionExport, Bool.not_eq_true, ← Option.ne_none_iff_isSome, inRange_eq_false_iff, or_assoc]
  split
  · rfl
  · split <;> rfl

/-- A region that takes no access from now on, its descriptor waiting for its end (R193). -/
def releaseRegion (k : Nat) (ri : Nat × Nat) : State → State := onMem (fun m => { m with
  regions := mmod m.regions k (fun y => { y with releasing := some ri }) })

theorem exec_regionRelease {s : State} {r i : Nat} {d : Desc} {x : Region} (h : Ready s r i 0x4E d)
    (hf : onlyBits d.op [(184, 177)] = true) (hx : mget s.mem.regions (fld d.op 184 177) = some x) (hn : x.releasing = none) :
    exec (.regionRelease r i) s = .next (settleDesc d [] (.wait .draining) (releaseRegion (fld d.op 184 177) (r, i) s)) := by
  refine congrArg Host.Outcome.next ((runDesc_ready h workRegionRelease []).trans ?_)
  simp only [workRegionRelease, hx, hf, hn, Option.isSome_none, Bool.false_eq_true, not_true_eq_false, or_self, if_false]
  rfl

theorem mget_releaseRegion_same (k : Nat) (ri : Nat × Nat) (s : State) : mget (releaseRegion k ri s).mem.regions k
    = (mget s.mem.regions k).map (fun y => { y with releasing := some ri }) := by simp [releaseRegion]

/-- A region that is being released covers no offset (R193). -/
theorem regionAt_releaseRegion_ne {k : Nat} {ri : Nat × Nat} {s : State} {off j : Nat} {y : Region}
    (h : regionAt (releaseRegion k ri s) off = some (j, y)) : j ≠ k := by
  rintro rfl
  have hfree := List.find?_some h
  obtain ⟨e, -, he⟩ := List.mem_map.mp (List.mem_of_find?_eq_some h)
  split at he
  · cases he
    simp at hfree
  · next hne => exact hne (congrArg Prod.fst he)

theorem regionRelease_releases {s : State} {r i : Nat} {d : Desc} {x : Region} (h : Ready s r i 0x4E d)
    (hf : onlyBits d.op [(184, 177)] = true) (hx : mget s.mem.regions (fld d.op 184 177) = some x) (hn : x.releasing = none) :
    ∃ t e, exec (.regionRelease r i) s = .next t ∧ mget t.mem.regions (fld d.op 184 177) = some { x with releasing := some (r, i) }
      ∧ findDesc t r i = some e ∧ e.stage = .draining ∧ (∀ off k y, regionAt t off = some (k, y) → k ≠ fld d.op 184 177) := by
  obtain ⟨e, he, hstage⟩ := findDesc_settleDesc_wait (s := releaseRegion (fld d.op 184 177) (r, i) s) h.1 []
    (show Stage.draining ≠ .commitWait by decide)
  refine ⟨_, e, exec_regionRelease h hf hx hn, ?_, he, hstage, fun off k y hk => ?_⟩
  · rw [settleDesc_mem, mget_releaseRegion_same, hx, Option.map_some]
  · exact regionAt_releaseRegion_ne ((regionAt_congr (settleDesc_mem ..).symm off).trans hk)

theorem exec_regionReleaseDone {s : State} {k : Nat} {x : Region} {ri : Nat × Nat} (hl : regsLive s = true)
    (hx : mget s.mem.regions k = some x) (hr : x.releasing = some ri) :
    exec (.regionReleaseDone k) s = .next (finishDesc ri 0x00 0 (onMem (fun m => { m with regions := mdel m.regions k }) s)) := by
  show Host.Outcome.next (whenLive (doRegionReleaseDone k) s) = _
  simp [whenLive, doRegionReleaseDone, hl, hx, hr, stDONE]

/-! ### Jobs and commits that wait (R230, R272) -/

theorem exec_jobClass {s : State} {r i : Nat} {d : Desc} (h : Ready s r i 0x58 d) :
    let j := fld d.op 7 0
    let cls := bitAt d.op 372
    let cap := fld d.op 371 362
    exec (.jobClass r i) s = .next (
      if onlyBits d.op [(372, 372), (371, 362), (7, 0)] = false ∨ j = 0 ∨ cap < 1 ∨ 640 < cap then answer d 0x09 0 s
      else if ((s.mem.jobPorts.filter (fun x => x.2 == j)).map (·.1)).any (fun p => classClash s p j cls) = true then answer d 0x08 0 s
      else answer d 0x00 0 (onMem (fun m => { m with jobs := mput m.jobs j (cls, cap), jtag := (m.jtag + 1) % 16 }) s)) := by
  refine congrArg Host.Outcome.next ((runDesc_ready h workJobClass []).trans ?_)
  simp only [workJobClass, Bool.not_eq_true, inRange_eq_false_iff]
  split
  · rfl
  · split <;> rfl

/-- A waiting commit is checked and made at its own commit point. -/
theorem retryCommit_first {f : Desc → Bool} {must : Bool} {work : Nat → Work} {bump : BitVec 384 → State → State} {s : State} {d : Desc}
    (hs : s.dev.state ≠ .cliff) (hd : s.host.accepted.find? (fun e => e.stage == .commitWait && f e) = some d) :
    retryCommit f must work bump s = if must = true then s
      else settleWrite d d.data (bump d.op) (work d.opcode ⟨d.ring, d.idx, d.func, true⟩ d.op d.data s) := by
  cases must with
  | true => simp [retryCommit, hd]
  | false =>
    rcases hw : work d.opcode ⟨d.ring, d.idx, d.func, true⟩ d.op d.data s with ⟨u, ⟨st, result, recovered⟩ | st⟩
    · by_cases hst : st = stDONE
      · simp [retryCommit, hd, hs, thenBump, settleWrite, hw, hst]
      · simp [retryCommit, hd, hs, thenBump, settleWrite, hw, hst]
    · simp [retryCommit, hd, hs, thenBump, settleWrite, hw]

theorem regsLive_ne_cliff {s : State} (h : regsLive s = true) : s.dev.state ≠ .cliff := by
  intro hc
  simp [regsLive, hc] at h

theorem exec_tableCommitWaitEnd_coveCreate {s : State} {d : Desc} (k : Nat) (hl : regsLive s = true)
    (hd : s.host.accepted.find? (fun e => e.stage == .commitWait && (e.opcode == 0x48 || e.opcode == 0x49)) = some d)
    (hop : d.opcode = 0x48) (hf : onlyBits d.op [(15, 0)] = true) (h0 : fld d.op 15 0 ≠ 0)
    (hc : coveAllowed s d.func (fld d.op 15 0) = true) :
    exec (.tableCommitWaitEnd 4 k) s = .next (
      if coveMust s d.op = true then s
      else if fld d.op 15 0 ∈ s.mem.coves then answer d 0x09 0 s
      else answer d 0x00 0 (coveBump d.op (resetInstance 8 (fld d.op 15 0)
        (onMem (fun m => { m with coves := insertAsc (fld d.op 15 0) m.coves }) s)))) := by
  show Host.Outcome.next (whenLive (doCommitWaitEnd 4 k) s) = _
  rw [whenLive, if_pos hl, doCommitWaitEnd, retryCommit_first (regsLive_ne_cliff hl) hd, if_pos hop]
  simp only [rawCoveCreate, hf, h0, hc, not_true_eq_false, false_or, if_false, apply_ite (settleWrite _ _ _), settleWrite_bad,
    settleWrite_ok, List.contains_iff_mem]
  rfl

/-- Settles O33: the equation of each descriptor and of each end of a wait. -/
theorem covesPortsJobsAndRegions : Obligations.CovesPortsJobsAndRegions := by
  unfold Obligations.CovesPortsJobsAndRegions
  refine ⟨⟨fun s r i d hr hb hm => ⟨exec_coveCreate hr hb hm, exec_coveDestroy hr hb hm⟩, fun s r i d h hr hb hm => ?_,
      fun s p r i hl ho hu => exec_portUnbindDone hl ho hu⟩,
    ⟨fun s r i d data h hr hb hm => exec_windowAdd hr hb hm h, fun s r i d w h hr hb hm => ?_,
      fun s n r i tag hl hrem => exec_windowRemoveDone hl hrem, fun s r i d data h => exec_regionExport h, fun s r i d x h hf hx hn => ?_,
      fun s k x ri hl hx hr => exec_regionReleaseDone hl hx hr⟩,
    fun s r i d h => exec_jobClass h, fun s r i d h hr hb hm => ⟨exec_jobPort hr hb hm h, exec_jobPortUnbind hr hb hm h⟩,
    fun s d k hl hd hop hf h0 hc => exec_tableCommitWaitEnd_coveCreate k hl hd hop hf h0 hc⟩
  · exact ⟨exec_portBind hr hb hm h, fun hc hf hfab hp hcove => portUnbind_unbinds hr hb hm h hc hf hfab hp hcove⟩
  · exact fun hf hw hc => windowRemove_removes hr hb hm h hf hw hc
  · exact regionRelease_releases h hf hx hn

end Sys2Proof.Machine
end

/-! ## A memory request admitted under the Cove tag that its arrival captured (R199, R271, R273) -/

section
namespace Sys2Proof.Machine

theorem forwardPkt_mem (bufs : List (Nat × Nat)) (p : Packet) (s : State) : (forwardPkt bufs p s).mem = s.mem := by
  unfold forwardPkt
  split <;> rfl

/-- The entry of an admitted request holds the tags of the port bindings and of the Cove table as its arrival captured them, and as
they stand only for a packet that stands in no buffer. -/
theorem exec_memRequestAdmit_outst {s : State} {port : Nat} {p : Packet} {bd : Binding} (he : engineFor s port p = true)
    (hf : isFabric s port = false) (hp : port < 768) (hv : p.ovc = vcREQ) (hl : isLocalAcct s (deliveredAt s port p) = false)
    (hd : reqDefined p = true) (hr : refuseReq s port p = none) (hb : boundAt s port p = some bd) :
    ∃ t, exec (.memRequestAdmit port p) s = .next t ∧ t.mem.outst = s.mem.outst ++ [{
      port := port, tag := mmTag p.sub, dst := p.dst, wtag := s.mem.wtag,
      ptag := ((deliveredIn s port p).bind (·.ptag)).getD s.mem.ptag, ctag := ((deliveredIn s port p).bind (·.ctag)).getD s.mem.ctag,
      at_ := s.tide.now, pkt := stampReq p bd.epid bd.cove s.tide.now }] := by
  refine ⟨doAdmit port p s, rfl, ?_⟩
  have hadmitted : ¬ (¬ engineFor s port p = true ∨ isFabric s port = true ∨ 768 ≤ port ∨ p.ovc ≠ vcREQ
      ∨ isLocalAcct s (deliveredAt s port p) = true) := by simp [he, hf, hp, hv, hl]
  unfold doAdmit
  dsimp only
  rw [if_neg hadmitted, if_neg (by simp [hd]), hr, hb]
  dsimp only
  rw [forwardPkt_mem, forAll_same (g := State.mem) (by intro e u; simp)]
  simp

/-- A READ of 8 bytes at offset 4096 of endpoint 9, TAG 3, from endpoint 50 in job 1. -/
def readRequest : Packet where
  hdr := mkHdr 1 vcREQ 9 50 1 0 false 32
  body := bytesBE 32 (pack 256 [(4, 1), (4, mopREAD), (9, 0), (9, 8), (16, 3), (60, 0), (26, 0), (18, 9), (46, 0x1000), (64, 0)]).toNat

/-- The Q7 in RUN with a window of Cove 1 on endpoint 9, port 4 bound to endpoint 50 in that Cove: the READ stands in Shoal, arrived
under Cove tag 0, and the Cove table has been written since. -/
def requestArrived : State := { State.reset with
  dev := { state := .run },
  mem := { State.reset.mem with
    coves := [1, 2], ctag := 1, binds := [(4, { epid := 50, cove := 1, maxOut := 1 })], jobPorts := [(4, 1)]
    windows := [(0, { cove := 1, lo := 0, hi := 20, base := 1, limit := 1, pr := true, pw := true, pa := true, px := true })] },
  route := { State.reset.route with
    eps := [(9, 0x80000000)], nodes := [(0, 0)], selfNode := some 0, toEngine := [(4, readRequest, 0, 7)] },
  shoal := { State.reset.shoal with stored := [{
    die := 0, bufs := [7], acct := .ingress 4 1, port := 4, pkt := readRequest, owners := [], rtag := none, ptag := some 0,
    ctag := some 0, dest := .lport 0, bound := some { epid := 50, cove := 1, maxOut := 1 } }] } }

/-- Refutes O31: the outstanding entry of an admitted request holds the Cove tag that its arrival captured (R271, R273), where the
statement has the tag that stands as it is admitted. The witness is a READ admitted after a write of the Cove table. -/
theorem not_memoryRequestsAndResponsesAtThePort : ¬ Obligations.MemoryRequestsAndResponsesAtThePort := by
  unfold Obligations.MemoryRequestsAndResponsesAtThePort
  intro h
  have he : engineFor requestArrived 4 readRequest = true := by decide +kernel
  have hf : isFabric requestArrived 4 = false := by decide +kernel
  have hv : readRequest.ovc = vcREQ := by decide +kernel
  have hl : isLocalAcct requestArrived (deliveredAt requestArrived 4 readRequest) = false := by decide +kernel
  have hd : reqDefined readRequest = true := by decide +kernel
  have hr : refuseReq requestArrived 4 readRequest = none := by decide +kernel
  have hb : boundAt requestArrived 4 readRequest = some { epid := 50, cove := 1, maxOut := 1 } := by decide +kernel
  have hcaptured : (deliveredIn requestArrived 4 readRequest).bind (·.ctag) = some 0 := by decide +kernel
  obtain ⟨t, ht, hmem, -⟩ := (h.1 requestArrived 4 readRequest he hf (by decide) hv hl).2.2 _ hd hr hb
  obtain ⟨u, hu, houtst⟩ := exec_memRequestAdmit_outst he hf (by decide) hv hl hd hr hb
  obtain rfl : t = u := Host.Outcome.next.inj (ht.symm.trans hu)
  rw [hmem, hcaptured] at houtst
  have hentry := List.append_cancel_left houtst
  have htag : requestArrived.mem.ctag = 0 := congrArg Outst.ctag (List.singleton_injective hentry)
  exact absurd htag (by decide)

end Sys2Proof.Machine
end

/-! ## Packets and Ethernet frames at the port they arrive on (R232, R240, R241, R281, R284, R366 to R369) -/

section
namespace Sys2Proof.Machine

/-! ### A packet leaves the link layer (R286, R564) -/

section
variable (port : Nat) (p : Packet) (s : State)

@[simp] theorem leaveLink_mem : (leaveLink port p s).mem = s.mem := by
  simp [leaveLink, noteLooks, onlyIf_same (g := State.mem)]

@[simp] theorem leaveLink_shoal : (leaveLink port p s).shoal = s.shoal := by
  simp [leaveLink, noteLooks, onlyIf_same (g := State.shoal)]

theorem leaveLink_route : ∃ looks, (leaveLink port p s).route = { s.route with looks := looks } :=
  ⟨_, by simp [leaveLink, noteLooks, onlyIf_same (g := State.route)]; rfl⟩

theorem leaveLink_net : (leaveLink port p s).net = (onPort port (fun x => { x with
    pktsRx := if p.ptype = 0 ∧ p.ctype = 0x08 then x.pktsRx else (x.pktsRx + 1) % 2 ^ 32,
    link := { x.link with
      rxPkts := x.link.rxPkts.erase p, credOut := modAt x.link.credOut (classOn s port p) (fun n => n - p.bufs) } }) s).net := by
  simp [leaveLink, noteLooks, onlyIf_same (g := State.net)]

/-- The port's link state, its peer, its dimension and what its ingress accounts hold are as they were. -/
theorem getPort_leaveLink : ∃ n l, getPort (leaveLink port p s) port = { getPort s port with pktsRx := n, link := l } :=
  ⟨_, _, (congrArg (fun n : Net => mgetD n.ports port {}) (leaveLink_net port p s)).trans (getPort_onPort_same s port _)⟩

@[simp] theorem portRun_leaveLink : portRun (leaveLink port p s) port = portRun s port := by
  obtain ⟨n, l, h⟩ := getPort_leaveLink port p s
  rw [portRun, portRun, h]

@[simp] theorem isFabric_leaveLink : isFabric (leaveLink port p s) port = isFabric s port := by
  obtain ⟨n, l, h⟩ := getPort_leaveLink port p s
  rw [isFabric, isFabric, h]

@[simp] theorem ingressList_leaveLink (c : Nat) : ingressList (leaveLink port p s) port c = ingressList s port c := by
  obtain ⟨n, l, h⟩ := getPort_leaveLink port p s
  rw [ingressList, ingressList, h]

@[simp] theorem classOn_leaveLink (k : Packet) : classOn (leaveLink port p s) port k = classOn s port k := by
  obtain ⟨n, l, h⟩ := getPort_leaveLink port p s
  rw [classOn, classOn, h]

@[simp] theorem bindOf_leaveLink : bindOf (leaveLink port p s) port = bindOf s port := bindOf_congr (by simp) port

@[simp] theorem lookupDest_leaveLink (dst : Nat) : lookupDest (leaveLink port p s) dst = lookupDest s dst := by
  obtain ⟨looks, h⟩ := leaveLink_route port p s
  rw [lookupDest, lookupDest, h]

@[simp] theorem capOf_leaveLink : capOf (leaveLink port p s) = capOf s := by
  obtain ⟨looks, h⟩ := leaveLink_route port p s
  rw [capOf, capOf, h]

@[simp] theorem leaveLink_tag : (leaveLink port p s).route.tag = s.route.tag := by
  obtain ⟨looks, h⟩ := leaveLink_route port p s
  rw [h]

end

/-! ### What the checks of a port lead to (R232, R240, R241) -/

theorem setSrc_ptype (p : Packet) (n : Nat) : (p.setSrc n).ptype = p.ptype :=
  fld_setFld_apart _ _ (by decide) (by decide) (by decide)
theorem setSrc_ovc (p : Packet) (n : Nat) : (p.setSrc n).ovc = p.ovc := fld_setFld_apart _ _ (by decide) (by decide) (by decide)
theorem setSrc_job (p : Packet) (n : Nat) : (p.setSrc n).job = p.job := fld_setFld_apart _ _ (by decide) (by decide) (by decide)

/-- Control packets alone go to the port's own logic. -/
theorem portControl_data {p : Packet} (h : p.ptype ≠ 0) (fab : Bool) : portControl fab p = false := by simp [portControl, h]

/-- A transfer is answered by no engine of its port. -/
theorem engineAtPort_transfer {p : Packet} (h : p.ovc = vcXFER) (denied : Bool) : engineAtPort denied p = false := by
  simp [engineAtPort, h, vcXFER, vcREQ, vcCUP, vcEMB]

/-- What answers a piece of an embedding stream at a port that no PORT_BIND binds: EMB_FAIL, as the last piece comes (R241). -/
def refuseLast (p : Packet) : State → State :=
  if emLast p.sub then embFailTo p.src p.job (emTable p.sub) (emStep p.sub) (emBag p.sub) stDENIED else id

/-- An unbound port answers, of the data packets that no engine answers, the last piece of an embedding stream. -/
theorem denyUnbound_data {p : Packet} (h : p.ptype ≠ 0) (port : Nat) : denyUnbound port p =
    if p.ovc = vcEMB then some (backOn port (refuseLast p)) else none := by
  unfold denyUnbound
  dsimp only
  rw [if_neg h]
  split <;> rfl

section
variable {port : Nat} {p : Packet} {u : State}

theorem ingressOf_malformed (hw : p.wellFormed = false) : ingressOf port p u = some (count (kPort port iPKT_MALFORMED) u) := by
  simp [ingressOf, hw]

variable (hw : p.wellFormed = true) (hr : portRun u port = true)
include hw hr

theorem ingressOf_fabric (hf : isFabric u port = true) : ingressOf port p u =
    if portControl true p then some (giveEngine port p u) else storeIngress port false true p u := by
  have hrun : (getPort u port).lstate = .run := eq_of_beq hr
  simp [ingressOf, hw, hrun, hf]

theorem ingressOf_attached (hf : isFabric u port = false) : ingressOf port p u = ingressAttach port p u := by
  have hrun : (getPort u port).lstate = .run := eq_of_beq hr
  simp [ingressOf, hw, hrun, hf]

end

section
variable {port : Nat} {p : Packet} {u : State}

/-- A packet that no endpoint may send so: on ESC, with HOPS or DLINE, or marked GAP (R240). -/
theorem ingressAttach_unclean (h : p.vc = vcESC ∨ p.hops ≠ 0 ∨ p.dline ≠ 0 ∨ p.gap = true) :
    ingressAttach port p u = some (count (kPort port iPKT_MALFORMED) u) := if_pos h

variable (hc : ¬ (p.vc = vcESC ∨ p.hops ≠ 0 ∨ p.dline ≠ 0 ∨ p.gap = true)) (hp : p.ptype ≠ 0)
include hc hp

theorem ingressAttach_unbound (hb : bindOf u port = none) (he : engineAtPort true p = false) : ingressAttach port p u =
    some (if p.ovc = vcEMB then backOn port (refuseLast p) u else count (kPort port iPORT_UNBOUND) u) := by
  rw [ingressAttach, if_neg hc, hb]
  simp only [hp, he, false_and, Bool.false_eq_true, or_self, if_false, denyUnbound_data hp]
  by_cases hemb : p.ovc = vcEMB
  · simp only [if_pos hemb]
  · simp only [if_neg hemb]

/-- A transfer for a job not bound to its port is dropped (R232). -/
theorem ingressAttach_denied {b : Binding} (hb : bindOf u port = some b) (hx : p.ovc = vcXFER) (hj : (port, p.job) ∉ u.mem.jobPorts) :
    ingressAttach port p u = some (count (kPort port iJOB_DENY) u) := by
  have hx' : (p.setSrc b.epid).ovc = vcXFER := (setSrc_ovc p b.epid).trans hx
  have hstamp : stampCove b.cove (p.setSrc b.epid) = p.setSrc b.epid := if_neg fun h => absurd (hx'.symm.trans h.1) (by decide)
  have hp' : (p.setSrc b.epid).ptype ≠ 0 := by rwa [setSrc_ptype]
  have hnone : denyUnbound port (p.setSrc b.epid) = none := by
    rw [denyUnbound_data hp', hx']
    rfl
  rw [ingressAttach, if_neg hc, hb]
  simp [hstamp, portControl_data hp', engineAtPort_transfer hx', hnone, jobChecked, hx', setSrc_job, hj]

end

/-! ### A packet that Shoal does not take -/

theorem backOn_shoalNet {f : State → State} {s : State} (h : (f s).shoal = s.shoal ∧ (f s).net = s.net) (port : Nat) :
    (backOn port f s).shoal = s.shoal ∧ (backOn port f s).net = s.net := by
  unfold backOn
  split
  · exact h
  · exact h

theorem builtOn_shoal (d : Nat) (f : State → State) (s : State) : (builtOn d f s).shoal = (f s).shoal := rfl

/-- EMB_FAIL stands in no buffer and on no port yet. -/
theorem embFailTo_shoalNet (dst job table step bag status : Nat) (s : State) :
    (embFailTo dst job table step bag status s).shoal = s.shoal ∧ (embFailTo dst job table step bag status s).net = s.net := by
  refine ⟨?_, (noneEnded_embFailTo dst job table step bag status s).1.net⟩
  rw [embFailTo_eq]
  generalize embCtl _ _ _ _ _ _ _ _ _ _ = k
  dsimp only
  rw [builtOn_shoal, originate_shoal, onlyIf_same (g := State.shoal) _ s (count_shoal s _)]

theorem refuseLast_shoalNet (p : Packet) (s : State) : (refuseLast p s).shoal = s.shoal ∧ (refuseLast p s).net = s.net := by
  unfold refuseLast
  split
  · exact embFailTo_shoalNet _ _ _ _ _ _ s
  · exact ⟨rfl, rfl⟩

/-- A packet that Shoal did not take is noted for the soundings of its port as it was received (R275, R276). -/
def noted (port : Nat) (p : Packet) (t : State) : State := hear (heardIn t port p .noRoute [] false) t

section
variable {s : State} {port : Nat} {p : Packet} (hon : linksOn s = true) (hd : isDrezhPort s port = true) (hr : portRun s port = true)
include hr

theorem linkBrings_run : linkBrings s port p = true := by
  have hrun : (getPort s port).lstate = .run := eq_of_beq hr
  simp [linkBrings, linkTook, linkUp, hrun]

include hon hd

/-- What the checks of the port lead to without storing anything is all the packet does, and it is noted as it was received. -/
theorem exec_packetIngress_unstored {t : State} (ht : ingressOf port p (leaveLink port p s) = some t)
    (hs : t.shoal = (leaveLink port p s).shoal) (hn : t.net = (leaveLink port p s).net) :
    exec (.packetIngress port p) s = .next (noted port p t) := by
  have hstored : t.shoal = s.shoal := hs.trans (leaveLink_shoal port p s)
  have hlist : ∀ c, ingressList t port c = ingressList s port c := fun c => by
    rw [← ingressList_leaveLink port p s c, ingressList, ingressList, getPort, getPort, hn]
  refine congrArg Host.Outcome.next ?_
  simp [doPacketIngress, noted, hon, hd, linkBrings_run hr, ht, hstored, hlist]

end

/-! ### A packet stored behind others (R281, R284, R303) -/

theorem noteHeld_shoal (d : Nat) (a : Acct) (s : State) : (noteHeld d a s).shoal = s.shoal := by
  unfold noteHeld
  split <;> rfl

theorem noteHeld_net (d : Nat) (a : Acct) (s : State) : (noteHeld d a s).net = s.net := by
  unfold noteHeld
  split <;> rfl

theorem storePkt_net {d : Nat} {a : Acct} {x : Stored} {n owner b : Nat} {s t : State} (h : storePkt d a x n owner s = some (b, t)) :
    t.net = s.net := by
  unfold storePkt at h
  split at h
  · cases h
  · split at h
    · cases h
    · cases h
      exact noteHeld_net d a _

/-- A packet is stored where its account finds the buffers for it, last in the slice and named by its first buffer. -/
theorem storePkt_taken {d n b : Nat} {a : Acct} {l : List Nat} {s : State} {sl : Slice}
    (h : allocN (acctKey a) n (getSlice s d) = some (b :: l, sl)) (x : Stored) (owner : Nat) :
    ∃ t, storePkt d a x n owner s = some (b, t) ∧ t.net = s.net ∧ t.shoal.stored = s.shoal.stored ++
      [{ x with die := d, bufs := b :: l, acct := a, owners := [owner], par := packetParity x.pkt }] := by
  have hstore : ∃ t, storePkt d a x n owner s = some (b, t) ∧ t.shoal.stored = s.shoal.stored ++
      [{ x with die := d, bufs := b :: l, acct := a, owners := [owner], par := packetParity x.pkt }] := by
    simp [storePkt, h, noteHeld_shoal, onSlice]
  obtain ⟨t, ht, hstored⟩ := hstore
  exact ⟨t, ht, storePkt_net ht, hstored⟩

/-- Where no stored packet had its name, the last one is the packet of that name. -/
theorem storedAt_append {s t : State} {x : Stored} {b : Nat} (hn : storedAt s x.die b = none) (hb : x.bufs.headD 0xFFFFF = b)
    (ht : t.shoal.stored = s.shoal.stored ++ [x]) : storedAt t x.die b = some x := by
  have hx : (x.die == x.die && x.bufs.headD 0xFFFFF == b) = true := by rw [hb, beq_self_eq_true, beq_self_eq_true, Bool.and_self]
  rw [storedAt] at hn ⊢
  rw [ht, List.find?_append, hn, List.find?_singleton, if_pos hx]
  rfl

/-- After `t` a packet that came at `s` stands in buffers `b :: l`, last in its ingress account, with its route lookup captured. -/
def WaitsLast (s t : State) (port b : Nat) (l : List Nat) (p : Packet) : Prop :=
  ∃ x, storedAt t (dieOf port) b = some x ∧ x.pkt = p ∧ x.bufs = b :: l ∧ x.acct = .ingress port (classOn s port p)
    ∧ x.owners = [ownIngress port] ∧ x.dest = lookupDest s p.dst ∧ x.cap = capOf s ∧ x.rtag = some s.route.tag
    ∧ ingressList t port (classOn s port p) = ingressList s port (classOn s port p) ++ [(dieOf port, b)]

/-- What an ingress account holds, it holds as the packet has left the link layer. -/
theorem waitsLast_leaveLink {s t : State} {port b : Nat} {l : List Nat} {p : Packet} :
    WaitsLast (leaveLink port p s) t port b l p ↔ WaitsLast s t port b l p := by
  simp [WaitsLast]

theorem WaitsLast.ingressList {s t : State} {port b : Nat} {l : List Nat} {p : Packet} (h : WaitsLast s t port b l p) :
    ingressList t port (classOn s port p) = ingressList s port (classOn s port p) ++ [(dieOf port, b)] := by
  obtain ⟨x, -, -, -, -, -, -, -, -, hlist⟩ := h
  exact hlist

theorem storeIngress_waits {u : State} {port b : Nat} {p : Packet} {l : List Nat} {sl : Slice} (hf : isFabric u port = true)
    (ha : allocN (acctKey (.ingress port (classOn u port p))) p.bufs (getSlice u (dieOf port)) = some (b :: l, sl))
    (hn : storedAt u (dieOf port) b = none) : ∃ t, storeIngress port false true p u = some t ∧ WaitsLast u t port b l p := by
  obtain ⟨v, hstore, hnet, hstored⟩ := storePkt_taken ha {
    die := dieOf port, bufs := [], acct := .ingress port (classOn u port p), port := port, pkt := p, owners := [], rtag := some u.route.tag,
    dest := lookupDest u p.dst, cap := capOf u, bound := bindOf u port, at_ := u.tide.now, since := u.tide.now } (ownIngress port)
  have hlist : ingressList v port (classOn u port p) = ingressList u port (classOn u port p) := by
    rw [ingressList, ingressList, getPort, getPort, hnet]
  refine ⟨onPort port (fun y => { y with ingress := mput y.ingress (classOn u port p) (mgetD y.ingress (classOn u port p) [] ++
    [(dieOf port, b)]) }) v, by simp [storeIngress, hf, hstore], _, storedAt_append hn rfl hstored, rfl, rfl, rfl, rfl, rfl, rfl, rfl, ?_⟩
  rw [ingressList, getPort_onPort_same, mgetD_mput_same, ← hlist, ingressList]

/-- A packet behind others of its account does not cut through. -/
theorem cutThrough_behind {t : State} {port c : Nat} {l : List (Nat × Nat)} {e : Nat × Nat} (hl : l ≠ [])
    (h : ingressList t port c = l ++ [e]) : cutThrough port c t = t := by
  cases l with
  | nil => exact absurd rfl hl
  | cons a l => cases l <;> simp [cutThrough, h]

/-- The packet that its ingress account takes behind others stays there. -/
theorem exec_packetIngress_stored {s t : State} {port : Nat} {p : Packet} {e : Nat × Nat} (hon : linksOn s = true)
    (hd : isDrezhPort s port = true) (hr : portRun s port = true) (ht : ingressOf port p (leaveLink port p s) = some t)
    (hl : ingressList s port (classOn s port p) ≠ [])
    (hi : ingressList t port (classOn s port p) = ingressList s port (classOn s port p) ++ [e]) :
    ∃ h, exec (.packetIngress port p) s = .next (hear h t) := by
  have hheard : ∃ h, doPacketIngress port p s = hear h t := by
    simp only [doPacketIngress, hon, hd, linkBrings_run hr, ht, cutThrough_behind hl hi, ite_self, not_true_eq_false, or_self, if_false]
    exact ⟨_, rfl⟩
  obtain ⟨h, hh⟩ := hheard
  exact ⟨h, congrArg Host.Outcome.next hh⟩

/-! ### Packets at their port -/

theorem ingressOf_leaveLink_attached {s : State} {port : Nat} {p : Packet} (hr : portRun s port = true) (hw : p.wellFormed = true)
    (hf : isFabric s port = false) : ingressOf port p (leaveLink port p s) = ingressAttach port p (leaveLink port p s) :=
  ingressOf_attached hw (by simpa using hr) (by simpa using hf)

section
variable {s : State} {port : Nat} {p : Packet} (hon : linksOn s = true) (hd : isDrezhPort s port = true) (hr : portRun s port = true)
include hon hd hr

/-- A dropped packet is counted, and noted as it was received. -/
theorem exec_packetIngress_dropped {i : Nat}
    (h : ingressOf port p (leaveLink port p s) = some (count (kPort port i) (leaveLink port p s))) :
    exec (.packetIngress port p) s = .next (noted port p (count (kPort port i) (leaveLink port p s))) :=
  exec_packetIngress_unstored hon hd hr h (count_shoal _ _) (count_net _ _)

variable (hw : p.wellFormed = true)
include hw

theorem exec_packetIngress_control (hf : isFabric s port = true) (hc : portControl true p = true) :
    exec (.packetIngress port p) s = .next (noted port p (giveEngine port p (leaveLink port p s))) := by
  refine exec_packetIngress_unstored hon hd hr ?_ rfl rfl
  rw [ingressOf_fabric hw (by simpa using hr) (by simpa using hf), if_pos hc]

theorem exec_packetIngress_waits {b : Nat} {l : List Nat} {sl : Slice} (hf : isFabric s port = true) (hc : portControl true p = false)
    (ha : allocN (acctKey (.ingress port (classOn s port p))) p.bufs (getSlice s (dieOf port)) = some (b :: l, sl))
    (hn : storedAt s (dieOf port) b = none) (hl : ingressList s port (classOn s port p) ≠ []) :
    ∃ t, exec (.packetIngress port p) s = .next t ∧ WaitsLast s t port b l p := by
  have hslice : getSlice (leaveLink port p s) (dieOf port) = getSlice s (dieOf port) := by rw [getSlice, getSlice, leaveLink_shoal]
  have hfree : storedAt (leaveLink port p s) (dieOf port) b = none := by rwa [storedAt, leaveLink_shoal]
  obtain ⟨t, hstore, hwaits⟩ :=
    storeIngress_waits (u := leaveLink port p s) (by simpa using hf) (by rwa [classOn_leaveLink, hslice]) hfree
  have hlast := waitsLast_leaveLink.mp hwaits
  have ht : ingressOf port p (leaveLink port p s) = some t := by
    rw [ingressOf_fabric hw (by simpa using hr) (by simpa using hf), hc]
    exact hstore
  obtain ⟨h, hexec⟩ := exec_packetIngress_stored hon hd hr ht hl hlast.ingressList
  exact ⟨hear h t, hexec, hlast⟩

section
variable (hf : isFabric s port = false)
include hf

theorem exec_packetIngress_unclean (h : p.vc = vcESC ∨ p.hops ≠ 0 ∨ p.dline ≠ 0 ∨ p.gap = true) :
    exec (.packetIngress port p) s = .next (noted port p (count (kPort port iPKT_MALFORMED) (leaveLink port p s))) :=
  exec_packetIngress_dropped hon hd hr ((ingressOf_leaveLink_attached hr hw hf).trans (ingressAttach_unclean h))

variable (hc : ¬ (p.vc = vcESC ∨ p.hops ≠ 0 ∨ p.dline ≠ 0 ∨ p.gap = true)) (hp : p.ptype ≠ 0)
include hc hp

theorem exec_packetIngress_unbound (hb : bindOf s port = none) (he : engineAtPort true p = false) :
    let u := leaveLink port p s
    exec (.packetIngress port p) s =
      .next (noted port p (if p.ovc = vcEMB then backOn port (refuseLast p) u else count (kPort port iPORT_UNBOUND) u)) := by
  have hi := (ingressOf_leaveLink_attached hr hw hf).trans (ingressAttach_unbound hc hp (by simpa using hb) he)
  split at hi
  case isTrue hemb =>
    obtain ⟨hshoal, hnet⟩ := backOn_shoalNet (refuseLast_shoalNet p (leaveLink port p s)) port
    simp only [if_pos hemb]
    exact exec_packetIngress_unstored hon hd hr hi hshoal hnet
  case isFalse hemb =>
    simp only [if_neg hemb]
    exact exec_packetIngress_dropped hon hd hr hi

theorem exec_packetIngress_denied {b : Binding} (hb : bindOf s port = some b) (hx : p.ovc = vcXFER)
    (hj : (port, p.job) ∉ s.mem.jobPorts) :
    exec (.packetIngress port p) s = .next (noted port p (count (kPort port iJOB_DENY) (leaveLink port p s))) :=
  exec_packetIngress_dropped hon hd hr
    ((ingressOf_leaveLink_attached hr hw hf).trans (ingressAttach_denied hc hp (by simpa using hb) hx (by simpa using hj)))

end

end

/-! ### Frames at an Ethernet-mode port (R366 to R369) -/

/-- Nothing learned changes, and nothing goes to the management controller, as a frame is queued. -/
theorem queueFrame_macs_mgmtIn (inp : Nat) (f : List Byte) (q : Nat) (s : State) :
    (queueFrame inp f q s).net.macs = s.net.macs ∧ (queueFrame inp f q s).net.mgmtIn = s.net.mgmtIn := by
  unfold queueFrame
  dsimp only
  split
  case h_1 => simp
  case h_2 b t h =>
    have hnet : t.net = s.net := storePkt_net (Option.ite_none_right_eq_some.mp h).2
    split <;> simp [hnet]

theorem learnMac_room {m : Nat} {s : State} (h : (mget s.net.macs m).isSome = true ∨ s.net.macs.length < 16384) (port : Nat) :
    learnMac m port s = onNet (fun n => { n with macs := mput n.macs m (port, s.tide.now) }) s := by
  refine if_neg fun hfull => ?_
  obtain ⟨hnone, hlen⟩ := hfull
  rcases h with h | h
  · exact absurd hnone (by simpa [Option.isSome_iff_ne_none] using h)
  · omega

theorem bridge_congr {s t : State} (h : t.net = s.net) (inp : Option Nat) (dst : Nat) : bridge t inp dst = bridge s inp dst := by
  simp only [bridge, ethPorts, isEthPort, ethUpper, groupMode, getLane, h]

/-- A frame for the management controller's address or a group goes to it, and to ports by what ports are in RUN alone. -/
theorem bridge_mgmt {dst : Nat} (h : dst = Config.macAddr.toNat ∨ isGroupMac dst = true) (port : Nat) (s : State) :
    bridge s (some port) dst = (if isGroupMac dst then (ethPorts s).filter (fun p => some port != some p) else [], true) := by
  by_cases hg : isGroupMac dst = true
  · simp [bridge, hg]
  · have hm : dst = Config.macAddr.toNat := h.resolve_right hg
    simp [bridge, hg, if_pos hm]

/-- A frame that an Ethernet-mode port has taken in: its source is learned, and it goes where the bridge sends it. -/
def bridged (port : Nat) (f : List Byte) (s : State) : State :=
  let t := learnMac (frameSrc f) port s
  let to_ := bridge t (some port) (frameDst f)
  onlyIf to_.2 (onNet (fun n => { n with mgmtIn := n.mgmtIn ++ [f] })) (forAll to_.1 (queueFrame port f) t)

/-- What an Ethernet-mode port in RUN does with a frame (R366, R367). -/
theorem exec_ethernetFrame_run {s : State} {port : Nat} (hon : linksOn s = true) (he : isEthPort s port = true) (hr : portRun s port = true)
    (good : Bool) (f : List Byte) :
    let u := count (kPort port iRX_PKTS) (countN (kPort port iRX_BYTES) f.length s)
    exec (.ethernetFrame port good f) s = .next (
      if ¬ good ∨ f.length < 64 ∨ 9216 < f.length ∨ fcsOk f = false then count (kPort port iETH_BAD) u
      else if beAt f 12 2 = 0x8808 then count (kPort port iETH_CTL) u
      else if acctCan u (.ethIn port) (dieOf port) (ceilDiv f.length 256) = false then count (kPort port iETH_DROP) u
      else bridged port f u) := by
  refine congrArg Host.Outcome.next ?_
  simp only [doEthernetFrame, hon, he, hr, not_true_eq_false, or_self, if_false, Bool.not_eq_true]
  rfl

theorem bridged_mgmt {f : List Byte} {s : State} (hdst : frameDst f = Config.macAddr.toNat ∨ isGroupMac (frameDst f) = true)
    (hroom : (mget s.net.macs (frameSrc f)).isSome = true ∨ s.net.macs.length < 16384) (port : Nat) :
    (bridged port f s).net.mgmtIn = s.net.mgmtIn ++ [f] ∧ mget (bridged port f s).net.macs (frameSrc f) = some (port, s.tide.now)
      ∧ ((bridge s (some port) (frameDst f)).1 = [] →
        (bridged port f s).net.ethOut = s.net.ethOut ∧ (bridged port f s).shoal = s.shoal) := by
  have hlearn := learnMac_room hroom port
  have hports : ethPorts (learnMac (frameSrc f) port s) = ethPorts s := by
    rw [hlearn]
    rfl
  have hbridge : bridge (learnMac (frameSrc f) port s) (some port) (frameDst f) = bridge s (some port) (frameDst f) := by
    rw [bridge_mgmt hdst, bridge_mgmt hdst, hports]
  have heq : bridged port f s = onNet (fun n => { n with mgmtIn := n.mgmtIn ++ [f] })
      (forAll (bridge s (some port) (frameDst f)).1 (queueFrame port f) (learnMac (frameSrc f) port s)) := by
    rw [bridged, hbridge, bridge_mgmt hdst]
    rfl
  have hmacs : ∀ l u, (forAll l (queueFrame port f) u).net.macs = u.net.macs :=
    forAll_same (g := fun u => u.net.macs) fun q u => (queueFrame_macs_mgmtIn port f q u).1
  have hin : ∀ l u, (forAll l (queueFrame port f) u).net.mgmtIn = u.net.mgmtIn :=
    forAll_same (g := fun u => u.net.mgmtIn) fun q u => (queueFrame_macs_mgmtIn port f q u).2
  rw [heq, hlearn]
  refine ⟨?_, ?_, fun hnone => ?_⟩
  · rw [onNet_net, hin]
    rfl
  · rw [onNet_net, hmacs]
    exact mget_mput_same _ _ _
  · rw [hnone]
    exact ⟨rfl, rfl⟩

/-! ### The management controller's frames, and addresses not seen (R368) -/

theorem exec_mgmtFrameSend_port {s : State} {p : Nat} (hon : linksOn s = true) (he : isEthPort s p = true) (hr : portRun s p = true)
    (f : List Byte) : exec (.mgmtFrameSend (some p) f) s = .next (queueFrame 1024 f p s) := by
  refine congrArg Host.Outcome.next ?_
  simp [doMgmtFrame, hon, he, hr]

theorem exec_mgmtFrameSend_all {s : State} (hon : linksOn s = true) (f : List Byte) :
    exec (.mgmtFrameSend none f) s = .next (forAll (ethPorts s) (queueFrame 1024 f) s) := by
  refine congrArg Host.Outcome.next ?_
  simp [doMgmtFrame, hon]

theorem exec_macAgeOut_old {s : State} {mac : Nat} {e : Nat × Nat} (hlive : regsLive s = true) (he : mget s.net.macs mac = some e)
    (hold : e.2 + 300000000000 ≤ s.tide.now) :
    exec (.macAgeOut mac) s = .next (onNet (fun n => { n with macs := mdel n.macs mac }) s) := by
  refine congrArg Host.Outcome.next ?_
  simp [whenLive, hlive, doMacAgeOut, he, due, hold]

/-! ### The obligation -/

/-- Settles O34: the checks of a port either store the packet, or drop, answer or hand it over with Shoal and the ports untouched;
a frame that an Ethernet-mode port takes in is learned and bridged. -/
theorem packetsAndFramesAtTheirPort : Obligations.PacketsAndFramesAtTheirPort := by
  unfold Obligations.PacketsAndFramesAtTheirPort
  refine ⟨fun s port p hon hd hr => ⟨?malformed, ?control, ?waits, ?unclean, ?attached⟩, ?frames, ?mgmtPort, ?mgmtAll, ?ageOut⟩
  case malformed => exact fun hw => exec_packetIngress_dropped hon hd hr (ingressOf_malformed hw)
  case control => exact fun hw hf hc => exec_packetIngress_control hon hd hr hw hf hc
  case waits =>
    intro b l sl hw hf hc ha hn hl
    obtain ⟨t, hexec, x, hx⟩ := exec_packetIngress_waits hon hd hr hw hf hc ha hn hl
    exact ⟨t, x, hexec, hx⟩
  case unclean => exact fun hw hf h => exec_packetIngress_unclean hon hd hr hw hf h
  case attached =>
    intro hw hf hvc hhops hdline hgap
    have hclean : ¬ (p.vc = vcESC ∨ p.hops ≠ 0 ∨ p.dline ≠ 0 ∨ p.gap = true) := by simp [hvc, hhops, hdline, hgap]
    exact ⟨fun hb hp he => exec_packetIngress_unbound hon hd hr hw hf hclean hp hb he,
      fun b hb hp hx hj => exec_packetIngress_denied hon hd hr hw hf hclean hp hb hx hj⟩
  case frames =>
    intro s port good f hon he hr
    have hexec := exec_ethernetFrame_run hon he hr good f
    have hok (hg : good = true) (hmin : 64 ≤ f.length) (hmax : f.length ≤ 9216) (hfcs : fcsOk f = true) :
        ¬ (¬ good = true ∨ f.length < 64 ∨ 9216 < f.length ∨ fcsOk f = false) := by simp [hg, hmin, hmax, hfcs]
    refine ⟨fun hbad => ?_, fun hg hmin hmax hfcs hctl => ?_, fun hg hmin hmax hfcs hctl => ?_⟩
    · rw [hexec, if_pos (by simpa using hbad)]
    · rw [hexec, if_neg (hok hg hmin hmax hfcs), if_pos hctl]
    · rw [hexec, if_neg (hok hg hmin hmax hfcs), if_neg hctl]
      refine ⟨fun hfull => by rw [if_pos hfull], fun hcan hdst hroom => ?_⟩
      rw [if_neg (by simp [hcan])]
      obtain ⟨hin, hmac, hsame⟩ := bridged_mgmt
        (s := count (kPort port iRX_PKTS) (countN (kPort port iRX_BYTES) f.length s)) hdst (by simpa using hroom) port
      rw [bridge_congr (s := s) (by simp)] at hsame
      simp only [count_net, countN_net, count_tide, countN_tide, count_shoal, countN_shoal] at hin hmac hsame
      exact ⟨_, rfl, hin, hmac, hsame⟩
  case mgmtPort => exact fun s p f hon he hr => exec_mgmtFrameSend_port hon he hr f
  case mgmtAll => exact fun s f hon => exec_mgmtFrameSend_all hon f
  case ageOut => exact fun s mac e hlive he hold => exec_macAgeOut_old hlive he hold

end Sys2Proof.Machine
end

/-! ## The order in which packets leave a resequencer entry (R262, R263) -/

section
namespace Sys2Proof.Machine

/-- The items carry the sequence numbers from `exp` on, none missing. -/
def Consecutive (exp : Nat) (l : List RItem) : Prop := ∀ k x, l[k]? = some x → x.1 = (exp + k) % 2 ^ 32

theorem consecutive_cons {exp : Nat} {x : RItem} {l : List RItem} (hx : x.1 = exp % 2 ^ 32)
    (hl : Consecutive ((exp + 1) % 2 ^ 32) l) : Consecutive exp (x :: l)
  | 0, _, h => by cases h; exact hx
  | k + 1, y, h => by rw [hl k y h]; omega

/-- `r` comes of `o` by delivering some of the held items, unmarked and in sequence from EXP on; nothing is dropped. -/
def Delivers (o r : ROut) : Prop := ∃ l, r.out = o.out ++ l.map (fun x => (x, false)) ∧ Consecutive o.flow.exp l
  ∧ r.flow.exp = (o.flow.exp + l.length) % 2 ^ 32 ∧ (l ++ r.flow.held).Perm o.flow.held ∧ r.drop = o.drop

section
variable {o r : ROut} (hexp : o.flow.exp < 2 ^ 32)
include hexp

theorem delivers_nothing (hout : r.out = o.out) (he : r.flow.exp = o.flow.exp) (hheld : r.flow.held = o.flow.held)
    (hdrop : r.drop = o.drop) : Delivers o r :=
  ⟨[], by simpa using hout, by simp [Consecutive], by simpa [he] using (Nat.mod_eq_of_lt hexp).symm, by simp [hheld], hdrop⟩

/-- The item at EXP goes first, and from `u` on what continues it. -/
theorem delivers_cons {u : ROut} {it : RItem} (h : Delivers u r) (hat : it.1 = o.flow.exp) (hout : u.out = o.out ++ [(it, false)])
    (he : u.flow.exp = (o.flow.exp + 1) % 2 ^ 32) (hheld : (it :: u.flow.held).Perm o.flow.held) (hdrop : u.drop = o.drop) :
    Delivers o r := by
  obtain ⟨l, hout', hseq, he', hheld', hdrop'⟩ := h
  rw [he] at hseq
  refine ⟨it :: l, by simp [hout', hout], consecutive_cons (by omega) hseq, ?_, (hheld'.cons it).trans hheld, hdrop'.trans hdrop⟩
  rw [he', List.length_cons]
  omega

theorem runOn_delivers (n : Nat) : Delivers o (runOn n o) := by
  induction n generalizing o with
  | zero => exact delivers_nothing hexp rfl rfl rfl rfl
  | succ n ih =>
    unfold runOn
    split
    · exact delivers_nothing hexp rfl rfl rfl rfl
    next it hit =>
      have hat : it.1 = o.flow.exp := by simpa using List.find?_some hit
      exact delivers_cons hexp (ih (Nat.mod_lt _ (Nat.two_pow_pos 32))) hat rfl rfl
        (List.perm_cons_erase (List.mem_of_find?_eq_some hit)).symm rfl

end

/-- A packet at EXP is delivered as if it had been held. -/
theorem deliverAt_delivers {it : RItem} {f : Flow} (hexp : f.exp < 2 ^ 32) (hat : it.1 = f.exp) :
    Delivers { flow := { f with held := it :: f.held } } (deliverAt it false { flow := f }) :=
  delivers_cons hexp (runOn_delivers (Nat.mod_lt _ (Nat.two_pow_pos 32)) _) hat rfl (by rw [hat]) (.refl _) rfl

theorem ahead_eq_zero_iff {a b : Nat} (ha : a < 2 ^ 32) (hb : b < 2 ^ 32) : ahead a b = 0 ↔ b = a := by
  unfold ahead
  omega

/-- Settles O36: a packet at EXP leaves with what continues it; one ahead of EXP is held, or dropped where its number is held. -/
theorem resequencerKeepsSequence : Obligations.ResequencerKeepsSequence := by
  unfold Obligations.ResequencerKeepsSequence
  intro now it f hexp hit hwin
  by_cases hat : ahead f.exp it.1 = 0
  · obtain ⟨l, hout, hseq, he, hheld, hdrop⟩ := deliverAt_delivers hexp ((ahead_eq_zero_iff hexp hit).1 hat)
    have hrun : runArrive now it { flow := f } = restartGap now (deliverAt it false { flow := f }) := if_pos hat
    simp only [hrun, restartGap, hout, he, hdrop, List.nil_append, List.length_map, List.map_map]
    refine ⟨fun k x hx => ?_, trivial, ?_⟩
    · obtain ⟨y, hy, rfl⟩ : ∃ y, l[k]? = some y ∧ (y, false) = x := by simpa using hx
      exact ⟨hseq k y hy, rfl⟩
    · simpa [Function.comp_def] using hheld.trans (List.perm_append_singleton it f.held).symm
  · by_cases hdup : f.held.any (fun x => x.1 == it.1) = true
    all_goals
      simp only [runArrive, hat, hwin, hdup, if_true, if_false]
      exact ⟨by simp, (Nat.mod_eq_of_lt hexp).symm, by simp⟩

end Sys2Proof.Machine
end

/-! ## Stored packets and queues on the path of a packet (R250, R281, R303, R317, R318) -/

section
namespace Sys2Proof.Machine

/-! ### Header fields -/

section
variable (k : Packet) (n : Nat) (b : Bool)

@[simp] theorem setGap_vc : (k.setGap b).vc = k.vc := fld_setFld_apart _ _ (by decide) (by decide) (by decide)
@[simp] theorem setGap_ovc : (k.setGap b).ovc = k.ovc := fld_setFld_apart _ _ (by decide) (by decide) (by decide)
@[simp] theorem setGap_job : (k.setGap b).job = k.job := fld_setFld_apart _ _ (by decide) (by decide) (by decide)
@[simp] theorem setGap_src : (k.setGap b).src = k.src := fld_setFld_apart _ _ (by decide) (by decide) (by decide)
@[simp] theorem setVc_vc : (k.setVc n).vc = n % 8 := fld_setFld_same _ _ (by decide) (by decide)
@[simp] theorem setVc_job : (k.setVc n).job = k.job := fld_setFld_apart _ _ (by decide) (by decide) (by decide)
@[simp] theorem setDline_vc : (k.setDline n).vc = k.vc := fld_setFld_apart _ _ (by decide) (by decide) (by decide)
@[simp] theorem setDline_job : (k.setDline n).job = k.job := fld_setFld_apart _ _ (by decide) (by decide) (by decide)

end

@[simp] theorem onLinkPkt_job (s : State) (p : Nat) (k : Packet) : (onLinkPkt s p k).job = k.job := by
  unfold onLinkPkt
  dsimp only
  split
  · simp
  · split <;> simp

/-- The channel of a packet on a link: its own on a fabric port, its flow's elsewhere (R242). -/
theorem onLinkPkt_vc (s : State) (p : Nat) (k : Packet) : (onLinkPkt s p k).vc = if isFabric s p then k.vc else k.ovc % 8 := by
  unfold onLinkPkt
  dsimp only
  cases isFabric s p with
  | false => simp
  | true =>
    simp only [not_true_eq_false, if_false, if_true]
    split <;> simp

/-! ### Stored packets by name -/

theorem storedAt_congr {s t : State} (h : t.shoal.stored = s.shoal.stored) (d b : Nat) : storedAt t d b = storedAt s d b := by
  rw [storedAt, storedAt, h]

/-- A change of a stored packet that leaves its name. -/
def KeepsName (f : Stored → Stored) : Prop := ∀ x, (f x).die = x.die ∧ (f x).bufs = x.bufs

/-- Where those that meet `p` are changed, and still meet it, the first of them is found changed. -/
theorem find?_map_at {α : Type} {p : α → Bool} {f : α → α} (hf : ∀ x, p (f x) = p x) (l : List α) :
    (l.map (fun x => if p x then f x else x)).find? p = (l.find? p).map f := by
  have hkey : p ∘ (fun x => if p x then f x else x) = p := by
    funext x
    dsimp only [Function.comp]
    split
    · exact hf x
    · rfl
  rw [List.find?_map, hkey]
  cases h : l.find? p with
  | none => rfl
  | some x => exact congrArg some (if_pos (List.find?_some h))

theorem storedAt_onStored_same {f : Stored → Stored} (hf : KeepsName f) (s : State) (d b : Nat) :
    storedAt (onStored d b f s) d b = (storedAt s d b).map f :=
  find?_map_at (p := fun x : Stored => x.die == d && x.bufs.headD 0xFFFFF == b) (fun x => by rw [(hf x).1, (hf x).2]) _

/-- Nothing is changed by the name of a packet that is not stored. -/
theorem onStored_of_not_stored {s : State} {d b : Nat} (h : storedAt s d b = none) (f : Stored → Stored) : onStored d b f s = s := by
  have hkeep : ∀ x ∈ s.shoal.stored, (if x.die == d && x.bufs.headD 0xFFFFF == b then f x else x) = id x :=
    fun x hx => if_neg (List.find?_eq_none.1 h x hx)
  have hmap := (List.map_congr_left hkeep).trans (List.map_id _)
  show ({ s with shoal := { s.shoal with stored := _ } } : State) = s
  rw [hmap]

/-! ### Queues -/

section
variable {s u : State} {p q : Nat} {k : Packet}

/-- Finding a packet's queue changes the state by the job slot that it binds, where it binds one (R318). -/
theorem queueFor_cases (h : queueFor s p k = some (q, u)) :
    u = s ∨ ∃ j e, u = onPort p (fun x => { x with slots := mput x.slots j e }) s := by
  unfold queueFor at h
  dsimp only at h
  split_ifs at h
  iterate 5
    cases h
    exact .inl rfl
  split at h
  · cases h
    exact .inl rfl
  · split at h
    · cases h
      exact .inr ⟨_, _, rfl⟩
    · cases h

theorem queueFor_frame (h : queueFor s p k = some (q, u)) : u = { s with net := u.net } := by
  obtain rfl | ⟨j, e, rfl⟩ := queueFor_cases h <;> rfl

end

section
variable {s t : State} {p : Nat} {j k : Packet} (hp : getPort t p = getPort s p) (hv : j.vc = k.vc) (hov : j.ovc = k.ovc)
include hp hv hov

theorem onLinkPkt_vc_congr : (onLinkPkt t p j).vc = (onLinkPkt s p k).vc := by
  rw [onLinkPkt_vc, onLinkPkt_vc, hv, hov, isFabric, isFabric, hp]

/-- Whether a packet has a queue turns on the port's slots and on the packet's channel and job. -/
theorem queueFor_isSome_congr (hj : j.job = k.job) : (queueFor t p j).isSome = (queueFor s p k).isSome := by
  unfold queueFor
  simp only [onLinkPkt_job, onLinkPkt_vc_congr hp hv hov, hj, hp, apply_ite Option.isSome]
  split_ifs
  iterate 7 rfl
  cases slotOf (getPort s p) k.job with
  | some j => rfl
  | none => cases freeSlot (getPort s p) <;> rfl

end

end Sys2Proof.Machine
end

/-! ## What leaves a resequencer entry, and the end of its waits (R250, R262 to R265) -/

section
namespace Sys2Proof.Machine

/-! ### An entry that holds one packet, or none -/

@[simp] theorem sortBy_singleton {α : Type} (f : α → Nat) (x : α) : sortBy f [x] = [x] := rfl

/-- The packet at EXP, where nothing is held, leaves alone. -/
theorem runArrive_of_exp {now : Nat} {it : RItem} {f : Flow} (hit : it.1 < 2 ^ 32) (hexp : f.exp = it.1) (hheld : f.held = []) :
    runArrive now it { flow := f } = { flow := { f with exp := (it.1 + 1) % 2 ^ 32, timer := none }, out := [(it, false)] } := by
  have hat : ahead f.exp it.1 = 0 := (ahead_eq_zero_iff (hexp ▸ hit) hit).2 hexp.symm
  rw [runArrive, if_pos hat]
  simp [deliverAt, hheld, runOn, restartGap]

/-- The one packet that an entry in RUN holds leaves with GAP set. -/
theorem skipGap_single {now : Nat} {it : RItem} {f : Flow} (hheld : f.held = [it]) :
    skipGap now { flow := f } =
      { flow := { f with exp := (it.1 + 1) % 2 ^ 32, held := [], timer := none }, out := [(it, true)], cnt := [iRSQ_GAP] } := by
  simp [skipGap, heldOrder, hheld, deliverAt, runOn]

theorem earliest_singleton (a : Nat) : earliest [a] = a := rfl

/-- The one packet that a BASE entry holds leaves as it stands. -/
theorem baseOut_single {now : Nat} {it : RItem} {f : Flow} (hheld : f.held = [it]) (hit : it.1 < 2 ^ 32) :
    baseOut now { flow := f } =
      { flow := { f with run := true, exp := (it.1 + 1) % 2 ^ 32, held := [], timer := none }, out := [(it, false)] } := by
  have hrun := runArrive_of_exp (now := now) (it := it) (f := { f with run := true, exp := it.1, held := [], timer := none }) hit rfl rfl
  have hearly : earliest (List.map (fun it => it.1) f.held) = it.1 := by rw [hheld]; exact earliest_singleton _
  have horder : baseOrder it.1 f.held = [it] := by rw [hheld]; exact sortBy_singleton _ _
  rw [baseOut, enterRun, hearly, horder, List.nil_append, List.foldl_cons, List.foldl_nil, hrun]

/-! ### The table of flows -/

/-- Put a flow back in its entry. -/
def putFlow (die : Nat) (f : Flow) : State → State :=
  onShoal (fun h => { h with flows := h.flows.map (fun e => if e.1 == die && e.2.entry == f.entry then (die, f) else e) })

/-- The first that meets `p` takes the place of those that meet `q`, itself one of them, and meets `p` there. -/
theorem find?_map_replace {α : Type} {p q : α → Bool} {x y : α} {l : List α} (hx : l.find? p = some x) (hq : q x = true) (hy : p y = true) :
    (l.map (fun e => if q e then y else e)).find? p = some y := by
  induction l with
  | nil => cases hx
  | cons e l ih =>
    by_cases hqe : q e = true
    · simp [hqe, hy]
    · have hpe : ¬ p e = true := fun hpe => hqe (by rw [List.find?_cons_of_pos hpe] at hx; cases hx; exact hq)
      rw [List.find?_cons_of_neg hpe] at hx
      simpa [hqe, hpe] using ih hx

/-- A flow that stays the same flow is found again where it was put back. -/
theorem findFlow_putFlow {s : State} {die src dst ovc : Nat} {f g : Flow} (hf : findFlow s die src dst ovc = some f)
    (hsrc : g.src = f.src) (hdst : g.dst = f.dst) (hovc : g.ovc = f.ovc) (hentry : g.entry = f.entry) :
    findFlow (putFlow die g s) die src dst ovc = some g := by
  obtain ⟨⟨d, f⟩, hfind, rfl⟩ := Option.map_eq_some_iff.1 hf
  have hkey := List.find?_some hfind
  have hnew : (die == die && g.src == src && g.dst == dst && g.ovc == ovc) = true := by simp_all
  exact congrArg (Option.map _) (find?_map_replace (q := fun e : Nat × Flow => e.1 == die && e.2.entry == g.entry) (y := (die, g))
    hfind (by simp_all) hnew)

/-! ### A packet that is delivered in order -/

@[simp] theorem onStored_flows (d b : Nat) (f : Stored → Stored) (s : State) : (onStored d b f s).shoal.flows = s.shoal.flows := rfl

@[simp] theorem noteSlotWait_flows (p : Nat) (x : Stored) (s : State) : (noteSlotWait p x s).shoal.flows = s.shoal.flows := by
  unfold noteSlotWait
  split
  · rfl
  · exact onlyIf_same (g := fun u => u.shoal.flows) _ _ (by simp)

@[simp] theorem enqueue_flows (p q : Nat) (e : Nat × Nat) (s : State) : (enqueue p q e s).shoal.flows = s.shoal.flows := rfl
@[simp] theorem enqueue_route (p q : Nat) (e : Nat × Nat) (s : State) : (enqueue p q e s).route = s.route := rfl

theorem queueFor_shoal {s u : State} {p q : Nat} {k : Packet} (h : queueFor s p k = some (q, u)) : u.shoal = s.shoal := by
  rw [queueFor_frame h]

theorem queueFor_route {s u : State} {p q : Nat} {k : Packet} (h : queueFor s p k = some (q, u)) : u.route = s.route := by
  rw [queueFor_frame h]

theorem toQueue_flows (port : Nat) (e : Nat × Nat) (s : State) : (toQueue port e s).shoal.flows = s.shoal.flows := by
  unfold toQueue
  split
  · rfl
  · split
    · exact noteSlotWait_flows _ _ _
    next _ q u h =>
      rw [enqueue_flows, onStored_flows, queueFor_shoal h]

theorem toLocal_flows (port : Nat) (k : Packet) (e : Nat × Nat) (s : State) : (toLocal port k e s).shoal.flows = s.shoal.flows := by
  unfold toLocal
  dsimp only
  split
  · rfl
  · split
    · exact noteSlotWait_flows _ _ _
    next _ _ q u h => simp [queueFor_shoal h]

/-- A packet that is not stored, or that has a queue at the LOCAL pseudo-port, goes to the engines. -/
theorem toLocal_toEngine {port : Nat} {k : Packet} {e : Nat × Nat} {s : State}
    (h : storedAt s e.1 e.2 = none ∨ (queueFor s (768 + k.src % 4) k).isSome = true) :
    (toLocal port k e s).route.toEngine = s.route.toEngine ++ [(port, k, e.1, e.2)] := by
  unfold toLocal
  dsimp only
  split
  · rfl
  next hx =>
    obtain h | h := h
    · cases h.symm.trans hx
    · split
      next hq => rw [hq] at h; cases h
      next q u hq => simp [queueFor_route hq]

theorem goodAt_of_not_stored {s : State} {d b : Nat} (h : storedAt s d b = none) : goodAt s d b = true := by
  rw [goodAt, h]; rfl

/-- The packet of an item as it is delivered. -/
def outPkt (it : RItem) (gap : Bool) : Packet := if gap then it.2.2.1.setGap true else it.2.2.1

/-- The state in which an item goes on: it is in order where it is stored, and its note of a port is used up. -/
def readied (it : RItem) (gap : Bool) (s : State) : State :=
  setStored it.2.2.2.1 it.2.2.2.2 (fun _ => outPkt it gap) (onStored it.2.2.2.1 it.2.2.2.2 (fun x => { x with inOrder := true })
    (onRoute (fun r => { r with direct := r.direct.filter (fun e => !noteIs it.2.2.1 e) }) s))

theorem outPkt_src (it : RItem) (gap : Bool) : (outPkt it gap).src = it.2.2.1.src := by
  unfold outPkt
  split <;> simp

theorem queueFor_readied_isSome (it : RItem) (gap : Bool) (s : State) (p : Nat) :
    (queueFor (readied it gap s) p (outPkt it gap)).isSome = (queueFor s p it.2.2.1).isSome := by
  cases gap
  · exact queueFor_isSome_congr rfl rfl rfl rfl
  · exact queueFor_isSome_congr rfl (setGap_vc _ _) (setGap_ovc _ _) (setGap_job _ _)

theorem storedAt_readied_of_none {it : RItem} {s : State} (h : storedAt s it.2.2.2.1 it.2.2.2.2 = none) (gap : Bool) :
    storedAt (readied it gap s) it.2.2.2.1 it.2.2.2.2 = none := by
  have h' : storedAt (onRoute (fun r => { r with direct := r.direct.filter (fun e => !noteIs it.2.2.1 e) }) s)
    it.2.2.2.1 it.2.2.2.2 = none := h
  rwa [readied, setStored, onStored_of_not_stored h', onStored_of_not_stored h']

section
variable {it : RItem} {gap : Bool} {s : State} (hgood : goodAt s it.2.2.2.1 it.2.2.2.2 = true)
include hgood

theorem deliverItem_lport {l : Nat} (h : lastDest s it = .lport l) :
    deliverItem it gap s = toQueue l it.2.2.2 (readied it gap s)
      ∨ deliverItem it gap s = onRoute (fun r => { r with toEngine := r.toEngine ++ [(l, outPkt it gap, it.2.2.2)] }) (readied it gap s) := by
  unfold deliverItem
  dsimp only
  rw [if_neg (by simp [hgood]), h]
  dsimp only
  rw [← outPkt]
  split
  · exact .inr rfl
  · exact .inl rfl

theorem deliverItem_local (h : ∀ l, lastDest s it ≠ .lport l) :
    deliverItem it gap s = toLocal it.2.1 (outPkt it gap) it.2.2.2 (readied it gap s) := by
  unfold deliverItem
  dsimp only
  rw [if_neg (by simp [hgood])]
  split
  next l hl => exact absurd hl (h l)
  · rfl

theorem deliverItem_flows : (deliverItem it gap s).shoal.flows = s.shoal.flows := by
  by_cases h : ∃ l, lastDest s it = .lport l
  · obtain ⟨l, h⟩ := h
    obtain h | h := deliverItem_lport hgood (gap := gap) h
    · rw [h, toQueue_flows]
      rfl
    · rw [h]
      rfl
  · rw [deliverItem_local hgood (fun l hl => h ⟨l, hl⟩), toLocal_flows]
    rfl

/-- A packet for this Q7, not stored or with a queue at the LOCAL pseudo-port, goes to the engines as it is delivered (R250). -/
theorem deliverItem_toEngine (hdest : lastDest s it = .here)
    (hroom : storedAt s it.2.2.2.1 it.2.2.2.2 = none ∨ (queueFor s (768 + it.2.2.1.src % 4) it.2.2.1).isSome = true) :
    (deliverItem it gap s).route.toEngine = s.route.toEngine ++ [(it.2.1, outPkt it gap, it.2.2.2)] := by
  rw [deliverItem_local hgood (by simp [hdest]), toLocal_toEngine]
  · rfl
  · rw [outPkt_src, queueFor_readied_isSome]
    exact hroom.imp_left fun h => storedAt_readied_of_none h gap

end

/-! ### The outcome of one packet's delivery -/

section
variable {o : ROut} {it : RItem} {gap : Bool} {s : State} (hdrop : o.drop = []) (hout : o.out = [(it, gap)])

/-- The state in which the packet of an outcome is delivered: its flow is back in its entry, and the events are counted. -/
def flowBack (die : Nat) (o : ROut) (s : State) : State := forAll o.cnt (fun c => count (kDie die c)) (putFlow die o.flow s)

theorem flowBack_shoal (die : Nat) (o : ROut) (s : State) : (flowBack die o s).shoal = (putFlow die o.flow s).shoal :=
  forAll_same (fun _ _ => by simp) _ _

theorem flowBack_route (die : Nat) (o : ROut) (s : State) : (flowBack die o s).route = s.route :=
  forAll_same (g := State.route) (fun _ _ => by simp) _ _

theorem flowBack_net (die : Nat) (o : ROut) (s : State) : (flowBack die o s).net = s.net :=
  forAll_same (g := State.net) (fun _ _ => by simp) _ _

theorem storedAt_flowBack (die : Nat) (o : ROut) (s : State) (d b : Nat) : storedAt (flowBack die o s) d b = storedAt s d b :=
  storedAt_congr (by rw [flowBack_shoal]; rfl) d b

include hdrop hout

/-- What one packet's delivery leaves, but for the notes of what stays held. -/
theorem applyOut_same {β : Type} {g : State → β} (hg : ∀ d b f u, g (onStored d b f u) = g u) (die : Nat) :
    g (applyOut die o s) = g (deliverItem it gap (flowBack die o s)) := by
  unfold applyOut
  dsimp only
  rw [hdrop, hout]
  exact forAll_same (fun _ _ => hg _ _ _ _) _ _

theorem findFlow_applyOut {die src dst ovc : Nat} {f : Flow} (hgood : goodAt s it.2.2.2.1 it.2.2.2.2 = true)
    (hf : findFlow s die src dst ovc = some f) (hsrc : o.flow.src = f.src) (hdst : o.flow.dst = f.dst) (hovc : o.flow.ovc = f.ovc)
    (hentry : o.flow.entry = f.entry) : findFlow (applyOut die o s) die src dst ovc = some o.flow := by
  have hflows : (applyOut die o s).shoal.flows = (putFlow die o.flow s).shoal.flows := by
    rw [applyOut_same hdrop hout (g := fun u => u.shoal.flows) (by simp), deliverItem_flows, flowBack_shoal]
    rwa [goodAt, storedAt_flowBack]
  rw [← findFlow_putFlow hf hsrc hdst hovc hentry, findFlow, hflows]
  rfl

theorem applyOut_toEngine (die : Nat) (hgood : goodAt s it.2.2.2.1 it.2.2.2.2 = true) (hdest : lastDest s it = .here)
    (hroom : storedAt s it.2.2.2.1 it.2.2.2.2 = none ∨ (queueFor s (768 + it.2.2.1.src % 4) it.2.2.1).isSome = true) :
    (applyOut die o s).route.toEngine = s.route.toEngine ++ [(it.2.1, outPkt it gap, it.2.2.2)] := by
  rw [applyOut_same hdrop hout (g := fun u => u.route.toEngine) (fun _ _ _ _ => rfl), deliverItem_toEngine, flowBack_route]
  · rwa [goodAt, storedAt_flowBack]
  · rw [← hdest, lastDest, flowBack_route, storedAt_flowBack, lookupDest, flowBack_route]
    rfl
  · rw [storedAt_flowBack]
    refine hroom.imp_right fun h => ?_
    rw [← h]
    exact queueFor_isSome_congr (by rw [getPort, flowBack_net]; rfl) rfl rfl rfl

end

/-! ### The commands -/

/-- The wait of a flow in RUN that holds one packet ends: its gap is skipped. -/
theorem flowOut_gap {die : Nat} {f : Flow} {s : State} {it : RItem} {tm : Nat} (hheld : f.held = [it]) (htm : f.timer = some tm)
    (hrun : f.run = true) (hdue : tm + 50000 ≤ s.tide.now) :
    flowOut die f s = applyOut die
      { flow := { f with expire := false, exp := (it.1 + 1) % 2 ^ 32, held := [], timer := none }, out := [(it, true)],
        cnt := [iRSQ_GAP] } s := by
  have hskip := skipGap_single (now := s.tide.now) (f := { f with expire := false }) hheld
  simp only [hheld, htm, hrun] at hskip
  simp only [flowOut, hheld, htm, hrun, due, hdue, List.isEmpty_cons, Option.map_some, Option.getD_some, decide_true, Bool.and_self,
    if_true, Bool.false_eq_true, false_and, if_false, hskip]

/-- The wait of a BASE entry that holds one packet ends: it enters RUN. -/
theorem flowOut_base {die : Nat} {f : Flow} {s : State} {it : RItem} {tm : Nat} (hheld : f.held = [it]) (htm : f.timer = some tm)
    (hrun : f.run = false) (hdue : tm + 2000 ≤ s.tide.now) (hit : it.1 < 2 ^ 32) :
    flowOut die f s = applyOut die
      { flow := { f with expire := false, run := true, exp := (it.1 + 1) % 2 ^ 32, held := [], timer := none },
        out := [(it, false)] } s := by
  have hbase := baseOut_single (now := s.tide.now) (f := { f with expire := false }) hheld hit
  simp only [hheld, htm, hrun] at hbase
  simp only [flowOut, hheld, htm, hrun, due, hdue, List.isEmpty_cons, Option.map_some, Option.getD_some, decide_true, Bool.and_self,
    Bool.not_false, Bool.false_and, if_true, Bool.false_eq_true, false_and, if_false, hbase]

section
variable {s : State} {die src dst ovc : Nat} {f : Flow} (he : engineOn s = true) (hf : findFlow s die src dst ovc = some f)
include he hf

theorem exec_reseqBaseTimeout {tm : Nat} (htm : f.timer = some tm) (hrun : f.run = false) (hdue : tm + 2000 ≤ s.tide.now) :
    exec (.reseqBaseTimeout die src dst ovc) s = .next (endFlowWait die f (tm + 2000) s) := by
  show Host.Outcome.next (doBaseTimeout die src dst ovc s) = _
  simp [doBaseTimeout, hf, htm, he, hrun, due, hdue]

theorem exec_reseqGapTimeout {tm : Nat} (htm : f.timer = some tm) (hrun : f.run = true) (hdue : tm + 50000 ≤ s.tide.now) :
    exec (.reseqGapTimeout die src dst ovc) s = .next (endFlowWait die f (tm + 50000) s) := by
  show Host.Outcome.next (doGapTimeout die src dst ovc s) = _
  simp [doGapTimeout, hf, htm, he, hrun, due, hdue]

theorem exec_reseqEntryFree (hheld : f.held = []) (hdue : f.lastAt + 150000 ≤ s.tide.now) :
    exec (.reseqEntryFree die src dst ovc) s =
      .next (if s.tide.now = f.lastAt + 150000 then expireFlow die f.entry s else freeFlow die f.entry s) := by
  show Host.Outcome.next (doEntryFree die src dst ovc s) = _
  simp [doEntryFree, hf, he, hheld, due, hdue, endFlowWait, flowOut]

end

/-- A packet for this Q7 that stands at the head of no ingress account arrives at its entry. -/
theorem exec_reseqArrival_here {s : State} {port : Nat} {p : Packet} (he : engineOn s = true) (hdest : lookupDest s p.dst = .here)
    (hhead : ∀ c, c < 9 → ingressHead s port c = none) (hcons : consumes (decide (768 ≤ port) || isFabric s port) p = true) :
    exec (.reseqArrival port p) s = .next (reseqTake (p.src % 4) (p.fseq, port, p, 4, 0) s) := by
  have hnone : (List.range 9).find? (fun c => ((ingressHead s port c).map (fun x => x.pkt == p)).getD false) = none :=
    List.find?_eq_none.2 fun c hc => by simp [hhead c (List.mem_range.1 hc)]
  show Host.Outcome.next (doReseqArrival port p s) = _
  simp [doReseqArrival, hdest, he, hnone, hcons, reseqDie]

/-- A packet at EXP of an entry in RUN that holds nothing leaves as it arrives (R263). -/
theorem reseqTake_exp {s : State} {die : Nat} {it : RItem} {f : Flow} (hf : findFlow s die it.2.2.1.src it.2.2.1.dst it.2.2.1.ovc = some f)
    (hrun : f.run = true) (hheld : f.held = []) (hexp : f.exp = it.1) (hseq : it.1 = it.2.2.1.fseq) (hit : it.1 < 2 ^ 32) :
    reseqTake die it s = applyOut die
      { flow := { f with lastAt := s.tide.now, exp := (it.1 + 1) % 2 ^ 32, timer := none }, out := [(it, false)] } s := by
  have harr : flowArrive s.tide.now it f = runArrive s.tide.now it { flow := { f with lastAt := s.tide.now } } := if_pos hrun
  have hahead : ahead f.exp it.2.2.1.fseq = 0 := (ahead_eq_zero_iff (hexp ▸ hit) (hseq ▸ hit)).2 (by rw [← hseq, hexp])
  have hdis : disrupts f it.2.2.1 = false := by simp [disrupts, hahead]
  rw [reseqTake, hf]
  dsimp only
  rw [hdis, if_neg Bool.false_ne_true, harr, runArrive_of_exp (f := { f with lastAt := s.tide.now }) hit hexp hheld]

theorem lastDest_of_not_stored {s : State} {it : RItem} (hdirect : s.route.direct = [])
    (h : storedAt s it.2.2.2.1 it.2.2.2.2 = none) : lastDest s it = lookupDest s it.2.2.1.dst := by
  simp [lastDest, hdirect, h]

theorem fseq_lt (p : Packet) : p.fseq < 2 ^ 32 := Nat.mod_lt _ (Nat.two_pow_pos 32)

/-- Settles O37: each command comes to the outcome of one packet, which `applyOut` puts back in the table and delivers. -/
theorem resequencerDeliversAndTimesOut : Obligations.ResequencerDeliversAndTimesOut := by
  unfold Obligations.ResequencerDeliversAndTimesOut
  refine ⟨?_, ?_, fun s die src dst ovc f he hf hheld hdue => exec_reseqEntryFree he hf hheld hdue⟩
  · intro s port p f he hdest hhead hcons hf hrun hheld hexp hdirect hstored
    have hgood := goodAt_of_not_stored hstored
    have hlast : lastDest s (p.fseq, port, p, 4, 0) = .here := (lastDest_of_not_stored hdirect hstored).trans hdest
    rw [exec_reseqArrival_here he hdest hhead hcons,
      reseqTake_exp (it := (p.fseq, port, p, 4, 0)) hf hrun hheld hexp rfl (fseq_lt p)]
    refine ⟨_, _, rfl, ?_, findFlow_applyOut rfl rfl hgood hf rfl rfl rfl rfl, rfl, hheld, rfl⟩
    exact applyOut_toEngine (it := (p.fseq, port, p, 4, 0)) (gap := false) rfl rfl _ hgood hlast (.inl hstored)
  · intro s die src dst ovc f it tm he hf hheld htm hit hgood
    refine ⟨fun hrun hnow => ?_, fun hrun hnow => ?_, fun hrun hlt => ?_, fun hrun hlt => ?_⟩
    · rw [exec_reseqBaseTimeout he hf htm hrun hnow.le, endFlowWait, if_pos hnow.symm]
    · rw [exec_reseqGapTimeout he hf htm hrun hnow.le, endFlowWait, if_pos hnow.symm]
    · rw [exec_reseqBaseTimeout he hf htm hrun hlt.le, endFlowWait, if_neg hlt.ne', flowOut_base hheld htm hrun hlt.le hit]
      exact ⟨_, _, rfl, findFlow_applyOut rfl rfl hgood hf rfl rfl rfl rfl, rfl, rfl, rfl, rfl⟩
    · rw [exec_reseqGapTimeout he hf htm hrun hlt.le, endFlowWait, if_neg hlt.ne', flowOut_gap hheld htm hrun hlt.le]
      refine ⟨_, _, rfl, findFlow_applyOut rfl rfl hgood hf rfl rfl rfl rfl, hrun, rfl, rfl, rfl, fun hdest hroom => ?_⟩
      exact applyOut_toEngine (gap := true) rfl rfl _ hgood hdest (.inr hroom)

end Sys2Proof.Machine
end

/-! ## ROUTE_READ, EPOCH_DRAIN, SOUNDING_SET and the wait traces (R251, R274, R275, R575 to R579) -/

section
namespace Sys2Proof.Machine

/-! ### Events and counters leave the traces -/

@[simp] theorem entriesWritten_traces (r n : Nat) (now : Bool) (s : State) : (entriesWritten r n now s).obs.traces = s.obs.traces := by
  unfold entriesWritten sendVector
  dsimp only
  split_ifs <;> rfl

theorem hostWrite_traces (fn a : Nat) (b : List Byte) (s : State) : (hostWrite fn a b s).obs.traces = s.obs.traces := rfl

@[simp] theorem writeEvent_traces (r c : Nat) (d : List Byte) (m : List (List Byte)) (s : State) :
    (writeEvent r c d m s).obs.traces = s.obs.traces := by
  unfold writeEvent
  dsimp only
  rw [entriesWritten_traces]
  exact forAll_same (g := fun u : State => u.obs.traces) (fun _ _ => hostWrite_traces _ _ _ _) _ s

@[simp] theorem postDev_traces (c : Nat) (d : List Byte) (s : State) : (postDev c d s).obs.traces = s.obs.traces := by
  unfold postDev postTo
  dsimp only
  split
  · rfl
  · split
    · rfl
    · split
      · rfl
      · split
        · rfl
        · split
          · rfl
          · exact writeEvent_traces _ _ _ _ _

@[simp] theorem count_traces (k : CKey) (s : State) : (count k s).obs.traces = s.obs.traces := by
  unfold count countN
  dsimp only
  split
  · exact postDev_traces _ _ _
  · rfl

/-! ### The trace of a die -/

theorem getTrace_congr {s t : State} (h : t.obs.traces = s.obs.traces) (k : Nat) : getTrace t k = getTrace s k := by
  rw [getTrace, getTrace, h]

theorem getTrace_onTrace_same {s : State} {k : Nat} (f : Trace → Trace) (h : k < s.obs.traces.length) :
    getTrace (onTrace k f s) k = f (getTrace s k) := nth_modAt_same _ _ _ _ h

theorem getTrace_onTrace_ne (s : State) {j k : Nat} (f : Trace → Trace) (h : j ≠ k) : getTrace (onTrace j f s) k = getTrace s k :=
  nth_modAt_ne _ _ _ _ _ h

@[simp] theorem onTrace_length (j : Nat) (f : Trace → Trace) (s : State) : (onTrace j f s).obs.traces.length = s.obs.traces.length :=
  modAt_length _ _ _

/-- What a change of a trace leaves, it leaves of every die's. -/
theorem getTrace_onTrace_keeps {β : Type} {g : Trace → β} {f : Trace → Trace} (hf : ∀ x, g (f x) = g x) (j k : Nat) (s : State) :
    g (getTrace (onTrace j f s) k) = g (getTrace s k) := by
  by_cases hjk : j = k
  · subst hjk
    by_cases hj : j < s.obs.traces.length
    · rw [getTrace_onTrace_same f hj, hf]
    · have hnone : s.obs.traces[j]? = none := List.getElem?_eq_none (Nat.le_of_not_lt hj)
      simp [getTrace, onTrace, onObs, modAt, hnone]
  · rw [getTrace_onTrace_ne s f hjk]

/-- TRACE_FILL changes of a trace its mark alone. -/
theorem getTrace_traceFillEvent {β : Type} {g : Trace → β} (hg : ∀ x b, g { x with fillPosted := b } = g x) (j k : Nat) (s : State) :
    g (getTrace (traceFillEvent j s) k) = g (getTrace s k) := by
  unfold traceFillEvent
  dsimp only
  split_ifs
  · rw [getTrace_congr (postDev_traces _ _ _), getTrace_onTrace_keeps (fun x => hg x true)]
  · exact getTrace_onTrace_keeps (fun x => hg x false) j k s
  · rfl

theorem getTrace_traceFillEvent_ne (s : State) {j k : Nat} (h : j ≠ k) : getTrace (traceFillEvent j s) k = getTrace s k := by
  unfold traceFillEvent
  dsimp only
  split_ifs
  · rw [getTrace_congr (postDev_traces _ _ _), getTrace_onTrace_ne _ _ h]
  · exact getTrace_onTrace_ne _ _ h
  · rfl

/-- Whether a die traces, and the Tide bits it has noted. -/
def traceNoted (x : Trace) : Bool × Nat := (x.en, x.hi)

theorem onTrace_noted {f : Trace → Trace} (hf : ∀ x, traceNoted (f x) = traceNoted x) (j k : Nat) (s : State) :
    traceNoted (getTrace (onTrace j f s) k) = traceNoted (getTrace s k) := getTrace_onTrace_keeps hf j k s

theorem fillTrace_noted (j k : Nat) (s : State) : traceNoted (getTrace (fillTrace j s) k) = traceNoted (getTrace s k) :=
  onTrace_noted (by intro; rfl) j k s

theorem writeTrace_noted (j : Nat) (rec : List Byte) (k : Nat) (s : State) :
    traceNoted (getTrace (writeTrace j rec s) k) = traceNoted (getTrace s k) := by
  refine Eq.trans ?_ (fillTrace_noted j k s)
  unfold writeTrace
  dsimp only
  split
  · rw [getTrace_congr (count_traces _ _)]
    exact onTrace_noted (by intro; rfl) j k _
  · rw [getTrace_traceFillEvent (g := traceNoted) (fun _ _ => rfl)]
    exact onTrace_noted (by intro; rfl) j k _

theorem writeTrace_tide (j : Nat) (rec : List Byte) (s : State) : (writeTrace j rec s).tide = s.tide := by
  rw [engineOnly_writeTrace s j rec]

/-! ### TRACE_TIME_RECORD -/

/-- A TIME record on a die leaves whether any die traces; it notes the Tide bits there, and none elsewhere. -/
theorem writeTimeRecord_en (j k : Nat) (s : State) : (getTrace (writeTimeRecord j s) k).en = (getTrace s k).en := by
  refine (congrArg Prod.fst (writeTrace_noted j _ k _)).trans ?_
  exact getTrace_onTrace_keeps (g := Trace.en) (by intro; rfl) j k s

theorem writeTimeRecord_hi_same {k : Nat} {s : State} (hk : k < s.obs.traces.length) :
    (getTrace (writeTimeRecord k s) k).hi = s.tide.now / 2 ^ 48 := by
  refine (congrArg Prod.snd (writeTrace_noted k _ k _)).trans ?_
  exact congrArg Trace.hi (getTrace_onTrace_same _ hk)

theorem writeTimeRecord_hi_ne {j k : Nat} (s : State) (h : j ≠ k) : (getTrace (writeTimeRecord j s) k).hi = (getTrace s k).hi := by
  refine (congrArg Prod.snd (writeTrace_noted j _ k _)).trans ?_
  exact congrArg Trace.hi (getTrace_onTrace_ne s _ h)

theorem lt_length_of_en {s : State} {k : Nat} (h : (getTrace s k).en = true) : k < s.obs.traces.length := by
  by_contra hk
  have hnone : s.obs.traces[k]? = none := List.getElem?_eq_none (Nat.le_of_not_lt hk)
  simp [getTrace, nth, hnone] at h

/-- A TIME record where one is due on a die. -/
def noteTime (d : Nat) (s : State) : State :=
  if (getTrace s d).en = true ∧ (getTrace s d).hi ≠ s.tide.now / 2 ^ 48 then writeTimeRecord d s else s

/-- A die traces at a Tide count. -/
def TracesAt (k now : Nat) (s : State) : Prop := s.tide.now = now ∧ (getTrace s k).en = true

theorem noteTime_tracesAt (j : Nat) {k now : Nat} {s : State} (h : TracesAt k now s) : TracesAt k now (noteTime j s) := by
  unfold noteTime
  split
  · exact ⟨(congrArg Tide.now (writeTrace_tide j _ _)).trans h.1, (writeTimeRecord_en j k s).trans h.2⟩
  · exact h

theorem noteTime_notes {k now : Nat} {s : State} (h : TracesAt k now s) : (getTrace (noteTime k s) k).hi = now / 2 ^ 48 := by
  obtain ⟨hnow, hen⟩ := h
  subst hnow
  unfold noteTime
  split
  · exact writeTimeRecord_hi_same (lt_length_of_en hen)
  next hnot => exact by_contra fun hhi => hnot ⟨hen, hhi⟩

theorem noteTime_noted (j : Nat) {k now : Nat} {s : State} (h : TracesAt k now s) (hhi : (getTrace s k).hi = now / 2 ^ 48) :
    (getTrace (noteTime j s) k).hi = now / 2 ^ 48 := by
  by_cases hjk : j = k
  · subst hjk
    exact noteTime_notes h
  · unfold noteTime
    split
    · exact (writeTimeRecord_hi_ne s hjk).trans hhi
    · exact hhi

/-- What one step brings about and every step keeps holds after all of them. -/
theorem forAll_reaches {α : Type} {P Q : State → Prop} {f : α → State → State} (hP : ∀ x u, P u → P (f x u))
    (hQ : ∀ x u, P u → Q u → Q (f x u)) {a : α} (ha : ∀ u, P u → Q (f a u)) {l : List α} (hl : a ∈ l) {s : State} (hs : P s) :
    Q (forAll l f s) := by
  induction l generalizing s with
  | nil => cases hl
  | cons x r ih =>
    obtain rfl | hr := List.mem_cons.1 hl
    · exact (forAll_keeps (P := fun u => P u ∧ Q u) (fun y u h => ⟨hP y u h.1, hQ y u h.1 h.2⟩) r _ ⟨hP _ s hs, ha s hs⟩).2
    · exact ih hr (hP x s hs)

/-- Each die that traces has noted the Tide bits (R576). -/
theorem doTraceTimeRecord_notes {s : State} {k : Nat} (hk : k < 4) (hen : (getTrace s k).en = true) :
    (getTrace (doTraceTimeRecord s) k).hi = s.tide.now / 2 ^ 48 :=
  forAll_reaches (P := TracesAt k s.tide.now) (Q := fun u => (getTrace u k).hi = s.tide.now / 2 ^ 48) (f := noteTime)
    (fun j _ => noteTime_tracesAt j) (fun j _ => noteTime_noted j) (fun _ => noteTime_notes) (List.mem_range.2 hk) ⟨rfl, hen⟩

/-! ### TRACE_DRAIN -/

theorem getTrace_fillTrace {s : State} {k : Nat} (hk : k < s.obs.traces.length) :
    getTrace (fillTrace k s) k = { getTrace s k with
      tokens := min 65536000 ((getTrace s k).tokens + 16384 * (getTrace s k).budget * (s.tide.now - (getTrace s k).tokensAt)),
      tokensAt := s.tide.now } := getTrace_onTrace_same _ hk

/-- The records that TRACE_DRAIN hands over: whole ones, as many as LEN and the tokens allow (R578, R579). -/
def drainable (s : State) (d : Desc) : Nat :=
  let x := getTrace s (fld d.op 287 286)
  min (fld d.op 319 288 / 32) (min x.records.length
    (min 65536000 (x.tokens + 16384 * x.budget * (s.tide.now - x.tokensAt)) / 32000))

/-- A drain takes the oldest records of its die's ring, and their tokens (R578, R579). -/
theorem drain_traces {s : State} {k : Nat} (hk : k < s.obs.traces.length) (fn a : Nat) (b : List Byte) (n : Nat) :
    let u := traceFillEvent k (onTrace k (fun t => { t with records := t.records.drop n, tokens := t.tokens - 32000 * n })
      (hostWrite fn a b (fillTrace k s)))
    (getTrace u k).records = (getTrace s k).records.drop n ∧ (getTrace u k).tokens = (getTrace (fillTrace k s) k).tokens - 32000 * n
    ∧ ∀ k', k' ≠ k → getTrace u k' = getTrace s k' := by
  have hk' : k < (fillTrace k s).obs.traces.length := by rwa [fillTrace, onTrace_length]
  have hfill : (getTrace (fillTrace k s) k).records = (getTrace s k).records := by rw [getTrace_fillTrace hk]
  have hsame (f : Trace → Trace) : getTrace (onTrace k f (hostWrite fn a b (fillTrace k s))) k = f (getTrace (fillTrace k s) k) :=
    getTrace_onTrace_same f hk'
  refine ⟨?_, ?_, fun k' hne => ?_⟩
  · rw [getTrace_traceFillEvent (g := Trace.records) (fun _ _ => rfl), hsame, ← hfill]
  · rw [getTrace_traceFillEvent (g := Trace.tokens) (fun _ _ => rfl), hsame]
  · rw [getTrace_traceFillEvent_ne _ hne.symm, getTrace_onTrace_ne _ _ hne.symm]
    exact getTrace_onTrace_ne _ _ hne.symm

/-! ### The descriptors -/

section
variable {s : State} {r i : Nat} {d : Desc}

theorem exec_routeRead (h : Ready s r i 0x61 d) :
    exec (.routeRead r i) s = .next (
      if onlyBits d.op [(383, 320), (319, 288), (287, 286), (285, 268), (267, 249)] = false ∨ routeRangeOk d.op = false then answer d 0x09 0 s
      else answer d 0x00 0 (hostWrite d.func (fld d.op 383 320)
        ((List.range (fld d.op 267 249)).flatMap (fun k => routeBytes s.route (fld d.op 287 286) (fld d.op 285 268 + k))) s)) := by
  refine congrArg Host.Outcome.next ((runDesc_ready h workRouteRead []).trans ?_)
  unfold workRouteRead
  simp only [Bool.not_eq_true]
  split <;> rfl

theorem exec_soundingSet (h : Ready s r i 0x64 d) (hbits : onlyBits d.op [(185, 176), (174, 174), (173, 173), (172, 149), (148, 141)] = true)
    (hport : isDrezhPort s (fld d.op 185 176) = true) :
    let x (o : Option Sounding) : Sounding :=
      { n := fld d.op 172 149 + 1, svcs := fld d.op 148 141, en := bitAt d.op 173, seq := (o.map (·.seq)).getD 0 }
    exec (.soundingSet r i) s = .next (answer d 0x00 0 (
      if bitAt d.op 174 = true then onPort (fld d.op 185 176) (fun y => { y with soundOut := some (x y.soundOut) }) s
      else onPort (fld d.op 185 176) (fun y => { y with soundIn := some (x y.soundIn) }) s)) := by
  refine congrArg Host.Outcome.next ((runDesc_ready h workSoundingSet []).trans ?_)
  unfold workSoundingSet
  simp only [hbits, hport, not_true_eq_false, or_self, if_false]
  split <;> rfl

theorem exec_traceSet (h : Ready s r i 0x13 d) :
    let dies := (List.range 4).filter (fun k => bitAt d.op (380 + k))
    let en := bitAt d.op 379
    let mib := fld d.op 331 320
    let t := forAll dies (fun k => onTrace k (fun x => { x with
      en := en, budget := fld d.op 378 376, minWait := fld d.op 375 344, types := fld d.op 343 340, job := fld d.op 339 332,
      ringMib := mib, allocated := x.allocated || en })) (forAll dies fillTrace s)
    exec (.traceSet r i) s = .next (
      if fld d.op 319 0 ≠ 0 ∨ ¬ (1 ≤ fld d.op 378 376 ∧ fld d.op 378 376 ≤ 5) ∨ bitAt d.op 343 = true
        ∨ ¬ (4 ≤ mib ∧ mib ≤ 1024) then
        answer d 0x09 0 s
      else if dies.any (fun k => (getTrace s k).en && (getTrace s k).ringMib != mib) = true then answer d 0x0B 0 s
      else if hbmFits t = false then answer d 0x08 0 s
      else answer d 0x00 0 (forAll dies (fun k u => if en = true ∧ (getTrace s k).en = false then writeTimeRecord k u else u) t)) := by
  refine congrArg Host.Outcome.next ((runDesc_ready h workTraceSet []).trans ?_)
  unfold workTraceSet zeroBits
  simp only [Bool.not_eq_true, beq_iff_eq, decide_eq_false_iff_not]
  split
  · rfl
  · split
    · rfl
    · split <;> rfl

theorem exec_traceDrain (h : Ready s r i 0x14 d) (hbits : onlyBits d.op [(383, 320), (319, 288), (287, 286)] = true)
    (hlen : fld d.op 319 288 % 32 = 0) :
    let k := fld d.op 287 286
    let x := getTrace (fillTrace k s) k
    let n := min (fld d.op 319 288 / 32) (min x.records.length (x.tokens / 32000))
    exec (.traceDrain r i) s = .next (answer d 0x00 (32 * n) (traceFillEvent k (onTrace k (fun t => { t with
      records := t.records.drop n, tokens := t.tokens - 32000 * n })
      (hostWrite d.func (fld d.op 383 320) (x.records.take n).flatten (fillTrace k s))))) := by
  refine congrArg Host.Outcome.next ((runDesc_ready h workTraceDrain []).trans ?_)
  unfold workTraceDrain
  rw [if_neg (by simp [hbits, hlen])]
  rfl

/-- EPOCH_DRAIN of a table that it names. -/
theorem workEpochDrain_eq {tags : List (Option Nat)} {cur : Nat} (hbits : onlyBits d.op [(205, 202), (201, 186)] = true)
    (ht : tagsOf s (fld d.op 205 202) (fld d.op 201 186) = some (tags, cur)) (cx : Cx) (x : List Byte) :
    workEpochDrain cx d.op x s = if drained tags cur cur = true then (s, ok) else
      (onHost (fun h => { h with accepted := h.accepted.map (fun e =>
        if e.ring == cx.ring && e.idx == cx.idx then { e with oldTag := cur } else e) }) s, .wait .draining) := by
  simp only [workEpochDrain, hbits, ht, not_true_eq_false, if_false]

/-- A change of an accepted descriptor that leaves its place. -/
theorem findDesc_onDesc (r i : Nat) (f : Desc → Desc) (hf : ∀ e, (f e).ring = e.ring ∧ (f e).idx = e.idx) (s : State) :
    findDesc (onHost (fun h => { h with accepted := h.accepted.map (fun e => if e.ring == r && e.idx == i then f e else e) }) s) r i =
      (findDesc s r i).map f :=
  find?_map_at (p := fun e : Desc => e.ring == r && e.idx == i) (fun e => by rw [(hf e).1, (hf e).2]) _

theorem exec_epochDrain {tags : List (Option Nat)} {cur : Nat} (h : Ready s r i 0x63 d)
    (hbits : onlyBits d.op [(205, 202), (201, 186)] = true)
    (ht : tagsOf s (fld d.op 205 202) (fld d.op 201 186) = some (tags, cur)) :
    ∃ t, exec (.epochDrain r i) s = .next t ∧ (drained tags cur cur = true → t = answer d 0x00 0 s)
      ∧ (drained tags cur cur = false → ∃ e, findDesc t r i = some e ∧ e.stage = .draining ∧ e.oldTag = cur
        ∧ t = { s with host := { s.host with accepted := t.host.accepted } }) := by
  have hrun := (runDesc_ready h workEpochDrain []).trans (congrArg (fun out => settleDesc d [] out.2 out.1)
    (workEpochDrain_eq hbits ht _ []))
  refine ⟨_, congrArg Host.Outcome.next hrun, fun hd => by rw [if_pos hd]; rfl, fun hd => ?_⟩
  rw [if_neg (by simp [hd])]
  have hf := h.1
  obtain ⟨rfl, rfl⟩ := findDesc_ring_idx hf
  refine ⟨{ d with oldTag := cur, stage := .draining, data := [], takenAt := s.tide.now }, ?_, rfl, rfl, rfl⟩
  exact (findDesc_onDesc d.ring d.idx (fun e => { e with stage := .draining, data := [], takenAt := s.tide.now }) (fun _ => ⟨rfl, rfl⟩) _).trans
    ((congrArg _ (findDesc_onDesc d.ring d.idx (fun e => { e with oldTag := cur }) (fun _ => ⟨rfl, rfl⟩) s)).trans (by rw [hf]; rfl))

theorem exec_epochDrainDone {tags : List (Option Nat)} {cur : Nat} (hlive : regsLive s = true) (hd : findDesc s r i = some d)
    (hop : d.opcode = 0x63) (hst : d.stage = .draining) (ht : tagsOf s (fld d.op 205 202) (fld d.op 201 186) = some (tags, cur))
    (hdr : drained tags cur d.oldTag = true) : exec (.epochDrainDone r i) s = .next (answer d 0x00 0 s) := by
  show Host.Outcome.next (whenLive (doEpochDrainDone r i) s) = _
  simp only [whenLive, hlive, if_true, doEpochDrainDone, hd, hop, hst, ht, hdr, and_self]
  rfl

end

/-- Settles O12: the equations of the descriptors, `drain_traces` and `doTraceTimeRecord_notes`. -/
theorem routeReadsSoundingsAndTraces : Obligations.RouteReadsSoundingsAndTraces := by
  unfold Obligations.RouteReadsSoundingsAndTraces
  refine ⟨⟨fun s r i d h => exec_routeRead h, fun s r i d x h hbits ht => exec_epochDrain h hbits ht,
    fun s r i d x hlive hd hop hst ht hdr => exec_epochDrainDone hlive hd hop hst ht hdr,
    fun s r i d h hbits hport => exec_soundingSet h hbits hport⟩, fun s r i d h => exec_traceSet h, ?_, ?_⟩
  · intro s r i d h hfour hbits hlen
    have hk : fld d.op 287 286 < s.obs.traces.length := by rw [hfour]; exact fld_lt _ _ _
    have hrun := exec_traceDrain h hbits hlen
    simp only [getTrace_fillTrace hk] at hrun
    obtain ⟨hrec, htok, hne⟩ := drain_traces hk d.func (fld d.op 383 320)
      ((getTrace s (fld d.op 287 286)).records.take (drainable s d)).flatten (drainable s d)
    rw [getTrace_fillTrace hk] at htok
    exact ⟨_, hrun, hrec, htok, fun k' _ => hne k'⟩
  · intro s hlive
    refine ⟨_, congrArg Host.Outcome.next (if_pos hlive), fun k hk hen => doTraceTimeRecord_notes hk hen⟩

end Sys2Proof.Machine
end

/-! ## Route batches, egress turns and job slots (R246, R247, R252, R253, R268, R269, R304, R318, R320, R321) -/

section
namespace Sys2Proof.Machine

/-! ### Route batches -/

theorem onRoute_clearBatch {s : State} (h : s.route.batch = []) : onRoute (fun r => { r with batch := [] }) s = s := by
  show ({ s with route := { s.route with batch := [] } } : State) = s
  rw [← h]

section
variable {s : State} {r i opcode : Nat} {d : Desc} {data : List Byte}

/-- A write that stands alone and ends its batch commits at once, or changes nothing (R253, R268). -/
theorem runDesc_route_alone (h : Ready s r i opcode d) (hok : (if opcode = 0x60 then routeWriteOk d.op else routeConfigOk d.op) = true)
    (hbatch : s.route.batch = []) (hcommits : s.route.commits = []) (hmust : routeMust s = false)
    (hbehind : ringBehind s (0, 0) d.ring = false) (hold : bitAt d.op 248 = false) :
    let n := applyWrite ⟨r, i, opcode, d.op, data, s.tide.now⟩ s.route
    runDesc opcode (workRoute opcode) r i data s =
      if routeOk s n = true then answer d 0x00 0 (noteWrote (0, 0) d.ring (commitRoute n s)) else answer d 0x09 0 s := by
  obtain ⟨rfl, rfl⟩ := findDesc_ring_idx h.1
  rw [runDesc_ready h]
  unfold workRoute
  simp only [hok, hbatch, hcommits, hmust, hbehind, hold, onRoute_clearBatch hbatch, joinBatch, finishBatch, forAll, List.filter_nil,
    List.nil_append, List.append_nil, List.foldl_cons, List.foldl_nil, List.length_nil, Bool.false_eq_true, not_true_eq_false, if_false,
    ne_eq, or_self, Nat.le_zero, OfNat.ofNat_ne_zero]
  split <;> rfl

/-- A write with HOLDC joins the batch (R252). -/
theorem runDesc_route_held (h : Ready s r i opcode d) (hok : (if opcode = 0x60 then routeWriteOk d.op else routeConfigOk d.op) = true)
    (hroom : s.route.batch.length < 16) (hbehind : ringBehind s (0, 0) d.ring = false) (hold : bitAt d.op 248 = true) :
    runDesc opcode (workRoute opcode) r i data s = settleDesc d data (.wait .staged)
      (onRoute (fun x => { x with batch := joinBatch s.route.batch ⟨r, i, opcode, d.op, data, s.tide.now⟩ }) s) := by
  obtain ⟨rfl, rfl⟩ := findDesc_ring_idx h.1
  rw [runDesc_ready h]
  unfold workRoute
  simp only [hok, hbehind, hold, hroom.not_ge, Bool.false_eq_true, not_true_eq_false, if_false, if_true]

end

/-! ### Job slots -/

theorem exec_jobSlotFree {s : State} {p j : Nat} {e : Nat × Nat} (hlive : regsLive s = true) (he : mget (getPort s p).slots j = some e)
    (hempty : slotEmpty (getPort s p) j = true) (hdue : e.2 + 10000 ≤ s.tide.now) (hstop : s.stop.frozen = false) :
    exec (.jobSlotFree p j) s = .next (onPort p (fun x => { x with slots := mdel x.slots j }) s) := by
  show Host.Outcome.next (whenLive (doJobSlotFree p j) s) = _
  simp only [whenLive, hlive, if_true, doJobSlotFree, he, hempty, hdue, hstop, Bool.false_eq_true, not_false_eq_true, and_self]

/-! ### The face of a port: what decides how a packet stands on its link -/

/-- A port is of the same kind in both states, and lies in the same dimension. -/
structure SameFace (s t : State) (p : Nat) : Prop where
  peer : (getPort t p).peer = (getPort s p).peer
  dim : (getPort t p).dim = (getPort s p).dim
  dl : (getPort t p).dl = (getPort s p).dl

section
variable {s t : State} {p : Nat} (h : SameFace s t p) (k : Packet)
include h

theorem SameFace.isFabric : isFabric t p = isFabric s p := by rw [Machine.isFabric, Machine.isFabric, h.peer]

theorem SameFace.onLinkPkt : onLinkPkt t p k = onLinkPkt s p k := by
  simp only [Machine.onLinkPkt, h.isFabric, h.dim, h.dl]

theorem SameFace.leaving : leaving t p k = leaving s p k := by
  rw [Machine.leaving, Machine.leaving, hopsOn, hopsOn, h.onLinkPkt, h.isFabric]

theorem SameFace.outClass : outClass t p k = outClass s p k := by
  simp only [Machine.outClass, classOn, h.onLinkPkt, h.dim]

theorem SameFace.staleAt (ht : t.tide = s.tide) : staleAt t p k = staleAt s p k := by
  rw [Machine.staleAt, Machine.staleAt, h.isFabric, ht]

theorem SameFace.barred (hm : t.mem = s.mem) : barred t p k = barred s p k := by
  rw [Machine.barred, Machine.barred, h.peer, bindOf, bindOf, hm]

end

/-! ### What the round and the deficits leave -/

/-- `t` differs from `s` in the groups, the counters and soundings, and in the turns of one port. -/
structure TurnsOnly (p : Nat) (s t : State) : Prop where
  frame : t = { s with net := t.net, groups := t.groups, obs := t.obs }
  port : getPort t p = { getPort s p with deficit := (getPort t p).deficit, round := (getPort t p).round, fillC := (getPort t p).fillC }
  others : ∀ q, q ≠ p → getPort t q = getPort s q

section
variable {p : Nat} {s t u : State}

theorem TurnsOnly.trans (h : TurnsOnly p s t) (k : TurnsOnly p t u) : TurnsOnly p s u where
  frame := by rw [k.frame, h.frame]
  port := by rw [k.port, h.port]
  others q hq := (k.others q hq).trans (h.others q hq)

theorem turnsOnly_onPort {f : Port → Port}
    (hf : ∀ x, f x = { x with deficit := (f x).deficit, round := (f x).round, fillC := (f x).fillC }) : TurnsOnly p s (onPort p f s) where
  frame := rfl
  port := by rw [getPort_onPort_same]; exact hf _
  others q hq := getPort_onPort_ne _ _ _ _ hq.symm

theorem turnsOnly_noteLeft (n : Nat) (k : Packet) (s : State) : TurnsOnly p s (noteLeft n k s) := by
  unfold noteLeft
  dsimp only
  split <;> exact ⟨rfl, rfl, fun _ _ => rfl⟩

theorem turnsOnly_soundEgress (n q d b : Nat) (s : State) : TurnsOnly p s (soundEgress n q d b s) := by
  unfold soundEgress
  split <;> exact ⟨rfl, rfl, fun _ _ => rfl⟩

variable (h : TurnsOnly p s t) (k : Packet)
include h

theorem TurnsOnly.tide : t.tide = s.tide := by rw [h.frame]
theorem TurnsOnly.shoal : t.shoal = s.shoal := by rw [h.frame]
theorem TurnsOnly.mem : t.mem = s.mem := by rw [h.frame]
theorem TurnsOnly.qents : t.qents = s.qents := by rw [h.frame]
theorem TurnsOnly.storedAt (d b : Nat) : storedAt t d b = storedAt s d b := storedAt_congr (by rw [h.shoal]) d b
theorem TurnsOnly.sched : (getPort t p).sched = (getPort s p).sched := by rw [h.port]
theorem TurnsOnly.face : SameFace s t p := ⟨by rw [h.port], by rw [h.port], by rw [h.port]⟩

theorem TurnsOnly.queuePkts (q : Nat) : queuePkts t p q = queuePkts s p q := by rw [Machine.queuePkts, Machine.queuePkts, h.port]

theorem TurnsOnly.headOf (q : Nat) : headOf t p q = headOf s p q := by
  rw [Machine.headOf, Machine.headOf, h.queuePkts]
  split
  · rfl
  · rw [h.storedAt]

theorem TurnsOnly.queueJob (q : Nat) : queueJob t p q = queueJob s p q := by rw [Machine.queueJob, Machine.queueJob, h.port]

theorem TurnsOnly.qentry (job v : Nat) : qentry t p job v = qentry s p job v := by rw [Machine.qentry, Machine.qentry, h.qents]

theorem TurnsOnly.quantum (q : Nat) : quantum t p q = quantum s p q := by
  simp only [Machine.quantum, h.queueJob, h.qentry, h.sched]

theorem TurnsOnly.shaperOf (q : Nat) : shaperOf t p q = shaperOf s p q := by
  rw [Machine.shaperOf, Machine.shaperOf, h.queueJob, h.qentry]

theorem TurnsOnly.hasCredit : hasCredit t p k = hasCredit s p k := by
  rw [Machine.hasCredit, Machine.hasCredit, h.face.outClass, h.face.onLinkPkt, h.port]

theorem TurnsOnly.eligible (q : Nat) : eligible t p q = eligible s p q := by
  rw [Machine.eligible, Machine.eligible, h.headOf, h.shaperOf, h.tide]
  split
  · rfl
  · rw [h.hasCredit]

end

/-! ### The head of a queue is sent -/

section
variable {s : State} {p q d b : Nat} {x : Stored}

theorem headOf_single (hq : queuePkts s p q = [(d, b)]) (hx : storedAt s d b = some x) : headOf s p q = some (d, b, x.pkt) := by
  simp [headOf, hq, hx]

/-- A port whose queue held the one packet that it has sent. -/
def sentPort (s : State) (p q d b : Nat) (x : Stored) (y : Port) : Prop :=
  mgetD y.queues q [] = []
  ∧ y.link.tx = (getPort s p).link.tx ++
      [{ pkt := leaving s p x.pkt, die := d, buf := b, queue := q, par := parityOut s d b (leaving s p x.pkt) }]
  ∧ nth y.link.avail (outClass s p x.pkt) 0 = nth (getPort s p).link.avail (outClass s p x.pkt) 0 - x.pkt.bufs
  ∧ y.pktsTx = ((getPort s p).pktsTx + 1) % 2 ^ 32

/-- What taking the one packet off a queue leaves of the port. -/
def dequeued (q now : Nat) (y : Port) : Port :=
  let y := { y with queues := mput y.queues q ((mgetD y.queues q []).drop 1) }
  if 8 ≤ q then
    if slotEmpty y ((q - 8) / 4) then { y with slots := mmod y.slots ((q - 8) / 4) (fun e => (e.1, now)) } else y
  else y

theorem dequeue_single (hq : queuePkts s p q = [(d, b)]) : dequeue p q s = onPort p (dequeued q s.tide.now) s := by
  unfold dequeue
  rw [hq]
  rfl

theorem dequeued_eq (q now : Nat) (y : Port) :
    ∃ sl, dequeued q now y = { y with queues := mput y.queues q ((mgetD y.queues q []).drop 1), slots := sl } := by
  unfold dequeued
  dsimp only
  split
  · split <;> exact ⟨_, rfl⟩
  · exact ⟨_, rfl⟩

theorem nth_modAt_sub (l : List Nat) (i n : Nat) : nth (modAt l i (fun c => c - n)) i 0 = nth l i 0 - n := by
  by_cases h : i < l.length
  · exact nth_modAt_same _ _ _ _ h
  · have hnone : l[i]? = none := List.getElem?_eq_none (Nat.le_of_not_lt h)
    simp [modAt, nth, hnone]

/-- The packet is given to the link and pays its credits (R304, R320). -/
def given (s : State) (p q d b : Nat) (x : Stored) (y : Port) : Port := { y with
  pktsTx := (y.pktsTx + 1) % 2 ^ 32,
  fillC := min (y.fillC + x.pkt.size * y.sched.floor) (8208 * 256),
  link := { y.link with
    avail := modAt y.link.avail (outClass s p x.pkt) (fun c => c - x.pkt.bufs),
    tx := y.link.tx ++ [{ pkt := leaving s p x.pkt, die := d, buf := b, queue := q, par := parityOut s d b (leaving s p x.pkt) }] } }

theorem parityOut_addOwner (d b o : Nat) (s : State) (k : Packet) : parityOut (addOwner d b o s) d b k = parityOut s d b k := by
  rw [parityOut, parityOut, addOwner, storedAt_onStored_same (f := fun x => { x with owners := addNew x.owners o }) (fun _ => ⟨rfl, rfl⟩),
    Option.map_map]
  rfl

theorem getPort_count (k : CKey) (u : State) (n : Nat) : getPort (count k u) n = getPort u n := by simp [getPort]
theorem getPort_countN (k : CKey) (m : Nat) (u : State) (n : Nat) : getPort (countN k m u) n = getPort u n := by simp [getPort]

/-- Where the one packet of a queue passes its checks, it leaves the queue for the link. -/
theorem getPort_sendHead (hq : queuePkts s p q = [(d, b)]) (hx : storedAt s d b = some x) (hstale : staleAt s p x.pkt = false)
    (hbarred : barred s p x.pkt = false) (hgood : storedGood x = true) (n : Nat) :
    getPort (sendHead p q s) n = getPort (onPort p (fun y => given s p q d b x (dequeued q s.tide.now y)) s) n := by
  obtain ⟨sl, hsl⟩ := dequeued_eq q s.tide.now (getPort s p)
  have hport : getPort (onPort p (dequeued q s.tide.now) s) p = _ := (getPort_onPort_same _ _ _).trans hsl
  have hface : SameFace s (onPort p (dequeued q s.tide.now) s) p := ⟨by rw [hport], by rw [hport], by rw [hport]⟩
  have hgood' : goodAt (onPort p (dequeued q s.tide.now) s) d b = true := (congrArg (fun o => (o.map storedGood).getD true) hx).trans hgood
  have hpar (k : Packet) : parityOut (addOwner d b (ownRetry p) (onPort p (dequeued q s.tide.now) s)) d b k = parityOut s d b k :=
    parityOut_addOwner d b _ _ k
  unfold sendHead
  simp only [headOf_single hq hx, dequeue_single hq, hface.staleAt x.pkt rfl, hface.barred x.pkt rfl, hstale, hbarred, hgood',
    Bool.false_eq_true, Bool.true_eq_false, if_false, getPort_count, getPort_countN, hface.leaving, hface.outClass, hpar]
  show getPort (onPort p (given s p q d b x) (onPort p (dequeued q s.tide.now) s)) n = _
  by_cases hn : p = n
  · subst hn
    rw [getPort_onPort_same, getPort_onPort_same, getPort_onPort_same]
  · rw [getPort_onPort_ne _ _ _ _ hn, getPort_onPort_ne _ _ _ _ hn, getPort_onPort_ne _ _ _ _ hn]

/-- The port after its one packet is sent. -/
theorem sentPort_given (hq : queuePkts s p q = [(d, b)]) : sentPort s p q d b x (given s p q d b x (dequeued q s.tide.now (getPort s p))) := by
  obtain ⟨sl, hsl⟩ := dequeued_eq q s.tide.now (getPort s p)
  rw [hsl]
  refine ⟨?_, rfl, nth_modAt_sub _ _ _, rfl⟩
  rw [queuePkts] at hq
  simp [given, hq]

end

/-! ### The choice of a port -/

section
variable {s : State} {p q : Nat} (hone : ∀ k, k < 64 → (eligible s p k = true ↔ k = q))
include hone

/-- The one eligible queue is found from any round pointer. -/
theorem nextQueue_one (hq : q < 64) (from_ : Nat) {test : Nat → Bool} (ht : test q = true) : nextQueue s p from_ test = some q := by
  have helig : eligible s p q = true := (hone q hq).2 rfl
  unfold nextQueue
  cases hfind : ((List.range 64).map (fun i => (from_ + i) % 64)).find? (fun q => test q && eligible s p q) with
  | none =>
    have hmem : q ∈ (List.range 64).map (fun i => (from_ + i) % 64) :=
      List.mem_map.2 ⟨(q + 64 - from_ % 64) % 64, List.mem_range.2 (by omega), by omega⟩
    exact absurd (by simp [ht, helig]) (List.find?_eq_none.1 hfind q hmem)
  | some k =>
    obtain ⟨i, -, rfl⟩ := List.mem_map.1 (List.mem_of_find?_eq_some hfind)
    have hk := List.find?_some hfind
    rw [Bool.and_eq_true] at hk
    rw [(hone _ (Nat.mod_lt _ (by decide))).1 hk.2]

theorem nextQueue_none (from_ : Nat) {test : Nat → Bool} (ht : test q = false) : nextQueue s p from_ test = none := by
  refine List.find?_eq_none.2 fun k hk => ?_
  obtain ⟨i, -, rfl⟩ := List.mem_map.1 hk
  rw [Bool.and_eq_true]
  rintro ⟨htest, helig⟩
  rw [(hone _ (Nat.mod_lt _ (by decide))).1 helig, ht] at htest
  cases htest

/-- PRIMARY traffic is ready where the one eligible queue is of it. -/
theorem fillQueue_of_primaryReady (h : primaryReady s p = true) : fillQueue s p q = false := by
  obtain ⟨k, hk, hready⟩ := List.any_eq_true.1 h
  simp only [Bool.and_eq_true, Bool.not_eq_true'] at hready
  obtain ⟨⟨-, hfill⟩, helig⟩ := hready
  rw [← (hone k (List.mem_range.1 hk)).1 helig, hfill]

/-- The one eligible queue has its turn in the main round (R321, R322). -/
theorem portTurn_one (hq : q < 64) (onSend : Nat → Nat → State → State) : portTurn p onSend s =
    let t := turn p q false onSend (onPort p (fun x => { x with round := (q + 1) % 64 }) s)
    if fillQueue s p q then onPort p (fun x => { x with fillC := (getPort s p).fillC }) t else t := by
  have hfill (g : Nat → Bool) :
      (if primaryReady s p then nextQueue s p (getPort s p).fillRound (fun q => fillQueue s p q && g q) else none) = none := by
    split
    next h => exact nextQueue_none hone _ (by rw [fillQueue_of_primaryReady hone h, Bool.false_and])
    · rfl
  have hmain : nextQueue s p (getPort s p).round (fun q => !(primaryReady s p && fillQueue s p q)) = some q := by
    refine nextQueue_one hone hq _ ?_
    cases h : primaryReady s p with
    | false => rfl
    | true => rw [fillQueue_of_primaryReady hone h]; rfl
  unfold portTurn
  dsimp only
  rw [hfill, hmain]

end

/-! ### The turn of a queue that holds one packet -/

section
variable {s : State} {p q d b : Nat} {x : Stored}

theorem TurnsOnly.sentPort {u : State} {y : Port} (h : TurnsOnly p s u) (hy : sentPort u p q d b x y) : sentPort s p q d b x y := by
  obtain ⟨hqueue, htx, havail, hpkts⟩ := hy
  rw [h.face.leaving, parityOut, h.storedAt, h.port] at htx
  rw [h.face.outClass, h.port] at havail
  rw [h.port] at hpkts
  exact ⟨hqueue, htx, havail, hpkts⟩

/-- What changes the turns of a port alone leaves the port as it sent. -/
theorem sentPort_of_turnsOnly {v w : State} (h : TurnsOnly p v w) (hv : sentPort s p q d b x (getPort v p)) :
    sentPort s p q d b x (getPort w p) := by
  rw [h.port]
  exact hv

/-- A queue's deficit pays for a size. -/
def paid (q n : Nat) (y : Port) : Port := { y with deficit := mput y.deficit q (mgetD y.deficit q 0 - n) }

variable (hq : queuePkts s p q = [(d, b)]) (hx : storedAt s d b = some x) (hstale : staleAt s p x.pkt = false)
  (hbarred : barred s p x.pkt = false) (hgood : storedGood x = true)
include hq hx hstale hbarred hgood

theorem sendHead_sent : sentPort s p q d b x (getPort (sendHead p q s) p) := by
  rw [getPort_sendHead hq hx hstale hbarred hgood, getPort_onPort_same]
  exact sentPort_given hq

theorem getPort_sendHead_ne {n : Nat} (hn : n ≠ p) : getPort (sendHead p q s) n = getPort s n := by
  rw [getPort_sendHead hq hx hstale hbarred hgood, getPort_onPort_ne _ _ _ _ hn.symm]

/-- The packet is paid for from the deficit, and sent (R321). -/
theorem turnLoop_single {onSend : Nat → Nat → State → State} (helig : eligible s p q = true)
    (hdef : x.pkt.size ≤ mgetD (getPort s p).deficit q 0) :
    turnLoop p q false onSend 1 s = sendHead p q (onSend d b (onPort p (paid q x.pkt.size) s)) := by
  have hpaid : TurnsOnly p s (onPort p (paid q x.pkt.size) s) := turnsOnly_onPort (fun _ => rfl)
  have hsent : (staleAt (onPort p (paid q x.pkt.size) s) p x.pkt
      || barred (onPort p (paid q x.pkt.size) s) p x.pkt
      || !goodAt (onPort p (paid q x.pkt.size) s) d b) = false := by
    rw [hpaid.face.staleAt x.pkt hpaid.tide, hpaid.face.barred x.pkt hpaid.mem, goodAt, hpaid.storedAt, hx, hstale, hbarred]
    simp [hgood]
  have hcond : eligible s p q = true ∧ x.pkt.size ≤ mgetD (getPort s p).deficit q 0 ∧ (¬ false = true ∨ fillCovers s p x.pkt.size = true) :=
    ⟨helig, hdef, .inl Bool.false_ne_true⟩
  rw [turnLoop, headOf_single hq hx]
  dsimp only
  rw [if_pos hcond]
  exact congrArg (fun c => sendHead p q (if c = true then _ else onSend d b _)) hsent

/-- The packet is sent, and the deficit of the queue, left empty, is none (R321). -/
theorem turn_single {onSend : Nat → Nat → State → State} (hon : ∀ u, TurnsOnly p u (onSend d b u)) (helig : eligible s p q = true)
    (hdef : x.pkt.size ≤ mgetD (getPort s p).deficit q 0 + quantum s p q) :
    ∃ u, TurnsOnly p s u ∧ turn p q false onSend s = onPort p (fun y => { y with deficit := mput y.deficit q 0 }) (sendHead p q u) := by
  have hgiven : TurnsOnly p s (onPort p (fun y => { y with deficit := mput y.deficit q (mgetD y.deficit q 0 + quantum s p q) }) s) :=
    turnsOnly_onPort (fun _ => rfl)
  have hq' := (hgiven.queuePkts q).trans hq
  have hloop := turnLoop_single (onSend := onSend) hq' ((hgiven.storedAt d b).trans hx) ((hgiven.face.staleAt _ hgiven.tide).trans hstale)
    ((hgiven.face.barred _ hgiven.mem).trans hbarred) hgood ((hgiven.eligible q).trans helig)
    (by rw [getPort_onPort_same]; simpa using hdef)
  have hsend := (hgiven.trans (turnsOnly_onPort (f := paid q x.pkt.size) (fun _ => rfl))).trans (hon _)
  refine ⟨_, hsend, ?_⟩
  obtain ⟨hempty, -⟩ := sendHead_sent ((hsend.queuePkts q).trans hq) ((hsend.storedAt d b).trans hx)
    ((hsend.face.staleAt _ hsend.tide).trans hstale) ((hsend.face.barred _ hsend.mem).trans hbarred) hgood
  unfold turn
  rw [if_neg (by simp [helig])]
  dsimp only
  rw [hq', List.length_singleton, hloop, queuePkts, hempty]
  rfl

end

/-! ### EGRESS_TURN -/

/-- What is noted of a packet as it leaves (R131, R275). -/
def sounded (p d b : Nat) (t : State) : State :=
  let q := ((List.range 64).find? (fun q => (queuePkts t p q).head? == some (d, b))).getD 0
  match storedAt t d b with
  | none => t
  | some x => noteLeft p x.pkt (soundEgress p q d b t)

theorem turnsOnly_sounded {p : Nat} (d b : Nat) (t : State) : TurnsOnly p t (sounded p d b t) := by
  unfold sounded
  dsimp only
  split
  · exact ⟨rfl, rfl, fun _ _ => rfl⟩
  · exact (turnsOnly_soundEgress _ _ _ _ _).trans (turnsOnly_noteLeft _ _ _)

theorem doEgressTurn_run {s : State} {p : Nat} (heth : isEthPort s p = false) (hrun : portRun s p = true)
    (hstop : s.stop.frozen = false) (hcliff : s.dev.state ≠ .cliff) : doEgressTurn p s = portTurn p (sounded p) s := by
  unfold doEgressTurn
  rw [if_neg (by simp [heth]), if_neg (by simp [hrun, hstop, hcliff])]
  rfl

/-- The one eligible queue of a Drezh port in RUN sends the one packet that it holds. -/
theorem exec_egressTurn_one {s : State} {p q d b : Nat} {x : Stored} (heth : isEthPort s p = false) (hrun : portRun s p = true)
    (hstop : s.stop.frozen = false) (hcliff : s.dev.state ≠ .cliff) (hq64 : q < 64) (hq : queuePkts s p q = [(d, b)])
    (hx : storedAt s d b = some x) (hone : ∀ k, k < 64 → (eligible s p k = true ↔ k = q))
    (hdef : x.pkt.size ≤ mgetD (getPort s p).deficit q 0 + quantum s p q) (hstale : staleAt s p x.pkt = false)
    (hbarred : barred s p x.pkt = false) (hgood : storedGood x = true) :
    ∃ t, exec (.egressTurn p) s = .next t ∧ sentPort s p q d b x (getPort t p) ∧ ∀ n, n ≠ p → getPort t n = getPort s n := by
  have hround : TurnsOnly p s (onPort p (fun y => { y with round := (q + 1) % 64 }) s) := turnsOnly_onPort (fun _ => rfl)
  obtain ⟨u, hu, hturn⟩ := turn_single (onSend := sounded p) ((hround.queuePkts q).trans hq) ((hround.storedAt d b).trans hx)
    ((hround.face.staleAt _ hround.tide).trans hstale) ((hround.face.barred _ hround.mem).trans hbarred) hgood
    (turnsOnly_sounded d b) ((hround.eligible q).trans ((hone q hq64).2 rfl)) (by rw [hround.quantum, getPort_onPort_same]; exact hdef)
  have hsu := hround.trans hu
  have hqu := (hsu.queuePkts q).trans hq
  have hxu := (hsu.storedAt d b).trans hx
  have hstaleu := (hsu.face.staleAt _ hsu.tide).trans hstale
  have hbarredu := (hsu.face.barred _ hsu.mem).trans hbarred
  have hclear : TurnsOnly p (sendHead p q u) (onPort p (fun y => { y with deficit := mput y.deficit q 0 }) (sendHead p q u)) :=
    turnsOnly_onPort (fun _ => rfl)
  obtain ⟨t, hexec, hv⟩ : ∃ t, exec (.egressTurn p) s = .next t ∧ TurnsOnly p (sendHead p q u) t := by
    refine ⟨_, congrArg Host.Outcome.next ((doEgressTurn_run heth hrun hstop hcliff).trans (portTurn_one hone hq64 _)), ?_⟩
    dsimp only
    rw [hturn]
    split
    · exact hclear.trans (turnsOnly_onPort (fun _ => rfl))
    · exact hclear
  refine ⟨t, hexec, sentPort_of_turnsOnly hv (hsu.sentPort (sendHead_sent hqu hxu hstaleu hbarredu hgood)), fun n hn => ?_⟩
  rw [hv.others n hn, getPort_sendHead_ne hqu hxu hstaleu hbarredu hgood hn, hsu.others n hn]

/-- Settles O11: the equations of the batch and the job slot, and `exec_egressTurn_one`. -/
theorem routesCommitAndEgressSends : Obligations.RoutesCommitAndEgressSends := by
  unfold Obligations.RoutesCommitAndEgressSends
  refine ⟨⟨fun s r i d data h hok hbatch hcommits hmust hbehind hold => ?_, fun s r i d h hok hbatch hcommits hmust hbehind hold => ?_,
    fun _ _ => rfl, fun s r i d data h hok hroom hold hbehind => ?_⟩, ?_, fun s p j e hlive he hempty hdue hstop =>
      exec_jobSlotFree hlive he hempty hdue hstop⟩
  · exact congrArg Host.Outcome.next (runDesc_route_alone h hok hbatch hcommits hmust hbehind hold)
  · exact congrArg Host.Outcome.next (runDesc_route_alone h hok hbatch hcommits hmust hbehind hold)
  · exact ⟨_, congrArg Host.Outcome.next (runDesc_route_held h hok hroom hbehind hold), rfl, rfl⟩
  · intro s p q d b x _ heth hrun hstop hcliff hq64 hq hx hone hdef hstale hbarred hgood
    obtain ⟨t, ht, ⟨hempty, htx, havail, hpkts⟩, hothers⟩ :=
      exec_egressTurn_one heth hrun hstop hcliff hq64 hq hx hone hdef hstale hbarred hgood
    exact ⟨t, ht, hempty, htx, havail, hpkts, hothers⟩

end Sys2Proof.Machine
end

/-! ## A release by an ID that the owner list does not name, on a die number beyond the location's five bits (R305, R499) -/

section
namespace Sys2Proof.Machine

/-- A refused release is the fault of the unit that the ID names, on the die of the fault's location (R305). -/
theorem exec_ownerRelease_unnamed {s : State} {d b owner : Nat} (hlive : regsLive s = true) (hstop : s.stop.frozen = false)
    (hnone : namedBy s d b owner = none) :
    exec (.ownerRelease d b owner) s = .next (collect ⟨0x25, mkLoc d (b / 163840) 0, owner, s.tide.now, false, 0, true⟩
      (badRelease (locDie (mkLoc d (b / 163840) 0)) owner s)) := by
  show Host.Outcome.next (doOwnerRelease d b owner s) = _
  rw [doOwnerRelease, if_neg (by simp [hlive]), hnone]
  dsimp only
  rw [takeFault_live hlive, if_neg (by simp), if_neg (by simp)]
  simp only [actAtUnit, hstop, Bool.false_and, Bool.false_eq_true, if_false]
  rfl

theorem collect_mem {f : FaultRec} (h : classOf f.source ≠ some .cliff) (s : State) : (collect f s).mem = s.mem := by
  rw [collect_fltOnly f s h]

/-- The READ stands in the first buffer of a die numbered 32, and its address lies in region 0. -/
def readStored : Stored where
  die := 32
  bufs := [0]
  acct := .ingress 4 1
  port := 4
  pkt := readRequest
  owners := []
  rtag := none
  dest := .here

/-- The Q7 in RUN with that packet and region 0. -/
def readOnDie32 : State := { State.reset with
  dev := { state := .run }
  mem := { State.reset.mem with regions := [(0, { offset := 0, size := 8192, die := 0 })] }
  shoal := { State.reset.shoal with stored := [readStored] } }

/-- The packet engine's ID for buffer 0. -/
def strayOwner : Nat := mkOwner 6 0

/-- Refutes O10: the release clause bounds no die number, while the location of the fault, by which the unit is found, holds five
bits of it. The witness is a packet on die 32 whose region the statement has poisoned, and the model, which finds die 0, has not. -/
theorem not_lostBuffersReturnAndOwnersRelease : ¬ Obligations.LostBuffersReturnAndOwnersRelease := by
  unfold Obligations.LostBuffersReturnAndOwnersRelease
  rintro ⟨-, -, -, hrelease⟩
  have hlive : regsLive readOnDie32 = true := by decide +kernel
  have hstop : readOnDie32.stop.frozen = false := by decide +kernel
  have hstored : storedAt readOnDie32 32 0 = some readStored := by decide +kernel
  have hnone : namedBy readOnDie32 32 0 strayOwner = none := by decide +kernel
  have hclass : classOf 0x25 ≠ some .cliff := by decide
  have hpoisoned : (badRelease 32 strayOwner readOnDie32).mem.regions.map (·.2.poisoned) = [true] := by decide +kernel
  have hsound : (badRelease (locDie (mkLoc 32 (0 / 163840) 0)) strayOwner readOnDie32).mem.regions.map (·.2.poisoned) = [false] := by
    decide +kernel
  obtain ⟨-, -, hrefused⟩ := hrelease readOnDie32 32 0 strayOwner readStored hlive hstored
  have hsame := Host.Outcome.next.inj ((exec_ownerRelease_unnamed hlive hstop hnone).symm.trans (hrefused hnone))
  have hmem := congrArg State.mem hsame
  rw [collect_mem hclass, collect_mem hclass] at hmem
  rw [hmem, hpoisoned] at hsound
  exact absurd hsound (by decide)

end Sys2Proof.Machine
end

/-! ## Ports go down and come up (R258 to R260, R352, R373, R378, R391, R461, R484, R493) -/

section
namespace Sys2Proof.Machine

theorem getPort_congr {s t : State} (h : t.net = s.net) (p : Nat) : getPort t p = getPort s p := by rw [getPort, getPort, h]

/-! ### What collectives and recovery leave of the ports -/

@[simp] theorem letGo_net (l : List (Nat × Nat)) (s : State) : (letGo l s).net = s.net := by rw [engineOnly_letGo s l]

@[simp] theorem resendPartial_net (gid e n c : Nat) (want : Unacked → Bool) (s : State) : (resendPartial gid e n c want s).net = s.net := by
  unfold resendPartial
  split
  · rfl
  · split
    · rfl
    · dsimp only
      split
      · rfl
      · exact (forAll_same (g := State.net) (by intro _ _; rfl) _ _).trans (count_net _ _)

@[simp] theorem collPortDown_net (p : Nat) (s : State) : (collPortDown p s).net = s.net := by
  refine forAll_same (g := State.net) (fun e u => ?_) _ s
  exact (letGo_net _ _).trans (forAll_same (g := State.net) (fun _ _ => resendPartial_net _ _ _ _ _ _) _ _)

@[simp] theorem noteOut_net (gid e n c : Nat) (s : State) : (noteOut gid e n c s).net = s.net := by
  unfold noteOut
  split <;> rfl

@[simp] theorem deliverPiece_net (gid : Nat) (k : Chunk) (resend : Bool) (want : Src → Bool) (j : Nat) (d : List Byte) (s : State) :
    (deliverPiece gid k resend want j d s).net = s.net := by
  rw [engineOnly_deliverPiece s gid k resend want j d]

@[simp] theorem collRepair_net (p : Nat) (s : State) : (collRepair p s).net = s.net := by
  refine forAll_same (g := State.net) (fun e u => ?_) _ s
  refine forAll_same (g := State.net) (fun k v => ?_) _ u
  dsimp only
  rw [noteOut_net, forAll_same (g := State.net) (fun _ _ => deliverPiece_net _ _ _ _ _ _ _), onChunk_net, count_net]

@[simp] theorem noteTouched_net (k : Packet) (s : State) : (noteTouched k s).net = s.net := by
  unfold noteTouched
  dsimp only
  split_ifs <;> rfl

@[simp] theorem recordDown_net (p : Nat) (up : Bool) (s : State) : (recordDown p up s).net = s.net := by
  have hdetect (src : Nat) (h : classOf src ≠ some .cliff) (loc : Word) (o : Nat) (u : State) : (detect src loc o u).net = u.net := by
    rw [detect, collect_fltOnly _ u h]
  unfold recordDown
  dsimp only
  split_ifs
  · exact hdetect 0x1C (by decide) _ _ _
  · exact (hdetect 0x23 (by decide) _ _ _).trans (count_net _ _)
  · exact count_net _ _

/-! ### A flit that leaves changes its port's link alone -/

/-- Only the link of a port differs, and the Tide count stands. -/
def LinkOnly (p : Nat) (s t : State) : Prop := t.tide = s.tide ∧ ∃ l, getPort t p = { getPort s p with link := l }

theorem LinkOnly.trans {p : Nat} {s t u : State} (h : LinkOnly p s t) (k : LinkOnly p t u) : LinkOnly p s u := by
  obtain ⟨hts, l, hl⟩ := h
  obtain ⟨htu, m, hm⟩ := k
  exact ⟨htu.trans hts, m, by rw [hm, hl]⟩

theorem linkOnly_onLink (p : Nat) (f : Link → Link) (s : State) : LinkOnly p s (onLink p f s) := ⟨rfl, _, getPort_onLink_same s p f⟩

theorem linkOnly_of_port {p : Nat} {s t : State} (ht : t.tide = s.tide) (hp : getPort t p = getPort s p) : LinkOnly p s t :=
  ⟨ht, (getPort s p).link, hp⟩

theorem linkOnly_forAll {α : Type} {p : Nat} {f : α → State → State} (h : ∀ x u, LinkOnly p u (f x u)) :
    ∀ (l : List α) (s : State), LinkOnly p s (forAll l f s)
  | [], _ => linkOnly_of_port rfl rfl
  | x :: r, s => (h x s).trans (linkOnly_forAll h r (f x s))

theorem linkOnly_openSlot (p : Nat) (s : State) : LinkOnly p s (openSlot p s) := by
  refine LinkOnly.trans (t := issueCredits p s) (linkOnly_forAll (fun _ _ => linkOnly_onLink _ _ _) _ _) ?_
  refine ⟨rfl, ?_⟩
  unfold openSlot
  rw [getPort_onPort_same]
  generalize getPort (issueCredits p s) p = x
  split
  · exact ⟨_, rfl⟩
  · exact ⟨x.link, rfl⟩

theorem noteForced_tide (lane : Nat) (s : State) : (noteForced lane s).tide = s.tide := by
  unfold noteForced
  dsimp only
  repeat' split
  all_goals simp

theorem linkOnly_emitFlit (p ftype sop : Nat) (badp : Bool) (fsn : Nat) (payload : List Byte) (s : State) :
    LinkOnly p s (emitFlit p ftype sop badp fsn payload s) := by
  refine (linkOnly_openSlot p s).trans ?_
  refine LinkOnly.trans (linkOnly_of_port ?_ ?_) (linkOnly_onLink _ _ _)
  · exact noteForced_tide _ _
  · exact getPort_noteForced _ _ _

/-! ### The port as its link ends -/

theorem getPort_toDetect (p : Nat) (s : State) : getPort (toDetect p s) p = { getPort s p with
    lstate := if portEnabled s p then .detect else .down, rate := if portEnabled s p then 2 else (getPort s p).rate, failed := 0,
    reversed := false, squelched := !portEnabled s p, signal := false, phaseAt := 0, countdown := none, framePos := 4096,
    countOn := false, retryAt := none, reqKind := 0 } := by
  unfold toDetect
  dsimp only
  rw [forAll_same (g := fun u => getPort u p) (by intro _ _; rfl), getPort_onPort_same, getPort_endEyes]

theorem linkUp_toDetect (p : Nat) (s : State) : linkUp (toDetect p s) p = false := by
  unfold linkUp
  rw [getPort_toDetect]
  cases portEnabled s p <;> rfl

theorem getLane_endEyes_ctl (p : Nat) (s : State) (l : Nat) : (getLane (endEyes p s) l).ctl = (getLane s l).ctl := by
  unfold endEyes
  dsimp only
  split
  · refine forAll_same (g := fun u => (getLane u l).ctl) (fun k u => ?_) _ s
    by_cases hk : k = l
    · subst hk
      rw [getLane_onLane_same]
      split <;> rfl
    · rw [getLane_onLane_ne _ _ _ _ hk]
  · rfl

/-- The link layer of a port as it stops (R352). -/
def stoppedPort (s : State) (p : Nat) (x : Port) : Port := { x with
  lstate := .down, declared := if linkUp s p then some s.tide.now else x.declared,
  peer := { x.peer with runTx := false, runRx := false },
  link := { x.link with rx := [], msgs := [], rxMsgs := [], replay := [], resend := [], waitingFor := false, nakvDue := false } }

theorem postPort_net (p st cause : Nat) (s : State) : (postPort p st cause s).net = s.net := postDev_net _ _ _

theorem stopLink_net (p : Nat) (s : State) : (stopLink p s).net = (onPort p (stoppedPort s p) (endEyes p s)).net := by
  have hframe : endEyes p s = { s with net := (endEyes p s).net } := netOnly_endEyes p s
  have htide : (endEyes p s).tide = s.tide := by rw [hframe]
  have hcoll (u : State) : (if linkUp s p = true then collPortDown p u else u).net = u.net := by
    split
    · exact collPortDown_net p u
    · rfl
  unfold stopLink
  dsimp only
  rw [htide, hcoll, onlyIf_same (g := State.net) _ _ (postPort_net _ _ _ _)]
  rfl

theorem getPort_stopLink (p : Nat) (s : State) : getPort (stopLink p s) p = stoppedPort s p (getPort s p) := by
  rw [getPort_congr (stopLink_net p s), getPort_onPort_same, getPort_endEyes]

theorem getLane_stopLink_ctl (p : Nat) (s : State) (l : Nat) : (getLane (stopLink p s) l).ctl = (getLane s l).ctl := by
  rw [getLane, stopLink_net]
  exact getLane_endEyes_ctl p s l

/-! ### Declarations -/

/-- A port that was up is down, and what it had not sent waits for the mask. -/
def IsDown (p now : Nat) (queues : Map (List (Nat × Nat))) (t : State) : Prop :=
  linkUp t p = false ∧ (getPort t p).declared = some now ∧ (getPort t p).queues = queues ∧ (getPort t p).peer.runTx = false
    ∧ (getPort t p).link.replay = []

theorem isDown_stopped {p : Nat} {s : State} {note : Bool → State → State} (hnote : ∀ b u, (note b u).net = u.net) (up : Bool)
    (h : linkUp s p = true) : IsDown p s.tide.now (getPort s p).queues (toDetect p (note up (stopLink p s))) := by
  have hport : getPort (note up (stopLink p s)) p = stoppedPort s p (getPort s p) := by
    rw [getPort_congr (hnote _ _), getPort_stopLink]
  refine ⟨linkUp_toDetect _ _, ?_, ?_, ?_, ?_⟩
  · rw [getPort_toDetect, hport, stoppedPort, h]
    rfl
  all_goals
    rw [getPort_toDetect, hport]
    rfl

/-- A declaration ends the link of a port that is up (R352). -/
theorem isDown_declareDown {p : Nat} {s : State} (h : linkUp s p = true) (cause : Nat) (tell : Bool) :
    IsDown p s.tide.now (getPort s p).queues (declareDown p cause tell s) := by
  have hend {u : State} (hu : LinkOnly p s u) (up : Bool) :
      IsDown p s.tide.now (getPort s p).queues (toDetect p (recordDown p up (stopLink p u))) := by
    obtain ⟨htide, l, hl⟩ := hu
    have hup : linkUp u p = true := by rw [← h, linkUp, linkUp, hl]
    have hdown := isDown_stopped (note := recordDown p) (recordDown_net p) up hup
    rwa [htide, hl] at hdown
  unfold declareDown takeDown
  rw [if_neg (by simp [h])]
  split
  · exact hend ((linkOnly_onLink _ _ _).trans (linkOnly_emitFlit _ _ _ _ _ _ _)) _
  · exact hend (linkOnly_of_port rfl rfl) _

theorem linkUp_of_portRun {s : State} {p : Nat} (h : portRun s p = true) : linkUp s p = true := by
  simp only [portRun, beq_iff_eq] at h
  simp [linkUp, h]

section
variable {s : State} {p cause : Nat}

theorem isDown_portDownDeclare (hlinks : linksOn s = true) (hport : isDrezhPort s p = true) (hrun : portRun s p = true)
    (hcause : (cause = 0 ∧ (getPort s p).link.goodAt + 1500 ≤ s.tide.now) ∨ (cause = 1 ∧ pairBad s p = true)) :
    ∃ t, exec (.portDownDeclare p cause) s = .next t ∧ IsDown p s.tide.now (getPort s p).queues t := by
  have hstate : (getPort s p).lstate = .run := by simpa [portRun] using hrun
  have hholds : downHolds s p cause = true := by
    obtain ⟨rfl, hgood⟩ | ⟨rfl, hbad⟩ := hcause
    · simp [downHolds, hstate, due, hgood]
    · simp [downHolds, hstate, hbad]
  refine ⟨declareDown p cause true s, ?_, isDown_declareDown (linkUp_of_portRun hrun) cause true⟩
  show Host.Outcome.next (doPortDownDeclare p cause s) = _
  rw [doPortDownDeclare, if_pos ⟨hlinks, hport, hholds⟩]

theorem isDown_linkDown (hlinks : linksOn s = true) (hport : isDrezhPort s p = true) (hrun : portRun s p = true) (hcause : cause ≤ 3) :
    ∃ t, exec (.linkDown p cause) s = .next t ∧ IsDown p s.tide.now (getPort s p).queues t := by
  have hstate : (getPort (takeMsg p 3 s) p).lstate = .run := by simpa [portRun] using hrun
  have hlinks' : linksOn (takeMsg p 3 s) = true := by rw [takeMsg_frame]; exact hlinks
  have hport' : isDrezhPort (takeMsg p 3 s) p = true := by rw [takeMsg_frame]; exact hport
  have hdown := isDown_declareDown (linkUp_of_portRun (s := takeMsg p 3 s) (p := p) (by simp [portRun, hstate])) cause false
  refine ⟨declareDown p cause false (takeMsg p 3 s), ?_, ?_⟩
  · show Host.Outcome.next (doLinkDown p cause (takeMsg p 3 s)) = _
    rw [doLinkDown, if_neg (by simp [hlinks', hport', hcause]), if_neg (by simp [hstate])]
  · obtain ⟨r, hr⟩ := getPort_takeMsg p 3 s
    have htide : (takeMsg p 3 s).tide = s.tide := by rw [takeMsg_frame]
    rwa [htide, hr] at hdown

theorem isDown_laneLockLoss {l : Nat} (hlinks : linksOn s = true) (hrun : portRun s p = true) (hl : l < 768) (hp : portOfLane s l = p)
    (heth : isEthPort s p = false) : ∃ t, exec (.laneLockLoss l) s = .next t ∧ IsDown p s.tide.now (getPort s p).queues t := by
  subst hp
  have hstate : (getPort s (portOfLane s l)).lstate = .run := by simpa [portRun] using hrun
  refine ⟨declareDown (portOfLane s l) 1 true s, ?_, isDown_declareDown (linkUp_of_portRun hrun) 1 true⟩
  show Host.Outcome.next (doLockLoss l s) = _
  unfold doLockLoss
  dsimp only
  rw [if_neg (by simp [hlinks, hl]), if_neg (by simp [heth]), if_neg (by simp [hstate]), if_pos (by simp [hstate])]

end

/-! ### The mask -/

theorem dropNoRoute_net (d b : Nat) (s : State) : (dropNoRoute d b s).net = s.net := by
  unfold dropNoRoute
  split
  · rfl
  · rw [releaseStored_frame]
    exact onlyIf_same (g := State.net) _ _ (count_net _ _)

/-- What the link had not acknowledged whole leaves it (R259). -/
theorem getPort_backToQueues (p : Nat) (s : State) : ∃ q, getPort (backToQueues p s) p = { getPort s p with
    queues := q, link := { (getPort s p).link with tx := [], txOff := 0 } } := by
  unfold backToQueues
  refine forAll_keeps (P := fun u => ∃ q, getPort u p = { getPort s p with
    queues := q, link := { (getPort s p).link with tx := [], txOff := 0 } }) (fun t u hu => ?_) _ _ ⟨_, getPort_onPort_same _ _ _⟩
  obtain ⟨q, hq⟩ := hu
  refine ⟨mput q t.queue ((t.die, t.buf) :: mgetD q t.queue []), (getPort_onPort_same _ _ _).trans ?_⟩
  rw [show getPort (onStored _ _ _ u) p = getPort u p from rfl, hq]

theorem backToQueues_stop (p : Nat) (s : State) : (backToQueues p s).stop = s.stop :=
  forAll_same (g := State.stop) (by intro _ _; rfl) _ _

theorem getPort_ite {c : Prop} [Decidable c] {t u : State} {p : Nat} {x : Port} (ht : getPort t p = x) (hu : getPort u p = x) :
    getPort (if c then t else u) p = x := by
  split
  · exact ht
  · exact hu

theorem getPort_reenterQueues (p : Nat) (s : State) : getPort (reenterQueues p s) p = { getPort s p with
    queues := [], deficit := [], slots := (getPort s p).slots.map (fun e => (e.1, (e.2.1, s.tide.now))), reenter := false } := by
  unfold reenterQueues
  dsimp only
  refine (forAll_same (g := fun u => getPort u p) (fun e u => ?_) _ _).trans (getPort_onPort_same _ _ _)
  split
  · rfl
  · exact getPort_ite rfl (getPort_congr (dropNoRoute_net _ _ _) p)

/-- The port as the mask takes it: its link holds nothing, and a fabric port's queues are empty (R258, R259). -/
theorem doPortDownCommit_port {p tm : Nat} {s : State} (h : (getPort s p).declared = some tm) :
    (getPort (doPortDownCommit p s) p).masked = true ∧ (getPort (doPortDownCommit p s) p).declared = none
      ∧ (getPort (doPortDownCommit p s) p).link.tx = []
      ∧ (isFabric s p = true → s.stop.frozen = false → (getPort (doPortDownCommit p s) p).queues = []) := by
  obtain ⟨q, hq⟩ := getPort_backToQueues p (onPort p (fun y => { y with masked := true, declared := none }) s)
  rw [getPort_onPort_same] at hq
  have hfab : isFabric (backToQueues p (onPort p (fun y => { y with masked := true, declared := none }) s)) p = isFabric s p := by
    rw [isFabric, hq, isFabric]
  have hstop := backToQueues_stop p (onPort p (fun y => { y with masked := true, declared := none }) s)
  rw [onPort_stop] at hstop
  unfold doPortDownCommit
  rw [h]
  dsimp only
  rw [hfab, hstop]
  split_ifs with hyes hfrozen
  · rw [getPort_onPort_same, hq]
    exact ⟨rfl, rfl, rfl, fun _ hstill => absurd hfrozen (by simp [hstill])⟩
  · rw [getPort_reenterQueues, hq]
    exact ⟨rfl, rfl, rfl, fun _ _ => rfl⟩
  · rw [hq]
    exact ⟨rfl, rfl, rfl, fun hfab => absurd hfab hyes⟩

theorem exec_portDownCommit {p tm : Nat} {s : State} (hlive : regsLive s = true) (h : (getPort s p).declared = some tm) :
    ∃ t, exec (.portDownCommit p) s = .next t ∧ getPort t p = getPort (doPortDownCommit p s) p := by
  refine ⟨_, congrArg Host.Outcome.next (if_pos (by simp [hlive, h])), ?_⟩
  rw [forAll_same (g := fun u => getPort u p) (fun k u => getPort_congr (noteTouched_net k u) p), getPort_congr (collRepair_net _ _)]

/-! ### CLIFF_NOTICE and the disabled port -/

/-- A port whose link ends while it is not enabled is DOWN and squelched. -/
theorem toDetect_disabled {p : Nat} {s : State} (h : portEnabled s p = false) :
    (getPort (toDetect p s) p).lstate = .down ∧ (getPort (toDetect p s) p).squelched = true := by
  rw [getPort_toDetect, h]
  exact ⟨rfl, rfl⟩

/-- A port that goes down without telling the far end (R352). -/
theorem declareDown_untold {p : Nat} {s : State} (h : linkUp s p = true) (cause : Nat) :
    declareDown p cause false s = toDetect p (recordDown p true (stopLink p s)) := by
  unfold declareDown takeDown
  rw [if_neg (by simp [h]), if_neg (by simp), h]

/-- The port that has taken a CLIFF_NOTICE, before its link ends. -/
def noticed (p : Nat) (k : Packet) (s : State) : State :=
  onPort p (fun x => { x with cliffHold := some s.tide.now }) (takeDelivered p k s)

theorem getPort_noticed (p : Nat) (k : Packet) (s : State) : getPort (noticed p k s) p = { getPort s p with cliffHold := some s.tide.now } :=
  getPort_onPort_same _ _ _

/-- A CLIFF_NOTICE holds the port DOWN (R493). -/
theorem exec_cliffNotice {s : State} {p : Nat} {k : Packet} (hlive : regsLive s = true) (hptype : k.ptype = 0) (hctype : k.ctype = 0x30)
    (hfab : isFabric s p = true) (hup : linkUp s p = true) :
    ∃ t, exec (.cliffNotice p k) s = .next t ∧ (getPort t p).lstate = .down ∧ (getPort t p).squelched = true
      ∧ (getPort t p).cliffHold = some s.tide.now := by
  have hfab' : isFabric (takeDelivered p k s) p = true := hfab
  have hup' : linkUp (takeDelivered p k s) p = true := hup
  have hexec : doCliffNotice p k s = declareDown p 1 false (noticed p k s) := if_neg (by simp [hptype, hctype, hfab', hup'])
  rw [declareDown_untold (by rw [linkUp, getPort_noticed]; exact hup)] at hexec
  have hport : getPort (recordDown p true (stopLink p (noticed p k s))) p = stoppedPort (noticed p k s) p (getPort (noticed p k s) p) := by
    rw [getPort_congr (recordDown_net _ _ _), getPort_stopLink]
  have hoff : portEnabled (recordDown p true (stopLink p (noticed p k s))) p = false := by
    simp [portEnabled, hport, getPort_noticed, stoppedPort]
  obtain ⟨hdown, hsquelched⟩ := toDetect_disabled hoff
  refine ⟨_, congrArg Host.Outcome.next ((if_pos hlive).trans hexec), hdown, hsquelched, ?_⟩
  rw [getPort_toDetect, hport, getPort_noticed]
  rfl

theorem exec_cliffNoticeHoldEnd {s : State} {p tm : Nat} (hlive : regsLive s = true) (h : (getPort s p).cliffHold = some tm)
    (hdue : tm + 1000000 ≤ s.tide.now) :
    exec (.cliffNoticeHoldEnd p) s = .next (startPort p (onPort p (fun x => { x with cliffHold := none }) s)) := by
  show Host.Outcome.next (whenLive (doHoldEnd p) s) = _
  simp only [whenLive, hlive, if_true, doHoldEnd, h, due, hdue, decide_true]

theorem exec_disableSquelch {s : State} {p tm : Nat} (hlive : regsLive s = true) (h : (getPort s p).disableAt = some tm)
    (hdue : tm ≤ s.tide.now) (hoff : bitAt (getLane s p).ctl 31 = false) :
    ∃ t, exec (.disableSquelch p) s = .next t ∧ (getPort t p).lstate = .down ∧ (getPort t p).squelched = true
      ∧ (getPort t p).disableAt = none := by
  have hctl : bitAt (getLane (stopLink p s) p).ctl 31 = false := by rw [getLane_stopLink_ctl, hoff]
  obtain ⟨hdown, hsquelched⟩ := toDetect_disabled (s := onPort p (fun x => { x with disableAt := none }) (stopLink p s)) (p := p)
    (by simp [portEnabled, hctl])
  have hexec : doDisableSquelch p s = toDetect p (onPort p (fun x => { x with disableAt := none }) (stopLink p s)) := by
    simp only [doDisableSquelch, h, due, hdue, decide_true, not_true_eq_false, if_false]
  refine ⟨_, congrArg Host.Outcome.next ((if_pos hlive).trans hexec), hdown, hsquelched, ?_⟩
  rw [getPort_toDetect, getPort_onPort_same]

theorem exec_portUpCommit {s : State} {p : Nat} (hlive : regsLive s = true) (hup : linkUp s p = true)
    (hdecl : (getPort s p).declared = none) :
    exec (.portUpCommit p) s = .next (onPort p (fun x => { x with masked := false }) s) :=
  congrArg Host.Outcome.next ((if_pos hlive).trans (if_pos ⟨hup, hdecl⟩))

/-- Settles O40: `isDown_declareDown` for the declarations, and the port's record after each of the other commands. -/
theorem portsGoDownAndComeUp : Obligations.PortsGoDownAndComeUp := by
  unfold Obligations.PortsGoDownAndComeUp
  refine ⟨fun s p cause hlinks hport hrun => ⟨fun hcause => isDown_portDownDeclare hlinks hport hrun hcause,
    fun hcause => isDown_linkDown hlinks hport hrun hcause, fun l hl hp heth => isDown_laneLockLoss hlinks hrun hl hp heth⟩,
    fun s p tm hlive h => ?_, fun s p hlive hup hdecl => exec_portUpCommit hlive hup hdecl, fun s p k hlive hptype hctype hfab hup =>
      exec_cliffNotice hlive hptype hctype hfab hup, fun s p tm hlive h hdue => exec_cliffNoticeHoldEnd hlive h hdue,
    fun s p tm hlive h hdue hoff => exec_disableSquelch hlive h hdue hoff⟩
  obtain ⟨t, ht, hport⟩ := exec_portDownCommit hlive h
  refine ⟨t, ht, ?_⟩
  rw [hport]
  exact doPortDownCommit_port h

end Sys2Proof.Machine
end

/-! ## Shoal and scheduler settings (R290, R291, R311, R331 to R333)

Each descriptor is a row of checks, one status for each, and one change of the state behind them: `settleDesc_check` settles a
check, and an equation for each descriptor says which checks stand before its change. -/

section
namespace Sys2Proof.Machine

/-- A check that fails answers its status with the state as it was; one that passes leaves the answer to what follows it. -/
theorem settleDesc_check {bad : Prop} [Decidable bad] (d : Desc) (x : List Byte) (status : Nat) (out : State × Res) (s : State) :
    settleDesc d x (if bad then (s, fail status) else out).2 (if bad then (s, fail status) else out).1
      = if bad then answer d status 0 s else settleDesc d x out.2 out.1 := by
  split <;> rfl

@[simp] theorem zeroBits_eq_true {op : BitVec 384} {hi lo : Nat} : zeroBits op hi lo = true ↔ fld op hi lo = 0 := beq_iff_eq

/-! ### SHOAL_SET and DATELINE_SET -/

section
variable {s : State} {r i : Nat} {d : Desc}

theorem exec_shoalSet (h : Ready s r i 0x68 d) :
    let t := onShoal (fun x => { x with cfg := shoalCfgOf d.op }) s
    exec (.shoalSet r i) s = .next (
      if shoalCfgOk (shoalCfgOf d.op) = false ∨ fld d.op 179 0 ≠ 0 then answer d 0x09 0 s
      else if (List.range 4).any (fun k => 655360 < shoalNeeds t k) = true then answer d 0x08 0 s
      else if s.shoal.everRun = true then answer d 0x0B 0 s
      else answer d 0x00 0 t) := by
  refine congrArg Host.Outcome.next ((runDesc_ready h workShoalSet []).trans ?_)
  simp only [workShoalSet, settleDesc_check, zeroBits_eq_true, Bool.not_eq_true]
  rfl

theorem exec_datelineSet (h : Ready s r i 0x69 d) :
    let p := fld d.op 383 374
    exec (.datelineSet r i) s = .next (
      if fld d.op 370 0 ≠ 0 ∨ isDrezhPort s p = false ∨ isAttach s p = true ∨ (bitAt d.op 371 = true ∧ fld d.op 373 372 = 3) then
        answer d 0x09 0 s
      else if linkUp s p = true then answer d 0x0B 0 s
      else answer d 0x00 0 (onPort p (fun x => { x with dim := fld d.op 373 372, dl := bitAt d.op 371 }) s)) := by
  refine congrArg Host.Outcome.next ((runDesc_ready h workDatelineSet []).trans ?_)
  simp only [workDatelineSet, settleDesc_check, zeroBits_eq_true, Bool.not_eq_true]
  rfl

/-! ### SCHED_SET, QUEUE_SET and POLICE_SET -/

/-- The Drezh ports that a SCHED_SET or a QUEUE_SET names: every one with ALL, else the one of its port field (R331, R332). -/
def namedPorts (s : State) (op : BitVec 384) : List Nat := if bitAt op 373 = true then drezhPorts s else [fld op 383 374]

theorem exec_schedSet (h : Ready s r i 0x6A d) :
    exec (.schedSet r i) s = .next (
      if schedCfgOk (schedCfgOf d.op) = false ∨ fld d.op 236 0 ≠ 0 ∨ (bitAt d.op 373 = false ∧ isDrezhPort s (fld d.op 383 374) = false) then
        answer d 0x09 0 s
      else answer d 0x00 0 (forAll (namedPorts s d.op) (fun q => onPort q (fun x => { x with sched := schedCfgOf d.op })) s)) := by
  refine congrArg Host.Outcome.next ((runDesc_ready h workSchedSet []).trans ?_)
  simp only [workSchedSet, settleDesc_check, zeroBits_eq_true, not_or, Bool.not_eq_true]
  rfl

theorem exec_queueSet (h : Ready s r i 0x6B d) :
    let rate := fld d.op 354 335
    let burst := fld d.op 334 311
    let t := forAll (namedPorts s d.op)
      (fun q => setQEntry q (fld d.op 372 365) (fld d.op 364 363) (fld d.op 362 355) rate burst) s
    exec (.queueSet r i) s = .next (
      if fld d.op 372 365 = 0 ∨ fld d.op 362 355 = 0 ∨ rateOk rate burst = false ∨ fld d.op 310 0 ≠ 0
        ∨ (bitAt d.op 373 = false ∧ isDrezhPort s (fld d.op 383 374) = false) then answer d 0x09 0 s
      else if (List.range 4).any (fun k => 4096 < (t.qents.filter (fun e => dieOf e.port == k)).length) = true then answer d 0x08 0 s
      else answer d 0x00 0 t) := by
  refine congrArg Host.Outcome.next ((runDesc_ready h workQueueSet []).trans ?_)
  simp only [workQueueSet, settleDesc_check, zeroBits_eq_true, not_or, Bool.not_eq_true]
  rfl

theorem exec_policeSet (h : Ready s r i 0x6C d) :
    let key := fld d.op 382 367
    let rate := fld d.op 358 339
    let burst := fld d.op 338 315
    let t := forAll (bitsOf 4 (fld d.op 366 363)) (setPolicer (bitAt d.op 383) key (fld d.op 362 359) rate burst) s
    exec (.policeSet r i) s = .next (
      if fld d.op 314 0 ≠ 0 ∨ fld d.op 366 363 = 0 ∨ fld d.op 362 359 = 0 ∨ rateOk rate burst = false
        ∨ (bitAt d.op 383 = true ∧ (key = 0 ∨ 256 ≤ key)) ∨ (bitAt d.op 383 = false ∧ key ∉ s.mem.coves) then answer d 0x09 0 s
      else if (List.range 4).any (fun k => 1024 < (t.policers.filter (fun p => p.die == k)).length) = true then answer d 0x08 0 s
      else answer d 0x00 0 t) := by
  refine congrArg Host.Outcome.next ((runDesc_ready h workPoliceSet []).trans ?_)
  simp only [workPoliceSet, settleDesc_check, zeroBits_eq_true, Bool.not_eq_true]
  rfl

end

/-- Settles O9: each descriptor by the equation of its work, whose checks stand in the order of the statement. -/
theorem shoalAndSchedulerSettings : Obligations.ShoalAndSchedulerSettings := by
  unfold Obligations.ShoalAndSchedulerSettings
  exact ⟨⟨fun s r i d h => exec_shoalSet h, fun s r i d h => exec_datelineSet h⟩,
    fun s r i d h => exec_schedSet h, fun s r i d h => exec_queueSet h, fun s r i d h => exec_policeSet h⟩

end Sys2Proof.Machine
end

/-! ## Frames that an Ethernet-mode port accepts and drops (R367)

`exec_ethernetFrame_run` says what becomes of a frame; ETH_BAD counts the dropped ones, and nothing on the way of an accepted
frame counts in it. -/

section
namespace Sys2Proof.Machine

/-- The ETH_BAD counter of a port. -/
def ethBad (port : Nat) (s : State) : Ctr := ctrOf s.obs (kPort port iETH_BAD)

section
variable (port : Nat)

theorem ethBad_countN {k : CKey} (h : k ≠ kPort port iETH_BAD) (n : Nat) (s : State) : ethBad port (countN k n s) = ethBad port s := by
  have hkey : unpostedKey (kPort port iETH_BAD) := by simp [unpostedKey, kPort]
  unfold ethBad countN
  dsimp only
  split
  · rw [ctrOf_postDev hkey, ctrOf_countRaw_ne _ _ h]
  · exact ctrOf_countRaw_ne _ _ h

theorem ethBad_count {k : CKey} (h : k ≠ kPort port iETH_BAD) (s : State) : ethBad port (count k s) = ethBad port s :=
  ethBad_countN port h 1 s

/-- The counters of a port are apart by their index. -/
theorem ethBad_count_kPort {i : Nat} (h : i ≠ iETH_BAD) (q : Nat) (s : State) : ethBad port (count (kPort q i) s) = ethBad port s :=
  ethBad_count port (by simp [kPort, h]) s

/-- Storing keeps SHOAL_FREE_MIN and SHOAL_HELD_HW, and no other counter. -/
theorem ethBad_noteHeld (d : Nat) (a : Acct) (s : State) : ethBad port (noteHeld d a s) = ethBad port s := by
  have hdie : kDie d 1 ≠ kPort port iETH_BAD := by simp [kDie, kPort]
  unfold noteHeld
  dsimp only
  split
  · have hheld (p : Nat) : kPort p iSHOAL_HELD_HW ≠ kPort port iETH_BAD := by simp [kPort, iSHOAL_HELD_HW, iETH_BAD]
    exact (ctrOf_ctrSet_ne _ _ (hheld _)).trans (ctrOf_ctrSet_ne _ _ hdie)
  · exact ctrOf_ctrSet_ne _ _ hdie

theorem ethBad_storePkt {d n owner b : Nat} {a : Acct} {x : Stored} {s t : State} (h : storePkt d a x n owner s = some (b, t)) :
    ethBad port t = ethBad port s := by
  unfold storePkt at h
  split at h
  · cases h
  · split at h
    · cases h
    · cases h
      exact ethBad_noteHeld port d a _

/-- A frame that no account can hold is counted in ETH_DROP. -/
theorem ethBad_queueFrame (inp : Nat) (f : List Byte) (q : Nat) (s : State) : ethBad port (queueFrame inp f q s) = ethBad port s := by
  unfold queueFrame
  dsimp only
  split
  case h_1 => exact ethBad_count_kPort port (by decide) _ s
  case h_2 b t h => exact ethBad_storePkt port (t := t) (Option.ite_none_right_eq_some.mp h).2

theorem ethBad_learnMac (m p : Nat) (s : State) : ethBad port (learnMac m p s) = ethBad port s := by
  unfold learnMac
  split
  · exact ethBad_count port (by simp [kETH_LEARN_FULL, kPort]) s
  · rfl

theorem ethBad_bridged (p : Nat) (f : List Byte) (s : State) : ethBad port (bridged p f s) = ethBad port s :=
  calc ethBad port (bridged p f s)
      = ethBad port (forAll _ (queueFrame p f) (learnMac (frameSrc f) p s)) := onlyIf_same (g := ethBad port) _ _ rfl
    _ = ethBad port (learnMac (frameSrc f) p s) := forAll_same (g := ethBad port) (fun q u => ethBad_queueFrame port p f q u) _ _
    _ = ethBad port s := ethBad_learnMac port _ p s

end

/-- Settles O35: `exec_ethernetFrame_run` names the case of a frame; what an accepted one counts, stores and learns leaves ETH_BAD. -/
theorem ethernetPortAcceptsGoodFrames : Obligations.EthernetPortAcceptsGoodFrames := by
  unfold Obligations.EthernetPortAcceptsGoodFrames
  intro s port good f hon he hr u
  have hu : ethBad port u = ethBad port s :=
    (ethBad_count_kPort port (by decide) port _).trans (ethBad_countN port (by simp [kPort, iRX_BYTES, iETH_BAD]) _ s)
  refine ⟨fun hbad => ?bad, fun hg hmin hmax hfcs => ⟨_, exec_ethernetFrame_run hon he hr good f, ?_⟩⟩
  case bad => rw [exec_ethernetFrame_run hon he hr, if_pos (by simpa using hbad)]
  rw [if_neg (by simp [hg, hmin, hmax, hfcs])]
  refine Eq.trans ?_ hu
  split
  · exact ethBad_count_kPort port (by decide) port u
  · split
    · exact ethBad_count_kPort port (by decide) port u
    · exact ethBad_bridged port port f u

end Sys2Proof.Machine
end

/-! ## The bytes of a flit (R339, R341, R358, R359)

A flit is its header, payload and tag end to end with their CRC behind; each is read back as the slice that holds it. -/

section
namespace Sys2Proof.Machine

/-! ### Slices of joined bytes -/

/-- Bytes that stand behind others are the slice from where those end. -/
theorem sliceB_append (a b c : List Byte) : sliceB (a ++ b ++ c) a.length b.length = b := by
  simp [sliceB]

theorem leAt_append_bytesLE (a : List Byte) (n v : Nat) : leAt (a ++ bytesLE n v) a.length n = v % 256 ^ n := by
  have h := sliceB_append a (bytesLE n v) []
  rw [List.append_nil, bytesLE_length] at h
  rw [leAt, h, ofLE_bytesLE]

/-! ### CRC-32C (R341) -/

theorem crcBit_lt {c : Nat} (h : c < 2 ^ 32) : crcBit c < 2 ^ 32 := by
  unfold crcBit
  split
  · exact Nat.xor_lt_two_pow (by omega) (by norm_num)
  · omega

theorem crc32c_lt (l : List Byte) : crc32c l < 2 ^ 32 := by
  have hfold : ∀ (l : List Byte) (c : Nat), c < 2 ^ 32 →
      l.foldl (fun c b => crcBit (crcBit (crcBit (crcBit (crcBit (crcBit (crcBit (crcBit (c ^^^ b.toNat))))))))) c < 2 ^ 32 := by
    intro l
    induction l with
    | nil => exact fun c hc => hc
    | cons b r ih =>
      intro c hc
      have hxor : c ^^^ b.toNat < 2 ^ 32 := Nat.xor_lt_two_pow hc (b.isLt.trans (by norm_num))
      refine ih _ ?_
      iterate 8 apply crcBit_lt
      exact hxor
  exact Nat.xor_lt_two_pow (hfold l _ (by norm_num)) (by norm_num)

/-! ### Header, payload and tag of a sealed flit -/

/-- The payload as a flit carries it: plain in KEYING, encrypted in RUN (R358, R359). -/
def flitText (l : Link) (run : Bool) (payload : List Byte) : List Byte :=
  if run then gcmCrypt l.keyTx (slotIv l.saltTx l.slotTx) payload else payload

/-- The tag that a flit carries: zeros in KEYING (R358, R359). -/
def flitTagBytes (l : Link) (run : Bool) (h : BitVec 160) (payload : List Byte) : List Byte :=
  if run then flitTag l.keyTx (slotIv l.saltTx l.slotTx) (bytesBE 20 h.toNat) (flitText l run payload) else List.replicate 8 0

/-- What the CRC of a flit covers. -/
def flitBody (l : Link) (run : Bool) (h : BitVec 160) (payload : List Byte) : List Byte :=
  bytesBE 20 h.toNat ++ flitText l run payload ++ flitTagBytes l run h payload

section
variable (l : Link) (run : Bool) (h : BitVec 160) (payload : List Byte)

theorem sealFlit_eq : sealFlit l run h payload = flitBody l run h payload ++ bytesLE 4 (crc32c (flitBody l run h payload)) := by
  cases run <;> rfl

@[simp] theorem flitText_length : (flitText l run payload).length = payload.length := by
  cases run <;> simp [flitText]

@[simp] theorem flitTagBytes_length : (flitTagBytes l run h payload).length = 8 := by
  cases run <;> simp [flitTagBytes, flitTag]

@[simp] theorem flitBody_length : (flitBody l run h payload).length = payload.length + 28 := by
  simp [flitBody]; omega

@[simp] theorem sealFlit_length : (sealFlit l run h payload).length = payload.length + 32 := by
  simp [sealFlit_eq, bytesLE_length]

/-- A flit begins with its header (R339). -/
theorem sealFlit_take_header : (sealFlit l run h payload).take 20 = bytesBE 20 h.toNat := by
  simp [sealFlit_eq, flitBody]

/-- The first twenty bytes are the header. -/
theorem flitHdr_of_take {f : List Byte} {h : BitVec 160} (hf : f.take 20 = bytesBE 20 h.toNat) : flitHdr f = h := by
  have hslice : sliceB f 0 20 = bytesBE 20 h.toNat := by simp [sliceB, hf]
  have hmod : h.toNat % 256 ^ 20 = h.toNat := Nat.mod_eq_of_lt (h.isLt.trans_eq (by norm_num))
  rw [flitHdr, beAt, hslice, ofBE_bytesBE, hmod, BitVec.ofNat_toNat, BitVec.setWidth_eq]

theorem flitHdr_sealFlit : flitHdr (sealFlit l run h payload) = h := flitHdr_of_take (sealFlit_take_header l run h payload)

variable (hp : payload.length = 224)
include hp

theorem sealFlit_take_body : (sealFlit l run h payload).take 252 = flitBody l run h payload := by
  have hlen : (flitBody l run h payload).length = 252 := by simp [hp]
  rw [sealFlit_eq, ← hlen, List.take_left]

/-- The CRC stands last, over everything before it (R341). -/
theorem sealFlit_crc : leAt (sealFlit l run h payload) 252 4 = crc32c ((sealFlit l run h payload).take 252) := by
  have hlen : (flitBody l run h payload).length = 252 := by simp [hp]
  have hcrc := leAt_append_bytesLE (flitBody l run h payload) 4 (crc32c (flitBody l run h payload))
  rw [hlen, ← sealFlit_eq, Nat.mod_eq_of_lt ((crc32c_lt _).trans_eq (by norm_num))] at hcrc
  rw [hcrc, sealFlit_take_body l run h payload hp]

theorem sealFlit_text : sliceB (sealFlit l run h payload) 20 224 = flitText l run payload := by
  have htext := sliceB_append (bytesBE 20 h.toNat) (flitText l run payload)
    (flitTagBytes l run h payload ++ bytesLE 4 (crc32c (flitBody l run h payload)))
  rw [bytesBE_length, flitText_length, hp, ← List.append_assoc, ← flitBody, ← sealFlit_eq] at htext
  exact htext

theorem sealFlit_tag : sliceB (sealFlit l run h payload) 244 8 = flitTagBytes l run h payload := by
  have htag := sliceB_append (bytesBE 20 h.toNat ++ flitText l run payload) (flitTagBytes l run h payload)
    (bytesLE 4 (crc32c (flitBody l run h payload)))
  rw [List.length_append, bytesBE_length, flitText_length, hp, flitTagBytes_length, ← flitBody, ← sealFlit_eq] at htag
  exact htag

/-- An end that holds the direction's key, salt and key number opens the flit in its slot (R359, R475). -/
theorem openFlit_sealFlit_run {x : Port} (hrun : run = true) (hrx : x.peer.runRx = true) (hkey : x.link.keyRx = l.keyTx)
    (hsalt : x.link.saltRx = l.saltTx) (hkph : flKph h = x.link.keyRxNo % 2) :
    openFlit x l.slotTx (sealFlit l run h payload) = some (genParity payload, x.link) := by
  subst hrun
  unfold openFlit
  simp only [hrx, flitHdr_sealFlit, sealFlit_text l true h payload hp, sealFlit_tag l true h payload hp, sealFlit_take_header, hkey,
    hsalt, hkph, decide_true, not_true_eq_false, if_true, if_false]
  simp only [flitTagBytes, flitText, if_true, gcmCrypt_gcmCrypt]

/-- A flit of KEYING opens as it stands (R358, R475). -/
theorem openFlit_sealFlit_keying {x : Port} (hrun : run = false) (hrx : x.peer.runRx = false) (hkph : flKph h = 0) (slot : Nat) :
    openFlit x slot (sealFlit l run h payload) = some (genParity payload, x.link) := by
  subst hrun
  have hzero : ofBE (flitTagBytes l false h payload) = 0 := by
    show ofBE (List.replicate 8 0) = 0
    decide
  unfold openFlit
  simp only [hrx, flitHdr_sealFlit, sealFlit_text l false h payload hp, sealFlit_tag l false h payload hp, hkph, hzero, flitText,
    Bool.false_eq_true, not_false_eq_true, and_self, if_true, if_false]

end

/-- Settles O38: the lengths and slices of `sealFlit_eq`, and `gcmCrypt_gcmCrypt` where the flit is encrypted. -/
theorem sealedFlitOpensToItsPayload : Obligations.SealedFlitOpensToItsPayload := by
  unfold Obligations.SealedFlitOpensToItsPayload
  intro x l h payload run hp
  exact ⟨by rw [sealFlit_length, hp], sealFlit_crc l run h payload hp, flitHdr_sealFlit l run h payload,
    fun hrun hrx hkey hsalt hkph => openFlit_sealFlit_run l run h payload hp hrun hrx hkey hsalt hkph,
    fun slot hrun hrx hkph => openFlit_sealFlit_keying l run h payload hp hrun hrx hkph slot⟩

end Sys2Proof.Machine
end

/-! ## Flits as they are closed and received (R339, R343, R346 to R350, R356, R360 to R362)

Closing always ends in one `emitFlit`, which adds one flit to those sent; receiving is the slot coming, then either a failed flit,
which asks for a replay, or a flit that passes, whose acknowledgement and credits leave the receiving side as it was. -/

section
namespace Sys2Proof.Machine

/-! ### The fields of a flit header (R339) -/

theorem sumOf_const {α : Type} (l : List α) (n : Nat) : sumOf l (fun _ => n) = n * l.length := by
  induction l with
  | nil => rfl
  | cons x r ih => rw [sumOf_cons, ih, List.length_cons, Nat.mul_add_one, Nat.add_comm]

/-- The nine CRED counters of a header, the last class first (R340). -/
def credFields (cred : List Nat) : List (Nat × Nat) := cred.reverse.map (fun c => (12, c))

theorem sumOf_credFields {cred : List Nat} (hc : cred.length = 9) : sumOf (credFields cred) (·.1) = 108 := by
  rw [credFields, sumOf_map, sumOf_const, List.length_reverse, hc]

section
variable {ftype kph : Nat} {nakv badp : Bool} {fsn ack sop : Nat} {cred : List Nat} (hc : cred.length = 9)
include hc

theorem flType_mkFlitHdr : flType (mkFlitHdr ftype kph nakv badp fsn ack sop cred) = ftype % 16 := by
  have h := fld_pack 160 4 ftype []
    ((1, kph) :: (1, b2n nakv) :: (1, b2n badp) :: (4, 0) :: (12, fsn) :: (12, ack) :: (8, sop) :: (9, 0) :: credFields cred)
    (by decide) (by simp [sumOf_credFields hc])
  simp only [sumOf_cons, sumOf_credFields hc] at h
  exact h

theorem flBadp_mkFlitHdr : flBadp (mkFlitHdr ftype kph nakv badp fsn ack sop cred) = badp := by
  have h := fld_pack 160 1 (b2n badp) [(4, ftype), (1, kph), (1, b2n nakv)]
    ((4, 0) :: (12, fsn) :: (12, ack) :: (8, sop) :: (9, 0) :: credFields cred) (by decide) (by simp [sumOf_credFields hc])
  simp only [sumOf_cons, sumOf_credFields hc] at h
  refine (congrArg (· == 1) h).trans ?_
  cases badp <;> rfl

theorem flFsn_mkFlitHdr : flFsn (mkFlitHdr ftype kph nakv badp fsn ack sop cred) = fsn % 4096 := by
  have h := fld_pack 160 12 fsn [(4, ftype), (1, kph), (1, b2n nakv), (1, b2n badp), (4, 0)]
    ((12, ack) :: (8, sop) :: (9, 0) :: credFields cred) (by decide) (by simp [sumOf_credFields hc])
  simp only [sumOf_cons, sumOf_credFields hc] at h
  exact h

theorem flSop_mkFlitHdr : flSop (mkFlitHdr ftype kph nakv badp fsn ack sop cred) = sop % 256 := by
  have h := fld_pack 160 8 sop [(4, ftype), (1, kph), (1, b2n nakv), (1, b2n badp), (4, 0), (12, fsn), (12, ack)]
    ((9, 0) :: credFields cred) (by decide) (by simp [sumOf_credFields hc])
  simp only [sumOf_cons, sumOf_credFields hc] at h
  exact h

end

/-! ### Bits spoiled on purpose (R399, R501) -/

/-- `g` has the header of `f`, and is a flit where `f` is one. -/
def KeepsHeader (f g : List Byte) : Prop := flitHdr g = flitHdr f ∧ (f.length = 256 → g.length = 256)

theorem KeepsHeader.trans {f g k : List Byte} (h : KeepsHeader f g) (h' : KeepsHeader g k) : KeepsHeader f k := by
  obtain ⟨hhdr, hlen⟩ := h
  obtain ⟨hhdr', hlen'⟩ := h'
  exact ⟨hhdr'.trans hhdr, hlen' ∘ hlen⟩

theorem keepsHeader_ite {c : Prop} [Decidable c] {f g : List Byte} (h : KeepsHeader f g) : KeepsHeader f (if c then g else f) := by
  split
  · exact h
  · exact ⟨rfl, id⟩

theorem nth_putBytes_before {i off : Nat} (h : i < off) (f b : List Byte) : nth (putBytes f off b) i 0 = nth f i 0 := by
  have hi : i < (sliceB f 0 off).length := by simpa using h
  rw [nth, putBytes, List.append_assoc, List.getElem?_append_left hi, List.getElem?_eq_getElem hi, Option.getD_some, sliceB_getElem]

/-- Bytes replaced behind the header leave it. -/
theorem keepsHeader_putBytes {off : Nat} {b : List Byte} (hoff : 20 ≤ off) (hend : off + b.length ≤ 256) (f : List Byte) :
    KeepsHeader f (putBytes f off b) := by
  refine ⟨congrArg (fun l => BitVec.ofNat 160 (ofBE l)) ?_, fun hf => ?_⟩
  · refine List.ext_getElem (by simp) fun i hi _ => ?_
    have hlt : i < off := by
      rw [sliceB_length] at hi
      omega
    rw [sliceB_getElem, sliceB_getElem, nth_putBytes_before hlt]
  · simp [putBytes, hf]
    omega

/-! ### A flit leaves (R345) -/

/-- What closing a flit adds to and leaves of a link: the flits sent, the slots used, the flits held, the CRED counters. -/
def sendSide (s : State) (p : Nat) : List (List Byte) × Nat × List HeldFlit × Nat :=
  ((getPort s p).link.sent, (getPort s p).link.slotTx, (getPort s p).link.replay, (getPort s p).link.issued.length)

theorem sendSide_issueCredits (p : Nat) (s : State) : sendSide (issueCredits p s) p = sendSide s p := by
  unfold issueCredits
  refine forAll_same (g := fun u => sendSide u p) (fun c u => ?_) _ s
  simp only [sendSide, getPort_onLink_same, modAt_length]

theorem sendSide_openSlot (p : Nat) (s : State) : sendSide (openSlot p s) p = sendSide s p := by
  rw [← sendSide_issueCredits p s]
  unfold openSlot sendSide
  rw [getPort_onPort_same]
  generalize getPort (issueCredits p s) p = x
  split <;> rfl

/-- The header of a flit of a type, as far as what it carries decides it. -/
def Carries (ftype sop : Nat) (badp : Bool) (fsn : Nat) (f : List Byte) : Prop :=
  flType (flitHdr f) = ftype % 16 ∧ flFsn (flitHdr f) = fsn % 4096 ∧ flSop (flitHdr f) = sop % 256 ∧ flBadp (flitHdr f) = badp

/-- What a link has sent and will number its next slot by: all that the choice of a flit leaves of the sending side. -/
def slotSide (s : State) (p : Nat) : List (List Byte) × Nat × Nat :=
  ((getPort s p).link.sent, (getPort s p).link.slotTx, (getPort s p).link.issued.length)

theorem slotSide_onLink (p : Nat) (s : State) {f : Link → Link} (hsent : (f (getPort s p).link).sent = (getPort s p).link.sent)
    (hslot : (f (getPort s p).link).slotTx = (getPort s p).link.slotTx)
    (hissued : (f (getPort s p).link).issued = (getPort s p).link.issued) : slotSide (onLink p f s) p = slotSide s p := by
  rw [slotSide, slotSide, getPort_onLink_same, hsent, hslot, hissued]

/-- `t` has sent, in one slot, the flit `f` after what the port had sent in `s`. -/
def SendsOne (p : Nat) (s t : State) (f : List Byte) : Prop :=
  (getPort t p).link.sent = (getPort s p).link.sent ++ [f] ∧ (getPort t p).link.slotTx = (getPort s p).link.slotTx + 1

/-- The flit that leaves is sent, carries what it is given, and leaves the held flits. -/
theorem emitFlit_sends {p : Nat} {s u : State} (hu : slotSide u p = slotSide s p) (hi : (getPort s p).link.issued.length = 9)
    (ftype sop : Nat) (badp : Bool) (fsn : Nat) (payload : List Byte) : ∃ f, SendsOne p s (emitFlit p ftype sop badp fsn payload u) f
      ∧ Carries ftype sop badp fsn f ∧ (payload.length = 224 → f.length = 256)
      ∧ (getPort (emitFlit p ftype sop badp fsn payload u) p).link.replay = (getPort u p).link.replay := by
  have hopen := sendSide_openSlot p u
  simp only [slotSide, sendSide, Prod.mk.injEq] at hu hopen
  obtain ⟨husent, huslot, huissued⟩ := hu
  obtain ⟨hsent, hslot, hreplay, hissued⟩ := hopen
  unfold emitFlit SendsOne
  extract_lets v x run lane ln l hdr sealed crcSpoiled g flipped w y
  have hy : getPort y p = getPort v p :=
    calc getPort y p = getPort (laneSend p (l.baseTx + l.slotTx) flipped w) p := getPort_noteForced lane _ p
      _ = getPort w p := getPort_laneSend p _ flipped w p
      _ = getPort v p := getPort_onLane v lane p _
  have hkeeps : KeepsHeader sealed flipped := by
    refine (keepsHeader_ite (keepsHeader_putBytes (by decide) (by simp [bytesLE_length]) sealed)).trans (keepsHeader_ite ?_)
    exact (keepsHeader_putBytes (by decide) (by simp) _).trans (keepsHeader_putBytes (by decide) (by simp [bytesLE_length]) _)
  have hhdr : flitHdr flipped = hdr := hkeeps.1.trans (flitHdr_sealFlit l run hdr payload)
  have hc : l.issued.length = 9 := (hissued.trans huissued).trans hi
  refine ⟨flipped, ?_, ?_, fun hp => hkeeps.2 (by rw [sealFlit_length, hp]), ?_⟩
  · rw [getPort_onLink_same, hy]
    exact ⟨congrArg (· ++ [flipped]) (hsent.trans husent), congrArg (· + 1) (hslot.trans huslot)⟩
  · rw [Carries, hhdr]
    exact ⟨flType_mkFlitHdr hc, flFsn_mkFlitHdr hc, flSop_mkFlitHdr hc, flBadp_mkFlitHdr hc⟩
  · rw [getPort_onLink_same, hy]
    exact hreplay

/-! ### Closing one flit (R345, R348, R350, R356, R362) -/

theorem getPort_dropOwner (d b o : Nat) (s : State) (p : Nat) : getPort (dropOwner d b o s) p = getPort s p := by
  rw [dropOwner_frame]
  rfl

/-- `t` has closed one flit, from a state in which the port had sent what it had sent in `s`. -/
def ClosesOne (p : Nat) (s t : State) : Prop :=
  ∃ ftype sop badp fsn payload u, t = emitFlit p ftype sop badp fsn payload u ∧ slotSide u p = slotSide s p

theorem closesOne_emitFlit {p : Nat} {s u : State} (h : slotSide u p = slotSide s p) (ftype sop : Nat) (badp : Bool) (fsn : Nat)
    (payload : List Byte) : ClosesOne p s (emitFlit p ftype sop badp fsn payload u) := ⟨ftype, sop, badp, fsn, payload, u, rfl, h⟩

theorem sendNew_closesOne {p : Nat} {s t : State} (h : sendNew p s = some t) : ClosesOne p s t := by
  unfold sendNew at h
  dsimp only at h
  split at h
  · cases h
  · split at h
    · cases h
    · cases h
      refine closesOne_emitFlit ?_ _ _ _ _ _
      refine (forAll_same (g := fun u => slotSide u p) (fun t u => ?_) _ _).trans (slotSide_onLink p s rfl rfl rfl)
      split
      · rw [slotSide, getPort_dropOwner, ← slotSide]
      · rfl

/-- A port that has given nothing to its link has no new data to send. -/
theorem sendNew_nothing {p : Nat} {s : State} (h : (getPort s p).link.tx = []) : sendNew p s = none := by
  unfold sendNew
  dsimp only
  rw [h]
  split
  · rfl
  · rfl

section
variable {p : Nat} {s : State}

/-- A held flit that a rewind sends again goes first (R350). -/
theorem closeFlit_resend {x : HeldFlit} (h : nextResend (getPort s p).link = some x) :
    ∃ u, slotSide u p = slotSide s p ∧ closeFlit p s
      = emitFlit p 1 x.sop (x.badp || !parityGood x.payload) x.fsn (bareBytes x.payload) u := by
  unfold closeFlit
  dsimp only
  rw [h]
  exact ⟨_, slotSide_onLink p s rfl rfl rfl, rfl⟩

/-- Where nothing waits NULL goes out (R345). -/
theorem closeFlit_null (hresend : (getPort s p).link.resend = []) (hmsgs : (getPort s p).link.msgs = [])
    (htx : (getPort s p).link.tx = []) :
    ∃ u, slotSide u p = slotSide s p ∧ (getPort u p).link.replay = (getPort s p).link.replay ∧ closeFlit p s
      = emitFlit p 0 0xFF false (((getPort s p).link.nextFsn + 4095) % 4096) (List.replicate 224 0) u := by
  have hnone : nextResend (getPort s p).link = none := by simp [nextResend, hresend]
  have hnew : sendNew p (onLink p (fun l => { l with resend := [] }) s) = none :=
    sendNew_nothing (by rw [getPort_onLink_same]; exact htx)
  refine ⟨onLink p (fun l => { l with resend := [] }) s, slotSide_onLink p s rfl rfl rfl, by rw [getPort_onLink_same], ?_⟩
  simp [closeFlit, hnone, hmsgs, hnew]

theorem closeFlit_closesOne : ClosesOne p s (closeFlit p s) := by
  unfold closeFlit
  dsimp only
  split
  · exact closesOne_emitFlit (slotSide_onLink p s rfl rfl rfl) _ _ _ _ _
  · split
    · exact closesOne_emitFlit (slotSide_onLink p s rfl rfl rfl) _ _ _ _ _
    · have hempty := slotSide_onLink p s (f := fun l => { l with resend := [] }) rfl rfl rfl
      split
      next t h =>
        obtain ⟨ftype, sop, badp, fsn, payload, u, ht, hu⟩ := sendNew_closesOne h
        exact ⟨ftype, sop, badp, fsn, payload, u, ht, hu.trans hempty⟩
      next => exact closesOne_emitFlit hempty _ _ _ _ _

/-- The slot of a port whose link runs takes one flit, which carries what the port had to send (R339, R345, R350). -/
theorem exec_flitClose_sends (hr : linkRuns s p = true) (hi : (getPort s p).link.issued.length = 9) :
    ∃ t f, exec (.flitClose p) s = .next t
      ∧ (getPort t p).link.sent = (getPort s p).link.sent ++ [f] ∧ (getPort t p).link.slotTx = (getPort s p).link.slotTx + 1
      ∧ ((getPort s p).link.resend = [] → (getPort s p).link.msgs = [] → (getPort s p).link.tx = [] →
          f.length = 256 ∧ Carries 0 0xFF false (((getPort s p).link.nextFsn + 4095) % 4096) f
            ∧ (getPort t p).link.replay = (getPort s p).link.replay)
      ∧ (∀ x, nextResend (getPort s p).link = some x → Carries 1 x.sop (x.badp || !parityGood x.payload) x.fsn f) := by
  have hexec {t : State} (h : closeFlit p s = t) : exec (.flitClose p) s = .next t :=
    congrArg Host.Outcome.next ((if_pos hr).trans h)
  cases hx : nextResend (getPort s p).link with
  | some x =>
    obtain ⟨u, hu, hclose⟩ := closeFlit_resend hx
    obtain ⟨f, ⟨hsent, hslot⟩, hcarries, -, -⟩ := emitFlit_sends hu hi 1 x.sop (x.badp || !parityGood x.payload) x.fsn
      (bareBytes x.payload)
    refine ⟨_, f, hexec hclose, hsent, hslot, fun hresend => ?_, fun y hy => ?_⟩
    · simp [nextResend, hresend] at hx
    · obtain rfl := Option.some.inj hy
      exact hcarries
  | none =>
    by_cases hidle : (getPort s p).link.resend = [] ∧ (getPort s p).link.msgs = [] ∧ (getPort s p).link.tx = []
    · obtain ⟨hresend, hmsgs, htx⟩ := hidle
      obtain ⟨u, hu, hureplay, hclose⟩ := closeFlit_null hresend hmsgs htx
      obtain ⟨f, ⟨hsent, hslot⟩, hcarries, hlen, hreplay⟩ := emitFlit_sends hu hi 0 0xFF false
        (((getPort s p).link.nextFsn + 4095) % 4096) (List.replicate 224 0)
      exact ⟨_, f, hexec hclose, hsent, hslot,
        fun _ _ _ => ⟨hlen List.length_replicate, hcarries, hreplay.trans hureplay⟩, nofun⟩
    · obtain ⟨ftype, sop, badp, fsn, payload, u, hclose, hu⟩ := closeFlit_closesOne (p := p) (s := s)
      obtain ⟨f, ⟨hsent, hslot⟩, -, -, -⟩ := emitFlit_sends hu hi ftype sop badp fsn payload
      exact ⟨_, f, hexec hclose, hsent, hslot, fun h h' h'' => absurd ⟨h, h', h''⟩ hidle, nofun⟩

end

/-! ### A slot comes (R346, R388) -/

theorem getPort_laneReceive (p slot : Nat) (ok : Bool) (s : State) (q : Nat) : getPort (laneReceive p slot ok s) q = getPort s q := by
  unfold laneReceive
  dsimp only
  split <;> rfl

theorem netOnly_laneReceive (p slot : Nat) (ok : Bool) (s : State) : NetOnly s (laneReceive p slot ok s) := by
  unfold laneReceive
  dsimp only
  split <;> rfl

/-- A slot that FEC has corrected passes where it is the first of its pair, or none before it in the pair has failed (R346). -/
theorem pairFec_laneReceive {s : State} {p slot : Nat}
    (h : slot / portWidth s p % 5 = 0 ∨ (getLane s (laneIn s p slot)).pairOk = true) :
    pairFec (laneReceive p slot true s) p slot true = true := by
  have hlane (f : Lane → Lane) : (getLane (onLane (laneIn s p slot) f s) (laneIn (onLane (laneIn s p slot) f s) p slot))
      = f (getLane s (laneIn s p slot)) := getLane_onLane_same s _ f
  unfold laneReceive
  dsimp only
  split
  next hlater => simp [pairFec, hlane, h.resolve_left hlater]
  next => simp [pairFec, hlane]

/-- The state in which the flit of a slot has come: the lane has read it, and its slot is counted. -/
def slotCome (p slot : Nat) (ok : Bool) (s : State) : State :=
  laneReceive p ((getPort s p).link.baseRx + slot) ok (onLink p (fun l => { l with slotRx := slot + 1 }) s)

section
variable (p slot : Nat) (ok : Bool) (s : State)

theorem getPort_slotCome : getPort (slotCome p slot ok s) p
    = { getPort s p with link := { (getPort s p).link with slotRx := slot + 1 } } := by
  rw [slotCome, getPort_laneReceive, getPort_onLink_same]

theorem netOnly_slotCome : NetOnly s (slotCome p slot ok s) :=
  (netOnly_onPort p _ s).trans (netOnly_laneReceive _ _ _ _)

theorem slotCome_tide : (slotCome p slot ok s).tide = s.tide := by rw [netOnly_slotCome p slot ok s]
theorem slotCome_dev : (slotCome p slot ok s).dev = s.dev := by rw [netOnly_slotCome p slot ok s]

end

/-! ### A flit that fails (R346, R349) -/

/-- The link of a port that asks for a replay, unless it waits for one already. -/
def replayAsked (now : Nat) (l : Link) : Link :=
  if l.waitingFor then l else { l with waitingFor := true, nakvDue := true, nakvAt := now }

theorem replayAsked_eq (now : Nat) (l : Link) : replayAsked now l = { l with
    waitingFor := true, nakvDue := l.nakvDue || !l.waitingFor, nakvAt := if l.waitingFor = true then l.nakvAt else now } := by
  unfold replayAsked
  split
  next h =>
    cases l
    simp_all
  next h => simp [h]

theorem regsLive_of_linksOn {s : State} (h : linksOn s = true) : regsLive s = true := by
  unfold linksOn at h
  unfold regsLive
  cases hd : s.dev.state <;> simp_all

/-- A failed flit asks for a replay, and its source is a Ripple (R346, R484). -/
theorem failedFlit_asks {s : State} (hs : regsLive s = true) {src : Nat} (hc : classOf src = some .ripple) (p slot : Nat) :
    (failedFlit p slot src s).flt.ripple = true ∧ (getPort (failedFlit p slot src s) p).link
      = replayAsked s.tide.now (getPort s p).link := by
  have hdetect (loc : Word) : FltOnly s (detect src loc p s) :=
    collect_fltOnly _ s (show classOf src ≠ some .cliff by rw [hc]; decide)
  have hsum (loc : Word) : faultSummary (detect src loc p s) = _ := collect_faultSummary hs hc
  simp only [faultSummary, Prod.mk.injEq] at hsum
  constructor
  · obtain ⟨-, hripple, -, -⟩ := hsum (locPort (laneIn s p slot))
    exact hripple.trans (by simp)
  · unfold failedFlit askReplay
    rw [getPort_onLink_same, hdetect]
    rfl

theorem doFlitReceive_fails {s : State} {p : Nat} (hr : linkRuns s p = true) {slot : Nat} {ok : Bool} {f : List Byte}
    (h : ok = false ∨ f.length ≠ 256 ∨ leAt f 252 4 ≠ crc32c (f.take 252)) :
    doFlitReceive p slot ok f s = failedFlit p slot 0x02 (slotCome p slot ok s) := by
  have hbad : ¬ pairFec (slotCome p slot ok s) p ((getPort s p).link.baseRx + slot) ok = true ∨ f.length ≠ 256
      ∨ leAt f 252 4 ≠ crc32c (f.take 252) := h.imp_left fun hok => by simp [pairFec, hok]
  unfold doFlitReceive
  dsimp only
  rw [if_neg (by simp [hr]), ← slotCome, if_pos hbad]

/-- A flit that fails a check sets the wait for a replay and counts its slot (R346, R349). -/
theorem exec_flitReceive_fails {s : State} {p : Nat} (hr : linkRuns s p = true) {slot : Nat} {ok : Bool} {f : List Byte}
    (h : ok = false ∨ f.length ≠ 256 ∨ leAt f 252 4 ≠ crc32c (f.take 252)) :
    ∃ t, exec (.flitReceive p slot ok f) s = .next t ∧ t.flt.ripple = true
      ∧ (getPort t p).link = { (getPort s p).link with
          slotRx := slot + 1, waitingFor := true, nakvDue := (getPort s p).link.nakvDue || !(getPort s p).link.waitingFor,
          nakvAt := if (getPort s p).link.waitingFor = true then (getPort s p).link.nakvAt else s.tide.now } := by
  have hon : linksOn s = true := by
    simp only [linkRuns, Bool.and_eq_true] at hr
    obtain ⟨⟨hon, -⟩, -⟩ := hr
    exact hon
  have hlive : regsLive (slotCome p slot ok s) = true := by
    rw [regsLive, slotCome_dev]
    exact regsLive_of_linksOn hon
  obtain ⟨hripple, hlink⟩ := failedFlit_asks hlive (src := 0x02) rfl p slot
  refine ⟨_, congrArg Host.Outcome.next (doFlitReceive_fails hr h), hripple, ?_⟩
  rw [hlink, replayAsked_eq, getPort_slotCome, slotCome_tide]

/-! ### A flit that passes (R347, R348, R350, R357) -/

/-- What the receiving side of a link holds: EXPECT, the packet in reassembly, the packets and messages that wait, the wait for a
replay, and when the last flit passed. -/
def receiveSide (l : Link) : Nat × List (Byte × Bool) × List Packet × List (List Byte) × Bool × Bool × Nat :=
  (l.expect, l.rx, l.rxPkts, l.rxMsgs, l.waitingFor, l.nakvDue, l.goodAt)

/-- The slot number of a link does not matter to what a flit opens to. -/
theorem openFlit_slotRx (x : Port) (n slot : Nat) (f : List Byte) :
    openFlit { x with link := { x.link with slotRx := n } } slot f
      = (openFlit x slot f).map (fun e => (e.1, { e.2 with slotRx := n })) := by
  unfold openFlit
  dsimp only
  split_ifs <;> rfl

/-- Opening a flit moves the receive key alone (R360). -/
theorem receiveSide_openFlit {x : Port} {slot : Nat} {f : List Byte} {e : List (Byte × Bool) × Link} (h : openFlit x slot f = some e) :
    receiveSide e.2 = receiveSide x.link := by
  unfold openFlit at h
  dsimp only at h
  split_ifs at h
  all_goals
    cases h
    rfl

/-- A flit that passed, before its payload is taken: its acknowledgement, its credits and its NAKV. -/
def flitPassed (p : Nat) (h : BitVec 160) (l : Link) (s : State) : State :=
  let t := takeCred p h (takeAck p (flAck h) (onLink p (fun _ => { l with goodAt := s.tide.now }) s))
  if flNakv h then takeNakv p (flAck h) t else t

theorem receiveSide_takeAck (p a : Nat) (s : State) :
    receiveSide (getPort (takeAck p a s) p).link = receiveSide (getPort s p).link := by
  unfold takeAck
  dsimp only
  split
  · rfl
  · rw [forAll_same (g := fun u => getPort u p) (fun t u => ?_), getPort_onLink_same]
    · rfl
    · split
      · exact getPort_dropOwner _ _ _ _ _
      · rfl

theorem receiveSide_takeNakv (p a : Nat) (s : State) :
    receiveSide (getPort (takeNakv p a s) p).link = receiveSide (getPort s p).link := by
  unfold takeNakv
  extract_lets l again
  split
  · rfl
  · rw [getPort_onLink_same]
    rfl

theorem receiveSide_takeCred (p : Nat) (h : BitVec 160) (s : State) :
    receiveSide (getPort (takeCred p h s) p).link = receiveSide (getPort s p).link := by
  rw [takeCred, getPort_onLink_same]
  rfl

theorem receiveSide_flitPassed (p : Nat) (h : BitVec 160) (l : Link) (s : State) :
    receiveSide (getPort (flitPassed p h l s) p).link = receiveSide { l with goodAt := s.tide.now } := by
  have hcred : receiveSide (getPort (takeCred p h (takeAck p (flAck h) (onLink p (fun _ => { l with goodAt := s.tide.now }) s))) p).link
      = receiveSide { l with goodAt := s.tide.now } := by
    rw [receiveSide_takeCred, receiveSide_takeAck, getPort_onLink_same]
  unfold flitPassed
  dsimp only
  split
  · rw [receiveSide_takeNakv, hcred]
  · exact hcred

/-! ### The payload of a flit is taken (R343, R347, R361) -/

section
variable {p : Nat} {h : BitVec 160} {s : State}

/-- The packets of a flit without BADP all wait for their ingress (R342). -/
theorem takePackets_good (l : List Packet) (s : State) :
    takePackets p false l s = onLink p (fun y => { y with rxPkts := y.rxPkts ++ l }) s := rfl

/-- A DATA flit at EXPECT gives its packets, and the next one is expected (R347). -/
theorem receiveSide_takeData (hfsn : flFsn h = (getPort s p).link.expect) (hbadp : flBadp h = false) (payload : List (Byte × Bool)) :
    let l := (getPort s p).link
    let a := takePayload (flSop h) l.rx payload
    receiveSide (getPort (takeData p h payload s) p).link
      = ((l.expect + 1) % 4096, a.rx, l.rxPkts ++ a.pkts, l.rxMsgs, false, l.nakvDue, l.goodAt) := by
  unfold takeData
  dsimp only
  rw [if_pos hfsn, hbadp, takePackets_good, getPort_onLink_same, getPort_onLink_same, getPort_onPort_same]
  rfl

/-- One out of sequence gives none, and its sender is asked for a replay (R347, R349). -/
theorem takeData_outOfSequence (hfsn : flFsn h ≠ (getPort s p).link.expect) (payload : List (Byte × Bool)) :
    (getPort (takeData p h payload s) p).link = replayAsked s.tide.now (getPort s p).link := by
  unfold takeData askReplay
  dsimp only
  rw [if_neg hfsn, getPort_onLink_same, getPort_count, count_tide]
  rfl

/-- The messages of a LINKCTL flit wait behind those that came before (R361). -/
theorem receiveSide_takeMsgs (payload : List (Byte × Bool)) :
    let l := (getPort s p).link
    receiveSide (getPort (takeMsgs p payload s) p).link
      = (l.expect, l.rx, l.rxPkts, l.rxMsgs ++ msgsIn (pieces 32 (bareBytes payload)), l.waitingFor, l.nakvDue, l.goodAt) := by
  rw [takeMsgs, getPort_onLink_same]
  rfl

end

section
variable {s : State} {p slot : Nat} {f : List Byte} {payload : List (Byte × Bool)} (hr : linkRuns s p = true) (hlen : f.length = 256)
  (hcrc : leAt f 252 4 = crc32c (f.take 252)) (hopen : (openFlit (getPort s p) slot f).map (·.1) = some payload)
  (hpair : ((getPort s p).link.baseRx + slot) / portWidth s p % 5 = 0
    ∨ (getLane s (laneIn s p ((getPort s p).link.baseRx + slot))).pairOk = true)
  (hrsvd : fld (flitHdr f) 152 149 = 0) (hrsvd' : fld (flitHdr f) 116 108 = 0)
include hr hlen hcrc hopen hpair hrsvd hrsvd'

/-- A flit of a defined type that passes its checks has its payload taken with the receiving side as it was (R346). -/
theorem exec_flitReceive_passes (htype : flType (flitHdr f) ≤ 2) :
    ∃ u, receiveSide (getPort u p).link = receiveSide { (getPort s p).link with goodAt := s.tide.now }
      ∧ exec (.flitReceive p slot true f) s = .next (
        if flType (flitHdr f) = 1 then takeData p (flitHdr f) payload u
        else if flType (flitHdr f) = 2 then takeMsgs p payload u else u) := by
  obtain ⟨⟨payload', l⟩, hsome, rfl⟩ := Option.map_eq_some_iff.mp hopen
  have hcome : openFlit (getPort (slotCome p slot true s) p) slot f = some (payload', { l with slotRx := slot + 1 }) := by
    rw [getPort_slotCome, openFlit_slotRx, hsome]
    rfl
  have hfec : pairFec (slotCome p slot true s) p ((getPort s p).link.baseRx + slot) true = true := by
    refine pairFec_laneReceive (s := onLink p _ s) (hpair.imp_right fun hok => ?_)
    have hlane : laneIn (onLink p (fun l => { l with slotRx := slot + 1 }) s) p = laneIn s p := by
      funext n
      unfold laneIn
      rw [getPort_onLink_same]
      rfl
    rw [hlane]
    exact hok
  have hgood : receiveSide { l with slotRx := slot + 1, goodAt := (slotCome p slot true s).tide.now }
      = receiveSide { (getPort s p).link with goodAt := s.tide.now } := by
    have hside := receiveSide_openFlit hsome
    simp only [receiveSide, Prod.mk.injEq] at hside ⊢
    obtain ⟨hexpect, hrx, hpkts, hmsgs, hwaiting, hdue, -⟩ := hside
    exact ⟨hexpect, hrx, hpkts, hmsgs, hwaiting, hdue, by rw [slotCome_tide]⟩
  refine ⟨flitPassed p (flitHdr f) { l with slotRx := slot + 1 } (slotCome p slot true s),
    (receiveSide_flitPassed _ _ _ _).trans hgood, congrArg Host.Outcome.next ?_⟩
  have hchecks : ¬ (¬ pairFec (slotCome p slot true s) p ((getPort s p).link.baseRx + slot) true = true ∨ f.length ≠ 256
      ∨ leAt f 252 4 ≠ crc32c (f.take 252)) := by simp [hfec, hlen, hcrc]
  unfold doFlitReceive
  dsimp only
  rw [if_neg (by simp [hr]), ← slotCome, if_neg hchecks, hcome]
  exact if_neg (by simp [hrsvd, hrsvd', Nat.not_lt.mpr htype])

/-- A DATA flit at EXPECT gives its packets, ends the wait for a replay and leaves a NAKV that is due (R347, R349). -/
theorem exec_flitReceive_data (htype : flType (flitHdr f) = 1) (hfsn : flFsn (flitHdr f) = (getPort s p).link.expect)
    (hbadp : flBadp (flitHdr f) = false) :
    let l := (getPort s p).link
    let a := takePayload (flSop (flitHdr f)) l.rx payload
    ∃ t, exec (.flitReceive p slot true f) s = .next t ∧ (getPort t p).link.rxPkts = l.rxPkts ++ a.pkts ∧ (getPort t p).link.rx = a.rx
      ∧ (getPort t p).link.expect = (l.expect + 1) % 4096 ∧ (getPort t p).link.waitingFor = false
      ∧ (getPort t p).link.nakvDue = l.nakvDue ∧ (getPort t p).link.goodAt = s.tide.now := by
  obtain ⟨u, hu, hexec⟩ := exec_flitReceive_passes hr hlen hcrc hopen hpair hrsvd hrsvd' (htype.trans_le (by decide))
  simp only [receiveSide, Prod.mk.injEq] at hu
  obtain ⟨hexpect, hrx, hpkts, -, -, hdue, hgood⟩ := hu
  have hside := receiveSide_takeData (hfsn.trans hexpect.symm) hbadp payload
  simp only [receiveSide, Prod.mk.injEq, hexpect, hrx, hpkts, hdue, hgood] at hside
  obtain ⟨hexpect', hrx', hpkts', -, hwaiting', hdue', hgood'⟩ := hside
  exact ⟨_, hexec.trans (by rw [if_pos htype]), hpkts', hrx', hexpect', hwaiting', hdue', hgood'⟩

/-- A LINKCTL flit gives its messages (R361). -/
theorem exec_flitReceive_linkctl (htype : flType (flitHdr f) = 2) :
    let l := (getPort s p).link
    ∃ t, exec (.flitReceive p slot true f) s = .next t ∧ (getPort t p).link.rxPkts = l.rxPkts
      ∧ (getPort t p).link.rxMsgs = l.rxMsgs ++ msgsIn (pieces 32 (bareBytes payload)) ∧ (getPort t p).link.expect = l.expect := by
  obtain ⟨u, hu, hexec⟩ := exec_flitReceive_passes hr hlen hcrc hopen hpair hrsvd hrsvd' htype.le
  simp only [receiveSide, Prod.mk.injEq] at hu
  obtain ⟨hexpect, -, hpkts, hmsgs, -, -, -⟩ := hu
  have hside := receiveSide_takeMsgs (p := p) (s := u) payload
  simp only [receiveSide, Prod.mk.injEq, hexpect, hpkts, hmsgs] at hside
  obtain ⟨hexpect', -, hpkts', hmsgs', -, -, -⟩ := hside
  have hdata : ¬ flType (flitHdr f) = 1 := fun h => absurd (h.symm.trans htype) (by decide)
  exact ⟨_, hexec.trans (by rw [if_neg hdata, if_pos htype]), hpkts', hmsgs', hexpect'⟩

/-- A DATA flit out of sequence gives nothing, and the port waits for a replay (R347, R349). -/
theorem exec_flitReceive_outOfSequence (htype : flType (flitHdr f) = 1) (hfsn : flFsn (flitHdr f) ≠ (getPort s p).link.expect) :
    let l := (getPort s p).link
    ∃ t, exec (.flitReceive p slot true f) s = .next t ∧ (getPort t p).link.rxPkts = l.rxPkts ∧ (getPort t p).link.rx = l.rx
      ∧ (getPort t p).link.expect = l.expect ∧ (getPort t p).link.waitingFor = true := by
  obtain ⟨u, hu, hexec⟩ := exec_flitReceive_passes hr hlen hcrc hopen hpair hrsvd hrsvd' (htype.trans_le (by decide))
  simp only [receiveSide, Prod.mk.injEq] at hu
  obtain ⟨hexpect, hrx, hpkts, -, -, -, -⟩ := hu
  refine ⟨_, hexec.trans (by rw [if_pos htype]), ?_⟩
  rw [takeData_outOfSequence (fun hat => hfsn (hat.trans hexpect)), replayAsked_eq]
  exact ⟨hpkts, hrx, hexpect, rfl⟩

end

/-! ### The obligation -/

section
variable {s : State} {p : Nat} (hr : linkRuns s p = true)
include hr

theorem exec_nakvRepeat_due (hw : (getPort s p).link.waitingFor = true) (hdue : (getPort s p).link.nakvAt + 1000 ≤ s.tide.now) :
    exec (.nakvRepeat p) s = .next (onLink p (fun y => { y with nakvDue := true, nakvAt := s.tide.now }) s) :=
  congrArg Host.Outcome.next (if_pos ⟨hr, hw, decide_eq_true hdue⟩)

theorem exec_keyPhaseChange_due (hrun : (getPort s p).peer.runTx = true)
    (hslots : (getPort s p).link.keyTxNo = 0 ∨ 2 ^ 20 ≤ (getPort s p).link.slotTx - (getPort s p).link.keyTxSlot) :
    exec (.keyPhaseChange p) s = .next (onLink p changeKey s) :=
  congrArg Host.Outcome.next (if_pos ⟨hr, hrun, hslots⟩)

theorem exec_tideSyncSend_run (hrun : portRun s p = true) :
    exec (.tideSyncSend p) s = .next (onLink p (fun y => { y with
      msgs := (y.msgs.filter (fun m => byteAt m 0 != 1)) ++ [linkMsg 1 (bytesLE 8 s.tide.now) []], syncAt := s.tide.now }) s) :=
  congrArg Host.Outcome.next (if_neg (by simp [hr, hrun]))

end

/-- Settles O39: a flit that fails a check by `exec_flitReceive_fails`, one that passes by what its payload does to the receiving
side, a slot that is closed by `exec_flitClose_sends`. -/
theorem flitsAreCheckedAndClosed : Obligations.FlitsAreCheckedAndClosed := by
  unfold Obligations.FlitsAreCheckedAndClosed
  intro s p hr l
  refine ⟨fun slot ok f hbad => exec_flitReceive_fails hr hbad, ?received, fun hi => ?closed,
    fun hw hdue => exec_nakvRepeat_due hr hw hdue, fun hrun hslots => exec_keyPhaseChange_due hr hrun hslots,
    fun hrun => exec_tideSyncSend_run hr hrun⟩
  case received =>
    intro slot f payload h hlen hcrc hopen hpair hrsvd hrsvd'
    exact ⟨exec_flitReceive_data hr hlen hcrc hopen hpair hrsvd hrsvd', exec_flitReceive_linkctl hr hlen hcrc hopen hpair hrsvd hrsvd',
      exec_flitReceive_outOfSequence hr hlen hcrc hopen hpair hrsvd hrsvd'⟩
  case closed =>
    obtain ⟨t, f, hexec, hsent, hslot, hnull, hresend⟩ := exec_flitClose_sends hr hi
    refine ⟨t, f, hexec, hsent, hslot, fun hre hms htx => ?_, fun x hx => ?_⟩
    · obtain ⟨hlen, ⟨htype, hfsn, -, -⟩, hreplay⟩ := hnull hre hms htx
      exact ⟨hlen, htype, hfsn.trans (Nat.mod_mod _ _), hreplay⟩
    · obtain ⟨htype, hfsn, hsop, hbadp⟩ := hresend x hx
      exact ⟨htype, hfsn, hsop, fun hbad => by rw [hbadp, hbad]; exact Bool.or_true _⟩

end Sys2Proof.Machine
end

/-! ## A message that waits at a port as the Q7 enters CLIFF (R361, R486, R491) -/

section
namespace Sys2Proof.Machine

/-- In CLIFF, with a LINK_DOWN message of port 0 received and not yet taken. -/
def cliffWithMessage : State := { State.reset with
  dev := { state := .cliff }
  net := { State.reset.net with ports := [(0, { link := { rxMsgs := [[3]] } })] } }

/-- Refutes O55: a command that brings the effect of a link message takes the message from its port before it looks at the device
state, so LINK_DOWN on a port that holds one changes the links in CLIFF. -/
theorem not_cliffIsInert : ¬ Obligations.CliffIsInert := by
  unfold Obligations.CliffIsInert
  rintro ⟨hinert, -⟩
  obtain ⟨d, hexec, -⟩ := hinert (.linkDown 0 0) cliffWithMessage rfl (by decide)
  have hports := congrArg (fun t : State => t.net.ports.map (·.2.link.rxMsgs)) (Host.Outcome.next.inj hexec)
  have htaken : (doLinkDown 0 0 (takeMsg 0 3 cliffWithMessage)).net.ports.map (·.2.link.rxMsgs) = [[]] := by decide +kernel
  have hheld : cliffWithMessage.net.ports.map (·.2.link.rxMsgs) = [[[3]]] := rfl
  exact absurd (htaken.symm.trans (hports.trans hheld)) (by decide)

end Sys2Proof.Machine
end

/-! ## What reset leaves (R290, R331, R377, R380, R384, R413 to R415, R426, R440, R442, R571, R592) -/

section
namespace Sys2Proof.Machine

/-- Every map of the reset state is empty, so what a number names is at its default. -/
theorem getFunc_reset (f : Nat) : getFunc State.reset f = {} := rfl
theorem getRing_reset (r : Nat) : getRing State.reset r = {} := rfl
theorem getLane_reset (l : Nat) : getLane State.reset l = {} := rfl
theorem getPort_reset (p : Nat) : getPort State.reset p = {} := rfl
theorem ctrVal_reset (k : CKey) : ctrVal State.reset k = 0 := rfl

/-- Settles O2: the maps are empty at reset, and the defaults are the spec's values. -/
theorem resetLeavesTheStatedValues : Obligations.ResetLeavesTheStatedValues := by
  unfold Obligations.ResetLeavesTheStatedValues
  have hpolarity : bitAt ({} : Lane).ctl 24 = true ∧ bitAt ({} : Lane).ctl 22 = true := by decide
  simp only [getFunc_reset, getRing_reset, getLane_reset, getPort_reset, ctrVal_reset, hpolarity]
  exact ⟨rfl, rfl, rfl, by simp, rfl, rfl, rfl, by simp, by simp, by simp, rfl, rfl, rfl, by simp, rfl, rfl, by simp⟩

end Sys2Proof.Machine
end

/-! ## GO (R520, R584, R588) -/

section
namespace Sys2Proof.Machine

/-- A write of the host that the Q7 takes: not in RESET, BOOT or CLIFF (R491, R587). -/
theorem byHost_live {s : State} (hl : regsLive s = true) (hb : s.dev.state ≠ .boot) (f : State → State) : byHost f s = f s := by
  simp [byHost, hl, hb]

theorem exec_go {s : State} (hl : regsLive s = true) (hb : s.dev.state ≠ .boot) : exec .go s = .next (doGo s) :=
  congrArg Host.Outcome.next (byHost_live hl hb doGo)

theorem advanceSvn_first {s : State} (h : s.sec.advanced = false) : advanceSvn s = onSec (fun x => { x with
    advanced := true, fwSvn := max x.fwSvn x.fw.svn, cfgSvn := max x.cfgSvn x.cfg.svn }) s := by
  simp [advanceSvn, h]

/-- Settles O57: the guard of GO, and what an accepted GO does in its order. -/
theorem goIsAcceptedOnlyInTrain : Obligations.GoIsAcceptedOnlyInTrain := by
  unfold Obligations.GoIsAcceptedOnlyInTrain
  intro s hl hb
  refine ⟨fun htrain hfrozen htide => ⟨?_, fun hfirst => ?_, rfl, rfl⟩, fun hrefused => ?_⟩
  · rw [exec_go hl hb, doGo, if_pos ⟨htrain, hfrozen, fun h => h.2 (htide h.1)⟩]
    rfl
  · rw [advanceSvn_first hfirst]
    exact ⟨rfl, rfl⟩
  · rw [exec_go hl hb, doGo, if_neg]
    rintro ⟨htrain, hfrozen, hunlocked⟩
    rcases hrefused with h | h | h
    · exact h htrain
    · simp [hfrozen] at h
    · exact hunlocked h

end Sys2Proof.Machine
end

/-! ## Forced detections: armed, cleared, struck (R492, R499 to R502, R516) -/

section
namespace Sys2Proof.Machine

/-! ### A write of one bit -/

theorem bitsOf_two_pow {n b : Nat} (h : b < n) : bitsOf n (2 ^ b) = [b] := by
  have hone : (List.range n).count b = 1 := List.count_eq_one_of_mem List.nodup_range (List.mem_range.2 h)
  have heq : (fun i => (2 ^ b).testBit i) = (· == b) := by
    funext i
    rw [Nat.testBit_two_pow, Bool.eq_iff_iff, decide_eq_true_iff, beq_iff_eq, eq_comm]
  rw [bitsOf, heq, List.filter_beq, hone]
  rfl

/-- A write of the host that changes nothing where it is taken changes nothing. -/
theorem byHost_idle {f : State → State} {s : State} (h : f s = s) : byHost f s = s := by
  unfold byHost
  split
  · exact h
  · rfl

theorem exec_fltForceSet (k : Nat) (v : Word) (s : State) : exec (.fltForceSet k v) s = .next (byHost (doForceSet k v) s) := rfl

/-- A write of one bit arms the one source it names. -/
theorem doForceSet_bit {k b : Nat} {v : Word} (hb : b < 32) (hv : v.toNat = 2 ^ b) (s : State) :
    doForceSet k v s = armForce (32 * k + b) s := by
  rw [doForceSet, hv, bitsOf_two_pow hb]
  rfl

/-! ### Sources armed -/

theorem armForce_disabled {s : State} (h : s.flt.injEn = false) (src : Nat) : armForce src s = s := by
  unfold armForce
  exact if_pos (.inr (.inl (by simp [h])))

theorem armForce_cliffDisabled {s : State} {src : Nat} (h : s.flt.cliffEn = false) (hc : 0x30 ≤ src) : armForce src s = s := by
  unfold armForce
  exact if_pos (.inr (.inr (.inl ⟨hc, by simp [h]⟩)))

/-- What a bit of FLT_FORCE_SET does to the source it names. -/
theorem armForce_eq (src : Nat) (s : State) : armForce src s =
    if classOf src = none ∨ s.flt.injEn = false ∨ (0x30 ≤ src ∧ s.flt.cliffEn = false) ∨ namesUnit s src s.flt.forceLoc = false then s
    else if isCondition src = true then
      takeFault ⟨src, s.flt.forceLoc, conditionObject src s.flt.forceLoc, s.tide.now, true, 0, true⟩ s
    else onFlt (fun f => { f with armed := mput f.armed src s.flt.forceLoc }) s := by
  simp only [armForce, Option.isNone_iff_eq_none, Bool.not_eq_true]

/-! ### Sources cancelled -/

@[simp] theorem cancelForced_flt (e : Nat × Word) (s : State) : (cancelForced e s).flt = s.flt := by
  unfold cancelForced
  split <;> rfl

@[simp] theorem cancelForced_tide (e : Nat × Word) (s : State) : (cancelForced e s).tide = s.tide := by
  unfold cancelForced
  split <;> rfl

theorem doForceClr_eq (k : Nat) (v : Word) (s : State) : doForceClr k v s = onFlt (fun f => { f with
      armed := f.armed.filter (fun e => !(e.1 / 32 == k && bitAt v (e.1 % 32))),
      cleared := f.cleared.filter (fun e => e.2.2 == s.tide.now)
        ++ (f.armed.filter (fun e => e.1 / 32 == k && bitAt v (e.1 % 32))).map (fun e => (e.1, e.2, s.tide.now)) })
    (forAll (s.flt.armed.filter (fun e => e.1 / 32 == k && bitAt v (e.1 % 32))) cancelForced s) := by
  have htide : (forAll (s.flt.armed.filter (fun e => e.1 / 32 == k && bitAt v (e.1 % 32))) cancelForced s).tide = s.tide :=
    forAll_same (g := State.tide) (fun e u => cancelForced_tide e u) _ s
  simp only [doForceClr, htide]

/-! ### The access that an armed source waits for -/

/-- The location that a source strikes at: the one it is armed with, or was until a clear of this instant (R501). -/
def struckAt (s : State) (src : Nat) : Option Word :=
  (mget s.flt.armed src).orElse (fun _ => (s.flt.cleared.find? (fun e => e.1 == src && e.2.2 == s.tide.now)).map (·.2.1))

theorem struckAt_of {s : State} {src : Nat} {w : Word} (h : mget s.flt.armed src = some w
      ∨ (mget s.flt.armed src = none ∧ (s.flt.cleared.find? (fun e => e.1 == src && e.2.2 == s.tide.now)).map (·.2.1) = some w)) :
    struckAt s src = some w := by
  rcases h with h | ⟨h, hclear⟩
  · simp [struckAt, h]
  · rw [struckAt, h, hclear]
    rfl

section
variable {s : State} {src : Nat} {w : Word} (hl : regsLive s = true) (hw : struckAt s src = some w)
include hl hw

theorem doForced_unit (h : 4 ≤ src) (x : Struck) : doForced src x s =
    takeFault ⟨src, w, if src = 0x26 then fld w 19 7 else x.object, s.tide.now, true, x.site, true⟩
      (onFlt (fun f => { f with armed := mdel f.armed src, cleared := f.cleared.filter (fun e => e.1 != src) }) s) := by
  simp only [struckAt] at hw
  simp only [doForced, hw, hl, not_true_eq_false, if_false, if_neg (show ¬ src ≤ 0x03 by omega)]

theorem doForced_lane (h : src ≤ 3) (x : Struck) : doForced src x s =
    if laneState s (locUnit w) ≠ .run then s
    else onLane (locUnit w) (fun l => { l with
      injForce := some (src, w), injFlit := l.injFlit || src == 3,
      injSym := if src = 3 then l.injSym else some (false, if src = 1 then 1 else 16) })
      (onFlt (fun f => { f with cleared := f.cleared.filter (fun e => e.1 != src) }) s) := by
  simp only [struckAt] at hw
  simp only [doForced, hw, hl, not_true_eq_false, if_false, if_pos h]

end

/-- A flit that a forced source 3 spoiled has left: the source is disarmed and the lane forgets it (R501). -/
theorem noteForced_flitSent {s : State} {lane : Nat} {w : Word} (hf : (getLane s lane).injForce = some (3, w))
    (hsent : (getLane s lane).injFlit = false) :
    (noteForced lane s).flt.armed = mdel s.flt.armed 3 ∧ (getLane (noteForced lane s) lane).injForce = none := by
  have hnote : noteForced lane s = postDev 0x23 (bytesLE 1 3 ++ bytesLE 1 0 ++ bytesLE 4 w.toNat)
      (onLane lane (fun y => { y with injForce := none }) (onFlt (fun f => { f with armed := mdel f.armed 3 }) s)) := by
    simp [noteForced, hf, hsent]
  rw [hnote]
  refine ⟨by simp, ?_⟩
  rw [getLane, postDev_net, ← getLane, getLane_onLane_same]

/-! ### The obligations -/

theorem exec_forcedDetection (src : Nat) (x : Struck) (s : State) : exec (.forcedDetection src x) s = .next (doForced src x s) := rfl

/-- Settles O53: each clause by the rule of its register or access. -/
theorem detectionsAreForced : Obligations.DetectionsAreForced := by
  unfold Obligations.DetectionsAreForced
  refine ⟨fun s k b v hl hboot hb hv => ?_, fun s k v hl hboot => ?_, fun s src obj site w hl hw => ?_, fun s hl hboot hlast hat => ?_⟩
  · rw [exec_fltForceSet, byHost_live hl hboot, doForceSet_bit hb hv, armForce_eq]
  · show Host.Outcome.next (byHost _ s) = _
    rw [byHost_live hl hboot, doForceClr_eq]
  · have hat := struckAt_of hw
    refine ⟨fun h => ?_, fun h hrun => ?_, fun lane hf h3 hsent => ?_, fun h hrun => ?_⟩
    · rw [exec_forcedDetection, doForced_unit hl hat h]
    · refine ⟨_, rfl, ?_⟩
      rw [doForced_lane hl hat h, if_neg (not_not.2 hrun)]
      refine ⟨rfl, rfl, by simp, fun h3 => by simp [h3], fun h3 => by simp [h3]⟩
    · subst h3
      exact noteForced_flitSent hf hsent
    · rw [exec_forcedDetection, doForced_lane hl hat h, if_pos hrun]
  · show Host.Outcome.next (byHost _ s) = _
    rw [byHost_live hl hboot, doLastCliffClear, if_pos ⟨hlast, hat⟩]

/-- Settles O54: a source that lacks its enable is not armed, one that has both is, and POLICY sets them. -/
theorem forcingNeedsItsEnables : Obligations.ForcingNeedsItsEnables := by
  unfold Obligations.ForcingNeedsItsEnables
  refine ⟨fun s k v h => ?_, fun s v b h hlo hhi hv => ?_, fun s k b v hl hboot hinj hb hv hcliff hclass hunit hcond => ?_, fun b s t h => ?_⟩
  · have hnone : doForceSet k v s = s := forAll_idle _ fun src _ => armForce_disabled h src
    rw [exec_fltForceSet, byHost_idle hnone]
  · rw [exec_fltForceSet, byHost_idle]
    rw [doForceSet_bit (by omega) hv, armForce_cliffDisabled h (by omega)]
  · rw [exec_fltForceSet, byHost_live hl hboot, doForceSet_bit hb hv, armForce_eq, if_neg, if_neg (by simp [hcond])]
    · rfl
    · have hsome := Option.isSome_iff_ne_none.1 hclass
      have hcliff' : ¬ (0x30 ≤ 32 * k + b ∧ s.flt.cliffEn = false) := fun hh => by
        rcases hcliff with hlt | hen
        · omega
        · simp [hen] at hh
      simp [hsome, hinj, hunit, hcliff']
  · simp only [applyPolicy] at h
    split at h
    · cases h
    · cases h
      exact ⟨rfl, rfl⟩

end Sys2Proof.Machine
end

/-! ## Host memory and rings under writes, messages and entries (R408, R421, R424, R429, R430) -/

section
namespace Sys2Proof.Machine

/-! ### Host memory by function -/

section
variable (s : State)

theorem hostMem_of_mem {s t : State} (h : t.host.mem = s.host.mem) (fn : Nat) : hostMem t fn = hostMem s fn := by
  rw [hostMem, h, hostMem]

@[simp] theorem hostMem_hostWrite_same (fn a : Nat) (b : List Byte) :
    hostMem (hostWrite fn a b s) fn = memWriteN (hostMem s fn) a b := mgetD_mput_same _ _ _ _

theorem hostMem_hostWrite_ne {fn fn' : Nat} (h : fn ≠ fn') (a : Nat) (b : List Byte) :
    hostMem (hostWrite fn a b s) fn' = hostMem s fn' := mgetD_mput_ne _ _ _ _ _ h

@[simp] theorem getRing_hostWrite (fn a : Nat) (b : List Byte) (r : Nat) : getRing (hostWrite fn a b s) r = getRing s r := rfl

@[simp] theorem sendVector_hostBytes (f v : Nat) : (sendVector f v s).host.mem = s.host.mem := by
  unfold sendVector
  split
  · rfl
  · split <;> rfl

@[simp] theorem entriesWritten_hostBytes (r n : Nat) (b : Bool) : (entriesWritten r n b s).host.mem = s.host.mem := by
  unfold entriesWritten
  dsimp only
  split
  · exact sendVector_hostBytes _ _ _
  · rfl

end

/-- What was written reads back, by its length. -/
theorem memReadN_memWriteN_len {l : List Byte} {n : Nat} (h : l.length = n) (m : Memory) (a : Nat) :
    memReadN (memWriteN m a l) a n = l := by
  subst h
  exact memReadN_memWriteN m a l

/-! ### Rings under messages and entries -/

/-- A ring that a message of vector `v` of function `f` covers has every entry signalled (R429). -/
def signalled (f v now : Nat) (g : Ring) : Ring :=
  if 2 ≤ ringType g ∧ ringFunc g = f ∧ ringVector g = v then { g with unsignalled := 0, msgAt := some now } else g

theorem sendVector_unmasked {s : State} {f v : Nat} (hc : s.dev.state ≠ .cliff) (h : (f, v) ∈ s.host.unmasked) :
    sendVector f v s = onHost (fun x => { x with
      msi := x.msi ++ [(f, v)], rings := x.rings.map (fun e => (e.1, signalled f v s.tide.now e.2)) }) s := by
  have hmap : (fun e : Nat × Ring => if 2 ≤ ringType e.2 ∧ ringFunc e.2 = f ∧ ringVector e.2 = v then
      (e.1, { e.2 with unsignalled := 0, msgAt := some s.tide.now }) else e) = fun e => (e.1, signalled f v s.tide.now e.2) := by
    funext e
    unfold signalled
    split <;> rfl
  rw [sendVector, if_neg hc, if_pos h, hmap]

theorem sendVector_masked {s : State} {f v : Nat} (hc : s.dev.state ≠ .cliff) (h : (f, v) ∉ s.host.unmasked) :
    sendVector f v s = onHost (fun x => { x with pendingMsi := addNew x.pendingMsi (f, v) }) s := by
  rw [sendVector, if_neg hc, if_neg h]

theorem signalled_covers {f v : Nat} (now : Nat) {g : Ring} (ht : 2 ≤ ringType (signalled f v now g))
    (hf : ringFunc (signalled f v now g) = f) (hv : ringVector (signalled f v now g) = v) : (signalled f v now g).unsignalled = 0 := by
  unfold signalled at *
  split
  · rfl
  next h => rw [if_neg h] at ht hf hv; exact absurd ⟨ht, hf, hv⟩ h

theorem getRing_sendVector (f v : Nat) (s : State) (r : Nat) :
    ∃ n m, getRing (sendVector f v s) r = { getRing s r with unsignalled := n, msgAt := m } := by
  by_cases hc : s.dev.state = .cliff
  · exact ⟨_, _, by rw [sendVector, if_pos hc]⟩
  by_cases hm : (f, v) ∈ s.host.unmasked
  · rw [sendVector_unmasked hc hm]
    show ∃ n m, mgetD (s.host.rings.map _) r ({} : Ring) = _
    rw [mgetD, mget_map, getRing, mgetD]
    cases mget s.host.rings r with
    | none => exact ⟨_, _, (rfl : ({} : Ring) = { ({} : Ring) with unsignalled := 0, msgAt := none })⟩
    | some g =>
      show ∃ n m, signalled f v s.tide.now g = _
      unfold signalled
      split
      · exact ⟨_, _, rfl⟩
      · exact ⟨_, _, rfl⟩
  · exact ⟨_, _, by rw [sendVector_masked hc hm]; rfl⟩

/-- What `n` entries written to a ring now do to it. -/
def noteEntries (n now : Nat) (g : Ring) : Ring := { g with
  pi := (g.pi + n) % 2 ^ 32, oldest := if g.unsignalled = 0 then now else g.oldest,
  unsignalled := g.unsignalled + uncovered g now n }

/-- Entries are noted on their ring and counted, and a message may follow (R429). -/
theorem entriesWritten_cases (r n : Nat) (b : Bool) (s : State) :
    let u := countRaw (kRing r 2) n (onRing r (noteEntries n s.tide.now) s)
    entriesWritten r n b s = u ∨ ∃ f v, entriesWritten r n b s = sendVector f v u := by
  unfold entriesWritten
  dsimp only
  split
  · exact .inr ⟨_, _, rfl⟩
  · exact .inl rfl

theorem getRing_entriesWritten (r n : Nat) (b : Bool) (s : State) (q : Nat) : ∃ u m, getRing (entriesWritten r n b s) q =
    { getRing (onRing r (noteEntries n s.tide.now) s) q with unsignalled := u, msgAt := m } := by
  rcases entriesWritten_cases r n b s with h | ⟨f, v, h⟩
  · rw [h]
    exact ⟨_, _, rfl⟩
  · rw [h]
    exact getRing_sendVector f v _ q

/-- What notes of written entries leave of their ring: its index moves, and what is not signalled is counted. -/
theorem getRing_entriesWritten_same (r n : Nat) (b : Bool) (s : State) : ∃ o u m, getRing (entriesWritten r n b s) r =
    { getRing s r with pi := ((getRing s r).pi + n) % 2 ^ 32, oldest := o, unsignalled := u, msgAt := m } := by
  obtain ⟨u, m, h⟩ := getRing_entriesWritten r n b s r
  rw [getRing_onRing_same] at h
  exact ⟨_, u, m, h⟩

theorem getRing_entriesWritten_ne {r q : Nat} (h : r ≠ q) (n : Nat) (b : Bool) (s : State) : ∃ u m,
    getRing (entriesWritten r n b s) q = { getRing s q with unsignalled := u, msgAt := m } := by
  obtain ⟨u, m, hq⟩ := getRing_entriesWritten r n b s q
  rw [getRing_onRing_ne _ _ _ _ h] at hq
  exact ⟨u, m, hq⟩

end Sys2Proof.Machine
end

/-! ## Interrupts, and register writes of the host interface (R406, R407, R410, R415, R426, R429, R430) -/

section
namespace Sys2Proof.Machine

theorem addNew_nodup {α : Type} [DecidableEq α] {l : List α} (h : l.Nodup) (x : α) : (addNew l x).Nodup := by
  unfold addNew
  split
  · exact h
  next hx => exact List.nodup_append.2 ⟨h, List.nodup_singleton x, by simpa using fun a ha (h : a = x) => hx (h ▸ ha)⟩

theorem mem_addNew_cases {α : Type} [DecidableEq α] {l : List α} {x y : α} (h : y ∈ addNew l x) : y = x ∨ y ∈ l := by
  unfold addNew at h
  split at h
  · exact .inr h
  · simpa [or_comm] using h

theorem not_cliff_of_live {s : State} (h : regsLive s = true) : s.dev.state ≠ .cliff := by
  rintro hc
  simp [regsLive, hc] at h

/-- A message sent: one more, host memory as it was, and every ring it covers signalled (R429). -/
theorem sendVector_covers {s : State} {f v : Nat} (hc : s.dev.state ≠ .cliff) (h : (f, v) ∈ s.host.unmasked) :
    ∀ e ∈ (sendVector f v s).host.rings, 2 ≤ ringType e.2 → ringFunc e.2 = f → ringVector e.2 = v → e.2.unsignalled = 0 := by
  rw [sendVector_unmasked hc h]
  intro e he
  obtain ⟨e', -, rfl⟩ := List.mem_map.1 he
  exact fun ht hf hv => signalled_covers _ ht hf hv

theorem sendVector_msi {s : State} {f v : Nat} (hc : s.dev.state ≠ .cliff) (h : (f, v) ∈ s.host.unmasked) :
    (sendVector f v s).host.msi = s.host.msi ++ [(f, v)] := by rw [sendVector_unmasked hc h]; rfl

/-- A message leaves everything but the host interface. -/
theorem sendVector_host {s : State} (f v : Nat) (hc : s.dev.state ≠ .cliff) : sendVector f v s = { s with host := (sendVector f v s).host } := by
  by_cases h : (f, v) ∈ s.host.unmasked
  · rw [sendVector_unmasked hc h]; rfl
  · rw [sendVector_masked hc h]; rfl

/-! ### Unmasking (R430) -/

/-- The vector unmasked, its pending bit cleared. -/
def unmaskedNow (f v : Nat) (s : State) : State :=
  onHost (fun h => { h with unmasked := addNew h.unmasked (f, v), pendingMsi := h.pendingMsi.filter (· != (f, v)) }) s

theorem mem_unmaskedNow (f v : Nat) (s : State) : (f, v) ∈ (unmaskedNow f v s).host.unmasked := mem_addNew _ _

theorem not_mem_pending_unmaskedNow (f v : Nat) (s : State) : (f, v) ∉ (unmaskedNow f v s).host.pendingMsi := by
  simp [unmaskedNow]

theorem doMsixUnmask_eq {s : State} {f v : Nat} (hl : regsLive s = true) (hv : v < vectorsOf f) :
    doMsixUnmask f v s = if (f, v) ∈ s.host.pendingMsi then sendVector f v (unmaskedNow f v s) else unmaskedNow f v s := by
  simp only [doMsixUnmask, hl, not_true_eq_false, false_or, if_neg (Nat.not_le.2 hv), onlyIf, decide_eq_true_eq]
  rfl

/-- What an unmasking sends: one message where the pending bit was set, none where it was not. -/
theorem exec_msixUnmask {s : State} {f v : Nat} (hl : regsLive s = true) (hv : v < vectorsOf f) :
    ∃ t, exec (.msixUnmask f v) s = .next t ∧ (f, v) ∈ t.host.unmasked ∧ (f, v) ∉ t.host.pendingMsi
      ∧ t.host.msi = s.host.msi ++ (if (f, v) ∈ s.host.pendingMsi then [(f, v)] else [])
      ∧ t = { s with host := t.host } ∧ t.host.mem = s.host.mem
      ∧ ((f, v) ∈ s.host.pendingMsi →
          ∀ e ∈ t.host.rings, 2 ≤ ringType e.2 → ringFunc e.2 = f → ringVector e.2 = v → e.2.unsignalled = 0) := by
  have hc : (unmaskedNow f v s).dev.state ≠ .cliff := not_cliff_of_live hl
  have hin := mem_unmaskedNow f v s
  have hout := not_mem_pending_unmaskedNow f v s
  refine ⟨_, congrArg Host.Outcome.next (doMsixUnmask_eq hl hv), ?_⟩
  split
  · refine ⟨?_, ?_, sendVector_msi hc hin, ?_, sendVector_hostBytes _ _ _, fun _ => sendVector_covers hc hin⟩
    · rw [sendVector_unmasked hc hin]; exact hin
    · rw [sendVector_unmasked hc hin]; exact hout
    · rw [sendVector_host f v hc]; rfl
  next hp => exact ⟨hin, hout, (List.append_nil _).symm, rfl, rfl, fun h => absurd h hp⟩

/-! ### Moderation (R429) -/

theorem exec_interruptModeration {s : State} {r : Nat} (hl : regsLive s = true) (ht : 2 ≤ ringType (getRing s r))
    (hu : 0 < (getRing s r).unsignalled)
    (hd : (getRing s r).oldest + (getFunc s (ringFunc (getRing s r))).latMod ≤ s.tide.now) :
    exec (.interruptModeration r) s = .next (sendVector (ringFunc (getRing s r)) (ringVector (getRing s r)) s) := by
  show Host.Outcome.next (whenLive (doInterruptModeration r) s) = _
  rw [whenLive, if_pos hl, doInterruptModeration, if_pos ⟨ht, hu, hd⟩]

/-! ### Register writes -/

theorem writeMsix_word {s : State} {fn n off : Nat} (v : Word) (hl : regsLive s = true) (hn : n < vectorsOf fn)
    (ho : off = 0 ∨ off = 4 ∨ off = 8) : writeMsix fn (16 * n + off) v s = onHost (fun h => { h with
      msixWords := h.msixWords.filter (fun e => e.1 != 65536 * fn + (16 * n + off)) ++ [(65536 * fn + (16 * n + off), v)] }) s := by
  have hword : (16 * n + off) % 4 = 0 := by omega
  have hvector : (16 * n + off) / 16 = n := by omega
  have hmask : (16 * n + off) % 16 ≠ 12 := by omega
  simp only [writeMsix, hword, hvector, hl, ne_eq, not_true_eq_false, if_false, false_or, if_neg (Nat.not_le.2 hn), if_pos hmask]

theorem doBarBadAccess_eq {s : State} (hc : s.dev.state ≠ .cliff) (write : Bool) : doBarBadAccess write s =
    count kHOST_BADACC (if write then s else onDev (fun d => { d with badAccess := 0xFFFFFFFF }) s) := by
  rw [doBarBadAccess, if_neg hc]
  cases write <;> rfl

/-! ### The obligations -/

/-- Settles O8: a masked vector's message adds at most its own pending bit; an unmasking sends the one that pends. -/
theorem maskedVectorHoldsOneMessage : Obligations.MaskedVectorHoldsOneMessage := by
  unfold Obligations.MaskedVectorHoldsOneMessage
  refine ⟨fun s f v hc hm => ?_, fun s f v hl hv hp => ?_⟩
  · dsimp only
    rw [sendVector_masked hc hm]
    exact ⟨rfl, mem_addNew _ _, rfl, fun x hx => mem_addNew_cases hx, fun h => addNew_nodup h _⟩
  · obtain ⟨t, hexec, hin, hout, hmsi, -, -, hcovers⟩ := exec_msixUnmask hl hv
    rw [if_pos hp] at hmsi
    exact ⟨t, hexec, hmsi, hout, hin, hcovers hp⟩

/-- Settles O7: interrupts by the rule of a message, register writes by the rule of each register. -/
theorem interruptsAndHostRegisters : Obligations.InterruptsAndHostRegisters := by
  unfold Obligations.InterruptsAndHostRegisters
  refine ⟨⟨fun s r hl ht hu hd => ⟨_, exec_interruptModeration hl ht hu hd, ?_⟩, fun s fn v hl hv => ?_⟩,
    fun s fn v hc => ?_, fun s v hs hlo hhi => ?_, fun s fn n off v hl hn ho => ?_, fun s write hc => ?_⟩
  · have hc := not_cliff_of_live hl
    dsimp only
    split
    next hm =>
      exact ⟨sendVector_msi hc hm, sendVector_host _ _ hc, sendVector_hostBytes _ _ _,
        fun e he h => sendVector_covers hc hm e he h.1 h.2.1 h.2.2⟩
    next hm => exact sendVector_masked hc hm
  · obtain ⟨t, hexec, hin, hout, hmsi, hframe, hmem, -⟩ := exec_msixUnmask hl hv
    exact ⟨t, hexec, hin, hout, hmsi, hframe, hmem⟩
  · show Host.Outcome.next (doLatTolWrite fn fn v s) = _
    rw [doLatTolWrite, if_neg (by simp [hc])]
  · have hlive : regsLive s = true ∧ s.dev.state ≠ .boot := by
      simp only [List.mem_cons, List.not_mem_nil, or_false, not_or] at hs
      simp [regsLive, hs]
    show Host.Outcome.next (byHost (doDbwBudgetWrite v) s) = _
    rw [byHost_live hlive.1 hlive.2, doDbwBudgetWrite, if_neg (by omega)]
  · show Host.Outcome.next (doRegisterWrite fn 2 (16 * n + off) v s) = _
    rw [doRegisterWrite, if_pos rfl, writeMsix_word v hl hn ho]
  · show Host.Outcome.next (doBarBadAccess write s) = _
    rw [doBarBadAccess_eq hc]

end Sys2Proof.Machine
end

/-! ## Completions and events in host memory (R408, R421, R422, R431 to R433, R438) -/

section
namespace Sys2Proof.Machine

/-! ### A completion (R421, R422) -/

/-- The descriptor is accepted no longer, and the entry reserved for it is free (R422). -/
def freed (d : Desc) (s : State) : State :=
  onRing (ringLink (getRing s d.ring)) (fun g => { g with out := g.out - 1 })
    (onRing d.ring (fun g => { g with out := g.out - 1 })
      (onHost (fun h => { h with accepted := h.accepted.filter (fun e => !(e.ring == d.ring && e.idx == d.idx)) }) s))

/-- The same, an abort counted (R436). -/
def released (d : Desc) (status : Nat) (s : State) : State :=
  onlyIf (status == stABORTED) (countRaw (kRing d.ring 1) 1) (freed d s)

theorem released_host (d : Desc) (status : Nat) (s : State) : (released d status s).host = (freed d s).host :=
  onlyIf_same (g := State.host) _ _ rfl

theorem released_tide (d : Desc) (status : Nat) (s : State) : (released d status s).tide = s.tide :=
  onlyIf_same (g := State.tide) _ _ rfl

theorem getRing_of_host {s t : State} (h : t.host = s.host) (r : Nat) : getRing t r = getRing s r := by rw [getRing, h, getRing]

section
variable {s : State} {d : Desc} (hne : d.ring ≠ ringLink (getRing s d.ring)) (status : Nat)
include hne

theorem getRing_released_link : getRing (released d status s) (ringLink (getRing s d.ring)) =
    { getRing s (ringLink (getRing s d.ring)) with out := (getRing s (ringLink (getRing s d.ring))).out - 1 } := by
  rw [getRing_of_host (released_host d status s), freed, getRing_onRing_same, getRing_onRing_ne _ _ _ _ hne]
  rfl

theorem getRing_released_own : getRing (released d status s) d.ring =
    { getRing s d.ring with out := (getRing s d.ring).out - 1 } := by
  rw [getRing_of_host (released_host d status s), freed, getRing_onRing_ne _ _ _ _ (Ne.symm hne), getRing_onRing_same]
  rfl

end

/-- The completion entry of a descriptor in a completion ring as it stands (R421). -/
def cplEntryIn (g : Ring) (now : Nat) (d : Desc) (status result : Nat) (com rec : Bool) : BitVec 256 :=
  cplEntry (phaseOf g g.pi) (b2n com) (b2n rec) d.opcode now result status d.ring d.idx d.user

/-- The entry written at the ring's next place. -/
def writeCpl (g : Ring) (d : Desc) (status result : Nat) (com rec : Bool) (s : State) : State :=
  hostWrite (ringFunc g) (entryAddr g g.pi) (bytesLE 32 (cplEntryIn g s.tide.now d status result com rec).toNat) s

/-- The place and the entry depend on what the ring is and on its index alone. -/
theorem writeCpl_out (g : Ring) (n : Nat) (d : Desc) (status result : Nat) (com rec : Bool) :
    writeCpl { g with out := n } d status result com rec = writeCpl g d status result com rec := rfl

/-- A completion that may be written now: its entry goes to the ring's next place, and is noted (R421, R422). -/
theorem complete_written {s : State} {d : Desc} (hc : s.dev.state ≠ .cliff) (hide : ideOk s d.func = true)
    (hflr : (getFunc s d.func).flr = false) (hne : d.ring ≠ ringLink (getRing s d.ring)) (status result : Nat) (com rec : Bool) :
    complete d status result com rec s = entriesWritten (ringLink (getRing s d.ring)) 1 false
      (writeCpl (getRing s (ringLink (getRing s d.ring))) d status result com rec (released d status s)) := by
  have hide' (f : HostIf → HostIf) (h : (f s.host).ideActive = s.host.ideActive) : ideOk (onHost f s) d.func = true := by
    rw [← hide]
    simp only [ideOk, onHost_sec, onHost_dev, onHost_host, h, linkOfFn]
    rfl
  have hrun : (getFunc (released d status s) d.func).flr = false := by
    rw [getFunc, released_host]
    exact hflr
  have hring := getRing_released_link hne status
  simp only [complete, if_neg hc]
  rw [if_neg (fun h => h.1 (hide' _ rfl))]
  show (if (getFunc (released d status s) d.func).flr = true then _ else
    entriesWritten _ 1 false (writeCpl (getRing (released d status s) _) d status result com rec (released d status s))) = _
  rw [if_neg (by simp [hrun]), hring, writeCpl_out]

/-- Settles O3: a completion writes its entry and notes it, and neither touches another byte. -/
theorem completionIsWrittenOnce : Obligations.CompletionIsWrittenOnce := by
  unfold Obligations.CompletionIsWrittenOnce
  intro s d status result com rec hc hide hflr hne
  have hw := complete_written hc hide hflr hne status result com rec
  have hmem (fn : Nat) : hostMem (released d status s) fn = hostMem s fn := hostMem_of_mem (by rw [released_host]; rfl) fn
  have hlen (n : Nat) : (bytesLE 32 n).length = 32 := bytesLE_length 32 n
  dsimp only
  have hframe := hostOnly_complete s d status result com rec
  have hgone := complete_findDesc hc d status result com rec
  have hbytes (fn : Nat) := hostMem_of_mem ((congrArg (fun t : State => t.host.mem) hw).trans (entriesWritten_hostBytes _ _ _ _)) fn
  have hsame := (hbytes (ringFunc (getRing s (ringLink (getRing s d.ring))))).trans (hostMem_hostWrite_same _ _ _ _)
  rw [hmem, released_tide, cplEntryIn] at hsame
  refine ⟨?_, fun a ha => ?_, fun fn hfn => ?_, hgone, ?_, ?_, hframe⟩
  · rw [hsame]
    exact memReadN_memWriteN_len (hlen _) _ _
  · rw [hsame]
    exact memRead_memWriteN_outside _ _ _ _ (by rw [hlen]; exact ha)
  · exact (hbytes fn).trans ((hostMem_hostWrite_ne _ (Ne.symm hfn) _ _).trans (hmem fn))
  · rw [hw]
    obtain ⟨o, u, m, h⟩ := getRing_entriesWritten_same (ringLink (getRing s d.ring)) 1 false
      (writeCpl (getRing s (ringLink (getRing s d.ring))) d status result com rec (released d status s))
    rw [h, writeCpl, getRing_hostWrite, getRing_released_link hne]
  · rw [hw]
    obtain ⟨u, m, h⟩ := getRing_entriesWritten_ne (Ne.symm hne) 1 false
      (writeCpl (getRing s (ringLink (getRing s d.ring))) d status result com rec (released d status s))
    rw [h, writeCpl, getRing_hostWrite, getRing_released_own hne]

end Sys2Proof.Machine
end

/-! ### Events (R431 to R433, R438) -/

section
namespace Sys2Proof.Machine

/-- Entries written to a ring one after another, each at its own place from index `pi` up. -/
def writeEntries (g : Ring) (l : List (Nat × List Byte)) : State → State :=
  forAll l (fun e => hostWrite (ringFunc g) (entryAddr g (g.pi + e.1)) (sliceB e.2 0 32))

@[simp] theorem getRing_writeEntries (g : Ring) (l : List (Nat × List Byte)) (s : State) (r : Nat) :
    getRing (writeEntries g l s) r = getRing s r :=
  forAll_same (g := fun u => getRing u r)
    (f := fun e : Nat × List Byte => hostWrite (ringFunc g) (entryAddr g (g.pi + e.1)) (sliceB e.2 0 32)) (fun _ _ => rfl) l s

/-- The 32 bytes of one place are apart from those of another. -/
def apart (g : Ring) (i j : Nat) : Prop :=
  entryAddr g (g.pi + i) + 32 ≤ entryAddr g (g.pi + j) ∨ entryAddr g (g.pi + j) + 32 ≤ entryAddr g (g.pi + i)

theorem apart_of_lt {g : Ring} {i j : Nat} (h : i ≠ j) (hi : i < ringSize g) (hj : j < ringSize g) : apart g i j := by
  have hslot : (g.pi + i) % ringSize g ≠ (g.pi + j) % ringSize g := fun hmod => h (by
    have hij : i ≡ j [MOD ringSize g] := Nat.ModEq.add_left_cancel' g.pi hmod
    exact Nat.ModEq.eq_of_lt_of_lt hij hi hj)
  unfold apart entryAddr
  omega

theorem memRead_writeEntries_outside (g : Ring) (a : Nat) : ∀ (l : List (Nat × List Byte)) (s : State),
    (∀ e ∈ l, a < entryAddr g (g.pi + e.1) ∨ entryAddr g (g.pi + e.1) + 32 ≤ a) →
    memRead (hostMem (writeEntries g l s) (ringFunc g)) a = memRead (hostMem s (ringFunc g)) a
  | [], _, _ => rfl
  | e :: r, s, h => by
    refine (memRead_writeEntries_outside g a r _ fun e' he' => h e' (List.mem_cons_of_mem e he')).trans ?_
    rw [hostMem_hostWrite_same]
    exact memRead_memWriteN_outside _ _ _ _ (by rw [sliceB_length]; exact h e List.mem_cons_self)

theorem memReadN_congr {m m' : Memory} {a n : Nat} (h : ∀ i, i < n → memRead m (a + i) = memRead m' (a + i)) :
    memReadN m a n = memReadN m' a n := List.map_congr_left fun i hi => h i (List.mem_range.1 hi)

/-- Each entry stands at its place, as long as no two share one. -/
theorem memReadN_writeEntries (g : Ring) : ∀ (l : List (Nat × List Byte)) (s : State),
    l.Pairwise (fun x y => apart g x.1 y.1) → ∀ e ∈ l,
    memReadN (hostMem (writeEntries g l s) (ringFunc g)) (entryAddr g (g.pi + e.1)) 32 = sliceB e.2 0 32
  | [], _, _, e, he => by cases he
  | x :: r, s, hp, e, he => by
    obtain ⟨hx, hr⟩ := List.pairwise_cons.1 hp
    rcases List.mem_cons.1 he with rfl | he
    · refine (memReadN_congr fun i hi => memRead_writeEntries_outside g _ r _ fun y hy => ?_).trans ?_
      · rcases hx y hy with h | h <;> omega
      · rw [hostMem_hostWrite_same]
        exact memReadN_memWriteN_len (sliceB_length _ _ _) _ _
    · exact memReadN_writeEntries g r _ hr e he

/-- The entries of an event: its header, then its detail entries, by their places (R431). -/
def eventEntries (g : Ring) (cls tide : Nat) (detail : List Byte) (more : List (List Byte)) : List (Nat × List Byte) :=
  (List.range (1 + more.length)).zip (eventHeader cls more.length (b2n g.lost) g.events tide detail (phaseOf g g.pi) :: more)

theorem eventHeader_length (cls nent lost seq tide : Nat) (detail : List Byte) (phase : Nat) :
    (eventHeader cls nent lost seq tide detail phase).length = 32 := by
  simp [eventHeader, bytesLE_length]

section
variable (g : Ring) (cls tide : Nat) (detail : List Byte) (more : List (List Byte))

theorem eventEntries_getElem {k : Nat} (h : k < 1 + more.length) :
    (eventEntries g cls tide detail more)[k]? = some (k,
      (eventHeader cls more.length (b2n g.lost) g.events tide detail (phaseOf g g.pi) :: more)[k]'(by simp; omega)) := by
  have hlen : k < (eventEntries g cls tide detail more).length := by simp [eventEntries]; omega
  rw [List.getElem?_eq_getElem hlen]
  simp [eventEntries]

theorem eventEntries_header : (0, eventHeader cls more.length (b2n g.lost) g.events tide detail (phaseOf g g.pi))
    ∈ eventEntries g cls tide detail more :=
  List.mem_of_getElem? (eventEntries_getElem g cls tide detail more (k := 0) (by omega))

theorem eventEntries_detail {k : Nat} (h : k < more.length) : (1 + k, nth more k []) ∈ eventEntries g cls tide detail more := by
  have hget := eventEntries_getElem g cls tide detail more (k := k + 1) (by omega)
  rw [List.getElem_cons_succ] at hget
  rw [nth, List.getElem?_eq_getElem h, Nat.add_comm]
  exact List.mem_of_getElem? hget

theorem eventEntries_fst {e : Nat × List Byte} (h : e ∈ eventEntries g cls tide detail more) : e.1 < 1 + more.length := by
  obtain ⟨i, b⟩ := e
  exact List.mem_range.1 (List.of_mem_zip h).1

theorem eventEntries_pairwise (hn : 1 + more.length ≤ ringSize g) :
    (eventEntries g cls tide detail more).Pairwise (fun x y => apart g x.1 y.1) := by
  have hfst : (eventEntries g cls tide detail more).map (·.1) = List.range (1 + more.length) := by
    rw [eventEntries]
    exact List.map_fst_zip (by simp; omega)
  have hnodup : ((eventEntries g cls tide detail more).map (·.1)).Nodup := by rw [hfst]; exact List.nodup_range
  refine List.Pairwise.imp_of_mem (fun {x y} hx hy hne => ?_) (List.pairwise_map.1 hnodup)
  have hxlt := eventEntries_fst g cls tide detail more hx
  have hylt := eventEntries_fst g cls tide detail more hy
  exact apart_of_lt hne (by omega) (by omega)

end

theorem writeEvent_eq (r cls : Nat) (detail : List Byte) (more : List (List Byte)) (s : State) :
    writeEvent r cls detail more s =
      entriesWritten r (1 + more.length) ((getRing s r).lost || decide (cls / 16 = 2))
        (onRing r (fun g => { g with events := (g.events + 1) % 2 ^ 32, lost := false })
          (writeEntries (getRing s r) (eventEntries (getRing s r) cls s.tide.now detail more) s)) := rfl

theorem hostMem_writeEvent (r cls : Nat) (detail : List Byte) (more : List (List Byte)) (s : State) (fn : Nat) :
    hostMem (writeEvent r cls detail more s) fn =
      hostMem (writeEntries (getRing s r) (eventEntries (getRing s r) cls s.tide.now detail more) s) fn := by
  rw [writeEvent_eq]
  exact hostMem_of_mem (entriesWritten_hostBytes _ _ _ _) fn

/-- What an event does to its ring: the index moves by its entries, one more event counts, and the LOST mark is taken (R431,
R433). -/
theorem getRing_writeEvent (r cls : Nat) (detail : List Byte) (more : List (List Byte)) (s : State) :
    let t := writeEvent r cls detail more s
    (getRing t r).pi = ((getRing s r).pi + (1 + more.length)) % 2 ^ 32
      ∧ (getRing t r).events = ((getRing s r).events + 1) % 2 ^ 32 ∧ (getRing t r).lost = false := by
  dsimp only
  rw [writeEvent_eq]
  obtain ⟨o, u, m, h⟩ := getRing_entriesWritten_same r (1 + more.length) ((getRing s r).lost || decide (cls / 16 = 2))
    (onRing r (fun g => { g with events := (g.events + 1) % 2 ^ 32, lost := false })
      (writeEntries (getRing s r) (eventEntries (getRing s r) cls s.tide.now detail more) s))
  rw [h, getRing_onRing_same, getRing_writeEntries]
  exact ⟨rfl, rfl, rfl⟩

/-! ### The choice of what becomes of an event (R433, R438) -/

section
variable {s : State} {r fn : Nat} (cls : Nat) (detail : List Byte) (more : List (List Byte)) (hc : s.dev.state ≠ .cliff)
include hc

theorem postTo_unmapped (h : ¬ ((getRing s r).state = .active ∧ ringType (getRing s r) = 3 ∧ ringFunc (getRing s r) = fn)) :
    postTo (some r) fn cls detail more s = countRaw kEVT_UNMAPPED 1 s := by
  rw [postTo, if_neg hc]
  exact if_pos h

variable (h : (getRing s r).state = .active ∧ ringType (getRing s r) = 3 ∧ ringFunc (getRing s r) = fn)
include h

theorem postTo_flr (hf : (getFunc s fn).flr = true) : postTo (some r) fn cls detail more s = countRaw kHOST_CPL_DROP 1 s := by
  rw [postTo, if_neg hc]
  exact (if_neg (not_not.2 h)).trans (if_pos hf)

theorem postTo_full (hf : (getFunc s fn).flr = false)
    (hfull : ringSize (getRing s r) < ahead (getRing s r).ci (getRing s r).pi + (1 + more.length)) :
    postTo (some r) fn cls detail more s = countRaw kEVT_DROP 1 (onRing r (fun g => { g with lost := true }) s) := by
  rw [postTo, if_neg hc]
  exact (if_neg (not_not.2 h)).trans ((if_neg (by simp [hf])).trans (if_pos (.inr (by rw [Nat.add_assoc]; exact hfull))))

theorem postTo_fits (hf : (getFunc s fn).flr = false) (hide : ideOk s fn = true)
    (hroom : ahead (getRing s r).ci (getRing s r).pi + (1 + more.length) ≤ ringSize (getRing s r)) :
    postTo (some r) fn cls detail more s = writeEvent r cls detail more s := by
  rw [postTo, if_neg hc]
  refine (if_neg (not_not.2 h)).trans ((if_neg (by simp [hf])).trans (if_neg ?_))
  rintro (hh | hh)
  · exact hh hide
  · omega

end

/-- Settles O4: the four ways of an event, and of the one that is written its entries, each at its own place. -/
theorem eventsAreWrittenOnce : Obligations.EventsAreWrittenOnce := by
  unfold Obligations.EventsAreWrittenOnce
  intro s r fn cls detail more hc
  dsimp only
  refine ⟨fun ⟨hactive, htype, hfn, hflr, hide, hroom⟩ => ?_, fun h hflr _ hfull => postTo_full cls detail more hc h hflr hfull,
    postTo_unmapped cls detail more hc, fun h hflr => postTo_flr cls detail more hc h hflr, ?_⟩
  · rw [postTo_fits cls detail more hc ⟨hactive, htype, hfn⟩ hflr hide hroom]
    have hpairs := eventEntries_pairwise (getRing s r) cls s.tide.now detail more (by omega)
    obtain ⟨hpi, hevents, hlost⟩ := getRing_writeEvent r cls detail more s
    refine ⟨?_, fun k hk => ?_, fun a ha => ?_, hpi, hevents, hlost, writeEvent_accepted _ _ _ _ _, hostOnly_writeEvent _ _ _ _ _⟩
    · rw [hostMem_writeEvent]
      exact (memReadN_writeEntries _ _ s hpairs _ (eventEntries_header _ _ _ _ _)).trans
        (sliceB_whole _ _ (eventHeader_length _ _ _ _ _ _ _))
    · rw [hostMem_writeEvent, Nat.add_assoc]
      exact memReadN_writeEntries _ _ s hpairs _ (eventEntries_detail _ _ _ _ _ hk)
    · rw [hostMem_writeEvent]
      exact memRead_writeEntries_outside _ a _ s fun e he => ha e.1 (eventEntries_fst _ _ _ _ _ he)
  · simp only [postTo, if_neg hc]

end Sys2Proof.Machine
end

/-! ## Descriptors accepted, and doorbells read (R417, R419, R422, R424, R425, R427, R464) -/

section
namespace Sys2Proof.Machine

theorem exec_nop (r i : Nat) (s : State) : exec (.nop r i) s = .next (runDesc 0x00 workNop r i [] s) := rfl

/-- In STOPPED a descriptor whose opcode R464 does not list is taken to complete HELD. -/
theorem runDesc_stopped {s : State} {r i opcode : Nat} {d : Desc} (hd : findDesc s r i = some d) (ho : d.opcode = opcode)
    (hw : d.stage = .waiting) (ht : turnOf s d = true) (hide : ideOk s d.func = true) (hs : s.dev.state = .stopped)
    (hop : stoppedOpcode opcode = false) (w : Work) (data : List Byte) : runDesc opcode w r i data s = answer d 0x0B 0 s := by
  unfold runDesc
  rw [hd]
  dsimp only
  rw [if_pos ⟨ho, hw, ht, by simp [hs], hide⟩, if_pos ⟨hs, by simp [hop]⟩]
  rfl

/-! ### Descriptors that arrive (R419, R422) -/

/-- A read from before its ring left ACTIVE brings a descriptor: the entry reserved for it is free again. -/
theorem doDescriptorArrival_stale {s : State} {r c : Nat} {l : List (Nat × Option Nat)} (hc : s.dev.state ≠ .cliff)
    (h : (getRing s r).stale = (1, some c) :: l) (desc : BitVec 512) : doDescriptorArrival r true desc s =
      onRing c (fun g => { g with out := g.out - 1 }) (onRing r (fun g => { g with stale := l }) s) := by
  simp only [doDescriptorArrival, if_neg hc, h]
  rfl

theorem doDescriptorArrival_accepts {s : State} {r : Nat} (hc : s.dev.state ≠ .cliff) (hactive : (getRing s r).state = .active)
    (ht : ringType (getRing s r) = 1) (hstale : (getRing s r).stale = []) (hreads : (getRing s r).reads ≠ []) (desc : BitVec 512) :
    doDescriptorArrival r true desc s = acceptDesc r desc s := by
  obtain ⟨n, l, h⟩ := List.exists_cons_of_ne_nil hreads
  simp only [doDescriptorArrival, if_neg hc, hstale, h, hactive, ht, ne_eq, not_true_eq_false, or_self, if_false, if_true]

/-- The first check of R419 that a descriptor fails. -/
theorem commonCheck_eq (s : State) (fn : Nat) (desc : BitVec 512) : commonCheck s fn desc =
    if isOpcode (fld desc 7 0) = false ∨ fld desc 63 9 ≠ 0 then some 0x09
    else if fn ≠ 0 ∧ restrictedOpcode (fld desc 7 0) = false then some 0x05
    else if stateAllows s.dev.state (fld desc 7 0) = false then some 0x0B
    else none := by
  simp only [commonCheck, Bool.not_eq_true]
  rfl

/-- A descriptor as its ring accepts it (R416, R419). -/
def descOf (r : Nat) (g : Ring) (now : Nat) (desc : BitVec 512) : Desc where
  ring := r
  idx := g.fetch
  func := ringFunc g
  opcode := fld desc 7 0
  fence := bitAt desc 8
  user := BitVec.ofNat 64 (fld desc 127 64)
  op := BitVec.ofNat 384 (fld desc 511 128)
  came := now

/-- The descriptor in order among those accepted, and counted. -/
def withDesc (r : Nat) (desc : BitVec 512) (s : State) : State :=
  countRaw (kRing r 0) 1 (onHost (fun h => { h with accepted := h.accepted ++ [descOf r (getRing s r) s.tide.now desc] })
    (onRing r (fun g => { g with reads := oneLess g.reads, fetch := (g.fetch + 1) % 2 ^ 32, out := g.out + 1 }) s))

/-- A descriptor is accepted, and ended at once by the first check that it fails, in the order BAD, DENIED, HELD (R419). -/
theorem acceptDesc_eq (r : Nat) (desc : BitVec 512) (s : State) :
    let d := descOf r (getRing s r) s.tide.now desc
    let t := withDesc r desc s
    acceptDesc r desc s =
      if isOpcode (fld desc 7 0) = false ∨ fld desc 63 9 ≠ 0 then answer d 0x09 0 t
      else if ringFunc (getRing s r) ≠ 0 ∧ restrictedOpcode (fld desc 7 0) = false then answer d 0x05 0 t
      else if stateAllows s.dev.state (fld desc 7 0) = false then answer d 0x0B 0 t
      else t := by
  have hcheck : commonCheck (withDesc r desc s) (ringFunc (getRing s r)) desc = commonCheck s (ringFunc (getRing s r)) desc := by
    rw [commonCheck_eq, commonCheck_eq, withDesc, countRaw_dev, onHost_dev, onRing_dev]
  show (match commonCheck (withDesc r desc s) (ringFunc (getRing s r)) desc with
    | some st => complete (descOf r (getRing s r) s.tide.now desc) st 0 false false (withDesc r desc s)
    | none => withDesc r desc s) = _
  rw [hcheck, commonCheck_eq]
  split_ifs <;> rfl

/-! ### Doorbell words (R424, R425, R427) -/

section
variable {s : State} {r line : Nat} {bytes : List Byte} (hrun : watcherRuns s.dev.state = true)
  (hline : s.host.rings.filter (fun e => e.2.state == .active && ringDoorbell e.2 / 64 == line / 64 && ideOk s (ringFunc e.2))
    = [(r, getRing s r)])
include hline

theorem active_of_line : (getRing s r).state = .active := by
  have hmem : (r, getRing s r) ∈ [(r, getRing s r)] := List.mem_singleton.2 rfl
  rw [← hline] at hmem
  have h := (List.mem_filter.1 hmem).2
  simp only [Bool.and_eq_true, beq_iff_eq] at h
  exact h.1.1

include hrun

theorem doDoorbellPoll_submission (ht : ringType (getRing s r) = 1) (ok : Bool) : doDoorbellPoll line ok bytes s =
    if ok then pollSubmission r (leAt bytes (ringDoorbell (getRing s r) % 64) 8) s else ringError r 2 s := by
  have hcons : ([(r, getRing s r)].filter (fun e => decide (2 ≤ ringType e.2))).map (·.1) = [] := by simp [ht]
  have hsubs : ([(r, getRing s r)].filter (fun e => ringType e.2 == 1)).map (·.1) = [r] := by simp [ht]
  unfold doDoorbellPoll
  rw [if_neg (not_not.2 hrun)]
  dsimp only
  rw [hline, hcons, hsubs]
  cases ok <;> exact if_pos (active_of_line hline)

theorem doDoorbellPoll_consumer (ht : 2 ≤ ringType (getRing s r)) :
    doDoorbellPoll line true bytes s = pollConsumer r (leAt bytes (ringDoorbell (getRing s r) % 64) 8) s := by
  have hcons : ([(r, getRing s r)].filter (fun e => decide (2 ≤ ringType e.2))).map (·.1) = [r] := by simp [ht]
  have hsubs : ([(r, getRing s r)].filter (fun e => ringType e.2 == 1)).map (·.1) = [] := by
    simp [show ringType (getRing s r) ≠ 1 by omega]
  unfold doDoorbellPoll
  rw [if_neg (not_not.2 hrun)]
  dsimp only
  rw [hline, hcons, hsubs]
  exact if_pos (active_of_line hline)

end

/-- Settles O5: NOP by its work, arrivals by the checks of R419, doorbell words by the kind of their ring. -/
theorem descriptorsAreAcceptedAndPolled : Obligations.DescriptorsAreAcceptedAndPolled := by
  unfold Obligations.DescriptorsAreAcceptedAndPolled
  refine ⟨fun s r i d hd => ?_, ⟨fun s r c desc l hc hl => congrArg _ (doDescriptorArrival_stale hc hl desc),
    fun s r i opcode w data d hd ho hw ht hide hs hop => runDesc_stopped hd ho hw ht hide hs hop w data,
    fun s r desc hc hactive ht hstale hreads => ?_⟩, fun s r line bytes g hrun hg hline => ?_⟩
  · rw [exec_nop, runDesc_ready hd]
    simp only [workNop, zeroBits, beq_iff_eq]
    split <;> rfl
  · show Host.Outcome.next (doDescriptorArrival r true desc s) = _
    rw [doDescriptorArrival_accepts hc hactive ht hstale hreads]
    exact congrArg _ (acceptDesc_eq r desc s)
  · subst hg
    refine ⟨fun ht => ⟨?_, ?_⟩, fun ht => ?_⟩
    · have h := doDoorbellPoll_submission (bytes := bytes) hrun hline ht true
      simp only [if_true, pollSubmission] at h
      exact congrArg Host.Outcome.next h
    · exact congrArg Host.Outcome.next (doDoorbellPoll_submission hrun hline ht false)
    · have h := doDoorbellPoll_consumer (bytes := bytes) hrun hline ht
      simp only [pollConsumer] at h
      exact congrArg Host.Outcome.next h

end Sys2Proof.Machine
end

/-! ## Rings and functions enabled, disabled, drained and reset (R414, R434 to R439) -/

section
namespace Sys2Proof.Machine

/-! ### The functions' registers under events and completions -/

section
variable (s : State)

@[simp] theorem sendVector_funcs (f v : Nat) : (sendVector f v s).host.funcs = s.host.funcs := by
  unfold sendVector
  split
  · rfl
  · split <;> rfl

@[simp] theorem entriesWritten_funcs (r n : Nat) (b : Bool) : (entriesWritten r n b s).host.funcs = s.host.funcs := by
  rcases entriesWritten_cases r n b s with h | ⟨f, v, h⟩
  · rw [h]; rfl
  · rw [h, sendVector_funcs]; rfl

@[simp] theorem writeEvent_funcs (r c : Nat) (d : List Byte) (m : List (List Byte)) : (writeEvent r c d m s).host.funcs = s.host.funcs := by
  rw [writeEvent_eq, entriesWritten_funcs]
  exact forAll_same (g := fun u : State => u.host.funcs)
    (f := fun e : Nat × List Byte => hostWrite (ringFunc (getRing s r)) (entryAddr (getRing s r) ((getRing s r).pi + e.1)) (sliceB e.2 0 32))
    (fun _ _ => rfl) _ s

@[simp] theorem postTo_funcs (o : Option Nat) (fn c : Nat) (d : List Byte) (m : List (List Byte)) :
    (postTo o fn c d m s).host.funcs = s.host.funcs := by
  unfold postTo
  split
  · rfl
  split
  · rfl
  dsimp only
  split
  · rfl
  split
  · rfl
  split
  · rfl
  · exact writeEvent_funcs _ _ _ _ _

@[simp] theorem complete_funcs (d : Desc) (st res : Nat) (com rec : Bool) : (complete d st res com rec s).host.funcs = s.host.funcs := by
  have habort (c : Bool) (u : State) : (onlyIf c (countRaw (kRing d.ring 1) 1) u).host.funcs = u.host.funcs :=
    onlyIf_same (g := fun u : State => u.host.funcs) _ _ rfl
  unfold complete
  dsimp only
  split
  · rfl
  split
  · rfl
  split
  · exact habort _ _
  · rw [entriesWritten_funcs]
    exact habort _ _

@[simp] theorem finishDesc_funcs (ri : Nat × Nat) (st res : Nat) : (finishDesc ri st res s).host.funcs = s.host.funcs := by
  unfold finishDesc
  split
  · exact complete_funcs _ _ _ _ _ _
  · rfl

@[simp] theorem abortDesc_funcs (d : Desc) : (abortDesc d s).host.funcs = s.host.funcs := by
  unfold abortDesc
  split
  · exact complete_funcs _ _ _ _ _ _
  · exact forAll_same (g := fun u : State => u.host.funcs) (fun b u => finishDesc_funcs u _ _ _) _ _
  · exact complete_funcs _ _ _ _ _ _
  · split
    · exact complete_funcs _ _ _ _ _ _
    · rfl
  · rfl
  · rfl

@[simp] theorem abortRing_funcs (r : Nat) : (abortRing r s).host.funcs = s.host.funcs := by
  refine forAll_same (g := fun u : State => u.host.funcs) (fun d u => ?_) _ s
  split
  · exact abortDesc_funcs _ _
  · rfl

end

/-! ### What a new SCALE leaves of a function (R428) -/

theorem mgetD_mput_own {α : Type} (m : Map α) (n k : Nat) (d : α) : mgetD (mput m n (mgetD m n d)) k d = mgetD m k d := by
  by_cases h : n = k
  · subst h
    exact mgetD_mput_same _ _ _ _
  · exact mgetD_mput_ne _ _ _ _ _ h

theorem mgetD_everyFunc (m : Map Func) (k : Nat) : mgetD (everyFunc m) k {} = mgetD m k {} := by
  unfold everyFunc
  generalize List.range 64 = l
  induction l generalizing m with
  | nil => rfl
  | cons n l ih => exact (ih _).trans (mgetD_mput_own m n k {})

/-- A function's LAT_POLL and LAT_MOD under a SCALE (R428). -/
def rederived (scale : Nat) (f : Func) : Func :=
  { f with latPoll := (derive f.latTol scale).1, latMod := (derive f.latTol scale).2 }

theorem relines_rings (s : State) : (relines s).host.rings = s.host.rings := rfl
theorem relines_funcs (s : State) : (relines s).host.funcs = s.host.funcs := rfl

/-- A new SCALE leaves the rings and gives each function its latencies anew; an event may follow (R426, R428). -/
theorem rescale_cases (s : State) : ∃ u, (rescale s = u ∨ ∃ d, rescale s = postDev 0x13 d u) ∧ u.host.rings = s.host.rings
    ∧ ∃ scale, u.host.funcs = (everyFunc s.host.funcs).map (fun e => (e.1, rederived scale e.2)) := by
  let φ (e : Nat × Func) : Nat × Func := (e.1, rederived (scaleOf (polledLines s) s.host.budget) e.2)
  have hrings (k : Nat) (g : Map Func → Map Func) :
      (relines (onHost (fun h => { h with scale := k, funcs := g h.funcs }) s)).host.rings = s.host.rings := relines_rings _
  have hfuncs (k : Nat) (g : Map Func → Map Func) :
      (relines (onHost (fun h => { h with scale := k, funcs := g h.funcs }) s)).host.funcs = g s.host.funcs := relines_funcs _
  refine ⟨_, ?_, hrings (scaleOf (polledLines s) s.host.budget) (fun m => (everyFunc m).map φ), scaleOf (polledLines s) s.host.budget,
    hfuncs _ (fun m => (everyFunc m).map φ)⟩
  unfold rescale
  dsimp only [onlyIf]
  split
  · exact .inr ⟨_, rfl⟩
  · exact .inl rfl

/-- A new SCALE changes a function's LAT_POLL and LAT_MOD alone. -/
theorem getFunc_rescale (s : State) (n : Nat) : ∃ a b, getFunc (rescale s) n = { getFunc s n with latPoll := a, latMod := b } := by
  obtain ⟨u, hu, -, scale, hfuncs⟩ := rescale_cases s
  have hsame : (rescale s).host.funcs = u.host.funcs := by
    rcases hu with h | ⟨d, h⟩
    · rw [h]
    · rw [h]; exact postTo_funcs _ _ _ _ _ _
  rw [getFunc, hsame, hfuncs, mgetD, mget_map, getFunc, ← mgetD_everyFunc, mgetD]
  cases mget (everyFunc s.host.funcs) n with
  | none => exact ⟨_, _, (rfl : ({} : Func) = { ({} : Func) with latPoll := 5000, latMod := 5000 })⟩
  | some f => exact ⟨_, _, rfl⟩

@[simp] theorem rescale_fnState (s : State) (n : Nat) : (getFunc (rescale s) n).state = (getFunc s n).state := by
  obtain ⟨a, b, h⟩ := getFunc_rescale s n
  rw [h]

@[simp] theorem rescale_flr (s : State) (n : Nat) : (getFunc (rescale s) n).flr = (getFunc s n).flr := by
  obtain ⟨a, b, h⟩ := getFunc_rescale s n
  rw [h]

/-- A submission ring that drains leaves the functions' states. -/
theorem ringDrain_fnState (r : Nat) (s : State) (n : Nat) : (getFunc (ringDrain r s) n).state = (getFunc s n).state := by
  have habort (u : State) : getFunc (abortRing r u) n = getFunc u n := by rw [getFunc, abortRing_funcs, getFunc]
  rw [ringDrain, rescale_fnState, habort]
  rfl

/-! ### The kinds of the rings (R411) -/

theorem mem_of_mget {α : Type} {k : Nat} {v : α} : ∀ {m : Map α}, mget m k = some v → (k, v) ∈ m
  | [], h => by cases h
  | (k', w) :: r, h => by
    unfold mget at h
    split at h
    next hk =>
      cases h
      rw [hk]
      exact List.mem_cons_self
    · exact List.mem_cons_of_mem _ (mem_of_mget h)

/-- Every ring listed has a RING_CFG of which `P` holds. -/
def cfgsHold (P : Word → Prop) (s : State) : Prop := ∀ e ∈ s.host.rings, P e.2.cfg

section
variable {P : Word → Prop}

theorem cfgsHold_sendVector (f v : Nat) {s : State} (h : cfgsHold P s) : cfgsHold P (sendVector f v s) := by
  have hcovered (now : Nat) (g : Ring) : (signalled f v now g).cfg = g.cfg := by
    unfold signalled
    split <;> rfl
  by_cases hc : s.dev.state = .cliff
  · rw [sendVector, if_pos hc]; exact h
  by_cases hm : (f, v) ∈ s.host.unmasked
  · rw [sendVector_unmasked hc hm]
    intro e he
    obtain ⟨e', he', rfl⟩ := List.mem_map.1 he
    rw [hcovered]
    exact h e' he'
  · rw [sendVector_masked hc hm]; exact h

theorem cfgsHold_writeEntries (g : Ring) (l : List (Nat × List Byte)) {s : State} (h : cfgsHold P s) :
    cfgsHold P (writeEntries g l s) :=
  forAll_keeps (P := cfgsHold P)
    (f := fun e : Nat × List Byte => hostWrite (ringFunc g) (entryAddr g (g.pi + e.1)) (sliceB e.2 0 32)) (fun _ _ hu => hu) l s h

variable (h0 : P 0)
include h0

theorem cfgsHold_onRing (r : Nat) {f : Ring → Ring} (hf : ∀ g, (f g).cfg = g.cfg) {s : State} (h : cfgsHold P s) :
    cfgsHold P (onRing r f s) := by
  intro e he
  rcases mem_mput he with rfl | he
  · rw [hf]
    show P (mgetD s.host.rings r {}).cfg
    rw [mgetD]
    cases hm : mget s.host.rings r with
    | none => exact h0
    | some g => exact h _ (mem_of_mget hm)
  · exact h e he

theorem cfgsHold_entriesWritten (r n : Nat) (b : Bool) {s : State} (h : cfgsHold P s) : cfgsHold P (entriesWritten r n b s) := by
  have hnoted := cfgsHold_onRing h0 r (f := noteEntries n s.tide.now) (fun _ => rfl) h
  rcases entriesWritten_cases r n b s with hh | ⟨f, v, hh⟩
  · rw [hh]; exact hnoted
  · rw [hh]; exact cfgsHold_sendVector f v hnoted

theorem cfgsHold_postTo (o : Option Nat) (fn c : Nat) (d : List Byte) (m : List (List Byte)) {s : State} (h : cfgsHold P s) :
    cfgsHold P (postTo o fn c d m s) := by
  unfold postTo
  split
  · exact h
  split
  · exact h
  dsimp only
  split
  · exact h
  split
  · exact h
  split
  · exact cfgsHold_onRing h0 _ (f := fun g => { g with lost := true }) (fun _ => rfl) h
  · rw [writeEvent_eq]
    exact cfgsHold_entriesWritten h0 _ _ _ (cfgsHold_onRing h0 _
      (f := fun g => { g with events := (g.events + 1) % 2 ^ 32, lost := false }) (fun _ => rfl) (cfgsHold_writeEntries _ _ h))

theorem cfgsHold_rescale {s : State} (h : cfgsHold P s) : cfgsHold P (rescale s) := by
  obtain ⟨u, hu, hrings, -⟩ := rescale_cases s
  have hkept : cfgsHold P u := by rw [cfgsHold, hrings]; exact h
  rcases hu with hh | ⟨d, hh⟩
  · rw [hh]; exact hkept
  · rw [hh]; exact cfgsHold_postTo h0 _ _ _ _ _ hkept

theorem cfgsHold_undoEnable (fn : Nat) {s : State} (h : cfgsHold P s) : cfgsHold P (undoEnable fn s) := by
  unfold undoEnable
  dsimp only
  split
  · refine cfgsHold_rescale h0 fun e he => ?_
    obtain ⟨e', he', rfl⟩ := List.mem_map.1 he
    split
    · exact h e' he'
    · exact h e' he'
  · exact h

end

/-- A RING_CFG that makes no ring of type `t` of function `fn`. -/
def otherRing (fn t : Nat) (c : Word) : Prop := ¬ (fld c 24 19 = fn ∧ fld c 31 30 = t)

theorem ringsOf_nil_iff (s : State) (fn t : Nat) : ringsOf s fn t = [] ↔ cfgsHold (otherRing fn t) s := by
  simp only [ringsOf, List.map_eq_nil_iff, List.filter_eq_nil_iff, Bool.and_eq_true, beq_iff_eq]
  rfl

/-! ### Enabling and disabling (R434, R435, R439) -/

theorem exec_ringEnable {s : State} {w r : Nat} (hs : s.dev.state ∉ [DevState.cliff, .boot, .reset]) (ho : ownsRing s w r = true) :
    exec (.ringEnable w r) s = .next (enableRing r s) := by
  simp only [List.mem_cons, List.not_mem_nil, or_false, not_or] at hs
  obtain ⟨hc, hb, hr⟩ := hs
  show Host.Outcome.next (doRingEnable w r s) = _
  rw [doRingEnable, if_neg (by simp [hc, ho]), if_neg (by simp [hb, hr])]

theorem exec_ringDisable {s : State} {w r : Nat} (hc : s.dev.state ≠ .cliff) (ho : ownsRing s w r = true)
    (h : (getRing s r).state = .active ∨ (getRing s r).state = .error) :
    exec (.ringDisable w r) s = .next (match ringType (getRing s r) with
      | 1 => ringDrain r (forAll (s.host.accepted.filter (fun d => d.ring == r && d.came == s.tide.now)) (fun _ => unaccept r) s)
      | 2 =>
        if boundBusy s r then onRing r (fun g => { g with cfgRej := true, cfgRejAt := some s.tide.now }) s
        else rescale (postDrained r (onRing r (fun g => { g with state := .disabled }) s))
      | _ => rescale (onRing r (fun g => { g with state := .disabled }) s)) := by
  show Host.Outcome.next (doRingDisable w r s) = _
  rw [doRingDisable, if_neg (by simp [hc, ho]), disableRing]
  exact congrArg _ (if_pos h)

theorem doRingDrained_done {s : State} {r : Nat} (hst : (getRing s r).state = .draining) (ho : (getRing s r).out = 0) :
    doRingDrained r s = rescale (postDrained r (onRing r (fun g => { g with state := .disabled }) s)) := by
  rw [doRingDrained]
  exact if_pos ⟨hst, ho⟩

/-! ### Functions (R437, R438) -/

/-- The function DRAINING, before its submission rings are drained. -/
def drainingFunc (fn : Nat) (at_ : Option Nat) (s : State) : State :=
  onFunc fn (fun f => { f with state := .draining, disabledAt := at_ }) s

theorem drainFunc_state (fn : Nat) (at_ : Option Nat) (s : State) : (getFunc (drainFunc fn at_ s) fn).state = .draining := by
  unfold drainFunc
  refine forAll_keeps (P := fun u => (getFunc u fn).state = .draining) (fun r u hu => ?_) _ _ ?_
  · dsimp only
    split
    · rw [ringDrain_fnState]; exact hu
    · exact hu
  · rw [getFunc_onFunc_same]

theorem drainFunc_alone {fn : Nat} {s : State} (h : ringsOf s fn 1 = []) (now : Nat) :
    drainFunc fn (some now) s = drainingFunc fn (some now) (undoEnable fn s) := by
  have h0 : otherRing fn 1 0 := by
    rintro ⟨-, ht⟩
    exact absurd ht (by decide)
  have hnone : ringsOf (drainingFunc fn (some now) (undoEnable fn s)) fn 1 = [] :=
    (ringsOf_nil_iff _ _ _).2 (cfgsHold_undoEnable h0 fn ((ringsOf_nil_iff _ _ _).1 h))
  show forAll (ringsOf (drainingFunc fn (some now) (undoEnable fn s)) fn 1) _ _ = _
  rw [hnone]
  rfl

theorem getFunc_flrReset (fn : Nat) (s : State) :
    getFunc (flrReset fn s) fn = { coveHi := (getFunc s fn).coveHi, coveLo := (getFunc s fn).coveLo } :=
  getFunc_onFunc_same s fn (fun f => { coveHi := f.coveHi, coveLo := f.coveLo })

/-- A function whose submission rings are DISABLED is DISABLED, or anew as reset where a function level reset ends (R437, R438). -/
theorem doFuncDrained_done {s : State} {fn : Nat} (hst : (getFunc s fn).state = .draining)
    (hrings : (ringsOf s fn 1).all (fun r => (getRing s r).state == .disabled) = true) :
    (getFunc (doFuncDrained fn s) fn).flr = false
      ∧ (getFunc (doFuncDrained fn s) fn).state = (if (getFunc s fn).flrRegs = true then .enabled else .disabled) := by
  rw [doFuncDrained, if_pos ⟨hst, hrings⟩]
  dsimp only
  rw [rescale_flr, rescale_fnState]
  cases (getFunc s fn).flrRegs with
  | true =>
    rw [onlyIf_true, getFunc_flrReset]
    exact ⟨rfl, rfl⟩
  | false =>
    rw [onlyIf_false, getFunc_onFunc_same]
    exact ⟨rfl, rfl⟩

theorem doFlr_disabled {s : State} {fn : Nat} (hl : regsLive s = true) (hpf : isPf s fn = false)
    (hst : (getFunc s fn).state = .disabled) {kind : Nat} (hk : kind ≠ 2) :
    doFlr fn kind s = rescale (onlyIf (kind != 1) (flrReset fn) s) := by
  simp only [doFlr, hl, not_true_eq_false, if_false, if_neg hk, hpf, Bool.false_eq_true]
  show resetFunc (kind != 1) fn s = _
  unfold resetFunc
  simp only [hst]

/-- Settles O6: each command by the state of its ring or function. -/
theorem ringsAndFunctionsLiveAndEnd : Obligations.RingsAndFunctionsLiveAndEnd := by
  unfold Obligations.RingsAndFunctionsLiveAndEnd
  refine ⟨⟨fun s w r hs ho hd => ?_, fun s w r hs ho => ?_, fun s w r hc ho hst => ⟨fun ht => ?_, fun ht => ?_, fun ht => ?_⟩,
    fun s r hl hst hout => ?_⟩, fun s w fn hc hw hen => ?_, fun s w fn hc hw hdis => ?_, fun s fn hl hst hrings => ?_,
    fun s fn hl hpf hdis => ⟨?_, ?_⟩, fun s fn => getFunc_flrReset fn s⟩
  · rw [exec_ringEnable hs ho]
    simp only [enableRing, hd, disabledNow, Bool.and_eq_true, bne_iff_ne, beq_iff_eq]
  · have hboot : s.dev.state = .boot ∨ s.dev.state = .reset := by simpa using hs
    show Host.Outcome.next (doRingEnable w r s) = _
    rw [doRingEnable, if_neg, if_pos hboot]
    rcases hboot with h | h <;> simp [h, ho]
  · rw [exec_ringDisable hc ho hst, ht]
    rfl
  · rw [exec_ringDisable hc ho hst, ht]
    rfl
  · rw [exec_ringDisable hc ho hst, ht]
    rfl
  · show Host.Outcome.next (whenLive (doRingDrained r) s) = _
    rw [whenLive, if_pos hl, doRingDrained_done hst hout]
  · refine ⟨drainFunc fn (some s.tide.now) s, ?_, drainFunc_state _ _ _, fun h => drainFunc_alone h _⟩
    show Host.Outcome.next (doFunctionDisable w fn s) = _
    rw [doFunctionDisable, if_neg (by simp [hc, hw]), if_pos hen]
  · show Host.Outcome.next (doFunctionEnable w fn s) = _
    rw [doFunctionEnable, if_neg (by simp [hc, hw]), if_pos hdis]
  · refine ⟨doFuncDrained fn s, ?_, doFuncDrained_done hst hrings⟩
    show Host.Outcome.next (whenLive (doFuncDrained fn) s) = _
    rw [whenLive, if_pos hl]
  · show Host.Outcome.next (doFlr fn 0 s) = _
    rw [doFlr_disabled hl hpf hdis (by decide)]
    rfl
  · show Host.Outcome.next (doFlr fn 1 s) = _
    rw [doFlr_disabled hl hpf hdis (by decide)]
    rfl

end Sys2Proof.Machine
end

/-! ## A snapshot and a cut of one Tidemark (R451, R459, R567) -/

section
namespace Sys2Proof.Machine

/-- A snapshot of the device's counters at Tidemark 0 in window 0. -/
def markSnapshot : Snap := { window := 0, scope := 0, first := 0, count := 1, mark := 0 }

/-- In RUN with a stop armed for Tidemark 0, which is now, and a snapshot of the same Tidemark in window 0. -/
def cutWithSnapshot : State := { State.reset with
  dev := { state := .run }
  stop := { sstate := .armed, stopId := 1 }
  obs := { State.reset.obs with snaps := [markSnapshot] } }

/-- Refutes O51: of one Tidemark the cut comes before the snapshot (R451), so a snapshot that is due together with an armed stop
changes the stop record beside the host's side and the counters. -/
theorem not_snapshotsAndCounterResets : ¬ Obligations.SnapshotsAndCounterResets := by
  unfold Obligations.SnapshotsAndCounterResets
  rintro ⟨⟨-, hcapture⟩, -⟩
  obtain ⟨t, hexec, hframe⟩ := hcapture cutWithSnapshot 0 markSnapshot rfl rfl (by decide)
  obtain ⟨-, -, -, -, -, -, -, -, -, -, -, -, ht⟩ := hframe
  have hstop : (doCapture 0 cutWithSnapshot).stop.sstate = .cut := by decide +kernel
  have harmed : t.stop.sstate = .armed := by rw [ht]; rfl
  rw [Host.Outcome.next.inj hexec, harmed] at hstop
  exact absurd hstop (by decide)

end Sys2Proof.Machine
end

/-! ## State images (R468 to R470) -/

section
namespace Sys2Proof.Machine

/-- STATE_SAVE: its checks in order, then the bytes of the image that it asks for. -/
theorem exec_stateSave {s : State} {r i : Nat} {d : Desc} (h : Ready s r i 0x0B d) :
    exec (.stateSave r i) s = .next (
      if onlyBits d.op imageFields = false ∨ fld d.op 325 320 ≠ 0 then answer d 0x09 0 s
      else match s.sec.cfg.saveKey with
        | none => answer d 0x08 0 s
        | some key =>
          if s.stop.sstate = .failed then answer d 0x06 0 s
          else if s.stop.sstate ≠ .settled ∨ s.stop.stopId ≠ fld d.op 223 208 then answer d 0x0B 0 s
          else if (imageOf key s).length < fld d.op 287 224 + fld d.op 319 288 then answer d 0x08 (imageOf key s).length s
          else answer d 0x00 (imageOf key s).length (hostWrite d.func (fld d.op 383 320)
            (sliceB (imageOf key s) (fld d.op 287 224) (fld d.op 319 288)) s)) := by
  refine congrArg Host.Outcome.next ((runDesc_ready h workStateSave []).trans ?_)
  simp only [workStateSave, Bool.not_eq_true]
  cases s.sec.cfg.saveKey with
  | none => split <;> rfl
  | some key =>
    split
    · rfl
    · dsimp only
      split
      · rfl
      · split
        · rfl
        · split <;> rfl

/-- A piece of an image is not taken: a field beside those of R469 set, an address out of line, or an offset that does not follow. -/
def pieceBad (s : State) (op : BitVec 384) : Bool :=
  !onlyBits op imageFields || decide (fld op 325 320 ≠ 0) || decide (fld op 223 208 ≠ 0) || decide (fld op 287 224 ≠ s.restoring.length)

/-- STATE_RESTORE: its checks in order; the piece joins those before it, and the last one commits the image. -/
theorem exec_stateRestore {s : State} {r i : Nat} {d : Desc} (h : Ready s r i 0x0C d) (bytes : List Byte) :
    exec (.stateRestore r i bytes) s = .next (
      if restoreOk s = false then answer d 0x0B 0 { s with restoring := [] }
      else if pieceBad s d.op = true then answer d 0x09 0 { s with restoring := [] }
      else match s.sec.cfg.saveKey with
        | none => answer d 0x08 0 { s with restoring := [] }
        | some key =>
          let now := s.restoring ++ sliceB bytes 0 (fld d.op 319 288)
          let total := leAt now 16 8
          if now.length < 24 then answer d 0x00 0 { s with restoring := now }
          else if total < 256 ∨ total < now.length then answer d 0x09 0 { s with restoring := [] }
          else if now.length < total then answer d 0x00 0 { s with restoring := now }
          else answer d (commitImage key { s with restoring := now }).2 0 (commitImage key { s with restoring := now }).1) := by
  refine congrArg Host.Outcome.next ((runDesc_ready h workStateRestore bytes).trans ?_)
  simp only [workStateRestore, pieceBad, Bool.not_eq_true, Bool.or_eq_true, Bool.not_eq_true', decide_eq_true_eq, or_assoc]
  cases s.sec.cfg.saveKey with
  | none =>
    split
    · rfl
    · split <;> rfl
  | some key =>
    split
    · rfl
    · split
      · rfl
      · dsimp only
        split
        · rfl
        · split
          · rfl
          · split <;> rfl

/-- An image that does not pass whole leaves nothing but the pieces gone (R470). -/
theorem commitImage_refused {s : State} {key : List Byte} (h : (commitImage key s).2 ≠ 0) :
    (commitImage key s).1 = { s with restoring := [] } := by
  revert h
  unfold commitImage
  dsimp only
  split
  · exact fun _ => rfl
  · split
    · exact fun _ => rfl
    · split
      · exact fun _ => rfl
      · split
        · exact fun _ => rfl
        · exact fun h => absurd rfl h

/-- The state in which an image that passed leaves the Q7, before its gates open (R470). -/
def committed (v : Saved) (s : State) : State :=
  onStop (fun x => { x with stopId := leAt s.restoring 6 2, mark := leAt s.restoring 8 8 }) (restoreFrom v { s with restoring := [] })

/-- An image that passes is this Q7's, and is committed as its sections hold it, in STOPPED (R470). -/
theorem commitImage_accepted {s : State} {key : List Byte} (h : (commitImage key s).2 = 0) :
    leAt s.restoring 24 4 = selfEpid s ∧ ∃ v, (commitImage key s).1 =
      enterState .stopped (openGates (usedRegions (committed v s)) (committed v s)) := by
  revert h
  unfold commitImage
  dsimp only
  split
  · exact fun h => absurd h Nat.noConfusion
  next hheader =>
    have hepid : leAt s.restoring 24 4 = selfEpid s := by
      by_contra hne
      exact hheader (.inr (.inr (.inl hne)))
    split
    · exact fun h => absurd h Nat.noConfusion
    next v _ =>
      split
      · exact fun h => absurd h Nat.noConfusion
      · split
        · exact fun h => absurd h Nat.noConfusion
        · exact fun _ => ⟨hepid, v, rfl⟩

section
variable (st : DevState) (s : State)

@[simp] theorem enterState_stop : (enterState st s).stop = s.stop := by simp [enterState, postStateChanged, setState]
@[simp] theorem enterState_tide : (enterState st s).tide = s.tide := by simp [enterState, postStateChanged, setState]
@[simp] theorem enterState_restoring : (enterState st s).restoring = s.restoring := by simp [enterState, postStateChanged, setState]

end

/-- Settles O50: the equations of STATE_SAVE and STATE_RESTORE, and both outcomes of a commit. -/
theorem stateImages : Obligations.StateImages := by
  unfold Obligations.StateImages
  refine ⟨fun s r i d h => exec_stateSave h, fun s r i bytes d h => ?_, fun s key => ⟨commitImage_refused, fun hdone => ?_⟩⟩
  · have hexec := exec_stateRestore h bytes
    refine ⟨fun hok => ?_, fun hok (hbad : pieceBad s d.op = true) => ?_,
      fun hok (hbad : pieceBad s d.op = false) hkey => ?_, fun key hok (hbad : pieceBad s d.op = false) hkey => ?_⟩
    · rw [hexec, if_pos hok]
    · rw [hexec, if_neg (ne_false_of_eq_true hok), if_pos hbad]
    · rw [hexec, if_neg (ne_false_of_eq_true hok), if_neg (ne_true_of_eq_false hbad), hkey]
    · rw [hexec, if_neg (ne_false_of_eq_true hok), if_neg (ne_true_of_eq_false hbad), hkey]
  · obtain ⟨hepid, v, hstate⟩ := commitImage_accepted hdone
    rw [hstate]
    refine ⟨enterState_state _ _, ?_, ?_, ?_, ?_, ?_, hepid, ?_, ?_, ?_⟩ <;> simp [openGates, committed, restoreFrom]

end Sys2Proof.Machine
end

/-! ## BEACON after a power cycle (R494, R592, R600) -/

section
namespace Sys2Proof.Machine

/-- Refutes O56: a power cycle leaves the Q7 in RESET, where BEACON's rate code is 0, and the device record that the statement
writes out keeps the code 1 of BOOT. -/
theorem not_resetPowerAndSideband : ¬ Obligations.ResetPowerAndSideband := by
  unfold Obligations.ResetPowerAndSideband
  rintro ⟨⟨-, -, -, -, -, -, hpower⟩, -⟩
  obtain ⟨t, hexec, hdev, -⟩ := hpower State.reset
  have hmodel : t.dev.bcnRate = 0 := by rw [← Host.Outcome.next.inj hexec]; rfl
  have hstated : t.dev.bcnRate = 1 := by rw [hdev]
  exact absurd (hmodel.symm.trans hstated) (by decide)

end Sys2Proof.Machine
end

/-! ## Bundles, and what the security block answers (R510 to R528) -/

section
namespace Sys2Proof.Machine

/-! ### Loads (R513, R518, R524, R525) -/

section
variable {s : State} {r i : Nat} {d : Desc}

/-- FW_LOAD: its checks in order, then the slot that is not in force is written, and ACTIVATE restarts BOOT. -/
theorem exec_fwLoad (h : Ready s r i 0x70 d) (bytes : List Byte) :
    let len := fld d.op 319 288
    let b := sliceB bytes 0 len
    let k := if s.sec.fw.slot = 0 then 1 else 0
    exec (.fwLoad r i bytes) s = .next (
      if onlyBits d.op [(383, 320), (319, 288), (287, 287)] = false ∨ fld d.op 383 320 % 64 ≠ 0 then answer d 0x09 0 s
      else if bitAt d.op 287 = true ∧ (s.dev.state ≠ .hold ∨ hardHold s = true) then answer d 0x0B 0 s
      else if 2 ^ 24 - 4096 < len then answer d 0x08 0 s
      else match fwReason s b with
        | some x => answer d 0x09 x s
        | none => answer d 0x00 0 (if bitAt d.op 287 = true then restart k r i (writeFlash k (b.take (fwTotal b)) s)
            else writeFlash k (b.take (fwTotal b)) s)) := by
  refine congrArg Host.Outcome.next ((runDesc_ready h workFwLoad bytes).trans ?_)
  simp only [workFwLoad, Bool.not_eq_true]
  cases fwReason s (sliceB bytes 0 (fld d.op 319 288)) with
  | some x =>
    split
    · rfl
    · split
      · rfl
      · split <;> rfl
  | none =>
    split
    · rfl
    · split
      · rfl
      · split <;> rfl

/-- CFG_LOAD: its checks in order, then the older slot is written with WRITE, and the bundle applied with APPLY. -/
theorem exec_cfgLoad (h : Ready s r i 0x71 d) (bytes : List Byte) :
    let len := fld d.op 319 288
    let b := sliceB bytes 0 len
    let k := olderSlot s
    let t := if bitAt d.op 287 = true then writeFlash k (b.take (cfgTotal b)) s else s
    let out := applyBundle b (if bitAt d.op 287 = true then k - 2 else 2) t
    exec (.cfgLoad r i bytes) s = .next (
      if onlyBits d.op [(383, 320), (319, 288), (287, 286)] = false ∨ fld d.op 383 320 % 64 ≠ 0 then answer d 0x09 0 s
      else if bitAt d.op 286 = true ∧ (s.dev.state ≠ .hold ∨ hardHold s = true) then answer d 0x0B 0 s
      else if 2 ^ 23 - 4096 < len then answer d 0x08 0 s
      else match cfgReason s b with
        | some x => answer d 0x09 x s
        | none =>
          if bitAt d.op 286 = false then answer d 0x00 0 t
          else match out.2 with
            | some e => answer d 0x09 0x10 (setHold 0x10 e.1 e.2 out.1)
            | none => answer d 0x00 0 (onDev (fun y => { y with startingUp := true }) (setHold 0 0 0 out.1))) := by
  refine congrArg Host.Outcome.next ((runDesc_ready h workCfgLoad bytes).trans ?_)
  simp only [workCfgLoad, Bool.not_eq_true]
  generalize applyBundle _ _ _ = out
  cases cfgReason s (sliceB bytes 0 (fld d.op 319 288)) with
  | some x =>
    split
    · rfl
    · split
      · rfl
      · split <;> rfl
  | none =>
    split
    · rfl
    · split
      · rfl
      · split
        · rfl
        · obtain ⟨t, _ | e⟩ := out
          · dsimp only
            split <;> rfl
          · dsimp only
            split <;> rfl

/-- CFG_READ writes the bytes asked for. -/
theorem exec_cfgRead (h : Ready s r i 0x72 d) :
    let src := fld d.op 223 222
    let b := if src = 0 then s.sec.cfg.bundle else ((nth s.sec.flash (src + 1) {}).bundle).getD []
    exec (.cfgRead r i) s = .next (
      if onlyBits d.op [(383, 320), (319, 288), (287, 224), (223, 222)] = false ∨ fld d.op 383 320 % 64 ≠ 0 ∨ src = 3 then answer d 0x09 0 s
      else if b.isEmpty = true ∨ b.length < fld d.op 287 224 + fld d.op 319 288 then answer d 0x08 0 s
      else answer d 0x00 b.length (hostWrite d.func (fld d.op 383 320) (sliceB b (fld d.op 287 224) (fld d.op 319 288)) s)) := by
  refine congrArg Host.Outcome.next ((runDesc_ready h workCfgRead []).trans ?_)
  simp only [workCfgRead, Bool.not_eq_true]
  generalize (if fld d.op 223 222 = 0 then s.sec.cfg.bundle else _) = b
  split
  · rfl
  · split <;> rfl

/-- MEASURE_READ writes the report or the certificates. -/
theorem exec_measureRead (h : Ready s r i 0x73 d) :
    let what := fld d.op 287 286
    let body := (measBlocks s).flatten ++ bytesLE 32 (fld d.op 285 30)
    let out := if what = 0 then body ++ aliasSign s (sha body) else aliasChain s
    let used := [(383, 320), (319, 288), (287, 286)] ++ (if what = 0 then [(285, 30)] else [])
    exec (.measureRead r i) s = .next (
      if onlyBits d.op used = false ∨ fld d.op 383 320 % 64 ≠ 0 ∨ 1 < what then answer d 0x09 0 s
      else if fld d.op 319 288 < out.length then answer d 0x08 0 s
      else answer d 0x00 out.length (hostWrite d.func (fld d.op 383 320) out s)) := by
  refine congrArg Host.Outcome.next ((runDesc_ready h workMeasureRead []).trans ?_)
  simp only [workMeasureRead, Bool.not_eq_true]
  generalize (if fld d.op 287 286 = 0 then _ ++ _ else aliasChain s) = out
  generalize (if fld d.op 287 286 = 0 then [(285, 30)] else []) = used
  split
  · rfl
  · split <;> rfl

end

/-! ### The flash and the restart (R510, R524, R525) -/

/-- A slot holds the bundle written to it, with a WRITE_SEQ above both of its pair, and no other slot changes. -/
theorem writeFlash_written {s : State} {k : Nat} (hlen : s.sec.flash.length = 4) (hk : k < 4) (b : List Byte) :
    (nth (writeFlash k b s).sec.flash k {}).bundle = some b
    ∧ (∀ j, j < 4 → j / 2 = k / 2 → (nth s.sec.flash j {}).seq < (nth (writeFlash k b s).sec.flash k {}).seq)
    ∧ (∀ j, j ≠ k → nth (writeFlash k b s).sec.flash j {} = nth s.sec.flash j {}) := by
  have hsame : nth (writeFlash k b s).sec.flash k {} =
      { seq := max (nth s.sec.flash (k / 2 * 2) {}).seq (nth s.sec.flash (k / 2 * 2 + 1) {}).seq + 1, bundle := some b } := by
    simp [writeFlash, onSec, setAt, nth, hlen, hk]
  refine ⟨by rw [hsame], fun j _ hj => ?_, fun j hj => ?_⟩
  · rw [hsame]
    have hpair : j = k / 2 * 2 ∨ j = k / 2 * 2 + 1 := by omega
    rcases hpair with rfl | rfl
    · exact Nat.lt_succ_of_le (le_max_left _ _)
    · exact Nat.lt_succ_of_le (le_max_right _ _)
  · simp [writeFlash, onSec, setAt, nth, List.getElem?_set_ne (Ne.symm hj)]

/-- The descriptors that a restart ends in HELD change neither the security block, the device nor the part. -/
theorem restart_frame (slot r i : Nat) (s : State) :
    (restart slot r i s).dev.state = .boot ∧ (restart slot r i s).dev.prev = s.dev.state ∧ (restart slot r i s).sec.nextFw = some slot
    ∧ (restart slot r i s).sec.flash = s.sec.flash ∧ (restart slot r i s).part = s.part := by
  have hdev (l : List Desc) (u : State) : (forAll l (fun d => complete d stHELD 0 false false) u).dev = u.dev :=
    forAll_same (g := State.dev) (fun d u => complete_dev u d _ _ _ _) l u
  have hsec (l : List Desc) (u : State) : (forAll l (fun d => complete d stHELD 0 false false) u).sec = u.sec :=
    forAll_same (g := State.sec) (fun d u => complete_sec u d _ _ _ _) l u
  have hpart (l : List Desc) (u : State) : (forAll l (fun d => complete d stHELD 0 false false) u).part = u.part :=
    forAll_same (g := State.part) (fun d u => complete_part u d _ _ _ _) l u
  refine ⟨?_, ?_, ?_, ?_, ?_⟩ <;> simp [restart, hdev, hsec, hpart]

/-! ### Integrity and data encryption (R528) -/

/-- What a link's stream is, and which completions wait for it. -/
def ideState (s : State) : Map (Bool × Bool) × List (Desc × Nat × Nat × Bool × Bool) := (s.host.ideActive, s.host.heldCpl)

theorem ideState_sendVector (f v : Nat) (s : State) : ideState (sendVector f v s) = ideState s := by
  unfold sendVector
  split
  · rfl
  · split <;> rfl

theorem ideState_entriesWritten (r n : Nat) (b : Bool) (s : State) : ideState (entriesWritten r n b s) = ideState s := by
  rcases entriesWritten_cases r n b s with h | ⟨f, v, h⟩
  · rw [h]; rfl
  · rw [h, ideState_sendVector]; rfl

/-- A completion leaves the streams as they are, and only one that the stream keeps from host memory joins those that wait. -/
theorem complete_ideState (d : Desc) (st res : Nat) (com rec : Bool) (s : State) :
    (complete d st res com rec s).host.ideActive = s.host.ideActive
    ∧ (s.sec.cfg.requireIde = false → (complete d st res com rec s).host.heldCpl = s.host.heldCpl) := by
  have hide (c : Bool) (u : State) : ideState (onlyIf c (countRaw (kRing d.ring 1) 1) u) = ideState u :=
    onlyIf_same (g := ideState) _ _ rfl
  unfold complete
  dsimp only
  split
  · exact ⟨rfl, fun _ => rfl⟩
  split
  next h => exact ⟨rfl, fun hreq => absurd (by simp [ideOk, hreq]) h.1⟩
  next =>
    suffices hkept : ∀ u : State, ideState u = ideState s → u.host.ideActive = s.host.ideActive
        ∧ (s.sec.cfg.requireIde = false → u.host.heldCpl = s.host.heldCpl) by
      split
      · exact hkept _ (hide _ _)
      · exact hkept _ ((ideState_entriesWritten _ _ _ _).trans (hide _ _))
    exact fun u hu => ⟨congrArg Prod.fst hu, fun _ => congrArg Prod.snd hu⟩

/-- The completions that waited are written, none changing the streams. -/
theorem forAll_complete_ideState (l : List (Desc × Nat × Nat × Bool × Bool)) (s : State) :
    (forAll l (fun x => complete x.1 x.2.1 x.2.2.1 x.2.2.2.1 x.2.2.2.2) s).host.ideActive = s.host.ideActive
    ∧ (s.sec.cfg.requireIde = false →
      (forAll l (fun x => complete x.1 x.2.1 x.2.2.1 x.2.2.2.1 x.2.2.2.2) s).host.heldCpl = s.host.heldCpl) := by
  refine ⟨forAll_same (g := fun u : State => u.host.ideActive) (fun x u => (complete_ideState _ _ _ _ _ u).1) l s, fun hreq => ?_⟩
  exact (forAll_keeps (P := fun u : State => u.sec.cfg.requireIde = false ∧ u.host.heldCpl = s.host.heldCpl)
    (fun x u hu => ⟨by rw [complete_sec]; exact hu.1, ((complete_ideState _ _ _ _ _ u).2 hu.1).trans hu.2⟩) l s ⟨hreq, rfl⟩).2

/-- IDE_KM in a session sets the stream, and writes what waited for it. -/
theorem exec_ideKm {s : State} {pf : Nat} (hl : regsLive s = true) (hpf : isPf s pf = true) (tx rx : Bool) :
    exec (.ideKm pf true tx rx) s = .next (forAll s.host.heldCpl (fun x => complete x.1 x.2.1 x.2.2.1 x.2.2.2.1 x.2.2.2.2)
      (onHost (fun h => { h with ideActive := mput h.ideActive (linkOfFn s pf) (tx, rx), heldCpl := [] }) s)) := by
  show Host.Outcome.next (doIdeKm pf true tx rx s) = _
  rw [doIdeKm, if_neg (by simp [hl, hpf])]
  rfl

/-- Settles O59: the equations of the four loads and reads, of the flash, the restart, the mailbox and the stream. -/
theorem bundlesAndSecurityAnswers : Obligations.BundlesAndSecurityAnswers := by
  unfold Obligations.BundlesAndSecurityAnswers
  refine ⟨⟨fun s r i bytes d h => exec_fwLoad h bytes, fun s r i bytes d h => exec_cfgLoad h bytes, fun s k b hlen hk => ?_,
    fun s slot r i _ => restart_frame slot r i s⟩, fun s r i d h => exec_cfgRead h, fun s r i d h => exec_measureRead h,
    fun s pf msg hl hpf => ?_, fun s pf tx rx hl hpf => ⟨?_, ?_⟩⟩
  · obtain ⟨hbundle, hseq, hrest⟩ := writeFlash_written hlen hk b
    exact ⟨hbundle, hseq, hrest, rfl⟩
  · show Host.Outcome.next (doSpdm pf msg s) = _
    simp [doSpdm, hl, hpf]
  · show Host.Outcome.next (doIdeKm pf false tx rx s) = _
    rw [doIdeKm, if_pos (.inr (.inr Bool.false_ne_true))]
  · refine ⟨_, exec_ideKm hl hpf tx rx, ?_, ?_, fun hnone => ?_, fun hreq => ?_⟩
    · rw [(forAll_complete_ideState _ _).1]
      exact mgetD_mput_same _ _ _ _
    · exact (hostOnly_onHost s _).trans (hostOnly_forAll (fun x u => hostOnly_complete u _ _ _ _ _) _ _)
    · rw [hnone]
      simp [forAll, onHost, hnone]
    · exact (forAll_complete_ideState _ _).2 hreq

end Sys2Proof.Machine
end

/-! ## Erosion, re-plans and temperature (R552 to R556, R559) -/

section
namespace Sys2Proof.Machine

/-! ### What the failure of a unit's work leaves (R27, R76, R184) -/

/-- The part and the device record. -/
def partDev (s : State) : Part × Dev := (s.part, s.dev)

theorem HostOnly.partDev {s t : State} (h : HostOnly s t) : partDev t = partDev s := by rw [h]; rfl

theorem CallsOnly.partDev {gid : Nat} {s t : State} (h : CallsOnly gid s t) : partDev t = partDev s := by rw [h.1]; rfl

theorem NoneEnded.partDev {s t : State} (h : NoneEnded s t) : partDev t = partDev s := by rw [h.1]; rfl

theorem partDev_failGroup (gid src : Nat) (s : State) : partDev (failGroup gid src s) = partDev s := by
  have hquiescer (st : Nat) (u : State) : partDev (endQuiescer gid st u) = partDev u := by
    unfold endQuiescer
    split
    · rfl
    · split
      · rfl
      · exact (hostOnly_finishDesc _ _ _ _).partDev
  have hcalls (b : Bool) (st : Nat) (u : State) : partDev (onlyIf b (endCalls gid st) u) = partDev u :=
    onlyIf_same _ _ (callsOnly_endCalls st u).partDev
  unfold failGroup
  split
  · rfl
  · split
    · rfl
    · dsimp only
      rw [hquiescer]
      split
      · exact (callsOnly_sendCmd (gid := gid) _ _ _ _ _ _).partDev.trans (hcalls _ _ _)
      · exact (callsOnly_originate (gid := gid) _ _).partDev.trans (hcalls _ _ _)

theorem partDev_failTable (tid st : Nat) (s : State) : partDev (failTable tid st s) = partDev s := by
  have hquiesce (u : State) : partDev (endQuiesce tid st u) = partDev u := by
    unfold endQuiesce
    split
    · rfl
    · exact (hostOnly_finishDesc _ _ _ _).partDev
  have happly (u : State) : partDev (cancelApply tid st u) = partDev u := by
    unfold cancelApply
    split
    · rfl
    · split
      · rfl
      · unfold reportApply
        split
        · split
          · exact (hostOnly_complete _ _ _ _ _ _).partDev
          · rfl
        · exact (noneEnded_originate _ _).partDev
  have hbags (u : State) : partDev (failBags tid st u) = partDev u := by
    unfold failBags
    exact ((noneEnded_failAll WaitBag.stream st _ _).trans (noneEnded_failAll ShardBag.stream st _ _)).partDev
  unfold failTable
  split
  · rfl
  · split
    · rfl
    · rw [hquiesce, happly, hbags]
      rfl

/-! ### Arrays retired (R27) -/

/-- An array that retires is noted on the part; the device record stands. -/
theorem partDev_retireArray (d u : Nat) (s : State) : partDev (retireArray d u s) =
    (if arrayEnabled s d u = true then { s.part with retired := s.part.retired ++ [(d, u)] } else s.part, s.dev) := by
  unfold retireArray
  by_cases h : arrayEnabled s d u = true
  · rw [if_neg (not_not_intro h), if_pos h]
    dsimp only
    split
    · exact forAll_same (fun g u => partDev_failGroup g 0x20 u) _ _
    · exact forAll_same (fun t u => partDev_failTable t stNORES u) _ _
  · rw [if_pos h, if_neg h]
    rfl

theorem retireArray_part (d u : Nat) (s : State) : (retireArray d u s).part =
    if arrayEnabled s d u = true then { s.part with retired := s.part.retired ++ [(d, u)] } else s.part :=
  congrArg Prod.fst (partDev_retireArray d u s)

@[simp] theorem retireArray_dev (d u : Nat) (s : State) : (retireArray d u s).dev = s.dev :=
  congrArg Prod.snd (partDev_retireArray d u s)

theorem mem_retired_retireArray {a : Nat × Nat} {s : State} (h : a ∈ s.part.retired) (d u : Nat) :
    a ∈ (retireArray d u s).part.retired := by
  rw [retireArray_part]
  split
  · exact List.mem_append_left _ h
  · exact h

/-- An array of the part that is enabled, or has retired. -/
def Standing (a : Nat × Nat) (s : State) : Prop := arrayEnabled s a.1 a.2 = true ∨ a ∈ s.part.retired

/-- Only the retirement of the array itself takes it out of service. -/
theorem arrayEnabled_retired {a b : Nat × Nat} {s t : State} (hne : a ≠ b)
    (ht : t.part = { s.part with retired := s.part.retired ++ [b] }) (h : arrayEnabled s a.1 a.2 = true) :
    arrayEnabled t a.1 a.2 = true := by
  obtain ⟨d, u⟩ := a
  have hadd : 8 ≤ u → (d, 8 + (u - 8)) ≠ b := fun hu => by rwa [Nat.add_sub_cancel' hu]
  unfold arrayEnabled at *
  split at h
  · simp_all [maEnabled, Part.disabled]
  · simp_all [paEnabled, Part.disabled]

theorem standing_retireArray {a : Nat × Nat} {s : State} (h : Standing a s) (d u : Nat) : Standing a (retireArray d u s) := by
  by_cases hr : a ∈ s.part.retired
  · exact .inr (mem_retired_retireArray hr d u)
  have hon := h.resolve_right hr
  have hpart := retireArray_part d u s
  by_cases hd : arrayEnabled s d u = true
  · rw [if_pos hd] at hpart
    by_cases hne : a = (d, u)
    · exact .inr (by rw [hpart, hne]; exact List.mem_append_right _ (List.mem_singleton.2 rfl))
    · exact .inl (arrayEnabled_retired hne hpart hon)
  · rw [retireArray, if_pos hd]
    exact h

theorem retired_of_standing {a : Nat × Nat} {s : State} (h : Standing a s) : a ∈ (retireArray a.1 a.2 s).part.retired := by
  rcases h with h | h
  · rw [retireArray_part, if_pos h]
    exact List.mem_append_right _ (List.mem_singleton.2 rfl)
  · exact mem_retired_retireArray h _ _

/-- Arrays that retire one after another have all retired. -/
theorem mem_retired_forAll {a : Nat × Nat} {l : List (Nat × Nat)} (ha : a ∈ l) {s : State} (h : Standing a s) :
    a ∈ (forAll l (fun a => retireArray a.1 a.2) s).part.retired := by
  induction l generalizing s with
  | nil => cases ha
  | cons b r ih =>
    by_cases hb : a = b
    · subst hb
      exact forAll_keeps (P := fun u : State => a ∈ u.part.retired) (fun b u hu => mem_retired_retireArray hu b.1 b.2) r _
        (retired_of_standing h)
    · exact ih ((List.mem_cons.1 ha).resolve_left hb) (standing_retireArray h _ _)

/-! ### The wear of a region (R552, R555) -/

/-- A region as a measurement leaves it (R551, R552). -/
def measured (now : Nat) (margin : Int) (life : Nat) (y : Rgn) : Rgn := { y with
  measuredAt := some now, margin := margin, life := life, pace := if margin < 80 ∧ y.pace < 16 then y.pace + 1 else y.pace }

/-- A measurement of a region with more than a year to live (R552, R555, R560). -/
theorem doMeasure_due {s : State} {r : Nat} (hl : regsLive s = true) (hd : measureDue s r = true) (margin : Int) {life : Nat}
    (hlife : 8760 ≤ life * 10) : doMeasure r margin life s =
      onlyIf (decide (margin < 0) && decide (nth s.pwr.vofs (r / 4) 0 = 40) && decide ((getRgn s r).pace = 16))
        (takeFault ⟨0x29, mkLoc (r / 4) (r % 4) 0, r, s.tide.now, false, 0, true⟩) (onRgn r (measured s.tide.now margin life) s) := by
  have hlow : decide (life * 10 < 8760) = false := decide_eq_false (Nat.not_lt.2 hlife)
  rw [doMeasure, if_neg (by simp [hl, hd])]
  simp only [hlow, Bool.false_and, Bool.or_false, onlyIf_false]
  rfl

/-- A region that no step or voltage can mend is a Storm, and its arrays retire (R555). -/
theorem takeFault_worn {s : State} {r : Nat} (hl : regsLive s = true) (hr : r < 16) (now : Nat) :
    (takeFault ⟨0x29, mkLoc (r / 4) (r % 4) 0, r, now, false, 0, true⟩ s).flt.storm = true
    ∧ ∀ a ∈ regionArrays s r, a ∈ (takeFault ⟨0x29, mkLoc (r / 4) (r % 4) 0, r, now, false, 0, true⟩ s).part.retired := by
  have hregion : 4 * locDie (mkLoc (r / 4) (r % 4) 0) + locUnit (mkLoc (r / 4) (r % 4) 0) = r := by
    rw [locDie_mkLoc (by omega), locUnit_mkLoc (by omega)]
    omega
  rw [takeFault_good hl rfl (by simp), actAtUnit_now (by simp [deferredSource])]
  simp only [unitAction, hregion]
  have hdev : (forAll (regionArrays s r) (fun a => retireArray a.1 a.2) s).dev = s.dev :=
    forAll_same (g := State.dev) (fun (a : Nat × Nat) u => retireArray_dev a.1 a.2 u) _ _
  have hlive : regsLive (forAll (regionArrays s r) (fun a => retireArray a.1 a.2) s) = true := by rw [regsLive, hdev]; exact hl
  obtain ⟨-, -, -, hstorm, hframe, -⟩ := collect_spec (f := ⟨0x29, mkLoc (r / 4) (r % 4) 0, r, now, false, 0, true⟩) hlive rfl
  refine ⟨by rw [hstorm]; exact Bool.or_true _, fun a ha => ?_⟩
  rw [(hframe (by decide)).1]
  exact mem_retired_forAll ha (.inl (List.mem_filter.1 ha).2)

/-! ### Re-plans (R553, R554, R559) -/

/-- The offsets of the dies, and the Tidemark of PWR_REPLAN. -/
def planOfPwr (s : State) : List Nat × Bool × Word × Word :=
  (s.pwr.vofs, s.pwr.replanArmed, s.pwr.replanHi, s.pwr.replanLo)

/-- The pacing steps that the most paced region of a die holds. -/
def stepsHeld (s : State) (d : Nat) : Nat := (dieRgns d).foldl (fun n r => max n (getRgn s r).pace) 0

/-- A re-plan outside BOOT moves the die's offset, and no other, by the steps held. -/
theorem planOfPwr_replan (d : Nat) (margins : List (Nat × Int × Int)) (s : State) : planOfPwr (replan false d margins s) =
    (modAt s.pwr.vofs d (fun v => min 40 (v + 5 * stepsHeld s d)), s.pwr.replanArmed, s.pwr.replanHi, s.pwr.replanLo) := by
  have hpost (before : Nat) (old : List Nat) (u : State) : planOfPwr (postReplan d before old u) = planOfPwr u := by
    unfold postReplan
    dsimp only
    split
    · rfl
    · rw [planOfPwr, postDev_pwr, planOfPwr]
  have hpace (u : State) : planOfPwr (applyPace d u) = planOfPwr u := by
    unfold applyPace
    split
    · rfl
    · refine forAll_same (g := planOfPwr) ?_ _ _
      exact fun r u => rfl
  unfold replan
  rw [hpost, hpace]
  refine (forAll_same (g := planOfPwr) ?_ _ _).trans rfl
  exact fun m u => rfl

/-- EROSION_REPLAN with no re-plan under way on the die: the Tidemark that started it is cleared, and the die re-planned. -/
theorem doReplan_over {s : State} {d : Nat} (hl : regsLive s = true) (ho : replanOver s d = true) (margins : List (Nat × Int × Int)) :
    ∃ a h l, planOfPwr (doReplan d margins s) = (modAt s.pwr.vofs d (fun v => min 40 (v + 5 * stepsHeld s d)), a, h, l)
      ∧ (s.pwr.replanArmed = true → s.pwr.replanHi.toNat * 2 ^ 32 + s.pwr.replanLo.toNat ≤ s.tide.now → a = false ∧ h = 0 ∧ l = 0) := by
  rw [doReplan, if_neg (by simp [hl, ho])]
  dsimp only
  rw [planOfPwr_replan]
  cases hb : (s.pwr.replanArmed && due s (s.pwr.replanHi.toNat * 2 ^ 32 + s.pwr.replanLo.toNat)) with
  | true => exact ⟨_, _, _, rfl, fun _ _ => ⟨rfl, rfl, rfl⟩⟩
  | false =>
    refine ⟨_, _, _, rfl, fun harmed hdue => ?_⟩
    rw [harmed, due, decide_eq_true hdue] at hb
    cases hb

/-! ### Temperature (R556) -/

/-- A sample of a sensor, and the mark of a high one. -/
def sampled (n : Nat) (temp : Int) (s : State) : State :=
  let s := if n < 16 then onRgn n (fun x => { x with temp := temp }) s
    else onPwr (fun p => { p with thermTemps := mput p.thermTemps n temp }) s
  onPwr (fun p => { p with thermWarn := (p.thermWarn || decide (400 ≤ temp)) && !(sensorTemps s).all (fun t => decide (t < 380)) }) s

/-- A sample changes the power registers alone. -/
theorem sampled_frame (n : Nat) (temp : Int) (s : State) : sampled n temp s = { s with pwr := (sampled n temp s).pwr } := by
  unfold sampled
  split <;> rfl

/-- A sample of 100 °C and more, of a sensor that stands, leaves THERM_WARN set. -/
theorem sampled_warns {n : Nat} {temp : Int} {s : State} (ht : 400 ≤ temp) (hn : n < 16 → n < s.pwr.rgns.length) :
    (sampled n temp s).pwr.thermWarn = true := by
  suffices h : ∀ u : State, temp ∈ sensorTemps u →
      (onPwr (fun p => { p with thermWarn := (p.thermWarn || decide (400 ≤ temp)) && !(sensorTemps u).all (fun t => decide (t < 380)) }) u).pwr.thermWarn = true by
    unfold sampled
    apply h
    split
    next h16 =>
      refine List.mem_append_left _ (List.mem_map.2 ⟨getRgn (onRgn n (fun x => { x with temp := temp }) s) n, ?_, ?_⟩)
      · have hlen : n < (onRgn n (fun x => { x with temp := temp }) s).pwr.rgns.length := by rw [onRgn_rgns_length]; exact hn h16
        rw [getRgn, nth, List.getElem?_eq_getElem hlen]
        exact List.getElem_mem hlen
      · rw [getRgn_onRgn_same _ (hn h16)]
    next => exact List.mem_append_right _ (List.mem_map.2 ⟨(n, temp), mem_of_mget (mget_mput_same _ _ _), rfl⟩)
  intro u hu
  have hcool : (sensorTemps u).all (fun t => decide (t < 380)) = false :=
    List.all_eq_false.2 ⟨temp, hu, by simp; omega⟩
  simp [onPwr, hcool, ht]

/-- THERMAL_SAMPLE: the sample, its event, and CLIFF at 115 °C. -/
theorem doThermal_live {n : Nat} {temp : Int} {s : State} (hl : regsLive s = true) : ∃ u, HostOnly (sampled n temp s) u
    ∧ doThermal n temp s = onlyIf (decide (460 ≤ temp)) (takeFault ⟨0x37, sensorLoc n, 0, u.tide.now, false, 0, true⟩) u := by
  rw [doThermal, if_neg (by simp [hl])]
  exact ⟨_, hostOnly_onlyIf _ _ (hostOnly_postDev _ _ _), rfl⟩

theorem enterCliff_thermWarn (f : FaultRec) (s : State) : (enterCliff f s).pwr.thermWarn = s.pwr.thermWarn := rfl

theorem exec_thermalSample {n : Nat} {temp : Int} {s : State} (hl : regsLive s = true) : ∃ t, exec (.thermalSample n temp) s = .next t
    ∧ (460 ≤ temp → t.dev.state = .cliff ∧ t.flt.cliffSrc = 0x37)
    ∧ (temp < 460 → t.dev.state = s.dev.state ∧ t.flt = s.flt)
    ∧ (400 ≤ temp → (n < 16 → n < s.pwr.rgns.length) → t.pwr.thermWarn = true) := by
  obtain ⟨u, hu, hexec⟩ := doThermal_live (n := n) (temp := temp) hl
  have hframe := sampled_frame n temp s
  have hdev : u.dev = s.dev := by rw [hu, hframe]
  have hflt : u.flt = s.flt := by rw [hu, hframe]
  have hpwr : u.pwr = (sampled n temp s).pwr := by rw [hu]
  have hlive : regsLive u = true := by rw [regsLive, hdev]; exact hl
  refine ⟨_, congrArg Host.Outcome.next hexec, ?_⟩
  by_cases hhot : 460 ≤ temp
  · rw [decide_eq_true hhot, onlyIf_true]
    obtain ⟨hstate, -, hsrc, -⟩ := takeFault_entered (f := ⟨0x37, sensorLoc n, 0, u.tide.now, false, 0, true⟩) hlive rfl rfl
    refine ⟨fun _ => ⟨hstate, hsrc⟩, fun h => absurd hhot (not_le.2 h), fun ht hn => ?_⟩
    obtain ⟨v, ⟨hv, -⟩, hcollect⟩ := collect_cliff (f := ⟨0x37, sensorLoc n, 0, u.tide.now, false, 0, true⟩) hlive rfl
    rw [takeFault_cliff hlive rfl rfl, hcollect, enterCliff_thermWarn, hv]
    exact (congrArg (·.thermWarn) hpwr).trans (sampled_warns ht hn)
  · rw [decide_eq_false hhot, onlyIf_false]
    exact ⟨fun h => absurd h hhot, fun _ => ⟨by rw [hdev], hflt⟩, fun ht hn => by rw [hpwr]; exact sampled_warns ht hn⟩

/-- Settles O44: the wear of a region, the re-plan of a die, a sample, and the Tidemark of PWR_REPLAN. -/
theorem erosionAndTemperature : Obligations.ErosionAndTemperature := by
  unfold Obligations.ErosionAndTemperature
  refine ⟨fun s r margin life hl hr _ hlife => ⟨fun hd => ?_, fun hd hworn => ?_, fun hd hneg hvofs hpace => ?_⟩,
    fun s d margins hl hd ho => ?_, fun s n temp hl _ => exec_thermalSample hl, fun s hi hl hb => ?_⟩
  · show Host.Outcome.next (doMeasure r margin life s) = _
    rw [doMeasure, if_pos (.inr (by simp [hd]))]
  · show Host.Outcome.next (doMeasure r margin life s) = _
    rw [doMeasure_due hl hd margin hlife, ← Bool.decide_and, ← Bool.decide_and, decide_eq_false (by tauto), onlyIf_false]
    rfl
  · refine ⟨_, congrArg Host.Outcome.next (doMeasure_due hl hd margin hlife), ?_⟩
    rw [decide_eq_true hneg, decide_eq_true hvofs, decide_eq_true hpace]
    exact takeFault_worn (s := onRgn r (measured s.tide.now margin life) s) hl hr s.tide.now
  · obtain ⟨a, h, l, hplan, hclear⟩ := doReplan_over hl ho margins
    have hvofs : (doReplan d margins s).pwr.vofs = modAt s.pwr.vofs d (fun v => min 40 (v + 5 * stepsHeld s d)) := congrArg (·.1) hplan
    refine ⟨_, rfl, ?_, fun k hk => ?_, fun harmed hdue => ?_⟩
    · rw [hvofs, nth_modAt_same _ _ _ _ hd, stepsHeld]
    · rw [hvofs, nth_modAt_ne _ _ _ _ _ (Ne.symm hk)]
    · obtain ⟨ha, hh, hlo⟩ := hclear harmed hdue
      exact ⟨(congrArg (·.2.1) hplan).trans ha, (congrArg (·.2.2.1) hplan).trans hh, (congrArg (·.2.2.2) hplan).trans hlo⟩
  · exact congrArg Host.Outcome.next (byHost_live hl hb _)

end Sys2Proof.Machine
end

/-! ## The deadline of a launch and a cut of one Tidemark (R451, R452, R459) -/

section
namespace Sys2Proof.Machine

/-- A launch of Tidemark 0 on no port. -/
def launchAtZero : Launch := { id := 0, mark := 0, ports := [], desc := (0, 0) }

/-- In RUN at 10 µs, the deadline of the launch, with a stop armed whose Tidemark has come. -/
def cutWithDeadline : State := { State.reset with
  dev := { state := .run }
  tide := { State.reset.tide with now := 10000 }
  stop := { sstate := .armed, stopId := 1 }
  launches := [launchAtZero] }

/-- Refutes O48: of one Tidemark the cut comes before the deadline of a launch (R451), so a deadline that is due together with an
armed stop makes the cut beside ending the launch. -/
theorem not_launches : ¬ Obligations.Launches := by
  unfold Obligations.Launches
  rintro ⟨-, -, hdeadline, -⟩
  have hexec := Host.Outcome.next.inj (hdeadline cutWithDeadline 0 launchAtZero (by decide) rfl)
  have hcut : (doLaunchDeadline 0 cutWithDeadline).stop.sstate = .cut := by decide +kernel
  have harmed : (endLaunch launchAtZero cutWithDeadline).stop.sstate = .armed := by decide +kernel
  exact absurd ((congrArg (·.stop.sstate) hexec).symm.trans hcut) (by rw [harmed]; decide)

end Sys2Proof.Machine
end

/-! ## A rebuild under a step of the counter (R300, R441) -/

section
namespace Sys2Proof.Machine

/-- In RUN at 0, with a slice of Shoal whose first quarter is being rebuilt until 1 ms, and 5 in TIDE_SET_LO. -/
def rebuilding : State := { State.reset with
  dev := { state := .run }
  tide := { State.reset.tide with setLo := 5 }
  shoal := { State.reset.shoal with slices := [{ quarters := [{ doneAt := some 1000000 }] }] } }

/-- Refutes O47: every timer keeps what it has measured over a step of the counter (R441), so the end of a rebuild moves with it,
and the slices do not stand. -/
theorem not_tideRegistersAndAlignment : ¬ Obligations.TideRegistersAndAlignment := by
  unfold Obligations.TideRegistersAndAlignment
  rintro ⟨⟨-, hset, -⟩, -⟩
  obtain ⟨-, -, hload⟩ := hset rebuilding 0 rfl (by decide)
  obtain ⟨t, hexec, -, -, -, -, -, -, hslices, -⟩ := hload (by decide) (by decide) (by decide)
  have hmoved : (byHost (doTideSet 0) rebuilding).shoal.slices.map (fun x => x.quarters.map (·.doneAt)) = [[some 1000005]] := by
    decide +kernel
  have hstands : t.shoal.slices.map (fun x => x.quarters.map (·.doneAt)) = [[some 1000000]] := by rw [hslices]; rfl
  rw [Host.Outcome.next.inj hexec, hstands] at hmoved
  exact absurd hmoved (by decide)

end Sys2Proof.Machine
end

/-! ## Both ends of an exchange, and the segments of a message (R529 to R532) -/

section
namespace Sys2Proof.Machine

/-! ### Bytes and slices -/

theorem bytesLE_ofLE (l : List Byte) : bytesLE l.length (ofLE l) = l := by
  induction l with
  | nil => rfl
  | cons b r ih =>
    have hlow : (b.toNat + 256 * ofLE r) / 256 = ofLE r := by have := b.isLt; omega
    have hbyte : BitVec.ofNat 8 (b.toNat + 256 * ofLE r) = b := by
      apply BitVec.eq_of_toNat_eq
      have := b.isLt
      rw [BitVec.toNat_ofNat]
      omega
    rw [List.length_cons, bytesLE, ofLE, hlow, ih, hbyte]

theorem ofLE_lt (l : List Byte) : ofLE l < 256 ^ l.length := by
  have h := ofLE_bytesLE l.length (ofLE l)
  rw [bytesLE_ofLE] at h
  rw [h]
  exact Nat.mod_lt _ (Nat.pow_pos (by decide))

theorem bytesBE_ofBE {l : List Byte} {n : Nat} (h : l.length = n) : bytesBE n (ofBE l) = l := by
  have hr := bytesLE_ofLE l.reverse
  rw [List.length_reverse, h] at hr
  rw [bytesBE, ofBE, hr, List.reverse_reverse]

theorem ofBE_lt (l : List Byte) : ofBE l < 256 ^ l.length := by
  have h := ofLE_lt l.reverse
  rwa [List.length_reverse] at h

theorem sliceB_eq_map (l : List Byte) (off n : Nat) : sliceB l off n = (List.range n).map (fun i => nth l (off + i) 0) := by
  refine List.ext_getElem (by simp) fun i h₁ h₂ => ?_
  simp only [sliceB, List.getElem_append, List.length_take, List.length_drop, List.getElem_take, List.getElem_drop,
    List.getElem_replicate, List.getElem_map, List.getElem_range, nth]
  split
  next h => rw [List.getElem?_eq_getElem (by omega)]; rfl
  next h =>
    have hi : i < n := by simpa using h₂
    rw [List.getElem?_eq_none (by omega)]
    rfl

/-- Two slices in a row are one. -/
theorem sliceB_add (l : List Byte) (off a b : Nat) : sliceB l off (a + b) = sliceB l off a ++ sliceB l (off + a) b := by
  simp only [sliceB_eq_map, List.range_add, List.map_append, List.map_map]
  congr 1
  exact List.map_congr_left fun i _ => by simp only [Function.comp_apply, Nat.add_assoc]

/-- A slice past the end of a string is the string and zeros. -/
theorem sliceB_past {l : List Byte} {n : Nat} (h : l.length ≤ n) : sliceB l 0 n = l ++ List.replicate (n - l.length) 0 := by
  simp [sliceB, List.take_of_length_le h]

/-! ### The two ends (R530 to R532) -/

section
variable {e f : Peer} (hne : helloNonce e.myHello ≠ helloNonce e.hello) (hmine : f.myHello = e.hello) (htheirs : f.hello = e.myHello)
include hne hmine htheirs

/-- The ends of a link take opposite parts (R530). -/
theorem isEndA_opposite : isEndA f = !isEndA e := by
  unfold isEndA
  rw [hmine, htheirs]
  by_cases h : helloNonce e.myHello < helloNonce e.hello
  · simp [h, Nat.le_of_lt h]
  · simp [h, Nat.lt_of_le_of_ne (Nat.not_lt.1 h) (Ne.symm hne)]

theorem inAB_opposite (a b : List Byte) : inAB f a b = inAB e b a := by
  unfold inAB
  rw [isEndA_opposite hne hmine htheirs]
  cases isEndA e <;> rfl

theorem hash1_opposite (hcert : f.myCert = e.cert) (htheirCert : f.cert = e.myCert) : hash1 f = hash1 e := by
  unfold hash1
  rw [inAB_opposite hne hmine htheirs, inAB_opposite hne hmine htheirs, hmine, htheirs, hcert, htheirCert]

end

/-! ### Segments (R529) -/

section
variable (ctype k last : Nat) (d : List Byte)

theorem ctl_ctlPkt (ovc dst job aux : Nat) (body : BitVec 128) : (ctlPkt ovc dst job aux body).ctl = body := by
  have hslice : sliceB (bytesBE 16 body.toNat) 0 16 = bytesBE 16 body.toNat := sliceB_whole _ _ (bytesBE_length _ _)
  have hmod : body.toNat % 256 ^ 16 = body.toNat := Nat.mod_eq_of_lt (body.isLt.trans_eq (by norm_num))
  show BitVec.ofNat 128 (beAt (bytesBE 16 body.toNat) 0 16) = body
  rw [beAt, hslice, ofBE_bytesBE, hmod, BitVec.ofNat_toNat, BitVec.setWidth_eq]

/-- A segment of a message. -/
def segPacket : Packet := ctlPkt vcCTRL 0 0 0 (segBody ctype k last d)

theorem segNo_segPacket : segNo (segPacket ctype k last d) = k % 2 ^ 12 := by
  rw [segNo, segPacket, ctl_ctlPkt]
  exact fld_pack 128 12 k [(8, ctype)] [(12, last), (96, beAt d 0 12)] (by decide) rfl

theorem segLast_segPacket : segLast (segPacket ctype k last d) = last % 2 ^ 12 := by
  rw [segLast, segPacket, ctl_ctlPkt]
  exact fld_pack 128 12 last [(8, ctype), (12, k)] [(96, beAt d 0 12)] (by decide) rfl

theorem segData_segPacket (h : d.length = 12) : segData (segPacket ctype k last d) = d := by
  have hfld : fld (segPacket ctype k last d).ctl 95 0 = beAt d 0 12 % 2 ^ 96 := by
    rw [segPacket, ctl_ctlPkt]
    exact fld_pack 128 96 _ [(8, ctype), (12, k), (12, last)] [] (by decide) rfl
  have hlt : ofBE d < 2 ^ 96 := (ofBE_lt d).trans_eq (by rw [h]; norm_num)
  rw [segData, hfld, beAt, sliceB_whole d 12 h, Nat.mod_eq_of_lt hlt, bytesBE_ofBE h]

end

/-- What a port holds of a message after its first `k` segments. -/
def segsHeld (ctype k : Nat) (b : List Byte) : Option (Nat × Nat × List Byte) := if k = 0 then none else some (ctype, k, b)

section
variable {s : State} {port ctype k last : Nat} {b d : List Byte}
  (hheld : (getPort s port).peer.segs = segsHeld ctype k b) (hb : k = 0 → b = []) (hd : d.length = 12) (hk : k ≤ last) (hlast : last < 2 ^ 12)
include hheld hb hd hk hlast

/-- A segment in order is taken: it joins those before it, and the last one makes the message whole. -/
theorem takeSegment_inOrder : takeSegment port ctype (segPacket ctype k last d) s =
    if k < last then some (onPeer port (fun e => { e with segs := some (ctype, k + 1, b ++ d) }) s, none)
    else if leAt (b ++ d) 0 2 < 3 ∨ leAt (b ++ d) 0 2 ≤ 12 * last ∨ (b ++ d).length < leAt (b ++ d) 0 2 then none
    else some (onPeer port (fun e => { e with segs := none }) s, some ((b ++ d).take (leAt (b ++ d) 0 2))) := by
  have hno : segNo (segPacket ctype k last d) = k := (segNo_segPacket ..).trans (Nat.mod_eq_of_lt (Nat.lt_of_le_of_lt hk hlast))
  have hend : segLast (segPacket ctype k last d) = last := (segLast_segPacket ..).trans (Nat.mod_eq_of_lt hlast)
  unfold takeSegment
  simp only [hno, hend, segData_segPacket _ _ _ _ hd, hheld, segsHeld]
  by_cases h : k = 0
  · simp only [if_pos h, hb h]
    rw [if_neg (Nat.not_lt.2 hk)]
  · simp only [if_neg h, and_self, if_true]
    rw [if_neg (Nat.not_lt.2 hk)]

end

/-- A segment after those that came, where none of them made the message whole. -/
def takeNext (port ctype : Nat) (seg : Nat → Packet) (acc : Option (State × Option (List Byte))) (k : Nat) :
    Option (State × Option (List Byte)) :=
  acc.bind (fun a => if a.2 = none then takeSegment port ctype (seg k) a.1 else none)

section
variable {s : State} {port ctype last : Nat} {m : List Byte}
  (hfirst : (getPort s port).peer.segs = none) (hlast : last < 2 ^ 12)
include hfirst hlast

/-- Before the last segment the port holds what came, in order. -/
theorem takeNext_before (k : Nat) (hk : k ≤ last) : ∃ u,
    (List.range k).foldl (takeNext port ctype (fun k => segPacket ctype k last (sliceB m (12 * k) 12))) (some (s, none)) = some (u, none)
    ∧ (getPort u port).peer.segs = segsHeld ctype k (sliceB m 0 (12 * k)) := by
  induction k with
  | zero => exact ⟨s, rfl, hfirst⟩
  | succ k ih =>
    obtain ⟨u, hfold, hheld⟩ := ih (Nat.le_of_succ_le hk)
    have htake := takeSegment_inOrder hheld (fun h => by rw [h]; rfl) (sliceB_length m (12 * k) 12) (Nat.le_of_succ_le hk) hlast
    rw [if_pos (Nat.lt_of_succ_le hk)] at htake
    refine ⟨onPeer port (fun e => { e with segs := some (ctype, k + 1, sliceB m 0 (12 * k) ++ sliceB m (12 * k) 12) }) u, ?_, ?_⟩
    · rw [List.range_succ, List.foldl_append, hfold]
      exact htake
    · have hjoin := sliceB_add m 0 (12 * k) 12
      rw [Nat.zero_add] at hjoin
      rw [onPeer, getPort_onPort_same, segsHeld, if_neg (Nat.succ_ne_zero k), Nat.mul_succ, hjoin]

end

/-- Settles O46: the two ends by their definitions, the segments by induction on how many have come. -/
theorem bothEndsDeriveTheSameExchange : Obligations.BothEndsDeriveTheSameExchange := by
  unfold Obligations.BothEndsDeriveTheSameExchange
  refine ⟨fun e f hne hmine htheirs hcert htheirCert => ?_, fun s port ctype m _ hmin hmax hlen hfirst => ?_⟩
  · have hend := isEndA_opposite hne hmine htheirs
    have hhash := hash1_opposite hne hmine htheirs hcert htheirCert
    have hback : (!isEndA f) = isEndA e := by rw [hend, Bool.not_not]
    refine ⟨hend, hhash, ?_, fun hprk hh2 pair => ?_⟩
    · rw [hback, proofText, hhash, proofText]
    · rw [hback, finishMac, finishMac, hprk, hh2]
  · intro last seg took
    have hlast : last < 2 ^ 12 := by simp only [last, ceilDiv]; omega
    obtain ⟨u, hfold, hheld⟩ := takeNext_before (m := m) (ctype := ctype) hfirst hlast last (Nat.le_refl _)
    have htake := takeSegment_inOrder hheld (fun h => by rw [h]; rfl) (sliceB_length m (12 * last) 12) (Nat.le_refl _) hlast
    have hjoin := sliceB_add m 0 (12 * last) 12
    rw [Nat.zero_add] at hjoin
    have hwhole : m.length ≤ 12 * last + 12 := by simp only [last, ceilDiv]; omega
    have hpast : 12 * last < m.length := by simp only [last, ceilDiv]; omega
    have hlen' : leAt (sliceB m 0 (12 * last + 12)) 0 2 = m.length := by
      rw [sliceB_past hwhole, ← hlen, leAt, leAt]
      congr 1
      simp only [sliceB_eq_map]
      refine List.map_congr_left fun i hi => ?_
      have hi : i < m.length := Nat.lt_of_lt_of_le (List.mem_range.1 hi) (by omega)
      simp [nth, List.getElem?_append_left hi]
    rw [if_neg (Nat.lt_irrefl _), ← hjoin, hlen', sliceB_length, if_neg (by omega), sliceB_past hwhole, List.take_left' rfl] at htake
    have htook : took = takeNext port ctype (fun k => segPacket ctype k last (sliceB m (12 * k) 12)) (some (u, none)) last := by
      show (List.range (last + 1)).foldl (takeNext port ctype (fun k => segPacket ctype k last (sliceB m (12 * k) 12))) (some (s, none)) = _
      rw [List.range_succ, List.foldl_append, hfold]
      rfl
    rw [htook]
    exact congrArg (Option.map (·.2)) htake

end Sys2Proof.Machine
end

/-! ## The peer exchange, the switch to RUN and measurements (R527, R529 to R535) -/

section
namespace Sys2Proof.Machine

/-! ### Messages whole and segments out of order (R529) -/

section
variable {s u : State} {port ctype : Nat} {p : Packet} {m : List Byte}

theorem linksOn_of_linkRuns (h : linkRuns s port = true) : linksOn s = true := by
  simp only [linkRuns, Bool.and_eq_true] at h
  exact h.1.1

/-- A message of the exchange that is whole reaches its work. -/
theorem keyingMsg_whole (hk : (getPort s port).lstate = .keying) (h : MessageWhole s ctype port p m u) (f : List Byte → State → State) :
    keyingMsg ctype port p f s = f m u := by
  obtain ⟨hruns, htype, htake⟩ := h
  have hruns' : linkRuns (takeDelivered port p s) port = true := hruns
  have hk' : (getPort (takeDelivered port p s) port).lstate = .keying := hk
  unfold keyingMsg
  dsimp only
  rw [if_neg (by simp [linksOn_of_linkRuns hruns]), if_neg (by simp [hruns', hk', htype]), htake]

/-- A segment out of order aborts the exchange with cause 1. -/
theorem keyingMsg_outOfOrder (hruns : linkRuns s port = true) (hk : (getPort s port).lstate = .keying) (htype : p.ctype = ctype)
    (htake : takeSegment port ctype p (takeDelivered port p s) = none) (f : List Byte → State → State) :
    keyingMsg ctype port p f s = abortPort port 1 (takeDelivered port p s) := by
  have hruns' : linkRuns (takeDelivered port p s) port = true := hruns
  have hk' : (getPort (takeDelivered port p s) port).lstate = .keying := hk
  unfold keyingMsg
  dsimp only
  rw [if_neg (by simp [linksOn_of_linkRuns hruns]), if_neg (by simp [hruns', hk', htype]), htake]

/-- A measurement message that is whole reaches its work. -/
theorem runMsg_whole (hrun : portRun s port = true) (h : MessageWhole s ctype port p m u) (f : List Byte → State → State) :
    runMsg ctype port p f s = f m u := by
  obtain ⟨hruns, htype, htake⟩ := h
  have hruns' : linkRuns (takeDelivered port p s) port = true := hruns
  have hrun' : portRun (takeDelivered port p s) port = true := hrun
  unfold runMsg
  dsimp only
  rw [if_neg (by simp [linksOn_of_linkRuns hruns]), if_neg (by simp [hruns', hrun', htype]), htake]

/-- Taking a segment leaves the security block. -/
theorem takeSegment_sec {v : State} {o : Option (List Byte)} (h : takeSegment port ctype p s = some (v, o)) : v.sec = s.sec := by
  unfold takeSegment at h
  dsimp only at h
  split at h
  · cases h
  · split at h
    · cases h
    · split at h
      · cases h; rfl
      · split at h
        · cases h
        · cases h; rfl

end

/-! ### What messages sent leave of their port -/

/-- The instant, and what an exchange reads of a port: its link state and its peer. -/
def exchangeFace (p : Nat) (s : State) : Tide × LState × Peer := (s.tide, (getPort s p).lstate, (getPort s p).peer)

theorem LinkOnly.exchangeFace {p : Nat} {s t : State} (h : LinkOnly p s t) : exchangeFace p t = exchangeFace p s := by
  obtain ⟨htide, l, hl⟩ := h
  rw [Machine.exchangeFace, Machine.exchangeFace, htide, hl]

theorem getPort_soundCtl_linkSend (p : Nat) (x y : Packet) (s : State) : ∃ n l, getPort (soundCtl p x (linkSend p y s)) p =
    { getPort s p with pktsTx := n, link := { (getPort s p).link with tx := l } } := by
  have hheard (u : State) : getPort (soundCtl p x u) p = getPort u p := rfl
  rw [hheard, linkSend, getPort_onPort_same]
  exact ⟨_, _, rfl⟩

/-- A message sent adds its segments to what the link has to send. -/
theorem getPort_sendMsg (p ctype : Nat) (m : List Byte) (s : State) : ∃ n l, getPort (sendMsg p ctype m s) p =
    { getPort s p with pktsTx := n, link := { (getPort s p).link with tx := l } } := by
  unfold sendMsg
  refine forAll_keeps (P := fun u => ∃ n l, getPort u p = { getPort s p with pktsTx := n, link := { (getPort s p).link with tx := l } })
    (fun k u hu => ?_) _ _ ⟨_, _, rfl⟩
  obtain ⟨n, l, hu⟩ := hu
  dsimp only
  obtain ⟨n', l', h⟩ := getPort_soundCtl_linkSend p ((ctlPkt vcCTRL (helloEpid (getPort s p).peer.hello % 2 ^ 18) 0 0
    (segBody ctype k (ceilDiv m.length 12 - 1) (sliceB m (12 * k) 12))).setSrc (selfEpid u)) ((ctlPkt vcCTRL
    (helloEpid (getPort s p).peer.hello % 2 ^ 18) 0 0 (segBody ctype k (ceilDiv m.length 12 - 1) (sliceB m (12 * k) 12))).setSrc (selfEpid u)) u
  exact ⟨n', l', h.trans (by rw [hu])⟩

theorem exchangeFace_sendMsg (p ctype : Nat) (m : List Byte) (s : State) : exchangeFace p (sendMsg p ctype m s) = exchangeFace p s := by
  obtain ⟨n, l, h⟩ := getPort_sendMsg p ctype m s
  have htide : (sendMsg p ctype m s).tide = s.tide := by
    unfold sendMsg
    exact forAll_same (g := State.tide) (by intro _ _; rfl) _ _
  rw [exchangeFace, htide, h, exchangeFace]

theorem exchangeFace_sendNew (p : Nat) (s : State) : exchangeFace p ((sendNew p s).getD s) = exchangeFace p s := by
  have hdrop (l : List TxPkt) (u : State) : exchangeFace p (forAll l (fun t s =>
      if t.die < 4 then dropOwner t.die t.buf (ownQueue p t.queue) s else s) u) = exchangeFace p u := by
    refine forAll_same (g := exchangeFace p) (fun t v => ?_) l u
    split
    · rw [exchangeFace, getPort_dropOwner, dropOwner_frame, exchangeFace]
    · rfl
  have hlink (f : Link → Link) : exchangeFace p (onLink p f s) = exchangeFace p s := (linkOnly_onLink p f s).exchangeFace
  unfold sendNew
  dsimp only
  split
  · rfl
  · split
    · rfl
    · exact (linkOnly_emitFlit _ _ _ _ _ _ _).exchangeFace.trans ((hdrop _ _).trans (hlink _))

/-! ### Ends of an exchange (R533) -/

/-- The peer of a port whose exchange ends now: the abort noted, and the port held after three within 1 s. -/
def aborted (now : Nat) (e : Peer) : Peer :=
  let l := e.aborts.filter (fun t => now < t + 1000000000) ++ [now]
  { e with aborts := l, held := e.held || decide (3 ≤ l.length) }

theorem exchangeFace_noteAbort (p cause : Nat) (byPeer : Bool) (s : State) : exchangeFace p (noteAbort p cause byPeer s) =
    (s.tide, (getPort s p).lstate, aborted s.tide.now (getPort s p).peer) := by
  rw [exchangeFace, noteAbort, getPort_postDev, postDev_tide, onPeer, getPort_onPort_same]
  rfl

/-- A port in KEYING that is declared down goes to DETECT or DOWN as it is enabled, its directions plain again. -/
theorem declareDown_keying {p : Nat} {s : State} (hk : (getPort s p).lstate = .keying) (cause : Nat) (tell : Bool) :
    ((getPort (declareDown p cause tell s) p).lstate = .detect ∨ (getPort (declareDown p cause tell s) p).lstate = .down)
    ∧ (getPort (declareDown p cause tell s) p).peer = { (getPort s p).peer with runTx := false, runRx := false }
    ∧ ((getPort s p).peer.held = true → (getPort (declareDown p cause tell s) p).lstate = .down) := by
  suffices hend : ∀ (up : Bool) (u : State), LinkOnly p s u →
      let t := toDetect p (recordDown p up (stopLink p u))
      ((getPort t p).lstate = .detect ∨ (getPort t p).lstate = .down)
      ∧ (getPort t p).peer = { (getPort s p).peer with runTx := false, runRx := false }
      ∧ ((getPort s p).peer.held = true → (getPort t p).lstate = .down) by
    unfold declareDown takeDown
    rw [if_neg (by simp [hk])]
    dsimp only
    split
    · exact hend _ _ ((linkOnly_onLink _ _ _).trans (linkOnly_emitFlit _ _ _ _ _ _ _))
    · exact hend _ _ (linkOnly_of_port rfl rfl)
  rintro up u ⟨-, l, hl⟩
  have hport : getPort (recordDown p up (stopLink p u)) p = stoppedPort u p (getPort u p) := by
    rw [getPort_congr (recordDown_net _ _ _), getPort_stopLink]
  refine ⟨?_, ?_, fun hheld => ?_⟩
  · rw [getPort_toDetect]
    cases portEnabled (recordDown p up (stopLink p u)) p
    · exact .inr rfl
    · exact .inl rfl
  · rw [getPort_toDetect, hport, hl]
    rfl
  · have hoff : portEnabled (recordDown p up (stopLink p u)) p = false := by
      simp [portEnabled, hport, stoppedPort, hl, hheld]
    rw [getPort_toDetect, hoff]
    rfl

/-- An abort takes the port out of KEYING, and the third within 1 s holds it DOWN (R533). -/
theorem abortPort_ends {p : Nat} {s : State} (hk : (getPort s p).lstate = .keying) (cause : Nat) :
    (getPort (abortPort p cause s) p).lstate ∈ [LState.detect, .down] ∧ (getPort (abortPort p cause s) p).peer.runTx = false
    ∧ (getPort (abortPort p cause s) p).peer.runRx = false
    ∧ (2 ≤ ((getPort s p).peer.aborts.filter (fun a => s.tide.now < a + 1000000000)).length →
        (getPort (abortPort p cause s) p).peer.held = true ∧ (getPort (abortPort p cause s) p).lstate = .down) := by
  unfold abortPort
  extract_lets u₁ u₂ u₃
  have hface : exchangeFace p u₃ = exchangeFace p s :=
    (exchangeFace_sendNew p u₂).trans ((exchangeFace_sendMsg _ _ _ _).trans (linkOnly_onLink _ _ _).exchangeFace)
  simp only [exchangeFace, Prod.mk.injEq] at hface
  obtain ⟨htide, hstate, hpeer⟩ := hface
  have hnoted := exchangeFace_noteAbort p cause false u₃
  rw [htide, hstate, hpeer] at hnoted
  simp only [exchangeFace, Prod.mk.injEq] at hnoted
  obtain ⟨-, hstate', hpeer'⟩ := hnoted
  obtain ⟨hdown, hend, hheld⟩ := declareDown_keying (hstate'.trans hk) 2 true
  rw [hpeer'] at hend hheld
  refine ⟨by simpa using hdown, by rw [hend], by rw [hend], fun hthree => ?_⟩
  have hhold : (aborted s.tide.now (getPort s p).peer).held = true := by
    simp only [aborted, List.length_append, List.length_singleton, Bool.or_eq_true, decide_eq_true_eq]
    exact .inr (by omega)
  exact ⟨by rw [hend]; exact hhold, hheld hhold⟩

/-! ### PROOF, keys and FINISH (R530 to R532) -/

/-- The pair at which this end will switch: far enough behind the one that carries its FINISH. -/
def switchPair (s : State) (port : Nat) : Nat :=
  pairOf s port + switchDistance (getPort s port).rate + Config.switchSlack port (pairOf s port)

/-- The peer of a port as its PROOF verifies. -/
def proven (m : List Byte) (pair : Nat) (e : Peer) : Peer :=
  let e := { e with proof := m }
  let h2 := sha (hash1 e ++ inAB e e.myProof e.proof)
  { e with h2 := h2, prk := hmac h2 (x25519 e.eph (sliceB e.hello 48 32)), eph := [], switchTx := some pair }

theorem proven_h2 (m : List Byte) (pair : Nat) (e : Peer) : (proven m pair e).h2 = sha (hash1 e ++ inAB e e.myProof m) := by
  simp only [proven, hash1, inAB, isEndA]
  rfl

theorem proven_prk (m : List Byte) (pair : Nat) (e : Peer) :
    (proven m pair e).prk = hmac (proven m pair e).h2 (x25519 e.eph (sliceB e.hello 48 32)) := by
  simp only [proven]

/-- The keys of a link, each direction by the end it comes from (R531). -/
def keyed (prk : List Byte) (a : Bool) (l : Link) : Link := { l with
  keyTx := expandKey prk (dirLabel a "key") 32, keyRx := expandKey prk (dirLabel (!a) "key") 32,
  saltTx := expandKey prk (dirLabel a "salt") 4, saltRx := expandKey prk (dirLabel (!a) "salt") 4 }

/-- The state behind a PROOF that verifies: keys derived, FINISH sent. -/
def proofTaken (port : Nat) (m : List Byte) (s : State) : State :=
  let e := (getPort s port).peer
  let f := proven m (switchPair s port) e
  sendMsg port 0x23 (peerMsg (bytesLE 4 (switchPair s port) ++ finishMac f (isEndA e) (switchPair s port)))
    (onLink port (keyed f.prk (isEndA e)) (onPeer port (fun _ => f) s))

theorem proofMsg_expected {port : Nat} {m : List Byte} {s : State} (hcert : (getPort s port).peer.cert ≠ [])
    (hproof : (getPort s port).peer.proof = []) (hm : m.length = 66) :
    let e := (getPort s port).peer
    proofMsg port m s = if edVerify (leafKey (e.cert.drop 2)) (proofText e (!isEndA e)) (m.drop 2) = true then proofTaken port m s
      else abortPort port 4 s := by
  unfold proofMsg proofTaken proven keyed switchPair
  dsimp only
  rw [if_neg (by simp [hcert, hproof, hm]), ite_not]

theorem getPort_proofTaken (port : Nat) (m : List Byte) (s : State) : ∃ n l,
    let e := (getPort s port).peer
    let f := proven m (switchPair s port) e
    getPort (proofTaken port m s) port = { getPort s port with
      peer := f, pktsTx := n, link := { keyed f.prk (isEndA e) (getPort s port).link with tx := l } } := by
  obtain ⟨n, l, h⟩ := getPort_sendMsg port 0x23 (peerMsg (bytesLE 4 (switchPair s port) ++
      finishMac (proven m (switchPair s port) (getPort s port).peer) (isEndA (getPort s port).peer) (switchPair s port)))
    (onLink port (keyed (proven m (switchPair s port) (getPort s port).peer).prk (isEndA (getPort s port).peer))
      (onPeer port (fun _ => proven m (switchPair s port) (getPort s port).peer) s))
  rw [getPort_onLink_same, onPeer, getPort_onPort_same] at h
  exact ⟨n, l, h⟩

/-! ### The switch to RUN (R532, R534) -/

section
variable (p : Nat) (s : State)

/-- What the end of the exchange leaves as it is: the network but for its markers, and that a port has run. -/
theorem peerChanged_net (old new : Peer) : (peerChanged p old new s).net = s.net ∧ (peerChanged p old new s).shoal = s.shoal := by
  have hunbind : (unbindAlone p s).net = s.net ∧ (unbindAlone p s).shoal = s.shoal := by
    unfold unbindAlone
    split <;> exact ⟨rfl, rfl⟩
  unfold peerChanged
  split
  · exact ⟨rfl, rfl⟩
  · split
    · rw [postDev_net, postDev_shoal]
      exact hunbind
    · exact ⟨rfl, rfl⟩

@[simp] theorem setTState_net (st : TState) : (setTState st s).net = s.net := by
  unfold setTState
  split <;> simp

@[simp] theorem setTState_shoal (st : TState) : (setTState st s).shoal = s.shoal := by
  unfold setTState
  split <;> simp

@[simp] theorem retide_net : (retide s).net = s.net := by
  unfold retide
  dsimp only
  repeat' split
  all_goals simp

@[simp] theorem retide_shoal : (retide s).shoal = s.shoal := by
  unfold retide
  dsimp only
  repeat' split
  all_goals simp

/-- A marker of the cut goes to what the link has to send. -/
theorem getPort_markAtRun : (∃ l, getPort (markAtRun p s) p = { getPort s p with link := { (getPort s p).link with tx := l } })
    ∧ (markAtRun p s).shoal = s.shoal := by
  have hheard (k : Packet) (u : State) : getPort (soundCtl p k u) p = getPort u p := rfl
  unfold markAtRun
  split
  · refine ⟨?_, rfl⟩
    rw [sendMark, hheard, linkMark, getPort_onLink_same]
    exact ⟨_, rfl⟩
  · exact ⟨⟨_, rfl⟩, rfl⟩

/-- What the exchange records of the peer as the port enters RUN (R534). -/
def recorded (e : Peer) : Peer :=
  { e with role := some (helloRole e.hello), epid := helloEpid e.hello % 2 ^ 18, leaf := leafKey (e.cert.drop 2) }

/-- With one direction still plain the port stays in KEYING. -/
theorem linkToRun_waits (h : ¬ ((getPort s p).peer.runTx = true ∧ (getPort s p).peer.runRx = true)) : linkToRun p s = s := if_pos h

/-- With both directions switched the port is in RUN, its peer recorded. -/
theorem linkToRun_runs (h : (getPort s p).peer.runTx = true ∧ (getPort s p).peer.runRx = true) :
    (getPort (linkToRun p s) p).lstate = .run ∧ (getPort (linkToRun p s) p).peer = recorded (getPort s p).peer
    ∧ (getPort (linkToRun p s) p).link.slotTx = (getPort s p).link.slotTx
    ∧ (getPort (linkToRun p s) p).link.slotRx = (getPort s p).link.slotRx ∧ (linkToRun p s).shoal.everRun = true := by
  unfold linkToRun
  dsimp only
  rw [if_neg (not_not_intro h)]
  generalize hu : onShoal _ (onLink p _ (onPort p _ s)) = u
  obtain ⟨hchanged, hshoal⟩ := peerChanged_net p u (getPort s p).peer (recorded (getPort s p).peer)
  obtain ⟨⟨l, hmark⟩, hkept⟩ := getPort_markAtRun p (peerChanged p (getPort s p).peer (recorded (getPort s p).peer) u)
  have hport : getPort (postPort p 6 0 (retide (markAtRun p (peerChanged p (getPort s p).peer (recorded (getPort s p).peer) u)))) p =
      { getPort u p with link := { (getPort u p).link with tx := l } } := by
    rw [getPort_congr (postPort_net _ _ _ _), getPort_congr (retide_net _), hmark, getPort_congr hchanged]
  have hrun : (postPort p 6 0 (retide (markAtRun p (peerChanged p (getPort s p).peer (recorded (getPort s p).peer) u)))).shoal = u.shoal := by
    rw [postPort, postDev_shoal, retide_shoal, hkept, hshoal]
  have hnow : getPort u p = { getPort s p with
      lstate := .run, peer := recorded (getPort s p).peer, pktsTx := 0, pktsRx := 0, reqKind := 0,
      link := { (getPort s p).link with goodAt := s.tide.now, dataAt := s.tide.now } } := by
    have hheld (f : Shoal → Shoal) (v : State) : getPort (onShoal f v) p = getPort v p := rfl
    rw [← hu, hheld, getPort_onLink_same, getPort_onPort_same]
    rfl
  refine ⟨?_, ?_, ?_, ?_, ?_⟩
  · exact (congrArg Port.lstate hport).trans (by rw [hnow])
  · exact (congrArg Port.peer hport).trans (by rw [hnow])
  · exact (congrArg (·.link.slotTx) hport).trans (by rw [hnow])
  · exact (congrArg (·.link.slotRx) hport).trans (by rw [hnow])
  · exact (congrArg Shoal.everRun hrun).trans (by rw [← hu]; rfl)

/-- Behind the switch of a direction the port is in RUN if the other runs, and still in KEYING otherwise. -/
theorem linkToRun_switched {other : Bool} (hk : (getPort s p).lstate = .keying)
    (hboth : (getPort s p).peer.runTx = true ∧ (getPort s p).peer.runRx = true ↔ other = true) :
    (getPort (linkToRun p s) p).lstate = (if other = true then .run else .keying)
    ∧ (getPort (linkToRun p s) p).peer.runTx = (getPort s p).peer.runTx ∧ (getPort (linkToRun p s) p).peer.runRx = (getPort s p).peer.runRx
    ∧ (getPort (linkToRun p s) p).link.slotTx = (getPort s p).link.slotTx
    ∧ (getPort (linkToRun p s) p).link.slotRx = (getPort s p).link.slotRx
    ∧ (other = true → (getPort (linkToRun p s) p).peer = recorded (getPort s p).peer ∧ (linkToRun p s).shoal.everRun = true) := by
  by_cases h : other = true
  · obtain ⟨hstate, hpeer, htx, hrx, hrun⟩ := linkToRun_runs p s (hboth.2 h)
    exact ⟨by rw [hstate, if_pos h], by rw [hpeer]; rfl, by rw [hpeer]; rfl, htx, hrx, fun _ => ⟨hpeer, hrun⟩⟩
  · rw [linkToRun_waits p s (fun hruns => h (hboth.1 hruns)), if_neg h]
    exact ⟨hk, rfl, rfl, rfl, rfl, fun hother => absurd hother h⟩

end

/-- The port of a transmit direction that switches at its pair. -/
def switchTxPort (s : State) (p : Nat) (x : Port) : Port := { x with
  peer := { x.peer with runTx := true },
  link := { x.link with slotTx := 0, keyTxSlot := 0, keyTxNo := 0, baseTx := pairAfter s p (x.link.baseTx + x.link.slotTx) } }

/-- The port of a receive direction that switches at its pair. -/
def switchRxPort (s : State) (p : Nat) (x : Port) : Port := { x with
  peer := { x.peer with runRx := true },
  link := { x.link with slotRx := 0, keyRxNo := 0, baseRx := pairAfter s p (x.link.baseRx + x.link.slotRx) } }

section
variable {s : State} {p n : Nat} (hruns : linkRuns s p = true) (hk : (getPort s p).lstate = .keying)
include hruns hk

theorem doLinkRunSwitch_tx (hplain : (getPort s p).peer.runTx = false) (hat : (getPort s p).peer.switchTx = some n)
    (hslot : 5 * portWidth s p * n ≤ (getPort s p).link.slotTx) (hsent : finishWaits (getPort s p).link = false) :
    doLinkRunSwitch p true s = linkToRun p (onPort p (switchTxPort s p) s) := by
  unfold doLinkRunSwitch
  dsimp only
  rw [if_neg (by simp [hruns, hk]), if_pos rfl, if_neg (by simp [hplain, hat, hslot]), if_neg (by simp [hsent])]
  rfl

theorem doLinkRunSwitch_rx (hplain : (getPort s p).peer.runRx = false) (hat : (getPort s p).peer.switchRx = some n)
    (hslot : 5 * portWidth s p * n ≤ (getPort s p).link.slotRx) :
    doLinkRunSwitch p false s = linkToRun p (onPort p (switchRxPort s p) s) := by
  unfold doLinkRunSwitch
  dsimp only
  rw [if_neg (by simp [hruns, hk]), if_neg Bool.false_ne_true, if_neg (by simp [hplain, hat, hslot])]
  rfl

end

/-- HELLO is kept where its length, its version, its role and its nonce stand, once. -/
theorem helloMsg_eq (port : Nat) (m : List Byte) (s : State) :
    let e := (getPort s port).peer
    helloMsg port m s = if m.length = 80 ∧ byteAt m 2 = 1 ∧ helloRole m ≤ 1 ∧ e.hello = [] ∧ helloNonce m ≠ helloNonce e.myHello then
        onPeer port (fun x => { x with hello := m }) s
      else abortPort port 1 s := by
  dsimp only
  rw [helloMsg, ← ite_not]
  refine if_congr ?_ rfl rfl
  simp only [List.isEmpty_iff, ← Nat.not_le]
  tauto

/-- CERT, expected and no longer than it may be, is checked and answered. -/
theorem certMsg_expected {port : Nat} {m : List Byte} {s : State} (hhello : (getPort s port).peer.hello ≠ [])
    (hcert : (getPort s port).peer.cert = []) (hm : m.length ≤ 8194) :
    certMsg port m s = match certCause s (getPort s port).peer.hello (m.drop 2) with
      | some c => abortPort port c s
      | none =>
        let e := { (getPort s port).peer with cert := m }
        let proof := peerMsg (aliasSign s (proofText e (isEndA e)))
        sendMsg port 0x22 proof (onPeer port (fun _ => { e with myProof := proof }) s) := by
  unfold certMsg
  dsimp only
  refine (if_neg (by simp [hhello, hcert, hm])).trans ?_
  cases certCause s (getPort s port).peer.hello (m.drop 2) <;> rfl

/-- FINISH, expected and whole, fixes the switch pair where its MAC verifies. -/
theorem finishMsg_expected {port : Nat} {m : List Byte} {s : State} (hproof : (getPort s port).peer.proof ≠ [])
    (hswitch : (getPort s port).peer.switchRx = none) (hm : m.length = 70) :
    let e := (getPort s port).peer
    finishMsg port m s = if m.drop 6 = finishMac e (!isEndA e) (leAt m 2 4) then onPeer port (fun x => { x with switchRx := some (leAt m 2 4) }) s
      else abortPort port 5 s := by
  unfold finishMsg
  dsimp only
  rw [if_neg (by simp [hproof, hswitch, hm]), ite_not]

/-- The checks of a chain read the security block alone. -/
theorem certCause_congr {s t : State} (h : t.sec = s.sec) (hello chain : List Byte) : certCause t hello chain = certCause s hello chain := by
  unfold certCause revokedKey
  rw [h]

/-- Settles O45: each message of the exchange by the guard it passes, the ends of an exchange by what a declaration leaves, and
each switch by what the entry to RUN leaves. -/
theorem peerExchangeInKeying : Obligations.PeerExchangeInKeying := by
  unfold Obligations.PeerExchangeInKeying
  refine ⟨⟨fun s u port p m hk => ?_, fun s port ctype p c hc hruns hk htype htake => ?_, fun s port hruns hk hdue => ?_,
    fun s port cause _ hk => abortPort_ends hk cause⟩, fun s p n hruns hk => ⟨fun hplain hat hslot hsent => ?_, fun hplain hat hslot => ?_⟩,
    fun s u port p m hrun => ⟨fun h hm hnone hfrozen => ?_, fun h => ?_⟩⟩
  · refine ⟨fun h => ?_, fun h hhello hcert hm => ?_, fun h hcert hproof hm => ?_, fun h hproof hswitch hm => ?_, fun h => ?_⟩
    · exact congrArg Host.Outcome.next ((keyingMsg_whole hk h _).trans (helloMsg_eq port m u))
    · have ⟨_, _, htake⟩ := h
      have hsec : u.sec = s.sec := takeSegment_sec (s := takeDelivered port p s) htake
      have hchecked := certMsg_expected hhello hcert hm
      rw [certCause_congr hsec] at hchecked
      exact congrArg Host.Outcome.next ((keyingMsg_whole hk h _).trans hchecked)
    · obtain ⟨n, l, hport⟩ := getPort_proofTaken port m u
      refine ⟨proofTaken port m u, switchPair u port, congrArg Host.Outcome.next ((keyingMsg_whole hk h _).trans
        (proofMsg_expected hcert hproof hm)), ?_⟩
      rw [hport]
      exact ⟨rfl, rfl, proven_h2 _ _ _, proven_prk _ _ _, rfl, rfl, rfl, rfl, rfl, Nat.le_add_right _ _⟩
    · exact congrArg Host.Outcome.next ((keyingMsg_whole hk h _).trans (finishMsg_expected hproof hswitch hm))
    · exact congrArg Host.Outcome.next (keyingMsg_whole hk h _)
  · rcases hc with ⟨rfl, rfl⟩ | ⟨rfl, rfl⟩ | ⟨rfl, rfl⟩ | ⟨rfl, rfl⟩ | ⟨rfl, rfl⟩ <;>
      exact congrArg Host.Outcome.next (keyingMsg_outOfOrder hruns hk htype htake _)
  · exact congrArg Host.Outcome.next (if_pos ⟨hruns, hk, by simp [due, hdue]⟩)
  · have hport : getPort (onPort p (switchTxPort s p) s) p = switchTxPort s p (getPort s p) := getPort_onPort_same _ _ _
    obtain ⟨hstate, htx, -, hslotTx, -, hboth⟩ := linkToRun_switched p (onPort p (switchTxPort s p) s) (other := (getPort s p).peer.runRx)
      (by rw [hport]; exact hk) (by rw [hport]; simp [switchTxPort])
    rw [hport] at htx hslotTx hboth
    refine ⟨_, congrArg Host.Outcome.next (doLinkRunSwitch_tx hruns hk hplain hat hslot hsent), htx, hslotTx, hstate, fun hother => ?_⟩
    obtain ⟨hpeer, hrun⟩ := hboth hother
    rw [hpeer]
    exact ⟨rfl, rfl, rfl, hrun⟩
  · have hport : getPort (onPort p (switchRxPort s p) s) p = switchRxPort s p (getPort s p) := getPort_onPort_same _ _ _
    obtain ⟨hstate, -, hrx, -, hslotRx, hboth⟩ := linkToRun_switched p (onPort p (switchRxPort s p) s) (other := (getPort s p).peer.runTx)
      (by rw [hport]; exact hk) (by rw [hport]; simp [switchRxPort])
    rw [hport] at hrx hslotRx hboth
    refine ⟨_, congrArg Host.Outcome.next (doLinkRunSwitch_rx hruns hk hplain hat hslot), hrx, hslotRx, hstate, fun hother => ?_⟩
    rw [(hboth hother).1]
    rfl
  · refine (congrArg Host.Outcome.next (if_neg (by simp [hfrozen]))).trans (congrArg Host.Outcome.next ((runMsg_whole hrun h _).trans ?_))
    have hwaits : (getPort u port).link.tx.any (fun t => t.pkt.ctype == 0x26) = false := by simpa using hnone
    exact if_neg (by simp [hm, hwaits])
  · exact congrArg Host.Outcome.next (runMsg_whole hrun h _)

end Sys2Proof.Machine
end

/-! ## Training (R384 to R391, R493) -/

section
namespace Sys2Proof.Machine

/-! ### A change to a row of lanes -/

/-- A change made to every lane of a list has been made to each of them. -/
theorem getLane_forAll_onLane {P : Lane → Prop} {f : Lane → Lane} (hf : ∀ y, P (f y)) {l : Nat} :
    ∀ (ls : List Nat) (s : State), l ∈ ls ∨ P (getLane s l) → P (getLane (forAll ls (fun k => onLane k f) s) l)
  | [], _, h => h.resolve_left List.not_mem_nil
  | k :: r, s, h => by
    refine getLane_forAll_onLane hf r (onLane k f s) ?_
    by_cases hk : k = l
    · subst hk
      rw [getLane_onLane_same]
      exact .inr (hf _)
    · rw [getLane_onLane_ne _ _ _ _ hk]
      exact h.imp_left (fun hmem => (List.mem_cons.1 hmem).resolve_left (Ne.symm hk))

/-! ### Tap requests (R384, R385) -/

theorem tapsOk_tapPreset (k : Nat) : tapsOk (tapPreset k) = true := by
  unfold tapPreset
  split
  · decide
  · split <;> decide

/-- A request is taken whole, into taps that R384 allows, or not at all. -/
theorem tapsOk_tapRequest {taps : List Int} (h : tapsOk taps = true) (c : Word) : tapsOk (tapRequest c taps).1 = true := by
  unfold tapRequest
  extract_lets preset new st moved
  split
  · exact tapsOk_tapPreset preset
  · split
    next => exact h
    next hst =>
      split
      next => exact h
      next hsum =>
        have hnone : ∀ i ∈ List.range 5, (if tapCode c i = 3 then 3 else if tapInRange i (nth new i 0) = true then 0 else 2) = 0 := by
          simpa [st] using hst
        have hin : ∀ i ∈ List.range 5, tapInRange i (nth new i 0) = true := fun i hi => by
          have hi' := hnone i hi
          split_ifs at hi' with hcode hrange
          exact hrange
        rw [tapsOk, List.all_eq_true.2 hin, Bool.true_and]
        exact not_not.1 hsum

/-! ### Signal (R386, R493) -/

section
variable {s : State} {p : Nat}

theorem doSignalDetect_held (hlinks : linksOn s = true) (hheld : (getPort s p).cliffHold ≠ none) :
    doSignalDetect p s = onPort p (fun x => { x with cliffHold := some s.tide.now }) s :=
  if_pos (by simp [hlinks, Option.isSome_iff_ne_none, hheld])

/-- Signal counts at a port in DETECT that waits for nothing. -/
theorem doSignalDetect_detect (hlinks : linksOn s = true) (hstate : (getPort s p).lstate = .detect) (hpause : (getPort s p).retryAt = none)
    (hfree : (getPort s p).cliffHold = none) : doSignalDetect p s =
      if isEthPort s p then
        postPort p 6 0 (onShoal (fun h => { h with everRun := true }) (onPort p (fun x => { x with lstate := .run, masked := false }) s))
      else if isDrezhPort s p then onPort p (fun x => { x with signal := true, phaseAt := s.tide.now }) s
      else s := by
  unfold doSignalDetect
  dsimp only
  rw [if_neg (by simp [hfree]), if_neg (by simp [hlinks, hstate, hpause])]

end

/-! ### Frames in COEFF (R385, R389) -/

section
variable {inverted : Bool} {control status : Word} {y : Lane} (ready : Bool)

theorem laneFrame_rxInvDet (phase : LState) (hdet : bitAt y.ctl 24 = true) :
    (laneFrame phase inverted control status ready y).rxInvDet = inverted := by
  unfold laneFrame
  simp only [hdet, if_true]
  split_ifs <;> rfl

theorem laneFrame_markers (phase : LState) : (laneFrame phase inverted control status ready y).markers = y.markers + 1 := by
  unfold laneFrame
  dsimp only
  split_ifs <;> rfl

/-- A new request of a frame outside a countdown is taken. -/
theorem laneFrame_request (hcount : bitAt status 7 = false) (hnew : fld control 31 28 ≠ y.echo) :
    let y' := laneFrame .coeff inverted control status ready y
    y'.taps = (tapRequest control y.taps).1 ∧ y'.tapSt = (tapRequest control y.taps).2 ∧ y'.echo = fld control 31 28 := by
  unfold laneFrame
  extract_lets read asked taken y'
  have hasked : asked.echo = y.echo ∧ asked.taps = y.taps := by
    unfold asked
    split <;> exact ⟨rfl, rfl⟩
  obtain ⟨hecho, htaps⟩ := hasked
  have htakes : y' = { asked with taps := taken.1, tapSt := taken.2, echo := fld control 31 28 } :=
    if_pos ⟨rfl, by simp [hcount], by rwa [hecho]⟩
  rw [htakes, ← htaps]
  exact ⟨rfl, rfl, rfl⟩

/-- One of a countdown, or one whose request the lane has taken, leaves the taps. -/
theorem laneFrame_taps (phase : LState) (h : bitAt status 7 = true ∨ fld control 31 28 = y.echo) :
    (laneFrame phase inverted control status ready y).taps = y.taps := by
  unfold laneFrame
  extract_lets read asked taken
  have hasked : asked.echo = y.echo ∧ asked.taps = y.taps := by
    unfold asked
    split <;> exact ⟨rfl, rfl⟩
  obtain ⟨hecho, htaps⟩ := hasked
  rw [if_neg, htaps]
  rintro ⟨-, hcount, hnew⟩
  exact h.elim hcount (fun hsame => hnew (hsame.trans hecho.symm))

/-- A frame on a lane of a port in COEFF: the lane takes it, and the port goes to ALIGN once every lane is ready at both ends. -/
theorem doTrainingFrame_coeff {s : State} {p l : Nat} (hlinks : linksOn s = true) (hport : isDrezhPort s p = true)
    (hstate : (getPort s p).lstate = .coeff) (hlow : p ≤ l) (hhigh : l < p + portWidth s p) (hdet : bitAt (getLane s l).ctl 24 = true) :
    ∃ t, doTrainingFrame p l inverted control status ready s = t
      ∧ getLane t l = laneFrame .coeff inverted control status ready (getLane s l)
      ∧ ((getPort t p).lstate = .coeff ∨ (getPort t p).lstate = .align) := by
  refine ⟨_, rfl, ?_⟩
  unfold doTrainingFrame
  dsimp only
  rw [hstate, if_neg (by simp [hlinks, hport, hlow, hhigh]), if_neg (by simp [hdet])]
  dsimp only
  split_ifs
  · rw [getLane_onPort, getLane_onLane_same, getPort_onPort_same]
    exact ⟨rfl, .inr rfl⟩
  · rw [getLane_onLane_same, getPort_onLane]
    exact ⟨rfl, .inl hstate⟩

end

/-! ### Countdowns (R386, R389) -/

section
variable {s : State} {p : Nat}

theorem dropNoRoute_tide (d b : Nat) (s : State) : (dropNoRoute d b s).tide = s.tide := by
  unfold dropNoRoute
  split
  · rfl
  · rw [releaseStored_frame]
    exact onlyIf_same (g := State.tide) _ _ (count_tide _ _)

theorem backToQueues_tide (p : Nat) (s : State) : (backToQueues p s).tide = s.tide :=
  forAll_same (g := State.tide) (by intro _ _; rfl) _ _

theorem reenterQueues_tide (p : Nat) (s : State) : (reenterQueues p s).tide = s.tide := by
  unfold reenterQueues
  dsimp only
  refine (forAll_same (g := State.tide) (fun e u => ?_) _ _).trans rfl
  split
  · rfl
  · rw [apply_ite State.tide, dropNoRoute_tide]
    exact ite_self _

theorem doPortDownCommit_tide (p : Nat) (s : State) : (doPortDownCommit p s).tide = s.tide := by
  unfold doPortDownCommit
  split
  · rfl
  · dsimp only
    split_ifs
    · exact backToQueues_tide _ _
    · exact (reenterQueues_tide _ _).trans (backToQueues_tide _ _)
    · exact backToQueues_tide _ _

/-- Lanes alone change as pair 0 begins. -/
theorem lanesAfresh_frame (p : Nat) (s : State) : (lanesAfresh p s).tide = s.tide ∧ getPort (lanesAfresh p s) p = getPort s p := by
  unfold lanesAfresh precodersAfresh
  dsimp only
  refine ⟨?_, ?_⟩
  · exact (forAll_same (g := State.tide) (by intro _ _; rfl) _ _).trans (forAll_same (g := State.tide) (by intro _ _; rfl) _ _)
  · exact (forAll_same (g := fun u => getPort u p) (by intro _ _; rfl) _ _).trans
      (forAll_same (g := fun u => getPort u p) (by intro _ _; rfl) _ _)

/-- An exchange begins at the instant, and its two messages change of the link what it has to send alone. -/
theorem getPort_startExchange (p : Nat) (s : State) : (getPort (startExchange p s) p).lstate = (getPort s p).lstate
    ∧ (getPort (startExchange p s) p).peer.startAt = s.tide.now
    ∧ (getPort (startExchange p s) p).link.expect = (getPort s p).link.expect
    ∧ (getPort (startExchange p s) p).link.nextFsn = (getPort s p).link.nextFsn := by
  unfold startExchange
  dsimp only [randomBytes]
  generalize peerMsg (aliasChain _) = cert
  generalize myHelloMsg _ _ _ = hello
  generalize hu : onPeer p _ _ = u
  have hport : (getPort u p).lstate = (getPort s p).lstate ∧ (getPort u p).peer.startAt = s.tide.now
      ∧ (getPort u p).link.expect = (getPort s p).link.expect ∧ (getPort u p).link.nextFsn = (getPort s p).link.nextFsn := by
    rw [← hu, onPeer, getPort_onPort_same]
    exact ⟨rfl, rfl, rfl, rfl⟩
  obtain ⟨_, _, hhello⟩ := getPort_sendMsg p 0x20 hello u
  obtain ⟨_, _, hcert⟩ := getPort_sendMsg p 0x21 cert (sendMsg p 0x20 hello u)
  rw [hcert, hhello]
  exact hport

/-- Pair 0: the port is in KEYING, its link afresh and its exchange begun. -/
theorem getPort_enterKeying (p : Nat) (s : State) : (getPort (enterKeying p s) p).lstate = .keying
    ∧ (getPort (enterKeying p s) p).peer.startAt = s.tide.now
    ∧ (getPort (enterKeying p s) p).link.expect = 0 ∧ (getPort (enterKeying p s) p).link.nextFsn = 0 := by
  unfold enterKeying
  extract_lets u v
  obtain ⟨hstate, hstart, hexpect, hfsn⟩ := getPort_startExchange p (lanesAfresh p v)
  obtain ⟨htide, hport⟩ := lanesAfresh_frame p v
  have hv : getPort v p = { getPort u p with
      lstate := .keying, countdown := none, failed := 0, link := { rxPkts := (getPort u p).link.rxPkts, goodAt := u.tide.now } } := getPort_onPort_same _ _ _
  have hnow : v.tide = s.tide := (backToQueues_tide _ _).trans (doPortDownCommit_tide _ _)
  rw [hstate, hstart, hexpect, hfsn, hport, htide, hnow, hv]
  exact ⟨rfl, rfl, rfl, rfl⟩

theorem doCountdownEnd_detect (hlinks : linksOn s = true) (hzero : (getPort s p).countdown = some 0) (hfar : farCounted s p = true)
    (hstate : (getPort s p).lstate = .detect) : doCountdownEnd p s =
      forAll (portLanes s p) (fun l => onLane l (fun y => { y with markers := 0, noMarker := 0, farCount := none }))
        (onPort p (fun x => { x with lstate := .switch, rate := x.agreed, phaseAt := s.tide.now, countdown := none }) s) := by
  unfold doCountdownEnd
  dsimp only
  rw [if_neg (by simp [hlinks, hzero, hfar]), if_pos hstate]
  rfl

theorem doCountdownEnd_align (hlinks : linksOn s = true) (hzero : (getPort s p).countdown = some 0) (hfar : farCounted s p = true)
    (hstate : (getPort s p).lstate = .align) : doCountdownEnd p s = enterKeying p s := by
  unfold doCountdownEnd
  dsimp only
  rw [if_neg (by simp [hlinks, hzero, hfar]), if_neg (by simp [hstate]), if_pos hstate]

/-! ### A rate that overruns its budget, and a cycle that ends (R390) -/

/-- COEFF has overrun its budget. -/
theorem doPhaseFail_coeff (hlinks : linksOn s = true) (hstate : (getPort s p).lstate = .coeff)
    (hlate : (getPort s p).phaseAt + coeffBudget (getPort s p).rate ≤ s.tide.now) : doPhaseFail p s =
      let failed := (getPort s p).failed ||| rateBit (getPort s p).rate
      if failed = 7 then failCycle p (onPort p (fun x => { x with failed := 7 }) s) else backToDetect p failed s := by
  unfold doPhaseFail
  dsimp only
  rw [hstate, if_neg (by simp [hlinks, due, hlate])]

theorem toDetect_tide (p : Nat) (s : State) : (toDetect p s).tide = s.tide := by
  unfold toDetect endEyes
  dsimp only
  refine (forAll_same (g := State.tide) (by intro _ _; rfl) _ _).trans ?_
  rw [onPort_tide]
  split
  · exact forAll_same (g := State.tide) (by intro _ _; rfl) _ _
  · rfl

/-- A cycle with every rate failed: TRAIN_FAIL, and 1 ms until the next. -/
theorem getPort_failCycle (p : Nat) (s : State) :
    (getPort (failCycle p s) p).trainFail = true ∧ (getPort (failCycle p s) p).retryAt = some (s.tide.now + 1000000) := by
  unfold failCycle
  extract_lets failed t u
  have hnow : t.tide = s.tide := by
    unfold t backToDetect
    rw [onPort_tide, toDetect_tide, count_tide]
  rw [getPort_congr (postPort_net _ _ _ _), getPort_onPort_same, hnow]
  exact ⟨rfl, rfl⟩

theorem doRetryPause_over {tm : Nat} (hlinks : linksOn s = true) (hpause : (getPort s p).retryAt = some tm) (hover : tm ≤ s.tide.now) :
    doRetryPause p s = toDetect p s := by
  unfold doRetryPause
  rw [hpause]
  exact if_pos ⟨hlinks, by simp [due, hover]⟩

end

/-- Settles O42: each command by the guard it passes, COEFF by what a lane takes from a frame, and the entry to KEYING by what the
commit, the lanes and the exchange leave of the port. -/
theorem trainingRunsByItsPhases : Obligations.TrainingRunsByItsPhases := by
  unfold Obligations.TrainingRunsByItsPhases
  refine ⟨fun c taps _ h => tapsOk_tapRequest h c, fun s p hlinks hheld => congrArg Host.Outcome.next (doSignalDetect_held hlinks hheld),
    fun s p hlinks hstate hpause hfree => ?_, fun s p l inverted ready control status hlinks hport hstate hlow hhigh hdet => ?_,
    fun s p hlinks hzero hfar => ⟨fun hstate => ?_, fun hstate => ?_⟩, fun s p hlinks hstate hlate => ?_,
    fun s p tm hlinks hpause hover => congrArg Host.Outcome.next (doRetryPause_over hlinks hpause hover)⟩
  · have hsignal := doSignalDetect_detect hlinks hstate hpause hfree
    refine ⟨fun heth hdrezh => ?_, fun heth => ?_⟩
    · rw [heth, if_neg Bool.false_ne_true, if_pos hdrezh] at hsignal
      exact congrArg Host.Outcome.next hsignal
    · rw [if_pos heth] at hsignal
      refine ⟨_, congrArg Host.Outcome.next hsignal, ?_⟩
      rw [getPort_congr (postPort_net _ _ _ _), getPort_congr (onShoal_net _ _), getPort_onPort_same]
  · obtain ⟨t, hframe, hlane, hphase⟩ := doTrainingFrame_coeff (inverted := inverted) (control := control) (status := status) ready
      hlinks hport hstate hlow hhigh hdet
    refine ⟨t, congrArg Host.Outcome.next hframe, ?_⟩
    rw [hlane]
    exact ⟨laneFrame_rxInvDet ready .coeff hdet, laneFrame_markers ready .coeff, laneFrame_request ready, laneFrame_taps ready .coeff, hphase⟩
  · refine ⟨_, congrArg Host.Outcome.next (doCountdownEnd_detect hlinks hzero hfar hstate), ?_⟩
    rw [forAll_same (g := fun u => getPort u p) (by intro _ _; rfl), getPort_onPort_same]
    exact ⟨rfl, rfl, rfl, fun l hl => getLane_forAll_onLane (P := fun y => y.markers = 0) (fun _ => rfl) _ _ (.inl hl)⟩
  · exact ⟨_, congrArg Host.Outcome.next (doCountdownEnd_align hlinks hzero hfar hstate), getPort_enterKeying p s⟩
  · have hfail := doPhaseFail_coeff hlinks hstate hlate
    refine ⟨fun hsome => congrArg Host.Outcome.next (hfail.trans (if_neg hsome)), fun hall => ?_⟩
    exact ⟨_, congrArg Host.Outcome.next (hfail.trans (if_pos hall)), getPort_failCycle p _⟩

end Sys2Proof.Machine
end

/-! ## Port and lane settings, and a lane's bit stream (R370, R371, R375 to R379, R397 to R402) -/

section
namespace Sys2Proof.Machine

/-! ### Levels (R370, R371) -/

theorem grayUnmap_grayMap : ∀ bits : List Bool, bits.length % 2 = 0 → grayUnmap (grayMap bits) = bits
  | [], _ => rfl
  | [_], h => by simp at h
  | a :: b :: r, h => by
    rw [grayMap, grayUnmap, List.flatMap_cons, levelBits_grayLevel]
    exact congrArg (a :: b :: ·) (grayUnmap_grayMap r (by simp only [List.length_cons] at h; omega))

theorem grayMap_lt : ∀ bits : List Bool, ∀ a ∈ grayMap bits, a < 4
  | [], _, h => by cases h
  | [_], _, h => by cases h
  | b :: c :: r, a, h => by
    obtain rfl | h := List.mem_cons.1 h
    · exact grayLevel_lt b c
    · exact grayMap_lt r a h

theorem precode_lt : ∀ (b : Nat) (levels : List Nat), ∀ a ∈ precode b levels, a < 4
  | _, [], _, h => by cases h
  | b, x :: r, a, h => by
    obtain rfl | h := List.mem_cons.1 h
    · exact Nat.mod_lt _ (by decide)
    · exact precode_lt _ r a h

/-- The receiver adds back the symbol that the precoder took off. -/
theorem unprecode_precode : ∀ (b : Nat) (levels : List Nat), b < 4 → (∀ a ∈ levels, a < 4) → unprecode b (precode b levels) = levels
  | _, [], _, _ => rfl
  | b, a :: r, hb, h => by
    have ha : a < 4 := h a (.head _)
    have hback : ((a + 4 - b % 4) % 4 + b) % 4 = a := by omega
    rw [precode, unprecode, hback,
      unprecode_precode _ r (Nat.mod_lt _ (by decide)) (fun x hx => h x (.tail _ hx))]

/-! ### ENABLE of a port, and what does not read it (R378) -/

/-- ENABLE of a port as its lowest lane holds it. -/
def setEnable (p v : Nat) (s : State) : State := onLane p (fun l => { l with ctl := setFld l.ctl 31 31 v }) s

section
variable (p v : Nat) (s : State)

@[simp] theorem getPort_setEnable (q : Nat) : getPort (setEnable p v s) q = getPort s q := rfl

theorem fld_ctl_setEnable (l : Nat) {hi lo : Nat} (h : hi < 31) :
    fld (getLane (setEnable p v s) l).ctl hi lo = fld (getLane s l).ctl hi lo := by
  unfold setEnable
  by_cases hl : p = l
  · subst hl
    rw [getLane_onLane_same]
    exact fld_setFld_apart _ _ (by decide) (by decide) (.inl h)
  · rw [getLane_onLane_ne _ _ _ _ hl]

theorem bitAt_ctl_setEnable : bitAt (getLane (setEnable p v s) p).ctl 31 = (v % 2 == 1) := by
  rw [setEnable, getLane_onLane_same, bitAt]
  simp only [fld_setFld_same _ _ (le_refl 31) (show 31 < 32 by decide), Nat.reduceAdd, Nat.reduceSub, pow_one]

theorem ethUpper_setEnable (q : Nat) : ethUpper (setEnable p v s) q = ethUpper s q := by
  simp only [ethUpper, bitAt, fld_ctl_setEnable p v s _ (show 28 < 31 by decide), fld_ctl_setEnable p v s _ (show 27 < 31 by decide)]
  rfl

theorem isDrezhPort_setEnable (q : Nat) : isDrezhPort (setEnable p v s) q = isDrezhPort s q := by
  simp only [isDrezhPort, ethUpper_setEnable, bitAt, fld_ctl_setEnable p v s _ (show 28 < 31 by decide)]
  rfl

theorem portExists_setEnable (q : Nat) : portExists (setEnable p v s) q = portExists s q := by
  simp only [portExists, isDrezhPort_setEnable, isEthPort, ethUpper_setEnable, bitAt, fld_ctl_setEnable p v s _ (show 28 < 31 by decide)]
  rfl

theorem linkRuns_setEnable (q : Nat) : linkRuns (setEnable p v s) q = linkRuns s q := by
  simp only [linkRuns, isDrezhPort_setEnable, getPort_setEnable]
  rfl

end

/-! ### A port that is enabled (R378, R379, R386, R397) -/

section
variable {s : State} {p : Nat}

theorem startPort_enabled (hen : portEnabled s p = true) (hexists : portExists s p = true) (hdown : (getPort s p).lstate = .down) :
    startPort p s = if (portLanes s p).any (fun l => fld (getLane s l).ctl 21 20 != 0) then
        onPort p (fun x => { x with
          lstate := .test, squelched := (portLanes s p).all (fun l => fld (getLane s l).ctl 21 20 != 1), rate := fld (getLane s p).ctl 30 29 }) s
      else toDetect p s :=
  if_neg (by simp [hen, hexists, hdown])

theorem endEyes_down (hdown : (getPort s p).lstate = .down) : endEyes p s = s := if_neg (by simp [hdown])

theorem getLane_onLane_ctl {f : Lane → Lane} (hf : ∀ y, (f y).ctl = y.ctl) (k l : Nat) (s : State) :
    (getLane (onLane k f s) l).ctl = (getLane s l).ctl := by
  by_cases hk : k = l
  · subst hk
    rw [getLane_onLane_same, hf]
  · rw [getLane_onLane_ne _ _ _ _ hk]

theorem getLane_toDetect_ctl (p l : Nat) (s : State) : (getLane (toDetect p s) l).ctl = (getLane s l).ctl := by
  unfold toDetect
  dsimp only
  refine (forAll_same (g := fun u => (getLane u l).ctl) ?_ _ _).trans ?_
  · intro k u
    refine getLane_onLane_ctl ?_ k l u
    exact fun _ => rfl
  · rw [getLane_onPort, getLane_endEyes_ctl]

/-- A port that trains from DOWN starts with preset 1 on each of its lanes (R386). -/
theorem getLane_toDetect_taps (hdown : (getPort s p).lstate = .down) {l : Nat} (hl : l ∈ portLanes s p) :
    (getLane (toDetect p s) l).taps = [0, 0, 0, 63, 0] := by
  unfold toDetect
  dsimp only
  rw [endEyes_down hdown]
  exact getLane_forAll_onLane (P := fun y => y.taps = [0, 0, 0, 63, 0]) (fun _ => rfl) _ _ (.inl hl)

/-- A port with its ENABLE set, and not held, as PORT_ENABLE starts it. -/
def enabledPort (p : Nat) (s : State) : State :=
  if bitAt (getLane s p).ctl 31 then setEnable p 1 s
  else onPeer p (fun e => { e with held := false, aborts := if e.held then [] else e.aborts }) (setEnable p 1 s)

theorem doPortEnable_starts (hexists : portExists s p = true) (hdown : (getPort s p).lstate = .down) :
    doPortEnable p s = startPort p (enabledPort p s) := by
  unfold doPortEnable enabledPort setEnable
  exact if_neg (by simp [hexists, hdown])

theorem getLane_enabledPort (p l : Nat) (s : State) : getLane (enabledPort p s) l = getLane (setEnable p 1 s) l := by
  unfold enabledPort
  split <;> rfl

theorem portLanes_enabledPort (p : Nat) (s : State) : portLanes (enabledPort p s) p = portLanes s p := by
  unfold enabledPort
  split <;> rfl

/-- That a port exists is read off the lanes and the groups. -/
theorem portExists_congr {s t : State} (hlanes : t.net.lanes = s.net.lanes) (hgroups : t.net.groups = s.net.groups) (p : Nat) :
    portExists t p = portExists s p := by
  simp only [portExists, isDrezhPort, isEthPort, ethUpper, groupMode, getLane, hlanes, hgroups]

theorem portExists_enabledPort (p : Nat) (s : State) : portExists (enabledPort p s) p = portExists s p := by
  rw [← portExists_setEnable p 1 s p]
  refine portExists_congr ?_ ?_ p <;>
  · unfold enabledPort
    split <;> rfl

theorem getPort_enabledPort (p : Nat) (s : State) : (getPort (enabledPort p s) p).lstate = (getPort s p).lstate
    ∧ (getPort (enabledPort p s) p).cliffHold = (getPort s p).cliffHold
    ∧ ((getPort s p).peer.held = false → (getPort (enabledPort p s) p).peer.held = false) := by
  unfold enabledPort
  split
  · exact ⟨rfl, rfl, id⟩
  · rw [onPeer, getPort_onPort_same]
    exact ⟨rfl, rfl, fun _ => rfl⟩

theorem portEnabled_enabledPort (hlinks : linksOn s = true) (hheld : (getPort s p).peer.held = false) (hfree : (getPort s p).cliffHold = none)
    (halive : p / 64 ∉ s.flt.deadDies) : portEnabled (enabledPort p s) p = true := by
  obtain ⟨-, hcliff, hheld'⟩ := getPort_enabledPort p s
  have hsame : linksOn (enabledPort p s) = linksOn s ∧ (enabledPort p s).flt = s.flt := by
    unfold enabledPort
    split <;> exact ⟨rfl, rfl⟩
  obtain ⟨hlinks', hflt⟩ := hsame
  rw [portEnabled, getLane_enabledPort, bitAt_ctl_setEnable, hlinks', hflt, hcliff, hheld' hheld]
  simp [hlinks, hfree, halive]

/-- PORT_ENABLE of a port in DOWN that nothing holds: TEST where a lane of it has TEST set, else DETECT. -/
theorem doPortEnable_from_down (hlinks : linksOn s = true) (hexists : portExists s p = true) (hdown : (getPort s p).lstate = .down)
    (hheld : (getPort s p).peer.held = false) (hfree : (getPort s p).cliffHold = none) (halive : p / 64 ∉ s.flt.deadDies) :
    let t := doPortEnable p s
    bitAt (getLane t p).ctl 31 = true
      ∧ ((∀ l ∈ portLanes s p, fld (getLane s l).ctl 21 20 = 0) → (getPort t p).lstate = .detect ∧ (getPort t p).rate = 2
          ∧ (getPort t p).squelched = false ∧ ∀ l ∈ portLanes s p, (getLane t l).taps = [0, 0, 0, 63, 0])
      ∧ ((∃ l ∈ portLanes s p, fld (getLane s l).ctl 21 20 ≠ 0) → (getPort t p).lstate = .test) := by
  have hen := portEnabled_enabledPort hlinks hheld hfree halive
  have hdown' : (getPort (enabledPort p s) p).lstate = .down := (getPort_enabledPort p s).1.trans hdown
  have hset : bitAt (getLane (enabledPort p s) p).ctl 31 = true := by rw [getLane_enabledPort, bitAt_ctl_setEnable]; rfl
  have htest (l : Nat) : fld (getLane (enabledPort p s) l).ctl 21 20 = fld (getLane s l).ctl 21 20 := by
    rw [getLane_enabledPort, fld_ctl_setEnable p 1 s l (by decide)]
  have hstart := startPort_enabled hen ((portExists_enabledPort p s).trans hexists) hdown'
  simp only [htest, portLanes_enabledPort] at hstart
  rw [doPortEnable_starts hexists hdown, hstart]
  dsimp only
  split
  next hany =>
    obtain ⟨l, hl, hne⟩ : ∃ l ∈ portLanes s p, fld (getLane s l).ctl 21 20 ≠ 0 := by simpa using hany
    rw [getLane_onPort, getPort_onPort_same]
    exact ⟨hset, fun hnone => absurd (hnone l hl) hne, fun _ => rfl⟩
  next hnone =>
    have hnone' : ∀ l ∈ portLanes s p, fld (getLane s l).ctl 21 20 = 0 := by simpa using hnone
    rw [getLane_toDetect_ctl, getPort_toDetect, hen]
    refine ⟨hset, fun _ => ⟨rfl, rfl, rfl, fun l hl => ?_⟩, fun ⟨l, hl, hne⟩ => absurd (hnone' l hl) hne⟩
    exact getLane_toDetect_taps hdown' ((portLanes_enabledPort p s).symm ▸ hl)

end

/-! ### A port that is disabled (R378) -/

section
variable {s : State} {p : Nat}

theorem getLane_openSlot (p l : Nat) (s : State) : getLane (openSlot p s) l = getLane s l := by
  unfold openSlot issueCredits
  rw [getLane_onPort]
  exact forAll_same (g := fun u => getLane u l) (by intro _ _; rfl) _ _

theorem getLane_ctl_ite {c : Prop} [Decidable c] {t u : State} {l : Nat} {w : Word} (ht : (getLane t l).ctl = w)
    (hu : (getLane u l).ctl = w) : (getLane (if c then t else u) l).ctl = w := by
  split
  · exact ht
  · exact hu

theorem getLane_noteForced_ctl (k l : Nat) (s : State) : (getLane (noteForced k s) l).ctl = (getLane s l).ctl := by
  unfold noteForced
  dsimp only
  split
  · rfl
  · refine getLane_ctl_ite rfl ?_
    rw [getLane, postDev_net]
    refine (getLane_onLane_ctl ?_ k l _).trans rfl
    exact fun _ => rfl

theorem passGap_ctl (target n : Nat) (y : Lane) : (passGap target n y).ctl = y.ctl := by
  unfold passGap
  split <;> rfl

theorem getLane_laneSend_ctl (p slot : Nat) (f : List Byte) (l : Nat) (s : State) : (getLane (laneSend p slot f s) l).ctl = (getLane s l).ctl := by
  unfold laneSend
  refine getLane_onLane_ctl (fun y => ?_) _ l s
  dsimp only
  split
  · exact (passGap_ctl 2 1 _).trans (passGap_ctl 3 1 y)
  · exact passGap_ctl 3 1 y

/-- A flit that leaves leaves LN_CTL of every lane. -/
theorem getLane_emitFlit_ctl (p ftype sop : Nat) (badp : Bool) (fsn : Nat) (payload : List Byte) (l : Nat) (s : State) :
    (getLane (emitFlit p ftype sop badp fsn payload s) l).ctl = (getLane s l).ctl := by
  unfold emitFlit
  dsimp only
  rw [onLink, getLane_onPort, getLane_noteForced_ctl, getLane_laneSend_ctl]
  refine (getLane_onLane_ctl ?_ _ l _).trans (congrArg Lane.ctl (getLane_openSlot p l s))
  exact fun _ => rfl

theorem getLane_sendLinkMsg_ctl (p : Nat) (m : List Byte) (l : Nat) (s : State) :
    (getLane (sendLinkMsg p m s) l).ctl = (getLane s l).ctl := by
  unfold sendLinkMsg
  dsimp only
  split
  · rfl
  · exact getLane_emitFlit_ctl _ _ _ _ _ _ _ _

theorem linkOnly_sendLinkMsg (p : Nat) (m : List Byte) (s : State) : LinkOnly p s (sendLinkMsg p m s) := by
  unfold sendLinkMsg
  dsimp only
  split
  · exact linkOnly_onLink _ _ _
  · exact linkOnly_emitFlit _ _ _ _ _ _ _

/-- The far end of a link that carries flits is told of the disable. -/
def toldDisabled (p : Nat) (s : State) : State :=
  if linkRuns s p then sendLinkMsg p (linkMsg 3 (bytesLE 8 3) []) (setEnable p 0 s) else setEnable p 0 s

theorem toldDisabled_frame (p : Nat) (s : State) : LinkOnly p s (toldDisabled p s) ∧ bitAt (getLane (toldDisabled p s) p).ctl 31 = false := by
  unfold toldDisabled
  split
  · refine ⟨(linkOnly_of_port rfl rfl).trans (linkOnly_sendLinkMsg p _ (setEnable p 0 s)), ?_⟩
    rw [getLane_sendLinkMsg_ctl, bitAt_ctl_setEnable]
    rfl
  · exact ⟨linkOnly_of_port rfl rfl, bitAt_ctl_setEnable p 0 s⟩

theorem doPortDisable_enabled (hexists : portExists s p = true) (hen : bitAt (getLane s p).ctl 31 = true) : doPortDisable p s =
    if (getPort s p).lstate = .down then setEnable p 0 s
    else onPort p (fun x => { x with disableAt := some ((toldDisabled p s).tide.now + 1000) }) (toldDisabled p s) := by
  have htold : toldDisabled p s = if linkRuns (setEnable p 0 s) p then sendLinkMsg p (linkMsg 3 (bytesLE 8 3) []) (setEnable p 0 s)
      else setEnable p 0 s := by rw [linkRuns_setEnable, toldDisabled]
  rw [htold]
  exact if_neg (by simp [hexists, hen])

/-- PORT_DISABLE clears ENABLE, tells the far end, and leaves 1 µs before the port is DOWN. -/
theorem doPortDisable_leaves (hexists : portExists s p = true) (hen : bitAt (getLane s p).ctl 31 = true) :
    let t := doPortDisable p s
    bitAt (getLane t p).ctl 31 = false ∧ (getPort t p).lstate = (getPort s p).lstate
      ∧ ((getPort s p).lstate ≠ .down → (getPort t p).disableAt = some (s.tide.now + 1000))
      ∧ (linkRuns s p = true → if nextResend (getPort s p).link = none
          then (getPort t p).link.sent.length = (getPort s p).link.sent.length + 1
          else (getPort t p).link.msgs = (getPort s p).link.msgs ++ [linkMsg 3 (bytesLE 8 3) []]) := by
  rw [doPortDisable_enabled hexists hen]
  dsimp only
  split
  next hdown => exact ⟨bitAt_ctl_setEnable p 0 s, rfl, fun hup => absurd hdown hup, fun hruns => by simp [linkRuns, hdown] at hruns⟩
  next =>
    obtain ⟨⟨htide, l, hport⟩, hclear⟩ := toldDisabled_frame p s
    rw [getLane_onPort, getPort_onPort_same, htide]
    refine ⟨hclear, by rw [hport], fun _ => rfl, fun hruns => ?_⟩
    show if _ then (getPort (toldDisabled p s) p).link.sent.length = _ else (getPort (toldDisabled p s) p).link.msgs = _
    rw [toldDisabled, if_pos hruns]
    split
    next hnone =>
      obtain ⟨f, hsent⟩ := sentAndState_sendLinkMsg (s := setEnable p 0 s) (p := p) hnone (linkMsg 3 (bytesLE 8 3) [])
      rw [(Prod.mk.inj hsent).1, List.length_append]
      rfl
    next hsome =>
      rw [getPort_sendLinkMsg_waits (s := setEnable p 0 s) (p := p) hsome]
      rfl

end

/-! ### LN_CTL (R377, R378) -/

/-- A write to LN_CTL of another lane than the lowest, or with ENABLE as it stands, takes its fields or sets CFG_REJ. -/
theorem doLnCtl_fields {s : State} {l : Nat} (hl : l < 768) {v : Word} (h : l ≠ portOfLane s l ∨ bitAt v 31 = bitAt (getLane s l).ctl 31) :
    let old := (getLane s l).ctl
    let new := laneFields (l == portOfLane s l) old v
    let change := decide (new ≠ old.toNat &&& (0x7FF <<< 20))
    let idle := (lanesJudged s l new).all (fun k => laneState s k == .down && !bitAt (getLane s (portOfLane s k)).ctl 31)
    doLnCtl l v s =
      if (change && !(idle && laneFieldsOk s l new)) = true then onLane l (fun y => { y with cfgRej := true, cfgRejAt := some s.tide.now }) s
      else onLane l (fun y => { y with
        ctl := BitVec.ofNat 32 (new ||| (old.toNat &&& 0x80000000)), rxInvDet := if new.testBit 24 then y.rxInvDet else new.testBit 23 }) s := by
  extract_lets old new change idle
  unfold doLnCtl
  rw [if_neg (Nat.not_le.2 hl)]
  dsimp only
  by_cases hp : l = portOfLane s l
  · have hsame : bitAt v 31 = bitAt old 31 := h.resolve_left (not_not.2 hp)
    rw [if_neg (not_not.2 hp), if_neg (by rw [hsame]; tauto), if_neg (by rw [hsame]; tauto)]
  · rw [if_pos hp]

/-! ### Error injection (R399, R400) -/

theorem patternError_inj (now : Nat) (y : Lane) : (patternError now y).inj = y.inj := by
  unfold patternError
  split_ifs <;> rfl

/-- A lane as an injection whose interval is over leaves it. -/
theorem doErrorInjection_leaves {s : State} {l : Nat} (hlive : injLive s l = true) (hover : (getLane s l).injLeft = 0) :
    let t := doErrorInjection l s
    (getLane t l).injDone = (getLane s l).injDone + 1 ∧ (getLane t l).injLeft = 2 ^ fld (getLane s l).inj 4 0
      ∧ (∀ k, k ≠ l → getLane t k = getLane s k)
      ∧ (fld (getLane s l).inj 23 8 = (getLane s l).injDone + 1 → fld (getLane t l).inj 31 30 = 0) := by
  unfold doErrorInjection
  dsimp only
  rw [if_neg (by simp [hlive, hover]), getLane_onLane_same]
  simp only [patternError_inj]
  refine ⟨trivial, trivial, fun k hk => getLane_onLane_ne _ _ _ _ (Ne.symm hk), fun hlast => ?_⟩
  rw [if_pos ⟨by omega, le_of_eq hlast⟩]
  exact fld_setFld_same _ _ (by decide) (by decide)

/-! ### What the commands do where their guards hold -/

section
variable {s : State} {l : Nat}

theorem doLnGrpCfg_group {g : Nat} (hg : g < 48) (v : Word) (s : State) :
    let old := mgetD s.net.groups g {}
    let lanes := (List.range 16).map (fun k => 16 * g + k)
    let moved := onNet (fun n => { n with groups := mput n.groups g { old with mode := fld v 1 0 } }) s
    let refused := decide (fld v 1 0 = 3) || (decide (fld v 1 0 ≠ old.mode) && (!groupIdle s g || !ethFits lanes moved))
    doLnGrpCfg g v s = onNet (fun n => { n with groups := mput n.groups g {
      mode := if refused = true then old.mode else fld v 1 0, modeRej := w1c old.modeRej (bitAt v 2) old.modeRejAt s.tide.now || refused,
      modeRejAt := if refused = true then some s.tide.now else old.modeRejAt } }) s :=
  if_neg (Nat.not_le.2 hg)

theorem doLnTaps_test (hl : l < 768) (htest : fld (getLane s l).ctl 21 20 ≠ 0) (v : Word) : doLnTaps l v s =
    if tapsOk (tapsOfWord v) = true then onLane l (fun y => { y with testTaps := tapsOfWord v }) s
    else onLane l (fun y => { y with cfgRej := true, cfgRejAt := some s.tide.now }) s :=
  if_neg (by simp [hl, htest])

end

/-- Settles O41: each command by the guard it passes; a port enabled and disabled by what the start, and the notice to the far
end, leave of it. -/
theorem portAndLaneSettings : Obligations.PortAndLaneSettings := by
  unfold Obligations.PortAndLaneSettings
  refine ⟨⟨fun s g v hlive hboot hg => ?_, fun s p hlinks hexists hdown hheld hfree halive => ?_, fun s p hlive hboot hexists hen => ?_,
    fun s l v hlive hboot hl => ?_, fun s l v hlive hboot hl htest => ?_⟩, fun bits levels b hb hlevels => ?_,
    fun s l hlive hboot hl => ⟨fun hoff => ?_, fun v => ?_, fun hidle hruns => ?_⟩,
    fun s l hlive => ⟨fun hon htest => ?_, fun hinj hover => ?_, fun err cnt aborted hon hends => ?_⟩⟩
  · exact congrArg Host.Outcome.next ((byHost_live hlive hboot _).trans (doLnGrpCfg_group hg v s))
  · have hboot : s.dev.state ≠ .boot := by rintro h; simp [linksOn, h] at hlinks
    have hhost := byHost_live (regsLive_of_linksOn hlinks) hboot (doPortEnable p)
    exact ⟨_, congrArg Host.Outcome.next hhost, doPortEnable_from_down hlinks hexists hdown hheld hfree halive⟩
  · exact ⟨_, congrArg Host.Outcome.next (byHost_live hlive hboot _), doPortDisable_leaves hexists hen⟩
  · exact fun h => congrArg Host.Outcome.next ((byHost_live hlive hboot _).trans (doLnCtl_fields hl h))
  · exact congrArg Host.Outcome.next ((byHost_live hlive hboot _).trans (doLnTaps_test hl htest v))
  · exact ⟨fun heven => ⟨grayUnmap_grayMap bits heven, grayMap_lt bits⟩, unprecode_precode b levels hb hlevels, precode_lt b levels⟩
  · exact congrArg Host.Outcome.next ((byHost_live hlive hboot _).trans (if_neg (by simp [hl, hoff])))
  · exact congrArg Host.Outcome.next ((byHost_live hlive hboot _).trans (if_neg (Nat.not_le.2 hl)))
  · exact congrArg Host.Outcome.next ((byHost_live hlive hboot _).trans (if_neg (by simp [hl, hidle, hruns])))
  · exact congrArg Host.Outcome.next ((if_pos hlive).trans (if_pos ⟨hon, htest⟩))
  · exact ⟨_, congrArg Host.Outcome.next (if_pos hlive), doErrorInjection_leaves hinj hover⟩
  · have hends' : (if aborted then !eyeRuns s l else decide (2 ^ fld (getLane s l).eyeCtl 13 8 ≤ (getLane s l).eyeCnt)) = true := by
      cases aborted <;> simpa using hends
    exact congrArg Host.Outcome.next ((if_pos hlive).trans (if_neg (not_not.2 ⟨hon, hends'⟩)))

end Sys2Proof.Machine
end
